-- ==== Sys2Proof/Word.lean ====
section
/-! DEFINITION. The words of the block and their plainest arithmetic (00_scope.md R5: little-endian everywhere). -/

namespace Sys2Proof

/-- A byte of a memory, register, descriptor, cell or frame. -/
abbrev Byte := BitVec 8

/-- A 32-bit word: an element of a vector register, an address or count register. -/
abbrev W32 := BitVec 32

/-- A 64-bit word. -/
abbrev W64 := BitVec 64

/-- `v` limited to `hi`: the saturating counters of the manual. -/
def satNat (hi v : Nat) : Nat := if v ≤ hi then v else hi

/-- The `n` low bytes of `v`, least significant first (R5). -/
def leBytes : Nat → Nat → List Byte
  | 0, _ => []
  | n + 1, v => BitVec.ofNat 8 v :: leBytes n (v / 256)

/-- The number that a list of bytes holds, least significant first (R5). -/
def leNat : List Byte → Nat
  | [] => 0
  | b :: bs => b.toNat + 256 * leNat bs

/-- `n` bytes of `l` from offset `o`, zeros where the list has ended. -/
def sliceB (l : List Byte) (o n : Nat) : List Byte :=
  let t := (l.drop o).take n
  t ++ List.replicate (n - t.length) 0

/-- The little-endian field of `n` bytes at offset `o`. -/
def fieldN (l : List Byte) (o n : Nat) : Nat := leNat (sliceB l o n)

/-- Bits `hi` down to `lo` of a number. -/
def bitsN (v hi lo : Nat) : Nat := (v / 2 ^ lo) % 2 ^ (hi + 1 - lo)

/-- Bit `i` of a number. -/
def bitN (v i : Nat) : Bool := (v / 2 ^ i) % 2 == 1

/-- A Bool as 0 or 1. -/
def b01 (b : Bool) : Nat := if b then 1 else 0

/-- `ceil (a / b)`. -/
def ceilDiv (a b : Nat) : Nat := (a + b - 1) / b

end Sys2Proof
end

