-- ==== Sys2Proof/Syntax.lean ====
section
/-! DEFINITION. The commands of the block: one constructor per row of opcode_table.json. The rows of the ZVIS
instruction set (NOP to KDPUT) carry the operands of Tables 8.5, 8.6, 8.8 and 8.11 (08_instruction_reference.md);
the rows that are events carry what the event brings. -/

namespace Sys2Proof

/-- A physical core number, row × 24 + column (01 R8). -/
abbrev CoreId := Fin 288

/-- An optical port: 0 X+, 1 X−, 2 Y+, 3 Y−, 4 Z+, 5 Z−, 6 S0, 7 S1 (01 R13). -/
abbrev PortId := Fin 8

/-- A PCI Express function: 0 is PF0, p is VFp (18 R397). -/
abbrev FuncId := Fin 9

/-- A group slot (24 Table 24.12). -/
abbrev Slot := Fin 16

/-- A package's place: X [5:0], Y [11:6], Z [17:12], POD [19:18] (08 Table 8.4, 24 Table 24.7). -/
abbrev Place := BitVec 20

/-- Form SR of Table 8.3: a scratchpad row. -/
structure Sr where
  mode : BitVec 2
  reg : BitVec 4
  value : BitVec 13
  deriving DecidableEq, Repr

/-- Form SA of Table 8.3: a scratchpad row without a region. -/
structure Sa where
  mode : Bool
  reg : BitVec 4
  value : BitVec 13
  deriving DecidableEq, Repr

/-- Form WB of Table 8.3: a weight-store block. -/
structure Wb where
  mode : Bool
  reg : BitVec 4
  value : BitVec 12
  deriving DecidableEq, Repr

/-- The operands of VCVT (Table 8.8). -/
structure VcvtOp where
  sk : Bool
  s : BitVec 5
  sfmt : BitVec 4
  slay : Bool
  ssc : BitVec 2
  dk : Bool
  d : BitVec 5
  dfmt : BitVec 4
  dlay : Bool
  dsc : BitVec 2
  rm : BitVec 3
  sat : Bool
  imm : BitVec 8
  deriving DecidableEq, Repr

/-- The operands of VPROG (Table 8.8). -/
structure VprogOp where
  p : BitVec 4
  vd : BitVec 5
  k0 : BitVec 2
  k1 : BitVec 2
  k2 : BitVec 2
  s0 : BitVec 5
  s1 : BitVec 5
  s2 : BitVec 5
  elem : BitVec 6
  r : BitVec 3
  deriving DecidableEq, Repr

/-- The three engines of a core, each with its queue (07 R153). -/
inductive Engine where
  | lane | vector | move
  deriving DecidableEq, Repr

/-- How a core takes a cell: by the operation of its CLASS (11 Table 11.9), or as a SIGNAL, a cell of a KV-write context (08 R195), or a
message to the package itself. -/
inductive CellKind where
  | data | acc | fast | xor | signal | kvwr | service
  deriving DecidableEq, Repr

/-- What the header of Table 11.8 has no bits for and a receiver must know all the same (log entry 97): a SIGNAL, a cell of a remote KVWR, a
CTL or MGT message to the package. -/
inductive CellMark where
  | none | signal | kvwr | service
  deriving DecidableEq, Repr

/-- A cell: the header of 11 Table 11.8 and the 32 payload bytes. `vc` is the cell's own channel; on a link its header's VC names the
channel that it travels on there, which on the escape is another (12 R294; log entry 97). -/
structure Cell where
  dest : Place
  core : BitVec 9
  vc : BitVec 3
  epoch : Bool
  cls : BitVec 4
  tenant : BitVec 3
  tid : BitVec 12
  index : BitVec 11
  last : Bool
  mark : CellMark
  payload : List Byte
  deriving DecidableEq, Repr

/-- How a core takes the cell: by its mark, or by bits [3:2] of CLASS (11 R269, Table 11.9). -/
def Cell.kind (x : Cell) : CellKind :=
  match x.mark with
  | .signal => .signal
  | .kvwr => .kvwr
  | .service => .service
  | .none => match x.cls.toNat / 4 with | 0 => .data | 1 => .acc | 2 => .fast | _ => .xor

/-- A digest point of a core (10 R242). FED bit 0: rounded values, bit 1: integers. -/
structure DigestPoint where
  h : Nat
  count : Nat
  fed : Nat
  deriving DecidableEq, Repr

/-- What a member's cores add to a step's record (07 R168; 10 R243, R248; 09 R230), with the status of an abort that
the member has seen (18 Table 18.7; 0 none). -/
structure MemberReport where
  status : Nat
  flags : BitVec 16
  skips : Nat
  stale : Nat
  dropped : Nat
  vary : Bool
  digests : List (Nat × DigestPoint)
  /-- Exception records, 16 bytes each. -/
  recs : List (List Byte)
  /-- Hazard counts of codes 1 to 10. -/
  hazards : List Nat
  deriving DecidableEq, Repr

/-- A frame as it is sent or received (11 Table 11.5). -/
structure Frame where
  seq : BitVec 16
  ack : BitVec 16
  off : Byte
  /-- 0 data, 1 idle, 2 link control, 3 reserved. -/
  type : BitVec 2
  nak : Bool
  enc : Bool
  key : Bool
  /-- CELLS, and the valid cells in slot order with the channel that each travels on. -/
  count : Nat
  cells : List (BitVec 3 × Cell)
  lanes : BitVec 16
  /-- A reserved bit or byte is nonzero. -/
  reserved : Bool
  /-- Bytes 12 to 491 as they are on the link, encrypted where ENC is 1, and TAG. -/
  body : List Byte
  tag : List Byte
  deriving DecidableEq, Repr

/-- A hello record (11 R278). -/
structure HelloRec where
  place : Place
  /-- Port name, 0 X+ to 7 S1. -/
  port : Nat
  digest : List Byte
  epoch : Bool
  encrypt : Bool
  deriving DecidableEq, Repr

/-- By which way a cell comes to its core: over the mesh from a core of this package, or by a port. -/
inductive Via where
  | mesh
  | port (p : PortId)
  deriving DecidableEq, Repr

/-- The items of 09 Table 9.2 and the conflicts of R211, as a check names them. -/
inductive CheckItem where
  /-- The transfer of an EXPECT due at step tick `due`. -/
  | transfer (core : CoreId) (tid : BitVec 12) (due : Nat)
  /-- The frontier of a control core at package tick `t`. -/
  | frontier (core : CoreId) (t : Nat)
  /-- Outbound space of an instruction of `cells` cells due at step tick `due`. -/
  | outbound (core : CoreId) (cells : Nat) (due : Nat)
  /-- Conflicts between scheduled parties in package tick `t`. -/
  | conflict (t : Nat)
  deriving DecidableEq, Repr

/-- What issued a host-memory read that fails (18 R400): a HOSTRD of a core, a step's own read, the fetch of a ring's
entries or of a doorbell page, the read for a function's first waiting descriptor, for a load or swap, or for a reload. -/
inductive DmaRead where
  | core (c : CoreId)
  | step (g : Slot)
  | ring (f : FuncId) (r : BitVec 6)
  | doorbell (f : FuncId)
  | descriptor (f : FuncId)
  | load (g : Slot)
  | reload (g : Slot) (id : W32)
  deriving DecidableEq, Repr

/-- What leaves a core: a reply, the oldest cell of the outbound buffer, or the oldest HOSTWR row (09 R209, 12 R295). -/
inductive OutKind where
  | reply | cell | host
  deriving DecidableEq, Repr

/-- Who sends a message of 19 Table 19.3 or 22 Table 22.4: a function by its mailbox, or board management by I3C (22 R509). -/
inductive Asker where
  | func (f : FuncId)
  | i3c
  deriving DecidableEq, Repr

/-- Who speaks SPDM to the soundpost: a function over its DOE, or another package over MGT (19 R434). -/
inductive Requester where
  | func (f : FuncId)
  | peer (p : Place)
  deriving DecidableEq, Repr

/-- What the memory and core self-tests find (22 R503, R504): failing data rows and failing spare rows as core, bank, row; cores with a
failing scratchpad word; cores that fail the core self-test. -/
structure SelfTest where
  rows : List (CoreId × BitVec 6 × Fin 3072)
  spares : List (CoreId × BitVec 6 × Fin 64)
  words : List CoreId
  cores : List CoreId
  deriving DecidableEq, Repr

/-- A program image as LOAD_IMAGE finds it in host memory (09 Table 9.6): its bytes, whether its header is well formed, its
sections entry by entry, and the byte offset of each section in the order words, entries, start tables, constants, element
programs, region plan, circular regions, flags, relocations. -/
structure ImageFile where
  raw : List Byte
  headerOk : Bool
  nmin : Nat
  nmax : Nat
  /-- Words in the words section; they lie in `raw` from its offset on (08 R170). -/
  nwords : Nat
  /-- Entry point and its voicings: START, LENGTH, AVG, PEAK (Table 9.5). -/
  entries : List (Nat × List (Nat × Nat × Nat × Nat))
  /-- Some section differs between voicings (R220). -/
  differ : Bool
  /-- Start-table offset, N, logical core, start offset. -/
  starts : List (Nat × Nat × Nat × Nat)
  consts : List W32
  /-- Micro-operations and constants. -/
  progs : List (List W32 × List W32)
  /-- N, logical core, eight descriptors of 04 Table 4.3. -/
  regions : List (Nat × Nat × List W64)
  /-- Logical core, sixteen descriptors of 05 Table 5.2. -/
  circs : List (Nat × List (BitVec 128))
  flags : List Byte
  relocs : List W64
  offsets : List Nat
  deriving DecidableEq, Repr

/-- What a visit of the scrubber meets (04 R84): words of the block in error, data words 0 to 511, words of the record from 512 on, each
with whether the error is double; and the bank rows that another write reaches between the visit's read and its write-back. -/
structure ScrubFinds where
  flips : List (Fin 545 × Bool)
  raced : List (BitVec 6)
  deriving DecidableEq, Repr

/-- What a drone test finds (20 R461): the checked samples whose replay differs, by their places in the sample buffer, and the words of the
core's scratchpad that have been upset by then, each with whether the error is double and its cells are faulty (05 R109). -/
structure DroneFinds where
  differ : List (Fin 64)
  upsets : List (Fin 49152 × Bool × Bool)
  deriving DecidableEq, Repr

/-- A record of the token journal as the lead reads it for recovery prefill (20 R472): group slot, request entry, REQ_ID, the
tokens of its list. -/
structure JournalRec where
  slot : Slot
  entry : BitVec 20
  id : W32
  tokens : List W32
  deriving DecidableEq, Repr

/-- What the restoration of a block brings (04 R87): the formed block that the parity rebuild or the host's rewrite gives, and the token
journal of requests that are to be replayed. -/
structure RestoreData where
  bytes : List Byte
  journal : List JournalRec
  deriving DecidableEq, Repr

/-- The fields of a group that FORM sends to its members (24 R540, Table 24.12). -/
structure GroupFields where
  id : W32
  solver : Bool
  owner : BitVec 4
  stepLast : W64
  salt : W64
  entries : BitVec 21
  btTid : BitVec 12
  btRegion : BitVec 4
  propRegion : BitVec 4
  tpoint : BitVec 6
  inputWin : BitVec 6
  recoveryWin : BitVec 6
  winT0 : W64
  winL : W64
  loadSrc : BitVec 28
  deriving DecidableEq, Repr

/-- A step that runs on a member: its number, entry point, voicing, job seed, parameter words, whether it is a replay step. -/
structure RunningStep where
  num : W64
  entry : BitVec 6
  voicing : BitVec 2
  seed : W64
  params : List W32
  replay : Bool
  deriving DecidableEq, Repr

/-- What a member tells a new lead of the group's steps: the highest number it has received, the step that runs (10 R233). -/
structure MemberRun where
  highest : W64
  running : Option RunningStep
  deriving DecidableEq, Repr

/-- The MGT messages of FORM and DISSOLVE (24 R540, R541). -/
inductive FormMsg where
  /-- From the lead: the group's fields. -/
  | fields (x : GroupFields)
  /-- From the lead: G and the member list, each member's place, W_s and shard counts by logical core. -/
  | list (g : Nat) (members : List (Place × Nat × List (Nat × Nat)))
  /-- From the lead: FORMED is set; FORMED is cleared. -/
  | formed
  | dissolve
  /-- From a member: its place, W_s, shard counts, largest G, budget state, whether it holds GROUP_ID in a formed slot, and what it tells
  a new lead. -/
  | answer (place : Place) (ws : Nat) (shards : List (Nat × Nat)) (g : Nat) (budget : Nat) (held : Bool) (run : MemberRun)
  deriving DecidableEq, Repr

/-- The commands of the block (opcode_table.json), in the table's order; those without operands stand last. -/
inductive Instr where
  /-- NOP (R148): Decoding a NOP word advances the cursor by its tick delta and does nothing else. -/
  | nop (core : CoreId) (delta : BitVec 12)
  /-- HALT (R158): HALT ends decoding for the core. -/
  | halt (core : CoreId) (delta : BitVec 12)
  /-- LOOP (R157): LOOP reads its count and either pushes the loop stack or skips the body when the count is zero. -/
  | loop (core : CoreId) (delta : BitVec 12) (src : Bool) (count : BitVec 12)
  /-- ENDLOOP (R157): ENDLOOP lowers the top count and either returns decoding to the body or pops the stack. -/
  | endloop (core : CoreId) (delta : BitVec 12)
  /-- WAITF (R159): WAITF is decoded and stops decoding until its flag reaches n, or is skipped when n is 0. -/
  | waitf (core : CoreId) (delta : BitVec 12) (flag : BitVec 6) (n : BitVec 8)
  /-- WAITF_SATISFIED (R163): A waiting WAITF finds its flag at n or more at the end of a cycle, consumes n and lets decoding resume. -/
  | waitfSatisfied (core : CoreId)
  /-- SETF (R159): SETF sets a flag to a value on its scheduled tick. -/
  | setf (core : CoreId) (delta : BitVec 12) (flag : BitVec 6) (value : BitVec 8)
  /-- INCF (R159): INCF adds 1 to a flag, saturating at 255 and setting FLAG_SAT. -/
  | incf (core : CoreId) (delta : BitVec 12) (flag : BitVec 6)
  /-- DECF (R159): DECF subtracts 1 from a flag, or is skipped with FLAG_UNDERFLOW when the flag is 0. -/
  | decf (core : CoreId) (delta : BitVec 12) (flag : BitVec 6)
  /-- SIGNAL (R161): SIGNAL raises a flag of a core on this package at a fixed latency, or sends a CTL cell carrying the step number to another package. -/
  | signal (core : CoreId) (delta : BitVec 12) (flag : BitVec 6) (dreg : BitVec 4)
  /-- SIGNAL_ARRIVAL (R162): A SIGNAL cell from another package arrives and, by its step number, increments the flag, adds to the pending count, waits, or is dropped as stale. -/
  | signalArrival (port : PortId) (core : BitVec 9) (flag : BitVec 6) (step : W64) (tenant : BitVec 3)
  /-- EXPECT (R180): EXPECT closes an open transfer id on its due tick, which makes the transfer's data usable. -/
  | expect (core : CoreId) (delta : BitVec 12) (tid : BitVec 12)
  /-- MARK (R169): MARK writes its mark number and tick into the last-mark register, and into the trace in debug mode. -/
  | mark (core : CoreId) (delta : BitVec 12) (mark : BitVec 16)
  /-- MOVA (R146): MOVA writes a register or an immediate into an address or count register. -/
  | mova (core : CoreId) (delta : BitVec 12) (d : BitVec 5) (sk : Bool) (src : W32)
  /-- ADDA (R146): ADDA writes the sum of its operands mod 2^32. -/
  | adda (core : CoreId) (delta : BitVec 12) (d : BitVec 5) (a : BitVec 5) (bk : Bool) (b : BitVec 20)
  /-- SUBA (R146): SUBA writes the difference of its operands mod 2^32. -/
  | suba (core : CoreId) (delta : BitVec 12) (d : BitVec 5) (a : BitVec 5) (bk : Bool) (b : BitVec 20)
  /-- SHLA (R146): SHLA writes its first operand shifted left. -/
  | shla (core : CoreId) (delta : BitVec 12) (d : BitVec 5) (a : BitVec 5) (bk : Bool) (b : BitVec 20)
  /-- ANDA (R146): ANDA writes the bitwise AND of its operands. -/
  | anda (core : CoreId) (delta : BitVec 12) (d : BitVec 5) (a : BitVec 5) (bk : Bool) (b : BitVec 20)
  /-- MODA (R146): MODA writes the unsigned remainder, or is skipped with DIV_ZERO when the divisor is 0. -/
  | moda (core : CoreId) (delta : BitVec 12) (d : BitVec 5) (a : BitVec 5) (bk : Bool) (b : BitVec 20)
  /-- LDA (R147): LDA loads a word of the step parameter block or of the constant pool into a register. -/
  | lda (core : CoreId) (delta : BitVec 12) (d : BitVec 5) (src : Bool) (a : BitVec 5) (imm : BitVec 12)
  /-- STRING (R49): STRING restrings the shadow tuning-register set from a weight-store block by a normal read, landing four ticks after issue. -/
  | string (core : CoreId) (delta : BitVec 12) (block : Wb) (fmt : BitVec 4) (l : BitVec 6)
  /-- STRINGT (R49): STRINGT restrings the shadow set by a transposed read of a square-scaled block. -/
  | stringt (core : CoreId) (delta : BitVec 12) (block : Wb) (fmt : BitVec 4) (l : BitVec 6)
  /-- SWAPT (R50): SWAPT exchanges the active and shadow tuning-register sets. -/
  | swapt (core : CoreId) (delta : BitVec 12)
  /-- BOW (R60): BOW broadcasts a scratchpad row to every string and adds the exact block products into an accumulator at the landing tick. -/
  | bow (core : CoreId) (delta : BitVec 12) (data : Sr) (k : BitVec 4) (nib : Bool) (e : BitVec 6) (afmt : BitVec 2) (ssrc : Bool) (scale : BitVec 8) (rls : BitVec 3)
  /-- BOWG (R62): BOWG gathers the bow operand through an index list over two ticks and accumulates the products. -/
  | bowg (core : CoreId) (delta : BitVec 12) (list : Sa) (base : BitVec 4) (k : BitVec 4) (nib : Bool) (e : BitVec 6) (afmt : BitVec 2) (ssrc : Bool) (scale : BitVec 8)
  /-- BOWG_PREVIEW (R212): Before a BOWG issues, its index-list rows are read at low priority to plan the mute that the gather will cost. -/
  | bowgPreview (core : CoreId)
  /-- ZACC (R27): ZACC sets I to 0 and clears the five flags of an accumulator index, keeping W. -/
  | zacc (core : CoreId) (delta : BitVec 12) (k : BitVec 4)
  /-- WINDOW (R27): WINDOW sets the window base of an accumulator index and clears its value and flags. -/
  | window (core : CoreId) (delta : BitVec 12) (k : BitVec 4) (wsrc : Bool) (w : BitVec 10) (vs : BitVec 5) (elem : BitVec 6)
  /-- DRAIN (R66): DRAIN rounds an accumulator index of every string into a vector register, optionally clearing the index. -/
  | drain (core : CoreId) (delta : BitVec 12) (k : BitVec 4) (vd : BitVec 5) (fmt : BitVec 4) (rm : BitVec 3) (clr : Bool)
  /-- VLD (R119): VLD loads 1 to 4 scratchpad rows into a vector register. -/
  | vld (core : CoreId) (delta : BitVec 12) (row : Sr) (vd : BitVec 5) (n : BitVec 2) (rls : BitVec 3)
  /-- VST (R119): VST stores a vector register into 1 to 4 scratchpad rows. -/
  | vst (core : CoreId) (delta : BitVec 12) (row : Sr) (vs : BitVec 5) (n : BitVec 2) (cmt : BitVec 3)
  /-- VFILL (R119): VFILL writes a 32-bit immediate into every element of a register. -/
  | vfill (core : CoreId) (delta : BitVec 12) (vd : BitVec 5) (imm : W32)
  /-- VPROG (R121): VPROG runs an element program over up to eight vectors. -/
  | vprog (core : CoreId) (delta : BitVec 12) (op : VprogOp)
  /-- VCVT (R126): VCVT converts between registers and accumulators in the combination that its fields select. -/
  | vcvt (core : CoreId) (delta : BitVec 12) (op : VcvtOp)
  /-- VPERM (R130): VPERM permutes the elements of a register through an index register. -/
  | vperm (core : CoreId) (delta : BitVec 12) (vd : BitVec 5) (vs : BitVec 5) (vi : BitVec 5) (vl : BitVec 7) (fsel : Bool) (freg : BitVec 5)
  /-- VRED_INIT (R132): VRED INIT sets a reduction state to a kind. -/
  | vredInit (core : CoreId) (delta : BitVec 12) (q : BitVec 3) (v : BitVec 5) (kind : BitVec 3) (wsrc : Bool) (w : BitVec 10) (elem : BitVec 6)
  /-- VRED_ACC (R132): VRED ACC accumulates register elements into a reduction state. -/
  | vredAcc (core : CoreId) (delta : BitVec 12) (q : BitVec 3) (v : BitVec 5) (e : BitVec 6) (fmt : BitVec 4) (lay : Bool) (ssc : BitVec 2) (imm : BitVec 8) (base : BitVec 4)
  /-- VRED_MERGE (R137): VRED MERGE combines a reduction record into a state of the same kind. -/
  | vredMerge (core : CoreId) (delta : BitVec 12) (q : BitVec 3) (v : BitVec 5)
  /-- VRED_PHASE (R139): VRED PHASE fixes the maximum of an LSE state and enters its sum phase. -/
  | vredPhase (core : CoreId) (delta : BitVec 12) (q : BitVec 3)
  /-- VRED_OUT (R137): VRED OUT writes the record of a reduction state into a register. -/
  | vredOut (core : CoreId) (delta : BitVec 12) (q : BitVec 3) (v : BitVec 5) (rm : BitVec 3)
  /-- VRED_SMOUT (R139): VRED SMOUT writes the softmax probabilities of a row from an LSE state. -/
  | vredSmout (core : CoreId) (delta : BitVec 12) (q : BitVec 3) (v : BitVec 5) (vs : BitVec 5) (e : BitVec 6)
  /-- VSCAN (R135): VSCAN takes the maximum exponent of register elements into a SCAN state. -/
  | vscan (core : CoreId) (delta : BitVec 12) (q : BitVec 3) (vs : BitVec 5) (e : BitVec 6) (fmt : BitVec 4) (lay : Bool) (ssc : BitVec 2) (imm : BitVec 8)
  /-- VTOPK_INIT (R136): VTOPK INIT empties the top-k buffer and sets k. -/
  | vtopkInit (core : CoreId) (delta : BitVec 12) (k : BitVec 6)
  /-- VTOPK_ACC (R136): VTOPK ACC takes elements into the top-k buffer over two ticks. -/
  | vtopkAcc (core : CoreId) (delta : BitVec 12) (v : BitVec 5) (e : BitVec 6) (base : BitVec 4)
  /-- VTOPK_MERGE (R137): VTOPK MERGE merges a top-k record into the buffer. -/
  | vtopkMerge (core : CoreId) (delta : BitVec 12) (v : BitVec 5)
  /-- VTOPK_OUT (R136): VTOPK OUT writes the kept values and indices into two registers. -/
  | vtopkOut (core : CoreId) (delta : BitVec 12) (v : BitVec 5)
  /-- SPFILL (R191): SPFILL writes a 32-bit pattern from the named source into a run of scratchpad rows. -/
  | spfill (core : CoreId) (delta : BitVec 12) (row : Sr) (cnt : BitVec 3) (q : BitVec 5) (psrc : BitVec 3) (preg : BitVec 5) (cmt : BitVec 3)
  /-- SPCOPY (R99): SPCOPY copies a run of scratchpad rows as if all were read before any is written. -/
  | spcopy (core : CoreId) (delta : BitVec 12) (src : Sa) (dst : Sa) (cnt : BitVec 3) (q : BitVec 5)
  /-- WSRD (R192): WSRD reads a weight-store block or row into the scratchpad. -/
  | wsrd (core : CoreId) (delta : BitVec 12) (block : Wb) (part : Bool) (row : BitVec 6) (sp : Sr)
  /-- WSWR (R193): WSWR writes scratchpad rows into a weight-store block or row and recomputes its CRC. -/
  | wswr (core : CoreId) (delta : BitVec 12) (block : Wb) (part : Bool) (row : BitVec 6) (sp : Sr)
  /-- KVRD (R195): KVRD reads page slots into the scratchpad, or writes zeros when the generation does not match. -/
  | kvrd (core : CoreId) (delta : BitVec 12) (hreg : BitVec 4) (greg : BitVec 3) (sp : Sr)
  /-- KVWR (R195): KVWR with REMOTE 0 writes scratchpad rows into a page of its core when the generation matches. -/
  | kvwr (core : CoreId) (delta : BitVec 12) (hreg : BitVec 4) (greg : BitVec 3) (sp : Sr)
  /-- KVWR_REMOTE (R195): KVWR with REMOTE 1 sends a head cell and the rows as one transfer to the core that holds the page and awaits the reply. -/
  | kvwrRemote (core : CoreId) (delta : BitVec 12) (hreg : BitVec 4) (greg : BitVec 3) (sp : Sr) (dreg : BitVec 4) (tid : BitVec 12)
  /-- SEND (R196): SEND sends scratchpad rows as one transfer of 32-byte cells to a destination core. -/
  | send (core : CoreId) (delta : BitVec 12) (sp : Sr) (cnt : BitVec 3) (dreg : BitVec 4) (vc : BitVec 2) (cls : BitVec 4) (tid : BitVec 12)
  /-- SENDACC (R197): SENDACC sends an accumulator index of every string as one contribution in the named encoding. -/
  | sendacc (core : CoreId) (delta : BitVec 12) (k : BitVec 4) (dreg : BitVec 4) (enc : BitVec 2) (cls : BitVec 4) (tid : BitVec 12)
  /-- SENDXOR (R196): SENDXOR sends rows marked for XOR accumulation at the receiver. -/
  | sendxor (core : CoreId) (delta : BitVec 12) (sp : Sr) (cnt : BitVec 3) (dreg : BitVec 4) (vc : BitVec 2) (cls : BitVec 4) (tid : BitVec 12)
  /-- RECV_DATA (R198): RECV of form 0 opens a transfer id whose arriving data is written into rows. -/
  | recvData (core : CoreId) (delta : BitVec 12) (tid : BitVec 12) (sp : Sr)
  /-- RECV_ACCUMULATOR (R198): RECV of form 1 opens a transfer id whose exact partial sums are added into an accumulator index. -/
  | recvAccumulator (core : CoreId) (delta : BitVec 12) (tid : BitVec 12) (k : BitVec 4)
  /-- RECV_FAST_ADD (R198): RECV of form 2 opens a transfer id whose FP32 values are added into rows in arrival order. -/
  | recvFastAdd (core : CoreId) (delta : BitVec 12) (tid : BitVec 12) (sp : Sr)
  /-- RECV_XOR (R198): RECV of form 3 opens a transfer id whose bytes are XORed into rows. -/
  | recvXor (core : CoreId) (delta : BitVec 12) (tid : BitVec 12) (sp : Sr)
  /-- RECV_ON_DIE_READ (R96): RECV of form 4 reads a row of another core's scratchpad, which lands at a fixed latency. -/
  | recvOnDieRead (core : CoreId) (delta : BitVec 12) (score : BitVec 9) (srow : BitVec 13) (sp : Sr)
  /-- HOSTRD (R199): HOSTRD reads rows from a host window into the scratchpad. -/
  | hostrd (core : CoreId) (delta : BitVec 12) (buf : BitVec 6) (oreg : BitVec 4) (sp : Sr) (cnt : BitVec 3) (tid : BitVec 12)
  /-- HOSTWR (R199): HOSTWR writes scratchpad rows into a host window. -/
  | hostwr (core : CoreId) (delta : BitVec 12) (buf : BitVec 6) (oreg : BitVec 4) (sp : Sr) (cnt : BitVec 3) (tid : BitVec 12)
  /-- KDLOOK (R200): KDLOOK sends keys to its course's lookup engine and awaits one result per key. -/
  | kdlook (core : CoreId) (delta : BitVec 12) (sp : Sr) (cnt : BitVec 3) (rreg : BitVec 4) (tid : BitVec 12)
  /-- KDPUT (R200): KDPUT sends directory entries to the update sequencer with its operation. -/
  | kdput (core : CoreId) (delta : BitVec 12) (sp : Sr) (cnt : BitVec 3) (op : Bool) (tid : BitVec 12)
  /-- DECODE_RESUME (R154): A control core held on a full queue resumes decoding in the cycle after an entry leaves that queue. -/
  | decodeResume (core : CoreId)
  /-- SEQ_MISCOMPARE (R144): The two copies of a control core disagree, nothing of the cycle is committed and the step stops. -/
  | seqMiscompare (core : CoreId)
  /-- FLAG_WAIT_TIMEOUT (R164): A WAITF that has waited 2^k cycles is ended, the step completes with FLAG_WAIT_TIMEOUT, and the partition's program state is reset. -/
  | flagWaitTimeout (core : CoreId)
  /-- STEP_TOO_LONG (R152): The cursor would pass 2^40 − 1, and the step is aborted and program state reset. -/
  | stepTooLong (core : CoreId) (delta : BitVec 12)
  /-- CORE_FINISHED (R158): A core that has decoded HALT finishes its part once every queued entry has issued and its results have landed. -/
  | coreFinished (core : CoreId)
  /-- LATE_ITEM_CHECK (R208): At a check tick the package finds whether a transfer, frontier or outbound space is late, and plans conflict holds. -/
  | lateItemCheck (item : CheckItem)
  /-- CELL_ARRIVAL (R296): A cell reaches its destination core and is written, added or XORed under its transfer, or logged as an arrival and dropped. -/
  | cellArrival (via : Via) (chan : BitVec 3) (cell : Cell)
  /-- TRANSFER_COMPLETE (R296): A transfer's received count meets its total, its commit applies and its check digest is compared. -/
  | transferComplete (core : CoreId) (tid : BitVec 12)
  /-- WAITING_ARRIVAL_WRITE (R106): A cell that waited for room in a circular region is written once a release makes room for its row. -/
  | waitingArrivalWrite (core : CoreId)
  /-- KV_WRITE_CONTEXT_COMPLETE (R195): A remote KV-write context completes by count, its generation is compared once, the rows are written or dropped, and a reply is sent. -/
  | kvWriteContextComplete (core : CoreId) (tid : BitVec 12)
  /-- HOST_READ_COMPLETION (R199): Host memory data for a device read arrives and is written as host DMA. -/
  | hostReadCompletion (core : CoreId) (tid : BitVec 12) (first : BitVec 11) (data : List Byte)
  /-- HOST_DMA_ERROR (R400): A poisoned or failed PCI Express completion delivers nothing and stops the step, the ring or the service. -/
  | hostDmaError (read : DmaRead)
  /-- SCRUB_VISIT (R84): The scrubber reads a block and its record, corrects errors, checks the CRC and writes back corrected rows. -/
  | scrubVisit (core : CoreId) (finds : ScrubFinds)
  /-- SCRUB_FORCED_ACCESS (R85): After 65,536 consecutive yields the scrubber's access is forced at the cost of one held tick. -/
  | scrubForcedAccess (core : CoreId) (finds : ScrubFinds)
  /-- BLOCK_RESTORATION (R87): The restoration of an uncorrectable block completes by its region kind and steps reading it may retry. -/
  | blockRestoration (core : CoreId) (block : Fin 3072) (data : RestoreData)
  /-- SPARE_ROW_SUBSTITUTION (R89): The soundpost copies a failing row to a spare row, switches the steering and records the substitution. -/
  | spareRowSubstitution (core : CoreId) (bank : BitVec 6) (row : Fin 3072)
  /-- ARBITRATION_OUTCOME (R458): The recomputation of a bow on two paths completes and decides by Table 20.2 whether the step continues, retries or retires cores. -/
  | arbitrationOutcome (core : CoreId) (v1 : List Int) (v2 : List Int)
  /-- SAMPLE_REFERENCE_CHECK (R461): The soundpost computes a sample's reference and compares it with the recorded result. -/
  | sampleReferenceCheck (core : CoreId)
  /-- DRONE_VISIT (R461): A drone test runs known-answer vectors and sampled replays on one core in an idle slot. -/
  | droneVisit (core : CoreId) (vectors : Bool) (finds : DroneFinds)
  /-- MESH_CRC (R463): A mesh flit fails its CRC at ejection, is not delivered, and its step stops. -/
  | meshCrc (core : CoreId) (lost : Option (BitVec 16))
  /-- CLOCK_LOCK_LOSS (R464): A course's PLL loses lock and the package holds until relock. -/
  | clockLockLoss (course : Fin 8)
  /-- STOP (R468): A STOP message from the lead ends the step on a member and resets program state. -/
  | stop (slot : Slot) (step : W64) (status : Byte)
  /-- STEP_RETRY (R468): After the fault's recovery completes, the lead retries the stopped step under its own number. -/
  | stepRetry (slot : Slot) (released : Bool)
  /-- DISCARD (R468): A DISCARD notice reaches the destination package, which logs it and stops the step that owns the transfer. -/
  | discard (core : BitVec 9) (tid : BitVec 12)
  /-- HEARTBEAT (R469): A neighbour's heartbeat is received, and a pass-through compute state is reported. -/
  | heartbeat (port : PortId) (compute : BitVec 2)
  /-- SILENT (R469): A port hears no heartbeat for 300 µs and the neighbour reports it SILENT. -/
  | silent (port : PortId)
  /-- SILENT_REPORT (R469): The coordinator receives a SILENT report and declares the package lost on a second report. -/
  | silentReport (silent : Place) (reporter : Place) (journal : List JournalRec)
  /-- PACKAGE_LOST (R469): 100 µs after a first report with no heartbeat seen, the coordinator declares the package lost. -/
  | packageLost (place : Place) (journal : List JournalRec)
  /-- CORE_RETIREMENT_AND_RELOAD (R470): The structural activity retires a core, reloads for N − 1, reloads weights, refetches the directory and recovers KV. -/
  | coreRetirementAndReload (core : CoreId) (journal : List JournalRec)
  /-- FRAME_TRANSMIT (R262): The transmitter assembles and sends the next data or idle frame with fresh ACK, OFF, NAK and LANES. -/
  | frameTransmit (port : PortId)
  /-- FRAME_RECEIVED (R263): A frame is received, checked, accepted or discarded, and its ACK, OFF, NAK and LANES acted on. -/
  | frameReceived (port : PortId) (words : List (List (BitVec 10))) (chans : List (BitVec 3)) (marks : List CellMark)
  /-- REPLAY_TIMEOUT (R265): With frames outstanding and no ACK advance for 2 µs, the transmitter replays from the oldest frame. -/
  | replayTimeout (port : PortId)
  /-- LANE_DROP (R275): A lane loses signal, alignment lock or its error ratio limit and is dropped from LANES. -/
  | laneDrop (port : PortId) (lane : Fin 16)
  /-- LASER_FAULT (R13): LASER_FAULT# asserts and both ports of the die go DOWN. -/
  | laserFault (die : Fin 4)
  /-- LASER_INPUT_GOOD (R522): LASER_EN and LASER_FAULT# have been high together for 1 ms, making the laser input good. -/
  | laserInputGood (die : Fin 4)
  /-- PORT_ENABLE (R535): A write of ENABLE starts or stops a port's bring-up. -/
  | portEnable (port : PortId) (on : Bool)
  /-- SIGNAL_PRESENT (R277): Signal appears on at least 4 lanes and the port leaves LIGHT for TRAIN. -/
  | signalPresent (port : PortId) (lanes : BitVec 16)
  /-- EQUALISATION_CONVERGED (R277): Receiver equalisation converges and the port enters ALIGN. -/
  | equalisationConverged (port : PortId) (lanes : BitVec 16)
  /-- HELLO (R278): A hello record is received and checked, moving the port on or holding it MISWIRED. -/
  | hello (port : PortId) (rec_ : HelloRec)
  /-- PORT_STATE_TIMEOUT (R277): A port fails to complete a state within its bound and returns to LIGHT. -/
  | portStateTimeout (port : PortId)
  /-- RETUNE (R280): At its interval a direction sends the retune pattern and the receiver re-adapts. -/
  | retune (port : PortId) (lanes : BitVec 16)
  /-- EPOCH_STAGE (R300): A package receives the new slot contents, marks the slot STAGED and acknowledges. -/
  | epochStage (common : List Byte) (fence : List Place)
  /-- EPOCH_ACK (R300): The coordinator receives an acknowledgement and moves to the next step once all have arrived. -/
  | epochAck (place : Place)
  /-- DRAIN_WAVE (R301): Every 10 µs the coordinator sends a drain query and judges the waves. -/
  | drainWave (answers : List (Place × W32 × Bool))
  /-- ADMISSION_POINT (R549): With no step running, the lead admits and rejects requests, rolls budgets, handles cancel boundaries and the swap point, and selects a step. -/
  | admissionPoint (slot : Slot)
  /-- STEP_START_RECEIVED (R219): A member receives the step start on CTL and prepares to begin the step. -/
  | stepStartReceived (slot : Slot) (num : W64) (entry : BitVec 6) (voicing : BitVec 2) (seed : W64) (params : List W32) (replay : Bool) (lastOld : Bool)
  /-- TICK_ZERO (R219): A package begins tick 0 of a step once 64 cycles have passed since the start and its previous step has finished. -/
  | tickZero (slot : Slot)
  /-- ADVANCE (R328): A member advances the generation of a freed page group's pages and acknowledges. -/
  | advance (slot : Slot) (group : BitVec 18)
  /-- ADVANCE_ACK (R328): The lead collects advance acknowledgements and puts the page group on the free list after the last. -/
  | advanceAck (slot : Slot) (place : Place) (group : BitVec 18)
  /-- SPILL_RECORDS_WRITTEN (R335): Every member reports its spill records written and the request becomes SPILLED. -/
  | spillRecordsWritten (slot : Slot) (place : Place) (id : W32) (groups : List (BitVec 18)) (oldest : W32) (newest : W32) (full : Bool)
  /-- RELOAD_COMPLETE (R337): Every member has restored the request's pages, or the reload fails with KEY_RETIRED or SPILL_CORRUPT. -/
  | reloadComplete (slot : Slot) (place : Place) (id : W32) (groups : List (BitVec 18)) (records : List (List Byte)) (status : Byte)
  /-- STEP_FINISHED_REPORT (R341): A member reports on CTL that its cores have finished the step. -/
  | stepFinishedReport (slot : Slot) (place : Place) (step : W64) (budget : BitVec 3) (report : MemberReport)
  /-- REQUEST_COMMIT (R352): In one controller cycle the controller reads a proposal, chooses and verifies tokens, applies stop rules, charges and writes records. -/
  | requestCommit (slot : Slot)
  /-- CANCEL_REGISTER (R360): A cancel descriptor is registered in a controller cycle and acts by the request's state. -/
  | cancelRegister (slot : Slot)
  /-- DIR_LOOKUP (R368): A lookup engine reads a key's two buckets and writes a hit or miss result. -/
  | dirLookup (course : Fin 8)
  /-- SWAP_STAGE (R389): A member receives the header and section table of a swap, checks its section, prefetches and acknowledges STAGED. -/
  | swapStage (slot : Slot) (manifest : List Byte) (section_ : List Byte)
  /-- STAGED (R389): The lead collects STAGED from every member and fixes the swap point. -/
  | staged (slot : Slot) (place : Place) (status : Byte)
  /-- RELEASE_ALL (R391): A member releases every layer for loading at once. -/
  | releaseAll (slot : Slot)
  /-- CHUNK_RECEIVED (R382): A chunk's bytes arrive and it is verified, converted and written, or requested again. -/
  | chunkReceived (slot : Slot) (chunk : W32) (stream : BitVec 6) (data : List Byte)
  /-- CHUNK_TIMEOUT (R382): A chunk makes no progress for 10 ms and fails with LENGTH. -/
  | chunkTimeout (slot : Slot) (chunk : W32) (stream : BitVec 6)
  /-- LOADED (R389): The lead collects LOADED from every member, completes the swap and marks parity groups STALE. -/
  | loaded (slot : Slot) (place : Place)
  /-- ABANDON (R395): MAINT_CMD ABANDON abandons a stalled load or swap, leaving no generation in force. -/
  | abandon (slot : Slot)
  /-- PARITY_VALID (R393): PF0 marks a parity group VALID for the generation in force. -/
  | parityValid (slot : Slot)
  /-- KICK (R405): A write to KICK starts a fetch of the doorbell page. -/
  | kick (func : FuncId)
  /-- POLL (R405): The polling interval or the 4 µs room timer expires and starts a doorbell-page fetch. -/
  | poll (func : FuncId)
  /-- DOORBELL_FETCH_COMPLETE (R406): The doorbell page returns and new submission entries and consumer indices are taken. -/
  | doorbellFetchComplete (func : FuncId) (page : List Byte) (entries : List (BitVec 6 × List Byte))
  /-- REQUEST (R409): A REQUEST submission is queued for admission at the next step start. -/
  | request (func : FuncId) (prompt : List W32)
  /-- CANCEL (R409): A CANCEL submission names a request to cancel. -/
  | cancel (func : FuncId)
  /-- CONTINUE (R414): A CONTINUE submission appends tokens to an IDLE or SPILLED request once they are read. -/
  | continueReq (func : FuncId) (tokens : List W32)
  /-- SPILL (R335): A SPILL submission starts writing an IDLE request's pages to host memory. -/
  | spill (func : FuncId)
  /-- RELOAD (R337): A RELOAD submission starts restoring a SPILLED request's pages. -/
  | reload (func : FuncId)
  /-- RELEASE (R414): A RELEASE submission ends an IDLE or SPILLED request with RELEASED and frees it. -/
  | release (func : FuncId)
  /-- STEP (R410): A STEP submission starts a solver step or a replay with its input block. -/
  | step (func : FuncId) (block : List Byte)
  /-- LOAD_IMAGE (R222): A LOAD_IMAGE submission loads, checks, relocates and installs a ZVIS image. -/
  | loadImage (func : FuncId) (file : ImageFile)
  /-- SWAP (R389): A SWAP submission starts a weight swap or full load on the lead. -/
  | swap (func : FuncId) (manifest : List Byte) (others : List (List Byte × Nat))
  /-- DIR_UPDATE (R373): A DIR_UPDATE submission queues host directory entries for the next step boundary. -/
  | dirUpdate (func : FuncId) (data : List Byte)
  /-- MSIX_TIME_THRESHOLD (R411): A ring's time threshold expires and its MSI-X message is sent. -/
  | msixTimeThreshold (func : FuncId) (ring : Fin 194)
  /-- RING_ENABLE (R539): A RING_CTRL write setting EN takes the set-up, resets the indices and enables the ring. -/
  | ringEnable (func : FuncId) (ring : Fin 194) (value : W64)
  /-- RING_DISABLE (R403): Clearing EN stops a ring once its accesses in flight have finished. -/
  | ringDisable (func : FuncId) (ring : Fin 194)
  /-- FUNCTION_LEVEL_RESET (R398): A Function Level Reset stops a function's rings, cancels its requests and clears its set-up. -/
  | functionLevelReset (func : FuncId)
  /-- SEND_MBO (R423): A write of SEND in MBO_CTRL sends the outbound mailbox message to the soundpost. -/
  | sendMbo (func : FuncId) (value : W32) (data : List Byte)
  /-- WITHDRAW (R423): A write of WITHDRAW clears an outbound message that awaits the soundpost. -/
  | withdraw (func : FuncId)
  /-- MBO_TIMEOUT (R423): An outbound message stays FULL for MB_TIMEOUT and TIMEOUT is set. -/
  | mboTimeout (func : FuncId)
  /-- MBI_CONSUME (R423): The host's read of the word holding the last byte consumes the inbound message. -/
  | mbiConsume (func : FuncId)
  /-- MBI_DELIVER (R424): The soundpost places a message in the inbound mailbox and rings DB_HOST. -/
  | mbiDeliver (func : FuncId) (dbbit : BitVec 5)
  /-- MBI_WITHDRAWN (R424): The soundpost withdraws an inbound message before it is read. -/
  | mbiWithdrawn (func : FuncId)
  /-- MBO_READ (R424): The soundpost reads an outbound message, clearing FULL. -/
  | mboRead (func : FuncId)
  /-- DB_HOST_CLEAR (R424): A W1C write to DB_HOST clears latched doorbell bits. -/
  | dbHostClear (func : FuncId) (bits : W32)
  /-- DB_HOST_MASK_WRITE (R424): A write to DB_HOST_MASK may send the doorbell vector for a newly unmasked set bit. -/
  | dbHostMaskWrite (func : FuncId) (mask : W32)
  /-- DB_SP_SET (R424): A W1S write to DB_SP rings the soundpost's doorbell bits. -/
  | dbSpSet (func : FuncId) (bits : W32)
  /-- MGT_MESSAGE (R425): A management message from another soundpost arrives in its slot, or is discarded as a fault when the slot is full. -/
  | mgtMessage (peer : Place) (bytes : List Byte) (read : Bool)
  /-- FW_BEGIN (R430): FW_BEGIN starts a firmware write. -/
  | fwBegin (asker : Asker) (seq : W32) (payload : List Byte)
  /-- FW_PIECE (R429): FW_PIECE writes a piece of the image into the tailpiece. -/
  | fwPiece (asker : Asker) (seq : W32) (payload : List Byte)
  /-- FW_END (R430): FW_END verifies the stored image and replies DONE or BAD_IMAGE. -/
  | fwEnd (asker : Asker) (seq : W32) (payload : List Byte)
  /-- KEY_INSTALL (R437): KEY_INSTALL installs a publisher key or side-port root. -/
  | keyInstall (asker : Asker) (seq : W32) (payload : List Byte)
  /-- KEY_REMOVE (R437): KEY_REMOVE removes a publisher key or side-port root. -/
  | keyRemove (asker : Asker) (seq : W32) (payload : List Byte)
  /-- SPILL_ROTATE (R449): SPILL_ROTATE starts a spill-key rotation for a group. -/
  | spillRotate (asker : Asker) (seq : W32) (payload : List Byte)
  /-- STATUS (R437): STATUS returns measurement 0x06. -/
  | status (asker : Asker) (seq : W32) (payload : List Byte)
  /-- GET_VERSION (R434): The SPDM responder answers GET_VERSION. -/
  | getVersion (requester : Requester)
  /-- GET_CAPABILITIES (R434): The SPDM responder answers GET_CAPABILITIES. -/
  | getCapabilities (requester : Requester)
  /-- NEGOTIATE_ALGORITHMS (R434): The SPDM responder answers NEGOTIATE_ALGORITHMS. -/
  | negotiateAlgorithms (requester : Requester)
  /-- GET_DIGESTS (R434): The SPDM responder answers GET_DIGESTS. -/
  | getDigests (requester : Requester)
  /-- GET_CERTIFICATE (R432): The SPDM responder returns the certificate chain ending in the alias certificate. -/
  | getCertificate (requester : Requester)
  /-- CHALLENGE (R434): The SPDM responder answers CHALLENGE with an alias-key signature. -/
  | challenge (requester : Requester) (nonce : List Byte)
  /-- GET_MEASUREMENTS (R435): The SPDM responder returns the measurements the requester may see. -/
  | getMeasurements (requester : Requester) (index : Byte)
  /-- KEY_EXCHANGE (R434): The SPDM responder answers KEY_EXCHANGE with ECDHE over secp521r1. -/
  | keyExchange (requester : Requester) (share : List Byte)
  /-- FINISH (R445): FINISH completes an SPDM session, from which link or IDE keys may be installed. -/
  | finish (requester : Requester) (port : Option PortId) (good : Bool)
  /-- KEY_UPDATE (R434): The SPDM responder answers KEY_UPDATE. -/
  | keyUpdate (requester : Requester)
  /-- HEARTBEAT_SPDM (R434): The SPDM responder answers an SPDM HEARTBEAT request. -/
  | heartbeatSpdm (requester : Requester)
  /-- END_SESSION (R434): The SPDM responder ends a session. -/
  | endSession (requester : Requester)
  /-- LOCK_INTERFACE_REQUEST (R441): A TDISP lock request locks a partition in confidential mode or is refused. -/
  | lockInterfaceRequest (func : FuncId)
  /-- STOP_INTERFACE_REQUEST (R444): A TDISP stop request zeroes the locked partition before the response. -/
  | stopInterfaceRequest (func : FuncId)
  /-- TDI_ERROR (R442): An unprotected TLP, integrity failure or forbidden write sends a TDI into ERROR and zeroes its partition. -/
  | tdiError (func : FuncId)
  /-- LINK_KEY_ROTATION (R446): A direction's rotation interval or frame count expires and it sends ROTATE. -/
  | linkKeyRotation (port : PortId) (busy : Option Bool)
  /-- ROTATE (R446): The receiver installs the next link key in its idle slot and acknowledges, or answers BUSY. -/
  | rotate (port : PortId) (index : W32)
  /-- RETIRE_KEY (R446): The receiver erases the old link-key slot and acknowledges. -/
  | retireKey (port : PortId) (acked : Bool)
  /-- ROTATION_TIMEOUT (R447): A link-key rotation not complete within 1 s restarts with a new session, or the port goes DOWN. -/
  | rotationTimeout (port : PortId)
  /-- SPILL_KEY_DISTRIBUTE (R448): A member's soundpost receives the next spill key and acknowledges. -/
  | spillKeyDistribute (slot : Slot) (gen : W32) (ack : Option Place)
  /-- SPILL_KEY_ACK_TIMEOUT (R449): A member has not acknowledged a spill key within 100 ms and the lead repeats or abandons. -/
  | spillKeyAckTimeout (slot : Slot)
  /-- COLD_START (R501): VAUX becomes good and the package runs start-up up to READY. -/
  | coldStart (slotId : BitVec 4) (bootMode : BitVec 2) (bad : List (BitVec 3))
  /-- COURSE_UNGATE (R478): At its time in the staggered start a course or lane group is ungated. -/
  | courseUngate (course : Fin 8) (group : Fin 8) (tests : SelfTest)
  /-- SENSOR_SAMPLE (R481): The sensors are sampled and thermal, peak-power or overcurrent emergencies are found. -/
  | sensorSample (tmax : Byte) (p1ms : BitVec 12) (p1s : BitVec 12) (vmain : BitVec 17) (current : BitVec 17)
  /-- CONVERTER_STAGE_FAULT (R14): A converter stage reports a fault and compute is powered off into pass-through mode. -/
  | converterStageFault (stage : Fin 4)
  /-- SYNC_EXCHANGE (R495): Every 125 µs a parent sends SYNC and FOLLOW_UP to its child. -/
  | syncExchange (port : PortId) (frac : BitVec 4)
  /-- SYNC (R495): A child records the arrival of SYNC. -/
  | sync (port : PortId) (frac : BitVec 4)
  /-- FOLLOW_UP (R495): A child receives the parent's departure timestamp and sends DELAY_REQ. -/
  | followUp (port : PortId) (t1 : BitVec 68) (hops : Byte) (frac : BitVec 4)
  /-- DELAY_REQ (R495): A parent records the arrival of DELAY_REQ and returns it in DELAY_RESP. -/
  | delayReq (port : PortId) (frac : BitVec 4)
  /-- DELAY_RESP (R497): A child computes its offset and sets, steers or slews its station time. -/
  | delayResp (port : PortId) (t4 : BitVec 68)
  /-- STATION_SET (R497): A write of STATION_SET on the source sets station time and SYNCED. -/
  | stationSet (value : W64)
  /-- PASS_THROUGH_ENTER (R507): Compute is powered off and the package keeps only forwarding, management and PF0. -/
  | passThroughEnter (asker : Asker) (seq : W32) (payload : List Byte)
  /-- PASS_THROUGH_LEAVE (R508): Compute is brought back up through start-up orders 3 to 9, or the request is refused. -/
  | passThroughLeave (asker : Asker) (seq : W32) (payload : List Byte) (persists : Bool)
  /-- PACKAGE_RESET (R500): PACKAGE_RESET resets everything except always-on retention and cycles PWR_EN. -/
  | packageReset (asker : Asker) (seq : W32) (payload : List Byte) (bad : List (BitVec 3)) (hot : Bool)
  /-- SOUNDPOST_RESET (R509): SOUNDPOST_RESET resets the soundpost alone, which boots again. -/
  | soundpostReset (asker : Asker) (seq : W32) (payload : List Byte)
  /-- SAVE_SETTINGS (R506): SAVE_SETTINGS writes the retained-settings record. -/
  | saveSettings (asker : Asker) (seq : W32) (payload : List Byte)
  /-- MAINT_QUERY (R509): MAINT_QUERY returns MAINT_STATUS. -/
  | maintQuery (asker : Asker) (seq : W32) (payload : List Byte)
  /-- FREQ_APPLY (R534): FREQ_APPLY requests the frequency-table change, which copies and applies the staging table. -/
  | freqApply (admitted : Bool)
  /-- FORM (R540): FORM on the lead sends the group fields, computes G, sends the member list and forms the group or reports FORM_ERR. -/
  | form (slot : Slot)
  /-- FORM_MESSAGE (R540): A member receives group fields or the member list from the lead and answers with its layout. -/
  | formMessage (slot : Slot) (msg : FormMsg)
  /-- FORM_TIMEOUT (R540): A member has not answered within 10 ms and the lead repeats or fails with FORM_ERR 1. -/
  | formTimeout (slot : Slot)
  /-- DISSOLVE (R541): DISSOLVE clears FORMED on every member or is refused. -/
  | dissolve (slot : Slot)
  /-- REQ_INDEX_WRITE (R542): A write to REQ_INDEX copies an entry and its generation record into REQ_DATA. -/
  | reqIndexWrite (slot : Slot) (index : BitVec 20)
  /-- GO (R547): RB_CTRL GO reads a weight-store block and record for host readback and checks its CRC. -/
  | go (core : BitVec 9) (block : BitVec 12)
  /-- DEBUG_EN_WRITE (R548): A write of DEBUG_CTRL enters or leaves debug mode and sets the replay stop. -/
  | debugEnWrite (value : W64)
  /-- STATE_SEL_WRITE (R548): A write of STATE_SEL copies the selected item into STATE_DATA. -/
  | stateSelWrite (value : W32)
  /-- REGISTER_WRITE (R531): A write to any other BAR0 register stores it, applies it at the next step start if live, or refuses it. -/
  | registerWrite (func : FuncId) (bar2 : Bool) (offset : BitVec 24) (data : List Byte)
  /-- CELL_LEAVES_OUTBOUND_BUFFER (R209): A cell leaves its core's outbound buffer for the fabric switch, or a HOSTWR write is posted to PCI Express, freeing its outbound cell and stamping the cell's EPOCH. -/
  | cellLeavesOutboundBuffer (core : CoreId) (what : OutKind)
  /-- ALIGNMENT_LOCK (R276): A receiver gains alignment-marker and codeword lock on a new active lane set, which it then reports so the transmitter can resume with replay. -/
  | alignmentLock (port : PortId)
  /-- ROTATE_RETRY (R446): 1 ms after a BUSY answer to ROTATE, the sender repeats the ROTATE. -/
  | rotateRetry (port : PortId)
  /-- START_INTERFACE_REQUEST (R442): A TDISP start request moves a CONFIG_LOCKED TDI into RUN. -/
  | startInterfaceRequest (func : FuncId)
  /-- IDE_KM (R440): IDE_KM messages over an SPDM session on PF0's DOE program IDE keys and make a link or selective IDE stream active. -/
  | ideKm (stream : Option (Fin 9)) (active : Bool)
  /-- MGT_SLOT_TIMEOUT (R425): A management message slot between soundposts stays FULL past its timeout and TIMEOUT is set for it. -/
  | mgtSlotTimeout (peer : Place)
  /-- MUTE_RELEASE (R210): The tick counter resumes in every course 8 cycles after the last late item arrives. -/
  | muteRelease
  /-- MUTE_TIMEOUT (R216): After 2^j consecutive held cycles the steps that share the late item end with MUTE_TIMEOUT and the hold is released. -/
  | muteTimeout
  /-- FREQUENCY_CHANGE (R491): A decided frequency change takes effect at the next multiple of 4,096 ticks and the counter holds for relock. -/
  | frequencyChange
  /-- PLL_LOCK (R214): Every course's PLL reports lock and the held counter may advance. -/
  | pllLock
  /-- TICK_DIVERGE (R464): The eight tick-counter copies disagree, the step stops and the courses are resynchronised. -/
  | tickDiverge
  /-- SUPPLY_FAULT (R465): A rail monitor finds a rail or converter stage out of limits and compute enters pass-through mode. -/
  | supplyFault
  /-- FW_WATCHDOG (R466): The soundpost watchdog expires and the soundpost is reset. -/
  | fwWatchdog
  /-- HEARTBEAT_SEND (R469): Every 100 µs the package sends a heartbeat cell on each UP torus and pod port. -/
  | heartbeatSend
  /-- ROUTE_INSTALL (R536): ROUTE_CMD INSTALL puts the staged shape record and fence list into slot 0 as CURRENT. -/
  | routeInstall
  /-- ROUTE_EPOCH (R536): ROUTE_CMD EPOCH starts an epoch change on the coordinator. -/
  | routeEpoch
  /-- EPOCH_ACK_TIMEOUT (R300): A package has not acknowledged within 10 ms and the coordinator repeats or reports it lost. -/
  | epochAckTimeout
  /-- SWITCH (R300): On SWITCH a package makes the staged slot CURRENT and the former one OLD. -/
  | switch
  /-- DRAIN_QUERY (R301): A package answers a drain query with OLD_COUNT and OLD_SEEN. -/
  | drainQuery
  /-- PURGE (R301): 100 ms after SWITCH without a drain the coordinator sends PURGE and packages discard OLD cells. -/
  | purge
  /-- RETIRE (R300): On RETIRE a package marks its OLD slot EMPTY. -/
  | retire
  /-- DIR_UPDATE_APPLY (R371): The update sequencer applies one directory entry with one outcome. -/
  | dirUpdateApply
  /-- COMPACTION_MOVE (R375): Compaction moves an entry of a full bucket to its other bucket in two cycles. -/
  | compactionMove
  /-- DIR_READY_SET (R376): The host sets READY after rewriting the directory, allowing steps with KDLOOK. -/
  | dirReadySet
  /-- PERST (R500): PERST# resets every function and retrains the PCI Express link. -/
  | perst
  /-- FW_WRITE_TIMEOUT (R437): No piece arrives for 10 s and the firmware write ends. -/
  | fwWriteTimeout
  /-- VANA_GOOD (R476): VANA becomes good and the package may assert PWR_EN. -/
  | vanaGood
  /-- BUDGET_EVALUATION (R484): Every 100 µs the power manager forms the part-states and the budget state. -/
  | budgetEvaluation
  /-- THERMTRIP (R493): A sensor reaches 115 °C, THERMTRIP# asserts, compute is gated and PWR_EN falls. -/
  | thermtrip
  /-- VAUX_FAIL (R477): VAUX fails and every converter stage stops. -/
  | vauxFail
  /-- VANA_FAIL (R477): VANA fails and the package gates compute, removes its rails and drives PWR_EN low. -/
  | vanaFail
  /-- UNDERVOLTAGE_LOCKOUT (R477): VMAIN falls below 44 V and the stages stop. -/
  | undervoltageLockout
  /-- REFCLK_LOSS (R525): REFCLK is lost, every PLL loses lock and the fabric island stops. -/
  | refclkLoss
  /-- HOLDOVER (R498): No timestamps for 50 ms set HOLDOVER. -/
  | holdover
  /-- SOURCE_SYNCED (R497): 100 ms after becoming the source with no STATION_SET, the source sets SYNCED. -/
  | sourceSynced
  /-- PAUSE_POINT_REACHED (R512): A structural activity asked to pause reaches its pause point and the queued recovery starts. -/
  | pausePointReached
  /-- STRUCTURAL_ACTIVITY_END (R511): A structural activity ends, settings are saved, and queued, paused or background activities resume. -/
  | structuralActivityEnd
  /-- REFUSED_CLEAR (R530): A W1C write clears the REFUSED bit of PKG_STATUS. -/
  | refusedClear
  /-- RELOCK_TIMEOUT (R464): Relock after a loss of lock takes longer than 2 µs, so the running step is stopped, the courses are resynchronised and the step is retried. -/
  | relockTimeout
  /-- PERST_RELEASE (R501): PERST# is released and the host interface comes up once start-up has passed order 9. -/
  | perstRelease
  /-- VMAIN_GOOD (R476): VMAIN enters its operating range while PWR_EN is high, and the converter stages may start. -/
  | vmainGood
  /-- REFCLK_RETURN (R525): REFCLK is restored after a loss and the PLLs of the fabric island and courses can lock again. -/
  | refclkReturn
  deriving DecidableEq, Repr

end Sys2Proof
end

