-- ==== Sys2Proof/Machine/WordCheck.lean ====
section
/-! DEFINITION. The words that a program may hold (08 R170 to R172): reserved codes, register numbers, absolute forms and
fields that are unused in the form selected. -/

namespace Sys2Proof.Machine

/-- A register number of the space of 07 R145. -/
def regOk (r : BitVec 5) : Bool := r.toNat < 24

/-- An SR operand: the REG field of an absolute form is 0. -/
def srOk (a : Sr) : Bool := a.mode != 0 || a.reg == 0

/-- An SA operand. -/
def saOk (a : Sa) : Bool := a.mode || a.reg == 0

/-- A WB operand. -/
def wbOk (a : Wb) : Bool := a.mode || a.reg == 0

/-- A format code that Table 2.2 names. -/
def fmtOk (f : BitVec 4) : Bool := f.toNat < 11

/-- Operand B of address arithmetic: a register in bits [4:0] with the other bits unused, or an immediate. -/
def bOk (bk : Bool) (b : BitVec 20) : Bool := bk || b.toNat < 24

/-- A scale field: under SSRC 1 its upper four bits are 0. -/
def scaleOk (ssrc : Bool) (scale : BitVec 8) : Bool := !ssrc || scale.toNat < 16

/-- Whether a word may stand in a program of a core with logical number `own` of `n` enabled cores (08 R172). -/
def wordOk (n own : Nat) : Instr → Bool
  | .loop _ _ src count => !src || count.toNat < 8
  | .mova _ _ d sk src => regOk d && (sk || src.toNat < 24)
  | .adda _ _ d a bk b | .suba _ _ d a bk b | .shla _ _ d a bk b | .anda _ _ d a bk b | .moda _ _ d a bk b =>
    regOk d && regOk a && bOk bk b
  | .lda _ _ d src a imm => regOk d && (if src then regOk a else a == 0 && imm.toNat < 64)
  | .string _ _ b f _ | .stringt _ _ b f _ => wbOk b && fmtOk f
  | .bow _ _ d _ _ _ _ ssrc sc _ => srOk d && scaleOk ssrc sc
  | .bowg _ _ l _ _ _ _ _ ssrc sc => saOk l && scaleOk ssrc sc
  | .window _ _ _ wsrc w vs e => if wsrc then w == 0 else vs == 0 && e == 0
  | .drain _ _ _ _ f _ _ => fmtOk f
  | .vld _ _ r _ _ _ | .vst _ _ r _ _ _ => srOk r
  | .vprog _ _ o =>
    o.k0.toNat != 3 && o.k1.toNat != 3 && o.k2.toNat != 3 && (o.k0 != 0 || o.s0 == 0) && (o.k1 != 0 || o.s1 == 0) &&
      (o.k2 != 0 || o.s2 == 0) && (o.k0.toNat == 2 || o.k1.toNat == 2 || o.k2.toNat == 2 || o.elem == 0)
  | .vcvt _ _ o =>
    o.ssc.toNat != 3 && o.dsc.toNat != 3 && fmtOk o.sfmt && fmtOk o.dfmt && (!o.sk || o.s.toNat < 16) &&
      (!o.dk || o.d.toNat < 16)
  | .vperm _ _ _ _ _ _ fsel freg => if fsel then regOk freg else freg == 0
  | .vredInit _ _ _ _ kind wsrc w e =>
    if kind = 1 then (if wsrc then w == 0 else e == 0) else !wsrc && w == 0 && e == 0
  | .vredAcc _ _ _ _ _ f _ ssc _ _ => fmtOk f && ssc.toNat != 3
  | .vscan _ _ _ _ _ f _ ssc _ => fmtOk f && ssc.toNat != 3
  | .spfill _ _ r _ _ psrc preg _ => srOk r && psrc.toNat < 6 && (if psrc = 0 then regOk preg else preg == 0)
  | .spcopy _ _ a b _ _ => saOk a && saOk b
  | .wsrd _ _ b part r sp | .wswr _ _ b part r sp => wbOk b && srOk sp && (part || r == 0)
  | .kvrd _ _ _ _ sp | .kvwr _ _ _ _ sp | .kvwrRemote _ _ _ _ sp _ _ => srOk sp
  | .send _ _ sp _ _ _ _ _ | .sendxor _ _ sp _ _ _ _ _ => srOk sp
  | .sendacc _ _ _ _ enc _ _ => enc.toNat != 3
  | .recvData _ _ _ sp | .recvFastAdd _ _ _ sp | .recvXor _ _ _ sp => srOk sp
  | .recvOnDieRead _ _ sc _ sp => srOk sp && sc.toNat < n && sc.toNat != own
  | .hostrd _ _ _ _ sp _ _ | .hostwr _ _ _ _ sp _ _ | .kdlook _ _ sp _ _ _ | .kdput _ _ sp _ _ _ => srOk sp
  | _ => true

/-- The loader's part of the check that needs no core count. -/
def staticOk (i : Instr) : Bool :=
  match i with
  | .recvOnDieRead _ _ _ _ sp => srOk sp
  | i => wordOk 288 288 i

end Sys2Proof.Machine
end

