-- ==== Sys2Proof/Decode.lean ====
section
/-! DEFINITION. The 64-bit ZVIS word (08 R170, Tables 8.1 to 8.11) as the loader reads it, and the encoder from the same
layouts. The rows of opcode_table.json give no bits, so `decodeTableWord` answers none. -/

namespace Sys2Proof

/-- A field of a word at bit `lo`. -/
def zf (n : Nat) (w : W64) (lo : Nat) : BitVec n := w.extractLsb' lo n

/-- A bit of a word. -/
def zb (w : W64) (i : Nat) : Bool := w.getLsbD i

/-- An SR form at bit `lo` (Table 8.3). -/
def zSr (w : W64) (lo : Nat) : Sr := ⟨zf 2 w (lo + 17), zf 4 w (lo + 13), zf 13 w lo⟩
/-- An SA form. -/
def zSa (w : W64) (lo : Nat) : Sa := ⟨zb w (lo + 17), zf 4 w (lo + 13), zf 13 w lo⟩
/-- A WB form. -/
def zWb (w : W64) (lo : Nat) : Wb := ⟨zb w (lo + 16), zf 4 w (lo + 12), zf 12 w lo⟩

/-- The fields of a word by its opcode; none for a reserved opcode or selector (08 R171). -/
def rawZvis (c : CoreId) (w : W64) : Option Instr :=
  let d : BitVec 12 := zf 12 w 8
  match (zf 8 w 0).toNat with
  | 0x00 => some (.nop c d)
  | 0x01 => some (.halt c d)
  | 0x02 => some (.loop c d (zb w 20) (zf 12 w 21))
  | 0x03 => some (.endloop c d)
  | 0x04 => some (.waitf c d (zf 6 w 20) (zf 8 w 26))
  | 0x05 => some (.setf c d (zf 6 w 20) (zf 8 w 26))
  | 0x06 => some (.incf c d (zf 6 w 20))
  | 0x07 => some (.decf c d (zf 6 w 20))
  | 0x08 => some (.signal c d (zf 6 w 20) (zf 4 w 26))
  | 0x09 => some (.expect c d (zf 12 w 20))
  | 0x0A => some (.mark c d (zf 16 w 20))
  | 0x10 => some (.mova c d (zf 5 w 20) (zb w 25) (zf 32 w 26))
  | 0x11 => some (.adda c d (zf 5 w 20) (zf 5 w 25) (zb w 30) (zf 20 w 31))
  | 0x12 => some (.suba c d (zf 5 w 20) (zf 5 w 25) (zb w 30) (zf 20 w 31))
  | 0x13 => some (.shla c d (zf 5 w 20) (zf 5 w 25) (zb w 30) (zf 20 w 31))
  | 0x14 => some (.anda c d (zf 5 w 20) (zf 5 w 25) (zb w 30) (zf 20 w 31))
  | 0x15 => some (.moda c d (zf 5 w 20) (zf 5 w 25) (zb w 30) (zf 20 w 31))
  | 0x16 => some (.lda c d (zf 5 w 20) (zb w 25) (zf 5 w 26) (zf 12 w 31))
  | 0x20 => some (.string c d (zWb w 20) (zf 4 w 37) (zf 6 w 41))
  | 0x21 => some (.stringt c d (zWb w 20) (zf 4 w 37) (zf 6 w 41))
  | 0x22 => some (.swapt c d)
  | 0x23 => some (.bow c d (zSr w 20) (zf 4 w 39) (zb w 43) (zf 6 w 44) (zf 2 w 50) (zb w 52) (zf 8 w 53) (zf 3 w 61))
  | 0x24 => some (.bowg c d (zSa w 20) (zf 4 w 38) (zf 4 w 42) (zb w 46) (zf 6 w 47) (zf 2 w 53) (zb w 55) (zf 8 w 56))
  | 0x25 => some (.zacc c d (zf 4 w 20))
  | 0x26 => some (.window c d (zf 4 w 20) (zb w 24) (zf 10 w 25) (zf 5 w 35) (zf 6 w 40))
  | 0x27 => some (.drain c d (zf 4 w 20) (zf 5 w 24) (zf 4 w 29) (zf 3 w 33) (zb w 36))
  | 0x40 => some (.vld c d (zSr w 20) (zf 5 w 39) (zf 2 w 44) (zf 3 w 46))
  | 0x41 => some (.vst c d (zSr w 20) (zf 5 w 39) (zf 2 w 44) (zf 3 w 46))
  | 0x42 => some (.vfill c d (zf 5 w 20) (zf 32 w 25))
  | 0x43 => some (.vprog c d ⟨zf 4 w 20, zf 5 w 24, zf 2 w 29, zf 2 w 36, zf 2 w 43, zf 5 w 31, zf 5 w 38, zf 5 w 45,
      zf 6 w 50, zf 3 w 56⟩)
  | 0x44 => some (.vcvt c d ⟨zb w 20, zf 5 w 21, zf 4 w 26, zb w 30, zf 2 w 31, zb w 33, zf 5 w 34, zf 4 w 39, zb w 43,
      zf 2 w 44, zf 3 w 46, zb w 49, zf 8 w 50⟩)
  | 0x45 => some (.vperm c d (zf 5 w 20) (zf 5 w 25) (zf 5 w 30) (zf 7 w 35) (zb w 42) (zf 5 w 43))
  | 0x46 => match (zf 3 w 20).toNat with
    | 0 => some (.vredInit c d (zf 3 w 23) (zf 5 w 26) (zf 3 w 31) (zb w 34) (zf 10 w 35) (zf 6 w 45))
    | 1 => some (.vredAcc c d (zf 3 w 23) (zf 5 w 26) (zf 6 w 31) (zf 4 w 37) (zb w 41) (zf 2 w 42) (zf 8 w 44) (zf 4 w 52))
    | 2 => some (.vredMerge c d (zf 3 w 23) (zf 5 w 26))
    | 3 => some (.vredPhase c d (zf 3 w 23))
    | 4 => some (.vredOut c d (zf 3 w 23) (zf 5 w 26) (zf 3 w 31))
    | 5 => some (.vredSmout c d (zf 3 w 23) (zf 5 w 26) (zf 5 w 31) (zf 6 w 36))
    | _ => none
  | 0x47 => some (.vscan c d (zf 3 w 20) (zf 5 w 23) (zf 6 w 28) (zf 4 w 34) (zb w 38) (zf 2 w 39) (zf 8 w 41))
  | 0x48 => match (zf 2 w 20).toNat with
    | 0 => some (.vtopkInit c d (zf 6 w 27))
    | 1 => some (.vtopkAcc c d (zf 5 w 22) (zf 6 w 27) (zf 4 w 33))
    | 2 => some (.vtopkMerge c d (zf 5 w 22))
    | _ => some (.vtopkOut c d (zf 5 w 22))
  | 0x60 => some (.spfill c d (zSr w 20) (zf 3 w 39) (zf 5 w 42) (zf 3 w 47) (zf 5 w 50) (zf 3 w 55))
  | 0x61 => some (.spcopy c d (zSa w 20) (zSa w 38) (zf 3 w 56) (zf 5 w 59))
  | 0x62 => some (.wsrd c d (zWb w 20) (zb w 37) (zf 6 w 38) (zSr w 44))
  | 0x63 => some (.wswr c d (zWb w 20) (zb w 37) (zf 6 w 38) (zSr w 44))
  | 0x64 => some (.kvrd c d (zf 4 w 20) (zf 3 w 24) (zSr w 27))
  | 0x65 => if zb w 46 then some (.kvwrRemote c d (zf 4 w 20) (zf 3 w 24) (zSr w 27) (zf 4 w 47) (zf 12 w 51))
      else some (.kvwr c d (zf 4 w 20) (zf 3 w 24) (zSr w 27))
  | 0x66 => some (.send c d (zSr w 20) (zf 3 w 39) (zf 4 w 42) (zf 2 w 46) (zf 4 w 48) (zf 12 w 52))
  | 0x67 => some (.sendacc c d (zf 4 w 20) (zf 4 w 24) (zf 2 w 28) (zf 4 w 30) (zf 12 w 34))
  | 0x68 => some (.sendxor c d (zSr w 20) (zf 3 w 39) (zf 4 w 42) (zf 2 w 46) (zf 4 w 48) (zf 12 w 52))
  | 0x69 => match (zf 3 w 20).toNat with
    | 0 => some (.recvData c d (zf 12 w 23) (zSr w 35))
    | 1 => some (.recvAccumulator c d (zf 12 w 23) (zf 4 w 35))
    | 2 => some (.recvFastAdd c d (zf 12 w 23) (zSr w 35))
    | 3 => some (.recvXor c d (zf 12 w 23) (zSr w 35))
    | 4 => some (.recvOnDieRead c d (zf 9 w 23) (zf 13 w 32) (zSr w 45))
    | _ => none
  | 0x6A => some (.hostrd c d (zf 6 w 20) (zf 4 w 26) (zSr w 30) (zf 3 w 49) (zf 12 w 52))
  | 0x6B => some (.hostwr c d (zf 6 w 20) (zf 4 w 26) (zSr w 30) (zf 3 w 49) (zf 12 w 52))
  | 0x6C => some (.kdlook c d (zSr w 20) (zf 3 w 39) (zf 4 w 42) (zf 12 w 46))
  | 0x6D => some (.kdput c d (zSr w 20) (zf 3 w 39) (zb w 42) (zf 12 w 43))
  | _ => none

/-- A field placed at bit `lo`. -/
def pf {n : Nat} (v : BitVec n) (lo : Nat) : W64 := v.setWidth 64 <<< lo
/-- A bit placed at `lo`. -/
def pb (v : Bool) (lo : Nat) : W64 := if v then 1 <<< lo else 0
/-- An SR form placed at `lo`. -/
def pSr (a : Sr) (lo : Nat) : W64 := pf a.mode (lo + 17) ||| pf a.reg (lo + 13) ||| pf a.value lo
/-- An SA form placed at `lo`. -/
def pSa (a : Sa) (lo : Nat) : W64 := pb a.mode (lo + 17) ||| pf a.reg (lo + 13) ||| pf a.value lo
/-- A WB form placed at `lo`. -/
def pWb (a : Wb) (lo : Nat) : W64 := pb a.mode (lo + 16) ||| pf a.reg (lo + 12) ||| pf a.value lo
/-- OPCODE and DELTA (Table 8.1). -/
def pOp (o : Nat) (d : BitVec 12) : W64 := BitVec.ofNat 64 o ||| pf d 8

/-- The word of a well-formed instruction; none for a command that is no word (Tables 8.5, 8.6, 8.8, 8.11). -/
def encodeZvis : Instr → Option W64
  | .nop _ d => some (pOp 0x00 d)
  | .halt _ d => some (pOp 0x01 d)
  | .loop _ d src n => some (pOp 0x02 d ||| pb src 20 ||| pf n 21)
  | .endloop _ d => some (pOp 0x03 d)
  | .waitf _ d f n => some (pOp 0x04 d ||| pf f 20 ||| pf n 26)
  | .setf _ d f v => some (pOp 0x05 d ||| pf f 20 ||| pf v 26)
  | .incf _ d f => some (pOp 0x06 d ||| pf f 20)
  | .decf _ d f => some (pOp 0x07 d ||| pf f 20)
  | .signal _ d f r => some (pOp 0x08 d ||| pf f 20 ||| pf r 26)
  | .expect _ d t => some (pOp 0x09 d ||| pf t 20)
  | .mark _ d m => some (pOp 0x0A d ||| pf m 20)
  | .mova _ d x sk v => some (pOp 0x10 d ||| pf x 20 ||| pb sk 25 ||| pf v 26)
  | .adda _ d x a bk b => some (pOp 0x11 d ||| pf x 20 ||| pf a 25 ||| pb bk 30 ||| pf b 31)
  | .suba _ d x a bk b => some (pOp 0x12 d ||| pf x 20 ||| pf a 25 ||| pb bk 30 ||| pf b 31)
  | .shla _ d x a bk b => some (pOp 0x13 d ||| pf x 20 ||| pf a 25 ||| pb bk 30 ||| pf b 31)
  | .anda _ d x a bk b => some (pOp 0x14 d ||| pf x 20 ||| pf a 25 ||| pb bk 30 ||| pf b 31)
  | .moda _ d x a bk b => some (pOp 0x15 d ||| pf x 20 ||| pf a 25 ||| pb bk 30 ||| pf b 31)
  | .lda _ d x src a n => some (pOp 0x16 d ||| pf x 20 ||| pb src 25 ||| pf a 26 ||| pf n 31)
  | .string _ d b f l => some (pOp 0x20 d ||| pWb b 20 ||| pf f 37 ||| pf l 41)
  | .stringt _ d b f l => some (pOp 0x21 d ||| pWb b 20 ||| pf f 37 ||| pf l 41)
  | .swapt _ d => some (pOp 0x22 d)
  | .bow _ d r k nib e af ss sc rls => some (pOp 0x23 d ||| pSr r 20 ||| pf k 39 ||| pb nib 43 ||| pf e 44 |||
      pf af 50 ||| pb ss 52 ||| pf sc 53 ||| pf rls 61)
  | .bowg _ d l b k nib e af ss sc => some (pOp 0x24 d ||| pSa l 20 ||| pf b 38 ||| pf k 42 ||| pb nib 46 ||| pf e 47 |||
      pf af 53 ||| pb ss 55 ||| pf sc 56)
  | .zacc _ d k => some (pOp 0x25 d ||| pf k 20)
  | .window _ d k ws w v e => some (pOp 0x26 d ||| pf k 20 ||| pb ws 24 ||| pf w 25 ||| pf v 35 ||| pf e 40)
  | .drain _ d k v f r c => some (pOp 0x27 d ||| pf k 20 ||| pf v 24 ||| pf f 29 ||| pf r 33 ||| pb c 36)
  | .vld _ d r v n l => some (pOp 0x40 d ||| pSr r 20 ||| pf v 39 ||| pf n 44 ||| pf l 46)
  | .vst _ d r v n l => some (pOp 0x41 d ||| pSr r 20 ||| pf v 39 ||| pf n 44 ||| pf l 46)
  | .vfill _ d v i => some (pOp 0x42 d ||| pf v 20 ||| pf i 25)
  | .vprog _ d o => some (pOp 0x43 d ||| pf o.p 20 ||| pf o.vd 24 ||| pf o.k0 29 ||| pf o.s0 31 ||| pf o.k1 36 |||
      pf o.s1 38 ||| pf o.k2 43 ||| pf o.s2 45 ||| pf o.elem 50 ||| pf o.r 56)
  | .vcvt _ d o => some (pOp 0x44 d ||| pb o.sk 20 ||| pf o.s 21 ||| pf o.sfmt 26 ||| pb o.slay 30 ||| pf o.ssc 31 |||
      pb o.dk 33 ||| pf o.d 34 ||| pf o.dfmt 39 ||| pb o.dlay 43 ||| pf o.dsc 44 ||| pf o.rm 46 ||| pb o.sat 49 |||
      pf o.imm 50)
  | .vperm _ d v s i l fs fr => some (pOp 0x45 d ||| pf v 20 ||| pf s 25 ||| pf i 30 ||| pf l 35 ||| pb fs 42 ||| pf fr 43)
  | .vredInit _ d q v k ws w e => some (pOp 0x46 d ||| pf q 23 ||| pf v 26 ||| pf k 31 ||| pb ws 34 ||| pf w 35 ||| pf e 45)
  | .vredAcc _ d q v e f l s i b => some (pOp 0x46 d ||| pf (1 : BitVec 3) 20 ||| pf q 23 ||| pf v 26 ||| pf e 31 |||
      pf f 37 ||| pb l 41 ||| pf s 42 ||| pf i 44 ||| pf b 52)
  | .vredMerge _ d q v => some (pOp 0x46 d ||| pf (2 : BitVec 3) 20 ||| pf q 23 ||| pf v 26)
  | .vredPhase _ d q => some (pOp 0x46 d ||| pf (3 : BitVec 3) 20 ||| pf q 23)
  | .vredOut _ d q v r => some (pOp 0x46 d ||| pf (4 : BitVec 3) 20 ||| pf q 23 ||| pf v 26 ||| pf r 31)
  | .vredSmout _ d q v s e => some (pOp 0x46 d ||| pf (5 : BitVec 3) 20 ||| pf q 23 ||| pf v 26 ||| pf s 31 ||| pf e 36)
  | .vscan _ d q v e f l s i => some (pOp 0x47 d ||| pf q 20 ||| pf v 23 ||| pf e 28 ||| pf f 34 ||| pb l 38 |||
      pf s 39 ||| pf i 41)
  | .vtopkInit _ d k => some (pOp 0x48 d ||| pf k 27)
  | .vtopkAcc _ d v e b => some (pOp 0x48 d ||| pf (1 : BitVec 2) 20 ||| pf v 22 ||| pf e 27 ||| pf b 33)
  | .vtopkMerge _ d v => some (pOp 0x48 d ||| pf (2 : BitVec 2) 20 ||| pf v 22)
  | .vtopkOut _ d v => some (pOp 0x48 d ||| pf (3 : BitVec 2) 20 ||| pf v 22)
  | .spfill _ d r c q ps pr cm => some (pOp 0x60 d ||| pSr r 20 ||| pf c 39 ||| pf q 42 ||| pf ps 47 ||| pf pr 50 ||| pf cm 55)
  | .spcopy _ d a b c q => some (pOp 0x61 d ||| pSa a 20 ||| pSa b 38 ||| pf c 56 ||| pf q 59)
  | .wsrd _ d b p r sp => some (pOp 0x62 d ||| pWb b 20 ||| pb p 37 ||| pf r 38 ||| pSr sp 44)
  | .wswr _ d b p r sp => some (pOp 0x63 d ||| pWb b 20 ||| pb p 37 ||| pf r 38 ||| pSr sp 44)
  | .kvrd _ d h g sp => some (pOp 0x64 d ||| pf h 20 ||| pf g 24 ||| pSr sp 27)
  | .kvwr _ d h g sp => some (pOp 0x65 d ||| pf h 20 ||| pf g 24 ||| pSr sp 27)
  | .kvwrRemote _ d h g sp r t => some (pOp 0x65 d ||| pf h 20 ||| pf g 24 ||| pSr sp 27 ||| pb true 46 ||| pf r 47 ||| pf t 51)
  | .send _ d sp c r v k t => some (pOp 0x66 d ||| pSr sp 20 ||| pf c 39 ||| pf r 42 ||| pf v 46 ||| pf k 48 ||| pf t 52)
  | .sendacc _ d k r e c t => some (pOp 0x67 d ||| pf k 20 ||| pf r 24 ||| pf e 28 ||| pf c 30 ||| pf t 34)
  | .sendxor _ d sp c r v k t => some (pOp 0x68 d ||| pSr sp 20 ||| pf c 39 ||| pf r 42 ||| pf v 46 ||| pf k 48 ||| pf t 52)
  | .recvData _ d t sp => some (pOp 0x69 d ||| pf t 23 ||| pSr sp 35)
  | .recvAccumulator _ d t k => some (pOp 0x69 d ||| pf (1 : BitVec 3) 20 ||| pf t 23 ||| pf k 35)
  | .recvFastAdd _ d t sp => some (pOp 0x69 d ||| pf (2 : BitVec 3) 20 ||| pf t 23 ||| pSr sp 35)
  | .recvXor _ d t sp => some (pOp 0x69 d ||| pf (3 : BitVec 3) 20 ||| pf t 23 ||| pSr sp 35)
  | .recvOnDieRead _ d c r sp => some (pOp 0x69 d ||| pf (4 : BitVec 3) 20 ||| pf c 23 ||| pf r 32 ||| pSr sp 45)
  | .hostrd _ d b o sp c t => some (pOp 0x6A d ||| pf b 20 ||| pf o 26 ||| pSr sp 30 ||| pf c 49 ||| pf t 52)
  | .hostwr _ d b o sp c t => some (pOp 0x6B d ||| pf b 20 ||| pf o 26 ||| pSr sp 30 ||| pf c 49 ||| pf t 52)
  | .kdlook _ d sp c r t => some (pOp 0x6C d ||| pSr sp 20 ||| pf c 39 ||| pf r 42 ||| pf t 46)
  | .kdput _ d sp c o t => some (pOp 0x6D d ||| pSr sp 20 ||| pf c 39 ||| pb o 42 ||| pf t 43)
  | _ => none

/-- The instruction that a word spells on a core; none where the loader rejects it: a reserved opcode, code, bit or
register number (08 R172). -/
def decodeZvis (c : CoreId) (w : W64) : Option Instr :=
  match rawZvis c w with
  | some i => if Machine.staticOk i && encodeZvis i == some w then some i else none
  | none => none

/-- The rows of opcode_table.json give no bits: no word spells a command. -/
def decodeTableWord (_nbits _w : Nat) : Option Instr := none

end Sys2Proof
end

