-- ==== Sys2Proof/Machine/Num.lean ====
section
/-! DEFINITION. Number formats, dyadic values and rounding (02_arithmetic.md R18 to R40, 06_vector_engine.md R123 to R128). -/

namespace Sys2Proof.Machine

/-- The element formats of Table 2.2. -/
inductive Fmt where
  | e4m3 | e5m2 | int8 | e2m1 | int4 | uint4 | bf16 | fp16 | fp32 | int32 | lacc
  deriving DecidableEq, Repr

/-- The format of a 4-bit code (Table 2.2); codes 0xB to 0xF are reserved. -/
def Fmt.ofCode : Nat → Option Fmt
  | 0 => some .e4m3 | 1 => some .e5m2 | 2 => some .int8 | 3 => some .e2m1 | 4 => some .int4
  | 5 => some .uint4 | 6 => some .bf16 | 7 => some .fp16 | 8 => some .fp32 | 9 => some .int32
  | 10 => some .lacc | _ => none

/-- The code of a format (Table 2.2). -/
def Fmt.code : Fmt → Nat
  | .e4m3 => 0 | .e5m2 => 1 | .int8 => 2 | .e2m1 => 3 | .int4 => 4 | .uint4 => 5 | .bf16 => 6
  | .fp16 => 7 | .fp32 => 8 | .int32 => 9 | .lacc => 10

/-- Bits of one element. -/
def Fmt.width : Fmt → Nat
  | .e4m3 | .e5m2 | .int8 => 8
  | .e2m1 | .int4 | .uint4 => 4
  | .bf16 | .fp16 => 16
  | .fp32 | .int32 | .lacc => 32

/-- A decoded element: NaN, an infinity, or `(-1)^neg × m × 2^e` (R18; every finite value is dyadic). -/
inductive Val where
  | nan
  | inf (neg : Bool)
  | num (neg : Bool) (m : Nat) (e : Int)
  deriving DecidableEq, Repr

/-- The parameters of a floating-point format: exponent bits, fraction bits, bias (Table 2.1). -/
structure FpSpec where
  eb : Nat
  fb : Nat
  bias : Int
  deriving DecidableEq, Repr

/-- Table 2.1, the floating-point rows. -/
def Fmt.fp : Fmt → Option FpSpec
  | .e4m3 => some ⟨4, 3, 7⟩
  | .e5m2 => some ⟨5, 2, 15⟩
  | .e2m1 => some ⟨2, 1, 1⟩
  | .bf16 => some ⟨8, 7, 127⟩
  | .fp16 => some ⟨5, 10, 15⟩
  | .fp32 => some ⟨8, 23, 127⟩
  | _ => none

/-- A format whose all-ones exponent holds infinities and NaNs as IEEE 754 lays down. -/
def Fmt.ieee : Fmt → Bool
  | .e5m2 | .bf16 | .fp16 | .fp32 => true
  | _ => false

/-- The value of a floating-point encoding (R18). -/
def decodeFp (f : Fmt) (p : FpSpec) (b : Nat) : Val :=
  let neg := bitN b (p.eb + p.fb)
  let ex := bitsN b (p.eb + p.fb - 1) p.fb
  let fr := b % 2 ^ p.fb
  if f.ieee && ex == 2 ^ p.eb - 1 then (if fr == 0 then .inf neg else .nan)
  else if f == .e4m3 && ex == 15 && fr == 7 then .nan
  else if ex == 0 then .num neg fr (1 - p.bias - p.fb)
  else .num neg (2 ^ p.fb + fr) (ex - p.bias - p.fb)

/-- The value of an `n`-bit two's-complement integer. -/
def decodeInt (n b : Nat) : Val :=
  if bitN b (n - 1) then .num true (2 ^ n - b) 0 else .num false b 0

/-- The value of an element; bits above the format's width are ignored (R113). -/
def Fmt.decode (f : Fmt) (raw : Nat) : Val :=
  let b := raw % 2 ^ f.width
  match f.fp with
  | some p => decodeFp f p b
  | none =>
    match f with
    | .uint4 => .num false b 0
    | .int8 => decodeInt 8 b
    | .int4 => decodeInt 4 b
    | _ => decodeInt 32 b

/-- The factor of an E8M0 block scale as a power of two; 0xFF is the NaN scale (R22). -/
def scaleExp (e : Nat) : Option Int := if e == 255 then none else some ((e : Int) - 127)

/-- A value multiplied by a block scale (R22, R126). -/
def Val.scaled (v : Val) (s : Nat) : Val :=
  match scaleExp s, v with
  | none, _ => .nan
  | some k, .num n m e => .num n m (e + k)
  | _, v => v

/-- `floor (log2 m)` for m > 0, by its bit length. -/
def log2Fuel : Nat → Nat → Nat
  | 0, _ => 0
  | f + 1, m => if m < 2 then 0 else log2Fuel f (m / 2) + 1

/-- `floor (log2 m)`; 0 for m = 0. -/
def flog2 (m : Nat) : Nat := Nat.log2 m

/-- The rounding modes of Table 2.7. -/
inductive RM where
  | ne | tz | dn | up | st
  deriving DecidableEq, Repr

/-- Codes 5 to 7 are reserved (Table 2.7). -/
def RM.ofCode : Nat → Option RM
  | 0 => some .ne | 1 => some .tz | 2 => some .dn | 3 => some .up | 4 => some .st | _ => none

/-- Rounds the magnitude `m × 2^e` to an integer. `u` is the draw of stochastic mode (R40): the magnitude
rounds up where the 32 most significant discarded bits exceed it. Answers the integer and whether it is exact. -/
def roundMag (rm : RM) (u : Nat) (neg : Bool) (m : Nat) (e : Int) : Nat × Bool :=
  if 0 ≤ e then (m * 2 ^ e.toNat, true)
  else
    let k := (-e).toNat
    let q := m / 2 ^ k
    let r := m % 2 ^ k
    let up := match rm with
      | .ne => decide (2 ^ k < 2 * r) || (2 * r == 2 ^ k && q % 2 == 1)
      | .tz => false
      | .dn => neg && r != 0
      | .up => !neg && r != 0
      | .st => decide (u < r * 2 ^ 32 / 2 ^ k)
    (if up then q + 1 else q, r == 0)

/-- The signed integer nearest to `±m × 2^e` with ties to even, and whether it is exact (R28). -/
def roundInt (neg : Bool) (m : Nat) (e : Int) : Int × Bool :=
  let (q, ex) := roundMag .ne 0 neg m e
  (if neg then -(q : Int) else q, ex)

/-- What a rounding did: the flags that Tables 2.8 and 6.11 name. -/
structure RFlags where
  inexact : Bool := false
  ovf : Bool := false
  unf : Bool := false
  nan : Bool := false
  dz : Bool := false
  deriving DecidableEq, Repr

/-- The OR of two sets of rounding flags. -/
def RFlags.or (a b : RFlags) : RFlags :=
  ⟨a.inexact || b.inexact, a.ovf || b.ovf, a.unf || b.unf, a.nan || b.nan, a.dz || b.dz⟩

/-- Largest finite magnitude as a significand and an exponent (Table 2.1). -/
def Fmt.maxFinite : Fmt → Nat × Int
  | .e4m3 => (14, 5)
  | .e5m2 => (7, 13)
  | .e2m1 => (3, 1)
  | .bf16 => (255, 120)
  | .fp16 => (2047, 5)
  | .fp32 => (16777215, 104)
  | _ => (0, 0)

/-- Whether `a × 2^i` is below `b × 2^j`. -/
def ltPow (a : Nat) (i : Int) (b : Nat) (j : Int) : Bool :=
  if i ≤ j then decide (a < b * 2 ^ (j - i).toNat) else decide (a * 2 ^ (i - j).toNat < b)

/-- The encoding of infinity, or what stands in its place: FP8 E4M3 has 0x7F (R127). -/
def Fmt.infBits (f : Fmt) (neg : Bool) : Nat :=
  match f with
  | .e4m3 => 0x7F
  | .e5m2 => if neg then 0xFC else 0x7C
  | .bf16 => if neg then 0xFF80 else 0x7F80
  | .fp16 => if neg then 0xFC00 else 0x7C00
  | .e2m1 => if neg then 0xF else 0x7
  | _ => if neg then 0xFF800000 else 0x7F800000

/-- The encoding of the largest finite value with a sign. -/
def Fmt.maxBits (f : Fmt) (neg : Bool) : Nat :=
  match f with
  | .e4m3 => if neg then 0xFE else 0x7E
  | .e5m2 => if neg then 0xFB else 0x7B
  | .bf16 => if neg then 0xFF7F else 0x7F7F
  | .fp16 => if neg then 0xFBFF else 0x7BFF
  | .e2m1 => if neg then 0xF else 0x7
  | _ => if neg then 0xFF7FFFFF else 0x7F7FFFFF

/-- The canonical quiet NaN of a format (R20); FP4 has +0 in its place (Table 6.7). -/
def Fmt.nanBits : Fmt → Nat
  | .e4m3 | .e5m2 => 0x7F
  | .bf16 => 0x7FC0
  | .fp16 => 0x7E00
  | .fp32 => 0x7FC00000
  | _ => 0

/-- Encodes `±n × 2^q`, which the format holds exactly. -/
def encodeExact (p : FpSpec) (neg : Bool) (n : Nat) (q : Int) : Nat :=
  let sgn := if neg then 2 ^ (p.eb + p.fb) else 0
  if n == 0 then sgn
  else
    let top := flog2 n
    let e := (top : Int) + q
    if e < 1 - p.bias then
      sgn + (n * 2 ^ (q - (1 - p.bias - p.fb)).toNat)
    else
      let sig := if p.fb ≤ top then n / 2 ^ (top - p.fb) else n * 2 ^ (p.fb - top)
      sgn + (e + p.bias).toNat * 2 ^ p.fb + (sig - 2 ^ p.fb)

/-- Rounds the nonzero magnitude `m × 2^e` to a floating-point format (R39, R40). With `sat`, an overflow
gives the largest finite value (R127). -/
def roundFp (f : Fmt) (p : FpSpec) (rm : RM) (u : Nat) (sat neg : Bool) (m : Nat) (e : Int) : Nat × RFlags :=
  let ex := (flog2 m : Int) + e
  let emin := 1 - p.bias
  let q := (if ex < emin then emin else ex) - p.fb
  let (n, exact) := roundMag rm u neg m (e - q)
  let (mx, me) := f.maxFinite
  if ltPow mx me n q then
    let toInf := match rm with
      | .ne | .st => true
      | .tz => false
      | .dn => neg
      | .up => !neg
    let bits := if sat || f == .e2m1 || !toInf then f.maxBits neg else f.infBits neg
    (bits, { inexact := true, ovf := true })
  else
    let tiny := ltPow n q 1 emin
    (encodeExact p neg n q, { inexact := !exact, unf := tiny && !exact })

/-- Least and greatest value of an integer format. -/
def Fmt.intRange : Fmt → Int × Int
  | .int8 => (-128, 127)
  | .int4 => (-8, 7)
  | .uint4 => (0, 15)
  | _ => (-2147483648, 2147483647)

/-- The bits of an integer in `w` bits of two's complement. -/
def intBits (w : Nat) (v : Int) : Nat := (v % (2 ^ w : Int)).toNat

/-- Rounds to an integer format and saturates (R39, Table 6.7). -/
def roundToInt (f : Fmt) (rm : RM) (u : Nat) (neg : Bool) (m : Nat) (e : Int) : Nat × RFlags :=
  let (n, exact) := roundMag rm u neg m e
  let v : Int := if neg then -(n : Int) else n
  let (lo, hi) := f.intRange
  if v < lo then (intBits f.width lo, { inexact := true, ovf := true })
  else if hi < v then (intBits f.width hi, { inexact := true, ovf := true })
  else (intBits f.width v, { inexact := !exact, unf := n == 0 && !exact })

/-- Converts a value to a format by R125 and Table 6.7; the flags are those that the table names. -/
def convert (f : Fmt) (rm : RM) (u : Nat) (sat : Bool) (v : Val) : Nat × RFlags :=
  match f.fp, v with
  | some _, .nan =>
    (f.nanBits, { nan := f == .e4m3 || f == .e5m2 || f == .e2m1 })
  | some _, .inf neg =>
    match f with
    | .e4m3 => (if sat then f.maxBits neg else 0x7F, { ovf := true })
    | .e5m2 => if sat then (f.maxBits neg, { ovf := true }) else (f.infBits neg, {})
    | .e2m1 => (f.maxBits neg, { ovf := true })
    | _ => (f.infBits neg, {})
  | some p, .num neg m e =>
    let sat := sat && (f == .e4m3 || f == .e5m2)
    if m == 0 then (encodeExact p neg 0 0, {}) else roundFp f p rm u sat neg m e
  | none, .nan => (intBits f.width f.intRange.1, { nan := true })
  | none, .inf neg => (intBits f.width (if neg then f.intRange.1 else f.intRange.2), { ovf := true })
  | none, .num neg m e => roundToInt f rm u neg m e

/-- The exponent e(x) = floor(log2 |x|) of a finite nonzero value (R36). -/
def Val.exp : Val → Option Int
  | .num _ m e => if m == 0 then none else some ((flog2 m : Int) + e)
  | _ => none

end Sys2Proof.Machine
end

