-- ==== Sys2Proof/Machine/Real.lean ====
section
/-! DEFINITION. FP32 arithmetic of the element programs and the correctly rounded functions (06 R123, R124). -/

namespace Sys2Proof.Machine

/-- Integer square root by trial of each bit from `b` down: the largest r with r² ≤ n, given r₀² ≤ n. -/
def isqrtBits (n : Nat) : Nat → Nat → Nat
  | 0, r => r
  | b + 1, r =>
    let t := r + 2 ^ b
    isqrtBits n b (if t * t ≤ n then t else r)

/-- `floor (sqrt n)`. -/
def isqrt (n : Nat) : Nat := isqrtBits n (flog2 n / 2 + 1) 0

/-- A signed significand as an integer. -/
def signed (neg : Bool) (m : Nat) : Int := if neg then -(m : Int) else m

/-- The exact sum of two finite values; `dn` says that an exact zero of unlike signs is −0 (R123). -/
def addFin (dn : Bool) (n₁ : Bool) (m₁ : Nat) (e₁ : Int) (n₂ : Bool) (m₂ : Nat) (e₂ : Int) : Val :=
  let e := if e₁ ≤ e₂ then e₁ else e₂
  let v := signed n₁ m₁ * 2 ^ (e₁ - e).toNat + signed n₂ m₂ * 2 ^ (e₂ - e).toNat
  if v = 0 then .num (if n₁ == n₂ then n₁ else dn) 0 0
  else .num (decide (v < 0)) v.natAbs e

/-- A + B before rounding, and whether the operation is invalid. -/
def Val.add (rm : RM) : Val → Val → Val × Bool
  | .nan, _ => (.nan, false)
  | _, .nan => (.nan, false)
  | .inf a, .inf b => if a == b then (.inf a, false) else (.nan, true)
  | .inf a, _ => (.inf a, false)
  | _, .inf b => (.inf b, false)
  | .num n₁ m₁ e₁, .num n₂ m₂ e₂ => (addFin (rm == .dn) n₁ m₁ e₁ n₂ m₂ e₂, false)

/-- The value with its sign inverted. -/
def Val.neg : Val → Val
  | .nan => .nan
  | .inf a => .inf (!a)
  | .num n m e => .num (!n) m e

/-- A × B before rounding, and whether the operation is invalid. -/
def Val.mul : Val → Val → Val × Bool
  | .nan, _ => (.nan, false)
  | _, .nan => (.nan, false)
  | .inf a, .inf b => (.inf (a != b), false)
  | .inf a, .num n m _ => if m == 0 then (.nan, true) else (.inf (a != n), false)
  | .num n m _, .inf b => if m == 0 then (.nan, true) else (.inf (n != b), false)
  | .num n₁ m₁ e₁, .num n₂ m₂ e₂ => (.num (n₁ != n₂) (m₁ * m₂) (e₁ + e₂), false)

/-- Rounds a value to FP32; `inv` marks an invalid operation (R123). -/
def toF32 (rm : RM) (r : Val × Bool) : Nat × RFlags :=
  let (b, f) := convert .fp32 rm 0 false r.1
  (b, { f with nan := r.2 })

/-- The value of an FP32 pattern. -/
def f32 (b : Nat) : Val := Fmt.fp32.decode b

/-- FADD. -/
def fAdd (rm : RM) (a b : Nat) : Nat × RFlags := toF32 rm ((f32 a).add rm (f32 b))

/-- FSUB. -/
def fSub (rm : RM) (a b : Nat) : Nat × RFlags := toF32 rm ((f32 a).add rm (f32 b).neg)

/-- FMUL. -/
def fMul (rm : RM) (a b : Nat) : Nat × RFlags := toF32 rm ((f32 a).mul (f32 b))

/-- FMA, rounded once. -/
def fFma (rm : RM) (a b c : Nat) : Nat × RFlags :=
  let p := (f32 a).mul (f32 b)
  if p.2 then toF32 rm (match f32 c with | .nan => (.nan, false) | _ => (.nan, true))
  else toF32 rm (p.1.add rm (f32 c))

/-- The order of values with −0 below +0 (R123, R133): a key that rises with the rank; NaN has none. -/
def rankKey (b : Nat) : Option Int :=
  match f32 b with
  | .nan => none
  | _ => some (if bitN b 31 then -((b % 2 ^ 31 : Nat) : Int) - 1 else ((b % 2 ^ 31 : Nat) : Int))

/-- FMIN and FMAX (R123). -/
def fMinMax (mx : Bool) (a b : Nat) : Nat :=
  match rankKey a, rankKey b with
  | none, none => Fmt.fp32.nanBits
  | none, _ => b
  | _, none => a
  | some x, some y => if mx then (if x < y then b else a) else (if y < x then b else a)

/-- A numeric comparison key, with −0 equal to +0. -/
def cmpKey (b : Nat) : Option Int :=
  match rankKey b with
  | none => none
  | some k => some (if k < 0 then k + 1 else k)

/-- FCLT, FCLE, FCEQ: 0 with a NaN operand. -/
def fCmp (op : Int → Int → Bool) (a b : Nat) : Nat :=
  match cmpKey a, cmpKey b with
  | some x, some y => if op x y then 1 else 0
  | _, _ => 0

/-- FRINT: an integral value in the mode; a special operand and a zero keep their value (R123). -/
def fRint (rm : RM) (a : Nat) : Nat :=
  match f32 a with
  | .nan => Fmt.fp32.nanBits
  | .inf n => Fmt.fp32.infBits n
  | .num n m e =>
    let (q, _) := roundMag rm 0 n m e
    (convert .fp32 .ne 0 false (.num n q 0)).1

/-- Bits of working precision of the functions below. -/
def fnPrec : Nat := 128

/-- A value known to lie strictly above `q × 2^e` and below `(q + 1) × 2^e`, or exact: one more bit carries it. -/
def sticky (neg : Bool) (q : Nat) (e : Int) (exact : Bool) : Val := .num neg (2 * q + if exact then 0 else 1) (e - 1)

/-- RCP (Table 6.6). -/
def fRcp (rm : RM) (a : Nat) : Nat × RFlags :=
  match f32 a with
  | .nan => (Fmt.fp32.nanBits, {})
  | .inf n => ((convert .fp32 rm 0 false (.num n 0 0)).1, {})
  | .num n m e =>
    if m == 0 then (Fmt.fp32.infBits n, { dz := true })
    else
      let q := 2 ^ fnPrec / m
      toF32 rm (sticky n q (-e - (fnPrec : Int)) (q * m == 2 ^ fnPrec), false)

/-- RSQRT (Table 6.6). -/
def fRsqrt (rm : RM) (a : Nat) : Nat × RFlags :=
  match f32 a with
  | .nan => (Fmt.fp32.nanBits, {})
  | .inf n => if n then (Fmt.fp32.nanBits, { nan := true }) else (0, {})
  | .num n m e =>
    if m == 0 then (Fmt.fp32.infBits n, { dz := true })
    else if n then (Fmt.fp32.nanBits, { nan := true })
    else
      let (m, e) := if e % 2 == 0 then (m, e) else (2 * m, e - 1)
      let q := isqrt (2 ^ (2 * fnPrec) / m)
      toF32 rm (sticky false q (-(e / 2) - (fnPrec : Int)) (q * q * m == 2 ^ (2 * fnPrec)), false)

/-- The product of the roots 2^(1/2), 2^(1/4), … that the bits of `r` (a fraction of `k` bits) select, scaled by
2^fnPrec; `c` is the root that the next lower bit selects. -/
def expRoots (r : Nat) : Nat → Nat → Nat → Nat
  | 0, _, acc => acc
  | k + 1, c, acc =>
    let c := isqrt (c * 2 ^ fnPrec)
    expRoots r k c (if bitN r k then acc * c / 2 ^ fnPrec else acc)

/-- 2^x for a finite FP32 x, as a value to be rounded. -/
def exp2Val (neg : Bool) (m : Nat) (e : Int) : Val :=
  if m == 0 then .num false 1 0
  else
    let top := (flog2 m : Int) + e
    if 9 ≤ top then (if neg then .num false 1 (-400) else .num false 1 400)
    else if top < -40 then
      (if neg then .num false (2 ^ 60 - 1) (-60) else .num false (2 ^ 60 + 1) (-60))
    else if 0 ≤ e then
      let k : Int := signed neg (m * 2 ^ e.toNat)
      .num false 1 k
    else
      let w := (-e).toNat
      let v := signed neg m
      let n := v.fdiv (2 ^ w : Int)
      let r := (v - n * (2 ^ w : Int)).toNat
      if r == 0 then .num false 1 n
      else sticky false (expRoots r w (2 ^ (fnPrec + 1)) (2 ^ fnPrec)) (n - (fnPrec : Int)) false

/-- EXP2 (Table 6.6). -/
def fExp2 (rm : RM) (a : Nat) : Nat × RFlags :=
  match f32 a with
  | .nan => (Fmt.fp32.nanBits, {})
  | .inf n => (if n then 0 else Fmt.fp32.infBits false, {})
  | .num n m e => toF32 rm (exp2Val n m e, false)

/-- The next `k` binary digits of log2 of f / 2^fnPrec, for f / 2^fnPrec in [1, 2), by repeated squaring. -/
def logDigits : Nat → Nat → Nat → Nat
  | 0, _, acc => acc
  | k + 1, f, acc =>
    let g := f * f / 2 ^ (2 * 96)
    if 2 ^ (2 * 96 + 1) ≤ g then logDigits k (g / 2) (2 * acc + 1) else logDigits k g (2 * acc)

/-- log2 of m × 2^e with m > 0, as a value to be rounded; working fraction of 192 bits, 96 digits. -/
def log2Val (m : Nat) (e : Int) : Val :=
  let t := flog2 m
  let k := (t : Int) + e
  let f := m * 2 ^ 192 / 2 ^ t
  if f == 2 ^ 192 then .num (decide (k < 0)) k.natAbs 0
  else
    let d := logDigits 96 f 0
    -- log2 lies strictly between (k × 2^96 + d) and one more, in units of 2^−96
    let v : Int := (k * 2 ^ 96 + d) * 2 + 1
    .num (decide (v < 0)) v.natAbs (-97)

/-- LOG2 (Table 6.6). -/
def fLog2 (rm : RM) (a : Nat) : Nat × RFlags :=
  match f32 a with
  | .nan => (Fmt.fp32.nanBits, {})
  | .inf n => if n then (Fmt.fp32.nanBits, { nan := true }) else (Fmt.fp32.infBits false, {})
  | .num n m e =>
    if m == 0 then (Fmt.fp32.infBits true, { dz := true })
    else if n then (Fmt.fp32.nanBits, { nan := true })
    else toF32 rm (log2Val m e, false)

end Sys2Proof.Machine
end

