-- ==== Sys2Proof/Config.lean ====
section
/-! DEFINITION. What an implementation fixes and the spec leaves open: constants without a body. No proof can see a value
of one. -/

namespace Sys2Proof.Config

/-- A fresh open value of `w` bits, applied to State's counter `free` (log entry 5): a sample of the entropy source
(08 R191), the choice of a bow to sample (20 R461). -/
opaque freeWord (w : Nat) : Nat → BitVec w

/-- SHA-512 (09 R222, 17 R382, 19 R427): the named standard, uninterpreted. -/
opaque sha512 : List Byte → List Byte

/-- REASON and CLASS of the fault-log entry of a refused service access (04 R78): Table 20.5 has no code for it. -/
opaque serviceReason : BitVec 16
opaque serviceClass : Nat

/-- The key and salt, bytes 0 to 31 and 32 to 35, of a direction and rotation index, derived by HKDF-Expand from the master secret of a
session of a port (19 R445). Uninterpreted. -/
opaque linkKey (port session dir index : Nat) : List Byte

/-- AES-256-GCM of a data frame (11 R281) under key and nonce, with additional data: ciphertext and tag; and back, none where the tag does
not verify. Uninterpreted. -/
opaque linkSeal (key nonce : List Byte) : List Byte → List Byte → List Byte × List Byte
opaque linkOpen (key nonce : List Byte) : List Byte → List Byte → List Byte → Option (List Byte)

/-- What link-control frames carry in place of cells (11 R261): the training and retune patterns, a hello record from place, port, shape
digest, epoch and policy; the training pattern of LIGHT and TRAIN on a lane; a lane's alignment marker (R258). The spec gives no layout. -/
opaque trainingBody : List Byte
opaque retuneBody : List Byte
opaque helloBody : Nat → Nat → List Byte → Bool → Bool → List Byte
opaque trainingPattern : Nat → List Nat
opaque alignMarker : Nat → BitVec 120

/-- The payload of the cell of the n-th message on a channel, CTL or MGT (11 R271). The spec gives the messages no layout. -/
opaque messageBytes (vc n : Nat) : List Byte

/-- AES-256-GCM encryption of a spill record (14 R336) under the key of a slot's generation, with salt, counter and additional
data: ciphertext and tag. Uninterpreted. -/
opaque gcmSeal (slot gen salt counter : Nat) : List Byte → List Byte → List Byte × List Byte

/-- AES-256-GCM decryption of a spill record: none where the tag does not verify (14 R337). Uninterpreted. -/
opaque gcmOpen (slot gen salt counter : Nat) : List Byte → List Byte → List Byte → Option (List Byte)

/-- Measurement 0x01, the ROM version, and what measurement 0x03 is taken of, the grade record (19 Table 19.2): fixed by the part. -/
opaque romVersion : List Byte
opaque gradeRecord : Bool → List Byte

/-- The bytes of the capo map from its factory section, faulty lanes and substitutions, and its field section, cores and substitutions
(19 Table 19.2). The spec gives no layout. -/
opaque capoMap : List (Nat × Nat) → List (Nat × Nat × Nat × Nat) → List Nat → List (Nat × Nat × Nat × Nat) → List Byte

/-- The 64 bytes of measurement 0x06 from what it covers: locks, debug mode, fixed-step modes, encryption policies, SVN floor
(19 Table 19.2, Table 19.3). The spec gives no layout. -/
opaque securityState : List Bool → Bool → List Bool → List Bool → Nat → List Byte

/-- Whether the firmware's rail model admits a core-rail voltage in mV at a multiplier (21 R489). -/
opaque railAdmits (mult vmv : Nat) : Bool

/-- STEPPING of ID_STEP, and the identity public key in SEC 1 uncompressed form (24 Table 24.2): fixed by the part. -/
opaque stepping : BitVec 8
opaque identityKey : List Byte

/-- The certificate chain that the package presents, from the value of measurement 0x02, and a signature of the alias key that derives
from it over the bytes signed (19 R432). Uninterpreted. -/
opaque certChain : List Byte → List Byte
opaque aliasSign : List Byte → List Byte → List Byte

/-- Whether an ECDSA P-521 signature verifies (17 R377; 19 R427): key (empty for the firmware key), bytes signed, signature.
Uninterpreted. -/
opaque verifies : List Byte → List Byte → List Byte → Bool

end Sys2Proof.Config
end

