-- ==== Sys2Proof/Machine/Philox.lean ====
section
/-! DEFINITION. Random draws (10 R234 to R237), digest coefficients (10 R240 to R242) and the CRC of block records
(04 R74). -/

namespace Sys2Proof.Machine

/-- The four words of a Philox counter or output. -/
structure Quad where
  x0 : W32
  x1 : W32
  x2 : W32
  x3 : W32
  deriving DecidableEq, Repr

/-- Upper half of a 64-bit product of words. -/
def mulhi (a b : W32) : W32 := BitVec.ofNat 32 (a.toNat * b.toNat / 2 ^ 32)

/-- Rounds of Philox-4×32 with the key advancing between them (R234). -/
def philoxRounds : Nat → Quad → W32 → W32 → Quad
  | 0, x, _, _ => x
  | n + 1, x, k0, k1 =>
    let m0 : W32 := 0xD2511F53
    let m1 : W32 := 0xCD9E8D57
    philoxRounds n ⟨mulhi m1 x.x2 ^^^ x.x1 ^^^ k0, m1 * x.x2, mulhi m0 x.x0 ^^^ x.x3 ^^^ k1, m0 * x.x0⟩
      (k0 + 0x9E3779B9) (k1 + 0xBB67AE85)

/-- Philox-4×32-10 (R234). -/
def philox (k0 k1 : W32) (c : Quad) : Quad := philoxRounds 10 c k0 k1

/-- Word n mod 4 of a block. -/
def Quad.word (q : Quad) (n : Nat) : W32 :=
  match n % 4 with | 0 => q.x0 | 1 => q.x1 | 2 => q.x2 | _ => q.x3

/-- The counter block of a draw (Table 10.2): kind, sub-index, position word, step words. -/
def drawBlock (seed : W64) (kind sub c1 : Nat) (step : W64) : Quad :=
  philox (seed.setWidth 32) ((seed >>> 32).setWidth 32)
    ⟨BitVec.ofNat 32 (kind * 2 ^ 28 + sub), BitVec.ofNat 32 c1, step.setWidth 32, (step >>> 32).setWidth 32⟩

/-- A program draw for element position p (R236). -/
def programDraw (seed step : W64) (kind sub : Nat) (p : W32) : Nat :=
  ((drawBlock seed kind sub (p.toNat / 4) step).word p.toNat).toNat

/-- The four words of a request draw (R237): the position is the token's, the step words are 0. -/
def requestDraw (seed : W64) (kind sub : Nat) (pos : Nat) : Quad := drawBlock seed kind sub pos 0

/-- The digest modulus 2^61 − 1 (R240). -/
def digestMod : Nat := 2 ^ 61 - 1

/-- The key of point q under salt S (R241). -/
def digestKey (salt : W64) (q : Nat) : W64 := salt + BitVec.ofNat 64 q * 0x9E3779B97F4A7C15

/-- The coefficient c(i) of a position (R240). -/
def digestCoeff64 (k i : W64) : Nat :=
  let z : W64 := (k ^^^ i) + 0x9E3779B97F4A7C15
  let z := (z ^^^ (z >>> 30)) * 0xBF58476D1CE4E5B9
  let z := (z ^^^ (z >>> 27)) * 0x94D049BB133111EB
  let z := z ^^^ (z >>> 31)
  ((z.toNat % (2 ^ 61 - 2)) ||| 1)

/-- The coefficient of a 32-bit position. -/
def digestCoeff (k : W64) (i : W32) : Nat := digestCoeff64 k (i.setWidth 64)

/-- Σ c(i) v(i) mod (2^61 − 1) over values from position `base` on (R240). -/
def digestSum (k : W64) : W32 → List Nat → Nat
  | _, [] => 0
  | p, v :: vs => (digestCoeff k p * v + digestSum k (p + 1) vs) % digestMod

/-- One byte of CRC-32C, reflected polynomial 0x82F63B78. -/
def crcBit : Nat → W32 → W32
  | 0, c => c
  | n + 1, c => crcBit n (if c.getLsbD 0 then (c >>> 1) ^^^ 0x82F63B78 else c >>> 1)

/-- CRC-32C register advanced over bytes. -/
def crcBytes : W32 → List Byte → W32
  | c, [] => c
  | c, b :: bs => crcBytes (crcBit 8 (c ^^^ b.setWidth 32)) bs

/-- CRC-32C of a byte string. -/
def crc32c (bs : List Byte) : W32 := ~~~ (crcBytes 0xFFFFFFFF bs)

end Sys2Proof.Machine
end

