-- ==== Sys2Proof/Machine/Tab.lean ====
section
/-! DEFINITION. Sparse tables: sorted lists of (index, value) pairs in one canonical form, and byte memories
built from them. -/

namespace Sys2Proof.Machine

/-- A table of values by index. Canonical form: indexes strictly rising, no entry equal to the value
that an unlisted index reads as. -/
abbrev Tab (α : Type) := List (Nat × α)

/-- The value at index `k`; an unlisted index reads as `d`. -/
def Tab.get {α : Type} (d : α) : Tab α → Nat → α
  | [], _ => d
  | (j, v) :: m, k => if j == k then v else Tab.get d m k

/-- The table with the value `v` at index `k`: the entry is removed where `v` is the default. -/
def Tab.set {α : Type} [DecidableEq α] (d : α) : Tab α → Nat → α → Tab α
  | [], k, v => if v = d then [] else [(k, v)]
  | (j, w) :: m, k, v =>
    if k < j then (if v = d then (j, w) :: m else (k, v) :: (j, w) :: m)
    else if k = j then (if v = d then m else (k, v) :: m)
    else (j, w) :: Tab.set d m k v

/-- The table with `f` applied at index `k`. -/
def Tab.upd {α : Type} [DecidableEq α] (d : α) (m : Tab α) (k : Nat) (f : α → α) : Tab α :=
  Tab.set d m k (f (Tab.get d m k))

/-- Indexes strictly rising from above `lo`, and no entry equal to the default. -/
def Tab.wfFrom {α : Type} [DecidableEq α] (d : α) : Option Nat → Tab α → Bool
  | _, [] => true
  | lo, (j, v) :: m =>
    (match lo with | none => true | some l => decide (l < j)) && !decide (v = d) && Tab.wfFrom d (some j) m

/-- The canonical form. -/
def Tab.wf {α : Type} [DecidableEq α] (d : α) (m : Tab α) : Bool := Tab.wfFrom d none m

/-- Writes the values of a list at `k`, `k + 1`, and so on. -/
def Tab.setList {α : Type} [DecidableEq α] (d : α) : Tab α → Nat → List α → Tab α
  | m, _, [] => m
  | m, k, v :: vs => Tab.setList d (Tab.set d m k v) (k + 1) vs

/-- The `n` values from index `k` upward. -/
def Tab.getList {α : Type} (d : α) (m : Tab α) (k : Nat) : Nat → List α
  | 0 => []
  | n + 1 => Tab.get d m k :: Tab.getList d m (k + 1) n

/-- The table without the entries whose index lies in `lo` to `hi - 1`. -/
def Tab.clearRange {α : Type} (m : Tab α) (lo hi : Nat) : Tab α :=
  m.filter (fun e => e.1 < lo || hi ≤ e.1)

/-- The indexes listed. -/
def Tab.keys {α : Type} (m : Tab α) : List Nat := m.map (·.1)

/-- A byte memory: addresses strictly rising, no entry 0x00; an unlisted byte reads 0 (R108, R503). -/
abbrev Mem := Tab Byte

/-- What an unlisted address of a byte memory reads as (log entry 4). -/
def Mem.unlisted : Byte := 0

/-- One byte. -/
def Mem.byte (m : Mem) (a : Nat) : Byte := Tab.get Mem.unlisted m a

/-- `n` bytes from address `a`. -/
def Mem.read (m : Mem) (a n : Nat) : List Byte := Tab.getList Mem.unlisted m a n

/-- Writes bytes from address `a`. -/
def Mem.write (m : Mem) (a : Nat) (bs : List Byte) : Mem := Tab.setList Mem.unlisted m a bs

/-- The canonical form of a byte memory. -/
def Memory.wf (m : Mem) : Bool := Tab.wf Mem.unlisted m

end Sys2Proof.Machine

namespace Sys2Proof.Machine

/-- A record by index in a sorted list; an unlisted index reads as `d` (tables of records, not memories). -/
def Recs.get {α : Type} (d : α) : List (Nat × α) → Nat → α
  | [], _ => d
  | (j, v) :: m, k => if j = k then v else Recs.get d m k

/-- Puts the record `v` at index `k`. -/
def Recs.put {α : Type} : List (Nat × α) → Nat → α → List (Nat × α)
  | [], k, v => [(k, v)]
  | (j, w) :: m, k, v =>
    if j = k then (k, v) :: m
    else if k < j then (k, v) :: (j, w) :: m
    else (j, w) :: Recs.put m k v

/-- Applies `f` to the record at index `k`. -/
def Recs.upd {α : Type} (d : α) (m : List (Nat × α)) (k : Nat) (f : α → α) : List (Nat × α) :=
  Recs.put m k (f (Recs.get d m k))

/-- Inserts `x` after the elements that may stand before it. -/
def insertBy {α : Type} (le : α → α → Bool) (x : α) : List α → List α
  | [] => [x]
  | y :: l => if le y x then y :: insertBy le x l else x :: y :: l

/-- Sorts by `le`; equal elements keep their order. -/
def sortBy {α : Type} (le : α → α → Bool) (l : List α) : List α := l.foldl (fun m x => insertBy le x m) []

end Sys2Proof.Machine
end

