-- ==== Sys2Proof/Machine/CoreState.lean ====
section
/-! DEFINITION. The state of one core: control core, lane row, vector engine and reduction unit, scratchpad, weight
store and move engine (02 to 08). -/

namespace Sys2Proof.Machine

/-- The reason codes of Tables 7.5 and 8.14. -/
inductive Reason where
  | formatPair | scaleMode | badField | badAddress | region | slotBusy | badRound | windowMismatch
  | regionUnderrun | regionFull | kind | flagUnderflow | divZero | badTarget | staleSignal
  | flagWaitTimeout | stepTooLong
  | badDest | transferSize | tidBusy | tidTableFull | tidUnknown | hostWindow | kvHandle | kdRegion
  | vcDenied | partition | formMismatch | digestMismatch
  deriving DecidableEq, Repr

/-- The code of a reason (Tables 7.5 and 8.14). -/
def Reason.code : Reason → Byte
  | .formatPair => 0x01 | .scaleMode => 0x02 | .badField => 0x03 | .badAddress => 0x04 | .region => 0x05
  | .slotBusy => 0x06 | .badRound => 0x07 | .windowMismatch => 0x08 | .regionUnderrun => 0x09
  | .regionFull => 0x0A | .kind => 0x0B | .flagUnderflow => 0x0C | .divZero => 0x0D | .badTarget => 0x0E
  | .staleSignal => 0x0F | .flagWaitTimeout => 0x10 | .stepTooLong => 0x11
  | .badDest => 0x20 | .transferSize => 0x21 | .tidBusy => 0x22 | .tidTableFull => 0x23 | .tidUnknown => 0x24
  | .hostWindow => 0x25 | .kvHandle => 0x26 | .kdRegion => 0x27 | .vcDenied => 0x28 | .partition => 0x29
  | .formMismatch => 0x2A | .digestMismatch => 0x2B

/-- An exception record (Table 7.4). -/
structure ExcRec where
  tick : W32
  offset : BitVec 24
  opcode : Byte
  source : BitVec 16
  reason : Reason
  detail : W32
  deriving DecidableEq, Repr

/-- A level of the loop stack (Table 7.1). -/
structure LoopLevel where
  remaining : W32
  body : BitVec 24
  deriving DecidableEq, Repr

/-- What the decoder of a control core does (07 R154, R158, R163). -/
inductive DecState where
  /-- Words are decoded as they come. -/
  | decoding
  /-- A WAITF waits for its flag; its scheduled tick and amount. -/
  | waiting (flag : BitVec 6) (n : BitVec 8) (tick : Nat)
  /-- A timed word is held because its queue is full (R154). -/
  | held (i : Instr) (tick : Nat)
  /-- A LOOP with count 0 passes over its body: the depth of loops inside it (R157). -/
  | skipping (depth : Nat)
  /-- HALT has been decoded (R158). -/
  | halted
  deriving DecidableEq, Repr

/-- An entry of an engine queue: the instruction, its scheduled step tick, its program offset and the registers
captured at decode (07 R150, R153). -/
structure QEntry where
  instr : Instr
  tick : Nat
  offset : BitVec 24
  regs : Tab W32
  deriving DecidableEq, Repr

/-- The control core (07 Table 7.1, R153 to R169). -/
structure Ctl where
  /-- A0..A15 at 0..15, C0..C7 at 16..23 (R145). -/
  regs : Tab W32
  flags : Tab Byte
  pendSig : Tab Byte
  /-- Flags whose pending count lost an increment (R162). -/
  pendLost : List Nat
  loops : List LoopLevel
  cursor : Nat
  skipCount : Nat
  recs : List ExcRec
  offset : BitVec 24
  dec : DecState
  /-- Words that wait for decoding to resume. -/
  stalled : List Instr
  laneQ : List QEntry
  vecQ : List QEntry
  moveQ : List QEntry
  finished : Bool
  lastMark : BitVec 16
  lastMarkTick : W32
  /-- The sticky arithmetic status, bits of Table 10.8. -/
  status : BitVec 16
  /-- Package tick of the step tick 0 of the core's step (R205). -/
  s0 : Nat
  /-- Occurrences of the mark that a replay stop names (10 R252). -/
  markSeen : Nat
  /-- Words are decoded for a step whose tick 0 has not begun: nothing issues yet (07 R151, 09 R219). -/
  preStart : Bool
  /-- The clock cycle in which the present WAITF began to wait (R164). -/
  waitFrom : Nat
  /-- Times that the core's program state has been reset (R164). -/
  aborts : Nat
  /-- The number of the step that runs on the core or, between steps, ran last (R162). -/
  ran : W64
  deriving DecidableEq, Repr

/-- A tuning-register set (03 R46, Table 3.1). -/
structure TuneSet where
  /-- Byte i of string j at 64 j + i. -/
  slices : Tab Byte
  /-- Scale position p of string j at 4 j + p; unlisted 0x7F. -/
  scales : Tab Byte
  fmt : BitVec 4
  trans : Bool
  square : Bool
  l : Nat
  /-- The block that it was strung from (20 R458). -/
  block : Nat
  deriving DecidableEq, Repr

/-- R47: zero slices, scale bytes 0x7F, INT8, normal, row-group, L 64. -/
def TuneSet.reset : TuneSet := ⟨[], [], 2, false, false, 64, 0⟩

/-- One long accumulator of one string without its window (02 Table 2.5). -/
structure Acc where
  i : BitVec 128
  inx : Bool
  ovf : Bool
  nan : Bool
  pinf : Bool
  ninf : Bool
  deriving DecidableEq, Repr

/-- I = 0 and no flag. -/
def Acc.zero : Acc := ⟨0, false, false, false, false, false⟩

/-- The operand of a bow as it is taken in its issue tick (03 R57 to R62). -/
structure BowOp where
  k : Nat
  nib : Bool
  e : Nat
  afmt : BitVec 2
  scale0 : Byte
  scale1 : Byte
  data : List Byte
  deriving DecidableEq, Repr

/-- What a BOWG still has to read in its second tick (03 R62; 09 R212): base, the first list row, the second list
row's number, the address of a scale pair, and the accesses per bank planned by the preview. -/
structure Gather where
  base : W32
  list0 : List Byte
  row1 : Nat
  scaleAt : Option Nat
  planned : Nat
  deriving DecidableEq, Repr

/-- A journal entry of a bow: one for each accumulator index that the bow adds into (20 R458). -/
structure Journal where
  tick : Nat
  k : Nat
  op : BowOp
  set : TuneSet
  window : Int
  /-- The 64 string sums. -/
  sums : List Int
  /-- Their predicted residues. -/
  residues : List Nat
  /-- Writes that the block had seen. -/
  writes : Nat
  deriving DecidableEq, Repr

/-- A sampled bow with its step number (20 R461); its reference has been compared. -/
structure Sample where
  step : W64
  entry : Journal
  checked : Bool
  deriving DecidableEq, Repr

/-- Physical lanes of a lane row: 64 strings' worth and two spares (03 R43). -/
def physLanes : Nat := 66

/-- The steering that a record of faulty physical lanes gives: string j is the j-th lane that is not faulty (03 R44). -/
def steering (faulty : List Nat) : List Nat := ((List.range physLanes).filter (fun p => !faulty.contains p)).take 64

/-- The lane row (03; 02 R26; 20 R456, R458, R461). -/
structure Lane where
  /-- The physical lane of each string, as the soundpost set it at boot (03 R44). -/
  steer : List Nat
  setA : TuneSet
  setB : TuneSet
  activeB : Bool
  /-- Accumulator k of string j at 64 k + j. -/
  acc : Tab Acc
  /-- Window base W of index k. -/
  windows : Tab Int
  /-- The 12-bit residue registers, 64 k + j. -/
  residues : Tab Nat
  journal : List Journal
  samples : List Sample
  /-- Debug mode: the bows that may meet a restring still in flight: issue tick, active set B, entry (03 R52). -/
  taken : List (Nat × Bool × QEntry)
  deriving DecidableEq, Repr

/-- A reduction state (06 R131, Table 6.9). -/
structure Red where
  kind : Nat
  w : Int
  acc : Acc
  /-- MAX, MIN, ARGMAX: the value; LSE: m. Meaningful when `has`. -/
  val : W32
  idx : W32
  has : Bool
  exp : Int
  seen : Nat
  nan : Bool
  special : Bool
  sumPhase : Bool
  infs : Nat
  c : W32
  d : W32
  deriving DecidableEq, Repr

/-- Kind NONE (R114). -/
def Red.empty : Red :=
  ⟨0, 0, Acc.zero, 0, 0xFFFFFFFF, false, -1024, 0, false, false, false, 0, 0, 0⟩

/-- An element program (06 R120). -/
structure EProg where
  ops : List W32
  consts : List W32
  deriving DecidableEq, Repr

/-- The vector engine and the reduction unit (06 R112, R131). -/
structure Vec where
  /-- Element j of register v at 64 v + j. -/
  regs : Tab W32
  red : List (Nat × Red)
  topkK : Nat
  /-- Kept (value, index) pairs, highest first. -/
  topk : List (W32 × W32)
  progs : List (Nat × EProg)
  consts : Tab W32
  deriving DecidableEq, Repr

/-- A circular region descriptor (05 Table 5.2). -/
structure Circ where
  base : Nat
  size : Nat
  head : Nat
  count : Nat
  flag : BitVec 6
  flagen : Bool
  overrun : Bool
  /-- COUNT as it stood at the start of a package tick in which it has changed: the tick and the count (05 R105). -/
  snap : Option (Nat × Nat)
  deriving DecidableEq, Repr

/-- The reset descriptor (Table 5.2). -/
def Circ.reset : Circ := ⟨0, 0, 0, 0, 0, false, false, none⟩

/-- FULL and EMPTY, derived from COUNT whenever it changes (Table 5.2, 05 R104). -/
def Circ.full (c : Circ) : Bool := c.count == c.size && c.size != 0
def Circ.isEmpty (c : Circ) : Bool := c.count == 0

/-- COUNT as it stood at the start of package tick t (05 R104, R105). -/
def Circ.countAt (c : Circ) (t : Nat) : Nat :=
  match c.snap with | some (u, n) => if u = t then n else c.count | none => c.count

/-- TAIL, derived (Table 5.2). -/
def Circ.tail (c : Circ) : Nat := if c.size = 0 then 0 else (c.head + c.count) % c.size

/-- The 128-bit descriptor that the host reads (Table 5.2). -/
def Circ.bits (c : Circ) : Nat :=
  c.base + 2 ^ 16 * c.size + 2 ^ 32 * c.head + 2 ^ 48 * c.tail + 2 ^ 64 * c.count + 2 ^ 80 * c.flag.toNat +
    2 ^ 86 * b01 c.flagen + 2 ^ 87 * b01 c.full + 2 ^ 88 * b01 c.isEmpty + 2 ^ 89 * b01 c.overrun

/-- A region descriptor of the weight store (04 Table 4.3). -/
structure Region where
  first : Nat
  count : Nat
  kind : Nat
  mirror : Bool
  partner : Nat
  deriving DecidableEq, Repr

/-- An unused descriptor. -/
def Region.unused : Region := ⟨0, 0, 0, false, 0⟩

/-- A block record (04 Table 4.1); the CRC is kept as stored. -/
structure BlockRec where
  crc : W32
  square : Bool
  /-- Scale byte n (record byte 8 + n); unlisted 0x7F. -/
  scales : Tab Byte
  deriving DecidableEq, Repr

/-- The 64-bit descriptor that the host reads (04 Table 4.3). -/
def Region.bits (r : Region) : Nat :=
  r.first + 2 ^ 16 * r.count + 2 ^ 32 * r.kind + 2 ^ 35 * b01 r.mirror + 2 ^ 36 * r.partner

/-- A word with a SECDED error (04 R81, 05 R109). -/
inductive WordErr where
  | single | double
  deriving DecidableEq, Repr

/-- A repair of a bank row (04 R88, R89). -/
structure Spare where
  bank : Nat
  row : Nat
  spare : Nat
  deriving DecidableEq, Repr

/-- The weight store with its scrubber and spare rows (04). -/
structure WStore where
  /-- Byte address 4,096 × block + 64 × row + byte in program-visible order (R71). -/
  mem : Mem
  records : List (Nat × BlockRec)
  regions : List (Nat × Region)
  /-- Bank words with a latent error: word k of bank n's row of block b at 512 b + 8 n + k (R81). -/
  errs : List (Nat × WordErr)
  /-- Words of the record array with a latent error: word k of block b's record at 33 b + k (R81). -/
  recErrs : List (Nat × WordErr)
  /-- Blocks whose restoration has not completed (R87). -/
  bad : List Nat
  /-- Corrected errors by bank (R82). -/
  corrected : Tab Nat
  spares : List Spare
  /-- Spare rows taken or unusable, per bank (R89, 22 R503). -/
  sparesUsed : Tab Nat
  scrubNext : Nat
  /-- Bank rows (64 × block + bank) corrected at the last visit of their block, and those that are to take a spare row
  (R89). -/
  scrubRows : List Nat
  spareDue : List Nat
  /-- Writes of each block so far, against which a journal entry is held (20 R458). -/
  writes : Tab Nat
  deriving DecidableEq, Repr

/-- The scratchpad (05). -/
structure SPad where
  mem : Mem
  errs : List (Nat × WordErr)
  /-- Uncorrectable detections since a passing drone visit (R110). -/
  unc : Nat
  corrected : Nat
  circ : List (Nat × Circ)
  /-- Words (byte address div 8) whose cells are faulty: a later read fails again (R109). -/
  faulty : List Nat
  deriving DecidableEq, Repr

/-- Why a transfer id is open (08 R188). -/
inductive TidForm where
  /-- RECV of forms 0, 2, 3: rows from a resolved base. -/
  | data | fast | xor
  /-- RECV of form 1: accumulator index. -/
  | acc (k : Nat)
  | kvwr | hostrd | hostwr | kdlook | kdput
  deriving DecidableEq, Repr

/-- The rows an operand names once resolved: absolute rows from `row`, or offsets from `pos` of a region (05 R102). -/
structure RowRef where
  /-- The region, or none for absolute rows. -/
  reg : Option Nat
  /-- Absolute first row, or the ring offset in the region. -/
  pos : Nat
  /-- The operand was tail-relative. -/
  tail : Bool
  deriving DecidableEq, Repr

/-- An open transfer id (08 R188, 12 R296, 13 R314 to R316). -/
structure OpenTid where
  tid : Nat
  form : TidForm
  rows : RowRef
  /-- Cells received (R296). -/
  rcvd : Nat
  /-- The total, once the LAST cell has come. -/
  total : Option Nat
  complete : Bool
  /-- Offset and opcode of the opener, for arrival records (R201). -/
  offset : BitVec 24
  opcode : Byte
  /-- Head cell of a contribution: the 32 bytes of Table 13.2. -/
  head : Option (List Byte)
  /-- Sum of the contribution's digest so far (13 R316). -/
  digest : Nat
  /-- The contribution is faulty or does not match and is discarded (R198, R317). -/
  discard : Bool
  mismatch : Bool
  /-- The contribution is faulty (13 R317). -/
  faulty : Bool
  /-- Items expected by a service: results or entries outstanding (R200). -/
  want : Nat
  got : Nat
  deriving DecidableEq, Repr

/-- A cell in the package, with the port by which it came (8: a core of this package) and the channel on which it
travelled (11 R273): it keeps its place in that port's receive buffer. -/
structure InCell where
  port : Nat
  chan : BitVec 3
  cell : Cell
  deriving DecidableEq, Repr

/-- A KV-write context (08 R195). -/
structure KvCtx where
  tid : Nat
  tenant : Nat
  /-- Its cells so far, the head cell among them. -/
  cells : List InCell
  rcvd : Nat
  total : Option Nat
  deriving DecidableEq, Repr

/-- The move engine's tables and the core's counters of the step (08, 10, 13, 20). -/
structure Xfer where
  tids : List OpenTid
  kvctx : List KvCtx
  /-- Cells in the outbound buffer, oldest first (09 R209). -/
  outbound : List Cell
  /-- The reply queue (12 R295). -/
  replies : List Cell
  /-- Cells of HOSTWR rows in the outbound buffer: (transfer id, host address, row bytes). -/
  hostOut : List (Nat × Nat × List Byte)
  /-- Cells that wait for room in a region (05 R106), for their id to open (08 R188), for the head of their contribution (13 R314), for a
KV-write context (08 R195), or SIGNALs of a later step (07 R162), with the flag in tid and the step number in the payload. -/
  waiting : List InCell
  digests : List (Nat × DigestPoint)
  varyDone : Bool
  staleReads : Nat
  droppedWrites : Nat
  deriving DecidableEq, Repr

/-- Counters of the fault detectors of one core (20 R458 to R462). -/
structure Detect where
  /-- Station times of the transients of the last 10 minutes (R458). -/
  transients : List Nat
  /-- Station times of its SEQ_MISCOMPARE faults of the last 10 minutes (R462). -/
  seqTimes : List Nat
  /-- Checker faults in the present step (R458). -/
  checkerFaults : Nat
  /-- An arbitration is open: the journal entry's tick (R458). -/
  arbOpen : Option Nat
  /-- The slot of idle ticks ends here (R460). -/
  idleUntil : Nat
  /-- Station time of its last passing drone visit (R461). -/
  lastVisit : Nat
  /-- A drone visit is asked for before the retry (R462). -/
  visitAsked : Bool
  /-- Retire the core when its step ends (Table 20.2). -/
  retireAtEnd : Bool
  deriving DecidableEq, Repr

/-- Debug mode: the last write of a row, register or accumulator index in the step (09 R230): the target (row r, 8192 + register,
16384 + index), the writer's scheduled tick and offset, the tick in which it landed. -/
structure Trail where
  target : Nat
  sched : Nat
  offset : W32
  landed : Nat
  deriving DecidableEq, Repr

/-- One core. -/
structure Core where
  ctl : Ctl
  lane : Lane
  vec : Vec
  sp : SPad
  ws : WStore
  xfer : Xfer
  det : Detect
  /-- First free package tick of each issue slot (03 R64, 06 R115, 08 R186). -/
  busy : Tab Nat
  trail : List Trail
  deriving DecidableEq, Repr

/-- The control core as it is cleared (07 R164; decoding at reset is log entry 3). -/
def Ctl.reset : Ctl :=
  { regs := [], flags := [], pendSig := [], pendLost := [], loops := [], cursor := 0, skipCount := 0, recs := [],
    offset := 0, dec := .decoding, stalled := [], laneQ := [], vecQ := [], moveQ := [], finished := false,
    lastMark := 0, lastMarkTick := 0, status := 0, s0 := 0, markSeen := 0, preStart := false, waitFrom := 0, aborts := 0, ran := 0 }

/-- The lane row after reset (R47, R27). -/
def Lane.reset : Lane :=
  { steer := steering [], setA := TuneSet.reset, setB := TuneSet.reset, activeB := false, acc := [], windows := [], residues := [],
    journal := [], samples := [], taken := [] }

/-- The vector engine after reset (R114). -/
def Vec.reset : Vec := { regs := [], red := [], topkK := 0, topk := [], progs := [], consts := [] }

/-- The weight store at reset. -/
def WStore.reset : WStore :=
  { mem := [], records := [], regions := [], errs := [], recErrs := [], bad := [], corrected := [], spares := [], sparesUsed := [],
    scrubNext := 0, scrubRows := [], spareDue := [], writes := [] }

/-- The scratchpad at reset (R108). -/
def SPad.reset : SPad := { mem := [], errs := [], unc := 0, corrected := 0, circ := [], faulty := [] }

/-- The move engine at reset. -/
def Xfer.reset : Xfer :=
  { tids := [], kvctx := [], outbound := [], replies := [], hostOut := [], waiting := [], digests := [], varyDone := false,
    staleReads := 0, droppedWrites := 0 }

/-- The detectors at reset. -/
def Detect.reset : Detect :=
  { transients := [], seqTimes := [], checkerFaults := 0, arbOpen := none, idleUntil := 0, lastVisit := 0,
    visitAsked := false, retireAtEnd := false }

/-- A core at reset. -/
def Core.reset : Core :=
  { ctl := Ctl.reset, lane := Lane.reset, vec := Vec.reset, sp := SPad.reset, ws := WStore.reset,
    xfer := Xfer.reset, det := Detect.reset, busy := [], trail := [] }

/-- A core whose domain has lost its power: what is wired stays, its steering (03 R44) and its faulty cells, and so does the count of
uncorrectable scratchpad detections (05 R110). -/
def Core.unpowered (x : Core) : Core :=
  { Core.reset with
    lane := { Lane.reset with steer := x.lane.steer }
    sp := { SPad.reset with unc := x.sp.unc, faulty := x.sp.faulty, errs := x.sp.errs.filter (fun e => x.sp.faulty.contains e.1) } }

end Sys2Proof.Machine
end

