-- ==== Sys2Proof/Machine/LandState.lean ====
section
/-! DEFINITION. Results in flight: what lands at the fixed latencies of 09 Table 9.1, each with its tick. -/

namespace Sys2Proof.Machine

/-- A term that reaches a string's accumulator (02 R30): a number at exponent, or a special outcome (Table 2.4). -/
inductive Term where
  | num (neg : Bool) (m : Nat) (e : Int)
  | nan
  | inf (neg : Bool)
  deriving DecidableEq, Repr

/-- Where the rows that a move instruction reads go (08 R187, R193 to R200). -/
inductive RowSink where
  /-- SEND and SENDXOR: destination word, channel, route order, transfer id, kind. -/
  | send (dest : W32) (vc : BitVec 3) (route : BitVec 2) (tid : BitVec 12) (kind : CellKind) (total : Nat)
  /-- The rows of a remote KVWR: destination word with the holder's core, transfer id. -/
  | kvRemote (dest : W32) (tid : BitVec 12) (total : Nat)
  /-- WSWR: block, first stored row. -/
  | wswr (block : Nat) (row : Nat)
  /-- KVWR with REMOTE 0: byte addresses of the stored rows, expected generation, group slot, page group. -/
  | kvLocal (addrs : List Nat) (gen : BitVec 16) (slot : Nat) (page : Nat)
  /-- HOSTWR: host address of the first row, transfer id. -/
  | hostwr (addr : Nat) (tid : Nat)
  /-- KDLOOK: key count, first result row, transfer id. -/
  | kdlook (count : Nat) (row : Nat) (tid : Nat)
  /-- KDPUT: entry count, delete or insert, transfer id. -/
  | kdput (count : Nat) (del : Bool) (tid : Nat)
  deriving DecidableEq, Repr

/-- The rest of a read of scratchpad rows, 32 rows a tick (08 R187). -/
structure RowRead where
  /-- Scratchpad rows still to be read, in order. -/
  rows : List Nat
  /-- Index of the next row within the instruction. -/
  next : Nat
  /-- Rows read so far, for sinks that act at the last read. -/
  got : List (List Byte)
  sink : RowSink
  /-- A release that applies at the last read: region and count (R193). -/
  rel : Option (Nat × Nat)
  entry : QEntry
  deriving DecidableEq, Repr

/-- Where the rows of a run in blocks of q come from (05 R98, R99). -/
inductive RunSource where
  /-- The pattern of SPFILL. -/
  | fill (w : W32)
  /-- SPCOPY from a row, with its direction. -/
  | copy (src : Nat) (down : Bool)
  deriving DecidableEq, Repr

/-- The rest of an SPFILL or SPCOPY. -/
structure RowRun where
  source : RunSource
  /-- Rows still to be written, in order of handling, with the row each is copied from. -/
  rows : List (Nat × Nat)
  q : Nat
  /-- A commit at the last row: region and count. -/
  com : Option (Nat × Nat)
  entry : QEntry
  deriving DecidableEq, Repr

/-- What lands. -/
inductive LandEff where
  /-- A restring lands in the shadow set (03 R49). -/
  | restring (set : TuneSet)
  /-- A bow takes the active set in its issue tick, after SWAPT (R51), and lands later; the check that failed at
  issue, the release, and the scratchpad rows that it has read. -/
  | bowTake (op : BowOp) (gather : Option Gather) (fail : Option (Reason × Nat)) (rel : Option (Nat × Nat)) (rows : List Nat)
      (entry : QEntry)
  /-- The second tick of a BOWG (R62). -/
  | gather (op : BowOp) (g : Gather) (set : TuneSet) (entry : QEntry)
  /-- ZACC, WINDOW or a clearing DRAIN (R34, step 1). -/
  | accClear (k : Nat) (w : Option Int)
  /-- A restore of R129. -/
  | accRestore (k : Nat) (w : Int) (accs : List Acc)
  /-- Terms of string 0 upward for index k (R34, step 2); the bow's journal entry when a bow made them. -/
  | accAdd (k : Nat) (terms : List (List Term)) (journal : Option (BowOp × TuneSet))
  /-- Bytes of a vector register from an element on (06 R116). -/
  | vreg (v : Nat) (first : Nat) (elems : List W32)
  /-- Scratchpad rows from a row on. -/
  | rows (row : Nat) (bytes : List Byte)
  /-- Scratchpad rows, one by one. -/
  | rowList (rows : List (Nat × List Byte))
  /-- Weight-store bytes of a block; Scheme and scales stay, the CRC is recomputed (04 R75). -/
  | ws (addr : Nat) (bytes : List Byte)
  /-- Stored rows of the weight store by byte address, written in one access. -/
  | wsRows (rows : List (Nat × List Byte))
  /-- Bytes of an arrival: written, XORed, or added as FP32 elements into the scratchpad (08 R198, 13 R318, R319). -/
  | bytes (addr : Nat) (bs : List Byte)
  | xorBytes (addr : Nat) (bs : List Byte)
  | fadd (addr : Nat) (bs : List Byte)
  /-- Received partial sums of strings of index k, and flags to OR (13 R315); the W they were formed at. -/
  | accPart (k : Nat) (w : Int) (sums : List (Nat × Int)) (flags : List (Nat × Nat)) (tid : Nat)
  /-- A transfer completes: its rows commit (05 R103). -/
  | arrCommit (reg : Nat) (n : Nat) (tid : Nat)
  /-- Vector i of a VPROG reads its sources (06 R116). -/
  | vprog (op : VprogOp) (i : Nat) (entry : QEntry)
  | rowRead (r : RowRead)
  | rowRun (r : RowRun)
  /-- A release or commit of a circular region, checked again (05 R105). -/
  | release (reg : Nat) (n : Nat) (entry : QEntry)
  | commit (reg : Nat) (n : Nat) (entry : QEntry)
  /-- Flag changes of a cycle in the order of 07 R160. -/
  | setFlag (f : Nat) (v : Byte)
  | incFlag (f : Nat)
  /-- A SIGNAL of core `from_` lands (07 R161); it is a result of that core (R158). -/
  | signalFlag (f from_ : Nat)
  | decFlag (f : Nat) (entry : QEntry)
  /-- A HOSTWR row is posted, or a transfer of the core's own completes. -/
  | tidDone (tid : Nat)
  deriving DecidableEq, Repr

/-- Work for a lookup engine or the update sequencer from a core (08 R200): keys or entries in order. -/
structure KdJob where
  core : Nat
  tid : Nat
  put : Bool
  del : Bool
  items : List (List Byte)
  /-- Result row of the next key, and results already in it. -/
  row : Nat
  done : Nat
  deriving DecidableEq, Repr

/-- A result in flight: it lands when the clock passes `key`: 2 t at the start of package tick t, 2 t + 1 at its
end; within one key by `prio`, then by issue. -/
structure Landing where
  key : Nat
  prio : Nat
  core : Nat
  eff : LandEff
  deriving DecidableEq, Repr

/-- Places a landing in its order. -/
def Landing.insert (l : Landing) : List Landing → List Landing
  | [] => [l]
  | m :: ms => if l.key < m.key ∨ (l.key = m.key ∧ l.prio < m.prio) then l :: m :: ms else m :: Landing.insert l ms

end Sys2Proof.Machine
end

