-- ==== Sys2Proof/Machine/PortState.lean ====
section
/-! DEFINITION. The state of the eight ports (11; 24 Table 24.6; 19 R445 to R447; 20 R469), of the route tables and epoch
changes (12; 24 Table 24.7). -/

namespace Sys2Proof.Machine

/-- Port states (11 Table 11.11). -/
inductive PState where
  | down | light | train | align | hello | limited | up
  deriving DecidableEq, Repr

/-- PORT_STATUS STATE (24 Table 24.6). -/
def PState.code : PState → Nat
  | .down => 0 | .light => 1 | .train => 2 | .align => 3 | .hello => 4 | .limited => 5 | .up => 6

/-- A link key: the session that it derives from and its rotation index (19 R445). -/
structure LinkKey where
  session : Nat
  index : Nat
  deriving DecidableEq, Repr

/-- The two key slots of a direction (19 R445). -/
structure KeySlots where
  s0 : Option LinkKey
  s1 : Option LinkKey
  deriving DecidableEq, Repr

/-- A link-key rotation of the transmit direction (19 R446). -/
inductive Rotation where
  | idle
  /-- ROTATE has been sent; acknowledgement awaited. -/
  | asked
  /-- BUSY was answered; the ROTATE is repeated after 1 ms. -/
  | busy
  /-- KEY is switched; the old key's frames await their ACK. -/
  | switched
  /-- RETIRE_KEY has been sent. -/
  | retiring
  /-- It has timed out: the new session is awaited (R447). -/
  | renewing
  deriving DecidableEq, Repr

/-- A port. -/
structure Port where
  enable : Bool
  encrypt : Bool
  /-- The policy in force: ENCRYPT as the port last entered LIGHT (24 R535). -/
  policy : Bool
  retune : Nat
  rotate : Nat
  st : PState
  miswired : Bool
  /-- LANES: lanes that this end accepts; lanes in use towards the other end (11 R275, R276). -/
  lanes : BitVec 16
  txLanes : BitVec 16
  key : Bool
  /-- Receive shares of the channels, tenant shares and STRICT bits. -/
  vcAlloc : List Nat
  shares : List Nat
  strict : List Bool
  rxCount : Tab Nat
  txCount : Tab Nat
  offTime : Tab Nat
  /-- Next sequence number, frame counter; E; a discard episode is open, and its NAK is due (11 R263, R264, R281). -/
  seq : BitVec 16
  frames : Nat
  expect : BitVec 16
  episode : Bool
  nakDue : Bool
  /-- The replay buffer, and the frames of a replay still to be sent again (R265). -/
  buffer : List Frame
  resend : List Frame
  /-- The sequence number that the replay in progress started from. -/
  replayAt : BitVec 16
  /-- Station time plus 1 at which the far end turned a channel off. -/
  offSince : Tab Nat
  farOff : Byte
  ownOff : Byte
  farLanes : BitVec 16
  /-- Link-control frames go out on a new lane set until the receiver reports alignment lock (R276). -/
  realign : Bool
  /-- Cells that wait to leave: channel on the link, cell with its origin (R272). -/
  outq : List (BitVec 3 × InCell)
  /-- Tenant credits in 1/256 cells (12 R305); frames that a channel with a sendable cell has gone without a slot. -/
  credits : Tab Nat
  starve : Tab Nat
  /-- Replays since ACK last advanced; station times of the replays of the last millisecond (R266). -/
  replayRun : Nat
  replayTimes : List Nat
  retrainFails : Nat
  /-- It is in retraining: E, the buffer and the keys are kept (R266). -/
  retraining : Bool
  tagRun : Nat
  /-- Station time of the last heartbeat heard; it has been reported SILENT (20 R469). -/
  heard : Nat
  silent : Bool
  txKeys : KeySlots
  rxKeys : KeySlots
  /-- Rotation index in use, frames sent under it, rotation in progress, sessions failed in a row (19 R446, R447). -/
  rotIndex : Nat
  keyFrames : Nat
  rotation : Rotation
  sessionFails : Nat
  /-- Sessions set up so far: the number of the one in use. -/
  session : Nat
  /-- Data frames accepted since UP was entered: the frame counter of the receive direction (11 R281). -/
  rxFrames : Nat
  /-- The transmit stream (11 R258): bits not yet in a codeword and their number, symbols sent on the present lane set, codewords since the
  last alignment marker. -/
  txBits : Nat
  txLen : Nat
  txSyms : Nat
  txWords : Nat
  /-- The receive stream (R259): decoded messages whose bits are not all used, each with whether its codeword was correctable, and the bits
  of the first that are used. -/
  rxWords : List (Nat × Bool)
  rxPos : Nat
  deriving DecidableEq, Repr

/-- Table 24.6's resets. -/
def Port.reset : Port :=
  { enable := false, encrypt := false, policy := false, retune := 2, rotate := 0xE10, st := .down, miswired := false
    lanes := 0, txLanes := 0, key := false
    vcAlloc := [0x3000, 0x1000, 0x1000, 0x1000, 0x1000, 0x1000, 0x1000, 0x1000]
    shares := List.replicate 8 32, strict := List.replicate 8 false, rxCount := [], txCount := [], offTime := []
    seq := 0, frames := 0, expect := 0, episode := false, nakDue := false, buffer := [], resend := [], replayAt := 0, offSince := [], farOff := 0
    ownOff := 0, farLanes := 0, realign := false, outq := [], credits := [], starve := [], replayRun := 0
    replayTimes := [], retrainFails := 0, retraining := false, tagRun := 0, heard := 0, silent := false
    txKeys := ⟨none, none⟩, rxKeys := ⟨none, none⟩, rotIndex := 0, keyFrames := 0, rotation := .idle
    sessionFails := 0, session := 0, rxFrames := 0, txBits := 0, txLen := 0, txSyms := 0, txWords := 0, rxWords := [], rxPos := 0 }

/-- The laser of an optical die (23 R522): LASER_EN, LASER_FAULT# (asserted), the laser input is good. -/
structure Laser where
  en : Bool
  fault : Bool
  good : Bool
  deriving DecidableEq, Repr

/-- LASER_EN low, no fault, not good. -/
def Laser.reset : Laser := ⟨false, false, false⟩

/-- A route-table slot (12 R298): 0 EMPTY, 1 STAGED, 2 CURRENT, 3 OLD. -/
structure RouteSlot where
  st : Nat
  /-- The 128 bytes of the shape record (12 Table 12.1). -/
  shape : List Byte
  fence : List Place
  deriving DecidableEq, Repr

/-- An empty slot. -/
def RouteSlot.empty : RouteSlot := ⟨0, [], []⟩

/-- The phase of an epoch change on the coordinator (12 Table 12.4). -/
inductive EpochPhase where
  | none | staging | switching | draining | purging
  deriving DecidableEq, Repr

/-- An epoch change on the coordinator (12 R300, R301). -/
structure Epoch where
  phase : EpochPhase
  shape : List Byte
  fence : List Place
  /-- Packages that have not acknowledged the present step or answered the present wave; repeats sent. -/
  waiting : List Place
  repeats : Nat
  /-- Station time of SWITCH. -/
  since : Nat
  /-- Waves in a row in which every package reported OLD_COUNT 0; this wave's reports so far: any count, any OLD_SEEN. -/
  waves : Nat
  anyCount : Bool
  anySeen : Bool
  deriving DecidableEq, Repr

/-- No change. -/
def Epoch.idle : Epoch := ⟨.none, [], [], [], 0, 0, 0, false, false⟩

/-- Routing (12; 24 Table 24.7). -/
structure Net where
  shapeStage : List Byte
  /-- FENCE_STAGE words. -/
  fenceStage : Tab Nat
  coordinator : Place
  /-- ROUTE_STATUS RESULT. -/
  result : Nat
  epoch : Epoch
  oldSeen : Bool
  /-- SILENT reports at the coordinator: silent place, reporting place, station time (20 R469). -/
  reports : List (Place × Place × Nat)
  /-- Packages declared lost. -/
  lost : List Place
  deriving DecidableEq, Repr

/-- Resets of Table 24.7. -/
def Net.reset : Net := ⟨List.replicate 128 0, [], 0, 0, Epoch.idle, false, [], []⟩

end Sys2Proof.Machine
end

