-- ==== Sys2Proof/Machine/HostState.lean ====
section
/-! DEFINITION. The state of a PCI Express function: rings, doorbell and status pages, host windows, mailboxes, doorbells
(18; 24 Tables 24.10, 24.11). -/

namespace Sys2Proof.Machine

/-- A ring's set-up and indices (18 R401, R402, 24 Table 24.11). -/
structure Ring where
  base : Nat
  s : Nat
  en : Bool
  stopped : Bool
  vector : Nat
  countThr : Nat
  timeThr : Nat
  slot : Nat
  /-- Producer and consumer indices. -/
  p : W32
  c : W32
  /-- Entries written since the last MSI-X message (R411). -/
  since : Nat
  deriving DecidableEq, Repr

/-- Table 24.11's reset. -/
def Ring.reset : Ring := ⟨0, 4, false, true, 0, 1, 0, 12, 0, 0, 0⟩

/-- A host window: base and length, 0 for unset (18 R399). -/
structure HostWin where
  base : Nat
  len : Nat
  deriving DecidableEq, Repr

/-- A submission entry taken by a fetch and not yet processed (18 R406). -/
structure Sub where
  ring : Nat
  bytes : List Byte
  deriving DecidableEq, Repr

/-- An event (18 Table 18.8). -/
structure Event where
  code : BitVec 16
  cls : BitVec 16
  group : W32
  step : W64
  time : Nat
  detail : W64
  deriving DecidableEq, Repr

/-- A step record in its parts (10 R248, 18 R419): header with digest entries, exception records, hazard counts. -/
structure StepRec where
  slot : Nat
  group : W32
  step : W64
  head : List Byte
  excs : List (List Byte)
  hazards : List Byte
  deriving DecidableEq, Repr

/-- The outbound mailbox (18 Table 18.10). -/
structure MboxOut where
  len : BitVec 9
  dbbit : BitVec 5
  full : Bool
  timeout : Bool
  data : Tab Byte
  deriving DecidableEq, Repr

/-- The inbound mailbox (18 Table 18.11). -/
structure MboxIn where
  len : BitVec 9
  dbbit : BitVec 5
  full : Bool
  withdrawn : Bool
  data : Tab Byte
  deriving DecidableEq, Repr

/-- A function (18). Rings by key: submission r at r, completion r at 64 + r, token output r at 128 + r, event 192,
record 193. -/
structure Func where
  dbPage : Nat
  stPage : Nat
  /-- Polling interval in units of 0.25 µs; 0 off (R405). -/
  poll : Nat
  dbVector : Nat
  rings : List (Nat × Ring)
  windows : List (Nat × HostWin)
  /-- A doorbell-page fetch is in flight, and one further fetch is noted (R405). -/
  fetching : Bool
  noted : Bool
  subs : List Sub
  /-- The completion buffer and the token output buffer: (ring number, entry) (R408, 15 R357). -/
  cqBuf : List (Nat × List Byte)
  tqBuf : List (Nat × List Byte)
  evBuf : List Event
  evLost : Nat
  /-- Step records that wait at the lead (R421). -/
  recWait : List StepRec
  /-- REQ_IDs of the last 1,024 requests that completed, newest first (15 R360). -/
  recent : List W32
  /-- MSI-X vectors masked, and those whose pending bit is set (R411). -/
  masked : List Nat
  pendingMsix : List Nat
  dbHost : W32
  dbMask : W32
  dbSp : W32
  mbTimeout : Nat
  mbo : MboxOut
  mbi : MboxIn
  /-- Replies that wait for the inbound mailbox (18 R423). -/
  mbiWait : List (List Byte)
  /-- The virtual function is enabled (22 R507, 24 R533). -/
  enabled : Bool
  deriving DecidableEq, Repr

/-- A function at reset (24 Tables 24.10, 24.11, 18 Tables 18.9 to 18.12). -/
def Func.reset : Func :=
  { dbPage := 0, stPage := 0, poll := 0, dbVector := 0, rings := [], windows := [], fetching := false, noted := false,
    subs := [], cqBuf := [], tqBuf := [], evBuf := [], evLost := 0, recWait := [], recent := [], masked := [],
    pendingMsix := [], dbHost := 0, dbMask := 0xFFFFFFFF, dbSp := 0, mbTimeout := 0x3E8,
    mbo := ⟨0, 8, false, false, []⟩, mbi := ⟨0, 0, false, false, []⟩, mbiWait := [], enabled := true }

/-- A function once the host-interface domain has lost its power: the mailboxes and the soundpost's doorbell bits lie in the always-on domain
(01 R14). -/
def Func.unpowered (x : Func) : Func :=
  { Func.reset with enabled := x.enabled, dbSp := x.dbSp, mbo := x.mbo, mbi := x.mbi, mbiWait := x.mbiWait }

end Sys2Proof.Machine
end

