-- ==== Sys2Proof/Machine/ServeState.lean ====
section
/-! DEFINITION. The state of the serving controller of a group slot: requests, budgets, stop sets, pages, batch (14, 15),
and of a weight load or swap (17). -/

namespace Sys2Proof.Machine

/-- Request states (14 Table 14.2). -/
inductive ReqState where
  | free | deferred | admitted | prefill | decode | idle | spilling | spilled | reloading | cancelPending
  deriving DecidableEq, Repr

/-- The code of a state (14 Table 14.2). -/
def ReqState.code : ReqState → Nat
  | .free => 0 | .deferred => 1 | .admitted => 2 | .prefill => 3 | .decode => 4 | .idle => 5 | .spilling => 6
  | .spilled => 7 | .reloading => 8 | .cancelPending => 9

/-- When a cancel-pending request is freed (15 R362). -/
inductive Boundary where
  /-- The end of the running step's commit phase. -/
  | thisCommit
  /-- After the running step: the end of the next step's commit phase, or the first admission point that starts no
  step. -/
  | nextCommit
  /-- The next admission point, before selection. -/
  | admission
  deriving DecidableEq, Repr

/-- A submission's origin: function, submission ring, tag. -/
structure SubRef where
  func : Nat
  ring : Nat
  tag : W32
  deriving DecidableEq, Repr

/-- A request entry with its generation record (14 Table 14.1, 15 Table 15.1) and what the controller holds beside
them (14 R324). -/
structure Req where
  id : W32
  cust : Nat
  acancel : Bool
  hold : Bool
  state : ReqState
  spec : Nat
  stopset : Nat
  seed : W64
  pos : Nat
  mgen : Nat
  prompt : Nat
  maxnew : Nat
  /-- DEFERRED: the deadline. SPILLED: the spill-set number. -/
  list : W32
  drafts : List W32
  hist : List W32
  cancelAfter : Bool
  ring : Nat
  func : Nat
  lastStep : W32
  /-- New tokens so far (R350). -/
  newCount : Nat
  /-- Prompt or appended tokens that have not yet run. -/
  unrun : List W32
  lastTok : W32
  /-- Order of admission. -/
  order : Nat
  /-- Page groups in position order, and the page-list blocks taken, first first (14 R329). -/
  pages : List Nat
  blocks : List Nat
  deadline : W32
  ftg : Nat
  sub : SubRef
  boundary : Option Boundary
  /-- Members that have still to write or restore its pages (14 R335, R337), and the submission that waits. -/
  waitOn : List Place
  waitSub : Option SubRef
  /-- The step that the request stopped in while CANCEL_PENDING has written its END record (R362). -/
  ended : Bool
  /-- Its function has been reset: nothing more is reported (18 R398). -/
  quiet : Bool
  /-- Page groups that its spill set holds, and the oldest and newest key generation of its records (14 R335, 19 R450). -/
  spillPages : Nat
  spillGens : Option (Nat × Nat)
  spillSet : Nat
  deriving DecidableEq, Repr

/-- A FREE entry (14 Table 14.2). -/
def Req.empty : Req :=
  { id := 0, cust := 0, acancel := false, hold := false, state := .free, spec := 0, stopset := 0, seed := 0, pos := 0,
    mgen := 0, prompt := 0, maxnew := 0, list := 0, drafts := [], hist := [], cancelAfter := false, ring := 0, func := 0,
    lastStep := 0, newCount := 0, unrun := [], lastTok := 0, order := 0, pages := [], blocks := [], deadline := 0,
    ftg := 0, sub := ⟨0, 0, 0⟩, boundary := none, waitOn := [], waitSub := none, ended := false,
    quiet := false, spillPages := 0, spillGens := none, spillSet := 0 }

/-- A budget entry (14 Table 14.6). -/
structure Budget where
  allow : Nat
  used : Nat
  debt : Nat
  win : Nat
  ftg : Nat
  valid : Bool
  paused : Bool
  total : Nat
  deriving DecidableEq, Repr

/-- A budget entry of zeros. -/
def Budget.zero : Budget := ⟨0, 0, 0, 0, 0, false, false, 0⟩

/-- A row of the batch table (14 Table 14.3). -/
structure BatchRow where
  entry : Nat
  id : W32
  pos : Nat
  /-- KIND 1. -/
  prefill : Bool
  count : Nat
  spec : Nat
  /-- The step is the request's final prefill step (15 R343). -/
  last : Bool
  deriving DecidableEq, Repr

/-- A request submission that waits for admission (14 R332): its entry's bytes and its prompt tokens. -/
structure NewReq where
  sub : SubRef
  bytes : List Byte
  prompt : List W32
  deriving DecidableEq, Repr

/-- A chunk of the member's section, its placement resolved for N (17 Tables 17.3, 17.4). -/
structure Chunk where
  layer : Nat
  enc : Nat
  dfmt : Nat
  square : Bool
  transpose : Bool
  /-- SRC 1: formed blocks. -/
  formed : Bool
  encLen : Nat
  rawLen : Nat
  rb : Nat
  cb : Nat
  core : Nat
  first : Nat
  fileOff : Nat
  srcHash : List Byte
  placedHash : List Byte
  /-- Attempts made, and whether its last check has passed. -/
  attempts : Nat
  verified : Bool
  /-- Bytes verified under R382, step 2, and held until the layer's release (R388). -/
  held : Option (List Byte)
  /-- The stream of the last request (R386). -/
  stream : Nat
  deriving DecidableEq, Repr

/-- A transfer of a chunk stream (17 R386): its cells so far by index, and the number of cells once its LAST cell has come (12 R296). -/
structure StreamIn where
  tid : Nat
  cells : List (Nat × List Byte)
  total : Option Nat
  deriving DecidableEq, Repr

/-- The phase of a swap or load on this package (17 Table 17.6). -/
inductive SwapPhase where
  /-- None runs. -/
  | none
  /-- Lead: waits for STAGED; member: staged. -/
  | staging
  /-- The swap point is fixed. -/
  | fixed
  /-- S_SWAP has begun, or every layer is released: LOADED is awaited. -/
  | loading
  deriving DecidableEq, Repr

/-- A weight swap or full load (17 R389 to R395). -/
structure Swap where
  phase : SwapPhase
  /-- 0 DRAIN, 1 RESTART, 2 full load. -/
  policy : Nat
  /-- Steps left before the drain limit. -/
  limit : Nat
  nextGen : W32
  nextDigest : List Byte
  sub : Option SubRef
  staged : List Place
  loadedBy : List Place
  /-- The step marked LAST_OLD is running. -/
  lastOldRunning : Bool
  /-- RELEASE_ALL has come. -/
  releasedAll : Bool
  /-- Layers released on a core: (core, layer) (R391). -/
  released : List (Nat × Nat)
  chunks : List Chunk
  /-- What has come on the streams requested from a server (R386). -/
  inbox : List StreamIn
  /-- The chunk whose third attempt failed, with the reason (R382). -/
  stalled : Option (Nat × Nat)
  /-- The member section that the chunks come from (17 R379), with the NMIN of its manifest. -/
  section_ : List Byte
  nmin : Nat
  deriving DecidableEq, Repr

/-- No swap. -/
def Swap.idle : Swap :=
  { phase := .none, policy := 0, limit := 0, nextGen := 0, nextDigest := [], sub := none, staged := [],
    loadedBy := [], lastOldRunning := false, releasedAll := false, released := [], chunks := [], inbox := [], stalled := none, section_ := [], nmin := 1 }

/-- A weight generation in force (17): MODEL_GEN and weight digest. -/
structure Gen where
  num : W32
  digest : List Byte
  deriving DecidableEq, Repr

/-- The serving controller's data of a group slot. -/
structure Serve where
  reqs : List (Nat × Req)
  budgets : List (Nat × Budget)
  stopSets : List (Nat × List Byte)
  news : List NewReq
  /-- Cancel descriptors taken and not yet registered (15 R340). -/
  cancels : List (SubRef × W32)
  /-- CONTINUE submissions taken whose tokens have still to be read, or that wait for a spill: id and tokens. -/
  conts : List (SubRef × W32 × List W32)
  nextOrder : Nat
  /-- Page groups held or not yet back on the free list (14 R328). -/
  taken : List Nat
  /-- Page groups being freed, with the members that have not acknowledged. -/
  freeing : List (Nat × List Place)
  nextSpill : Nat
  gen : Option Gen
  /-- Customers paused in the present commit phase, in the order paused, and the entries whose PAUSE records are still to be
  written (15 R355). -/
  pausedNow : List Nat
  pauses : List Nat
  /-- Token digest of the step (15 R358): sum and count. -/
  tokH : Nat
  tokN : Nat
  /-- The budget state that each member (by its place) last reported (21 R486). -/
  budgetStates : List (Nat × Nat)
  /-- The group has stopped admitting (04 Table 4.6). -/
  stopped : Bool
  /-- STEP submissions that wait to start: submission, entry, voicing, job seed, step number of a replay, parameters. -/
  stepq : List (SubRef × List Byte × List Byte)
  /-- Requests whose keys and values recovery prefill has still to rebuild: entry, tokens of positions 0 to POS − 2, positions
  done, positions of the replay step that runs (20 R472). -/
  recover : List (Nat × List W32 × Nat × Nat)
  deriving DecidableEq, Repr

/-- Nothing served. -/
def Serve.empty : Serve :=
  { reqs := [], budgets := [], stopSets := [], news := [], cancels := [], conts := [], nextOrder := 0, taken := [],
    freeing := [], nextSpill := 0, gen := none, pausedNow := [], pauses := [], tokH := 0, tokN := 0, budgetStates := [],
    stopped := false, stepq := [], recover := [] }

end Sys2Proof.Machine
end

