-- ==== Sys2Proof/Machine/PkgState.lean ====
section
/-! DEFINITION. Package state that the cores' programs meet: clock and mute (09), running steps, images (09 R224),
group slots (24 Table 24.12), partitions (19 Table 19.4). -/

namespace Sys2Proof.Machine

/-- A late item (09 R208) with the package tick of its check. -/
structure LateItem where
  item : CheckItem
  checkTick : Nat
  /-- The clock cycle in which it arrived (R210). -/
  arrived : Option Nat
  deriving DecidableEq, Repr

/-- What an access of a scheduled party needs, or names, in its tick. -/
inductive Access where
  /-- The read port, and the write port, of the bank of a scratchpad row (05 R91). -/
  | rowRead (row : Nat)
  | rowWrite (row : Nat)
  /-- A bank of the weight store; all 64 of them (04 R73). -/
  | wsBank (bank : Nat)
  | wsAll
  /-- A vector register read, which needs no port, and one written through the register write port (06 R117). -/
  | regRead (v : Nat)
  | regWrite (v : Nat)
  /-- An accumulator index read or overwritten. -/
  | accRead (k : Nat)
  | accWrite (k : Nat)
  /-- A bow's terms land in an accumulator index (02 R34); a restring lands (03 R51). -/
  | accAdd (k : Nat)
  | tuneWrite
  /-- A link of the scheduled plane, from one core to the next, that a row of a source read in a tick crosses (12 R306, 09 R213); the same
link's control lane (12 R307). -/
  | link (a b : Nat) (source row readTick : Nat)
  | lane (a b : Nat)
  /-- No access: the destination row of a form-4 RECV may not be used up to this tick (09 R227). -/
  | window (row : Nat)
  deriving DecidableEq, Repr

/-- An access that a scheduled instruction makes in a package tick, its place in the priority table of what it needs, and the entry; an
arrival's write has no entry and no place among the scheduled parties (04 Table 4.5, 05 Table 5.1; 09 R211). -/
structure Use where
  tick : Nat
  /-- The core whose unit is accessed, and the core whose instruction accesses it. -/
  core : Nat
  by_ : Nat
  order : Nat
  what : Access
  entry : Option QEntry
  deriving DecidableEq, Repr

/-- The access serves on-die scheduled reads: those of one row in one tick are one access (05 R97). -/
def Use.onDie (u : Use) : Bool :=
  match u.entry with
  | some e => (match e.instr with | .recvOnDieRead .. => true | _ => false)
  | none => false

/-- A preview of a BOWG's list that has been served: core, scheduled tick of the BOWG, first list row, distinct rows m (09 R212). -/
structure Preview where
  core : Nat
  tick : Nat
  row : Nat
  m : Nat
  deriving DecidableEq, Repr

/-- Why a planned hold is in force (09 R214, 20 R458, R464). -/
inductive Hold where
  /-- A frequency change waits for relock. -/
  | frequency
  /-- A loss of lock. -/
  | lockLoss
  /-- An arbitration on a core. -/
  | arbitration (core : Nat)
  /-- A replay stop (10 R252). -/
  | replayStop
  deriving DecidableEq, Repr

/-- The clock, the tick counter and the mute (09). -/
structure Clk where
  /-- The package tick count (R204). -/
  tick : Nat
  /-- Held cycles in total and in the present run (R216). -/
  heldTotal : Nat
  heldRun : Nat
  late : List LateItem
  holds : List Hold
  /-- Conflict holds planned: package tick and held cycles (R211). -/
  conflicts : List (Nat × Nat)
  /-- Accesses of the scheduled parties in the present tick and in later ones. -/
  uses : List Use
  previews : List Preview
  /-- Lock of each course's PLL. -/
  locked : List Bool
  refclk : Bool
  /-- Frequency step in force, and a decided change: (T0, step) (21 R491). -/
  fstep : Nat
  change : Option (Nat × Nat)
  diverges : Nat
  lockLosses : Nat
  deriving DecidableEq, Repr

/-- One voicing of an entry point (09 Table 9.5). -/
structure Voicing where
  start : Nat
  length : Nat
  avg : Nat
  peak : Nat
  deriving DecidableEq, Repr

/-- An installed program image (09 R224): Table 9.6's sections as loaded, before relocation; entries as (entry point, voicing,
its entry of Table 9.5), region plan and circular regions as descriptors. -/
structure Image where
  loaded : Bool
  nmin : Nat
  nmax : Nat
  words : List W64
  entries : List (Nat × Nat × Voicing)
  /-- Start offset of (start-table offset, N, logical core). -/
  starts : List (Nat × Nat × Nat × Nat)
  consts : List W32
  progs : List EProg
  /-- N, logical core, eight descriptors. -/
  regionPlan : List (Nat × Nat × List Region)
  /-- Logical core, sixteen descriptors. -/
  circs : List (Nat × List Circ)
  flags : List Byte
  relocs : List W64
  /-- Byte offsets of the sections, for the load status. -/
  offsets : List Nat
  digest : List Byte
  vary : Bool
  deriving DecidableEq, Repr

/-- No image. -/
def Image.empty : Image :=
  { loaded := false, nmin := 1, nmax := 288, words := [], entries := [], starts := [], consts := [], progs := [],
    regionPlan := [], circs := [], flags := [], relocs := [], offsets := [], digest := [], vary := false }

/-- Step completion statuses (18 Table 18.7). -/
inductive StepStatus where
  | completed | completedWithExceptions | flagWaitTimeout | muteTimeout | stepTooLong | stepError
  | stepNumberExhausted | replayMismatch | replayStopped | noGeneration | refused
  deriving DecidableEq, Repr

/-- The code of a status (Table 18.7). -/
def StepStatus.code : StepStatus → Nat
  | .completed => 0 | .completedWithExceptions => 1 | .flagWaitTimeout => 2 | .muteTimeout => 3 | .stepTooLong => 4
  | .stepNumberExhausted => 5 | .replayMismatch => 6 | .replayStopped => 7 | .stepError => 8 | .noGeneration => 9
  | .refused => 0x0A

/-- The status of an abort's code; any other code is an error. -/
def StepStatus.ofCode (n : Nat) : StepStatus :=
  if n = 2 then .flagWaitTimeout else if n = 3 then .muteTimeout else if n = 4 then .stepTooLong
  else if n = 7 then .replayStopped else .stepError

/-- The phase of a group's step on this package. -/
inductive StepPhase where
  | none | starting | running | reported | committing
  /-- The lead has ended the step before its end and gathers what the members' cores add to its record (07 R168, 10 R243). -/
  | stopping
  | ended
  deriving DecidableEq, Repr

/-- The step of a group on this package (09 R205, R219; 10 R231, R248; 15 R341; 20 R468). -/
structure StepRun where
  phase : StepPhase
  num : W64
  entry : Nat
  voicing : Nat
  seed : W64
  /-- Parameter words 5 to 63 (07 R147). -/
  params : Tab W32
  s0 : Nat
  startCycle : Nat
  /-- The clock cycle from which the cores decode for it (07 R151). -/
  decodeAt : Option Nat
  /-- A replay stop has been met in the present tick (10 R252). -/
  stopDue : Bool
  /-- A step that has been ended is not to be retried. -/
  final : Bool
  /-- The clock cycle from which every item due before tick 16 has arrived (09 R210). -/
  readyAt : Option Nat
  replay : Bool
  retry : Bool
  /-- It has been stopped and is to be retried (20 R468). -/
  retryDue : Bool
  /-- Stops of this step so far (20 R468). -/
  stops : Nat
  ticks : Nat
  held : Nat
  status : StepStatus
  /-- Members (places) that have reported the end, and what they reported together (10 R243). -/
  reports : List Place
  gath : MemberReport
  /-- The batch table, in order (14 R330), and the step input list (18 R417). -/
  batch : List BatchRow
  input : List W32
  /-- Next commit position (15 R352). -/
  commitPos : Nat
  /-- Requests that have committed a token in the step (10 R248). -/
  committed : Nat
  commitTime : Nat
  /-- Submission that started it: function, ring, tag. -/
  sub : Option SubRef
  serving : Bool
  /-- The reading of proposal blocks has ended on a header that cannot be read (15 R346). -/
  unreadable : Bool
  /-- The highest step number received for the group (10 R233). -/
  highest : W64
  /-- IMAGE_DIGEST and WEIGHT_DIGEST that a replay names (18 R410). -/
  digests : List Byte
  deriving DecidableEq, Repr

/-- Nothing reported. -/
def noReport : MemberReport := ⟨0, 0, 0, 0, 0, false, [], [], []⟩

/-- No step. -/
def StepRun.idle : StepRun :=
  { phase := .none, num := 0, entry := 0, voicing := 0, seed := 0, params := [], s0 := 0, startCycle := 0, decodeAt := none, stopDue := false, final := true, readyAt := none,
    replay := false, retry := false, retryDue := false, stops := 0, ticks := 0, held := 0, status := .completed, reports := [], gath := noReport,
    batch := [], input := [], commitPos := 0, committed := 0, commitTime := 0, sub := none, serving := false,
    unreadable := false, highest := 0, digests := [] }

/-- A member of a group: place, W_s, G and the layer-shards of its cores (24 R540, 14 R325). -/
structure Member where
  place : Place
  ws : Nat
  g : Nat
  shards : Tab Nat
  answered : Bool
  deriving DecidableEq, Repr

/-- A FORM in progress on the lead (24 R540): places that have not answered, repeats sent, the members' layouts so far. -/
structure Forming where
  waiting : List Place
  repeats : Nat
  held : Bool
  layouts : List Member
  /-- What the members tell a new lead (10 R233). -/
  runs : List MemberRun
  deriving DecidableEq, Repr

/-- A partition descriptor (19 Table 19.4) with its flag-wait bound (24 Table 24.8). -/
structure Part where
  first : Nat
  count : Nat
  tenant : Nat
  vcen : BitVec 4
  fixedStep : Bool
  /-- 0 CONFIG_UNLOCKED, 1 CONFIG_LOCKED, 2 RUN, 3 ERROR. -/
  tdisp : Nat
  conf : Bool
  flagExp : Nat
  deriving DecidableEq, Repr

/-- A partition at reset (Table 19.4; FLAG_EXP 0x18). -/
def Part.reset : Part := ⟨0, 0, 0, 0xF, false, 0, false, 0x18⟩

/-- A group slot's set-up (24 Table 24.12). -/
structure Group where
  formed : Bool
  solver : Bool
  owner : Nat
  lead : Bool
  formErr : Nat
  id : W32
  stepLast : W64
  salt : W64
  leadAt : Place
  entries : Nat
  kvWs : Nat
  kvG : Nat
  reserve : Nat
  btTid : BitVec 12
  btRegion : Nat
  propRegion : Nat
  tpoint : Nat
  inputWin : Nat
  recoveryWin : Nat
  eosId : W32
  serveEntry : Nat
  winT0 : Nat
  winL : Nat
  /-- LOADSRC, 28 bits. -/
  loadSrc : BitVec 28
  parity : Bool
  /-- (BATCH, PTOK, P, D) of voicing v. -/
  voices : List (Nat × Nat × Nat × Nat)
  shards : Tab Nat
  memberCount : Nat
  memIndex : Nat
  memData : List (Nat × Place)
  members : List Member
  seed : W64
  params : Tab W32
  reqIndex : Nat
  /-- REQ_DATA: entry and generation record as copied (24 R542). -/
  reqData : List Byte
  budIndex : Nat
  ssIndex : Nat
  /-- FORM under way: members that have answered, repeats (24 R540). -/
  forming : Option Forming
  serve : Serve
  swap : Swap
  /-- Live writes waiting for a step start: (offset, value) (24 R531). -/
  live : List (Nat × Nat)
  /-- The admission point that a drone slot precedes has been passed over once (20 R461). -/
  droneSlot : Bool
  /-- The step that is to be retried once recovery prefill has ended (20 R472). -/
  saved : Option StepRun
  deriving DecidableEq, Repr

/-- A group slot at reset (Table 24.12). -/
def Group.reset : Group :=
  { formed := false, solver := false, owner := 0, lead := false, formErr := 0, id := 0, stepLast := 0, salt := 0,
    leadAt := 0, entries := 0, kvWs := 1, kvG := 0, reserve := 0, btTid := 0, btRegion := 0, propRegion := 0,
    tpoint := 0, inputWin := 0, recoveryWin := 0, eosId := 0xFFFFFFFF, serveEntry := 0, winT0 := 0, winL := 0,
    loadSrc := 0, parity := false, voices := List.replicate 4 (1, 0, 0, 0), shards := [], memberCount := 0,
    memIndex := 0, memData := [], members := [], seed := 0, params := [], reqIndex := 0, reqData := [], budIndex := 0, ssIndex := 0, forming := none,
    serve := Serve.empty, swap := Swap.idle, live := [], droneSlot := false, saved := none }

/-- An entry of the fault log (20 Table 20.4). -/
structure FaultEntry where
  reason : BitVec 16
  cls : Nat
  outcome : Nat
  group : W32
  step : W64
  time : Nat
  unit : BitVec 16
  sub : BitVec 16
  detail : W32
  deriving DecidableEq, Repr

/-- A record of the debug trace: a hazard (09 R230) or a mark (07 R169). -/
structure TraceRec where
  tick : W32
  offset : BitVec 24
  opcode : Byte
  source : BitVec 16
  code : Byte
  other : W32
  deriving DecidableEq, Repr

/-- The debug block (24 Table 24.14): replay stop, state selection and data. -/
structure Dbg where
  /-- DEBUG_EN (09 R229). -/
  en : Bool
  stopEn : Bool
  stopCore : Nat
  stopMark : BitVec 16
  stopOcc : Nat
  selCore : Nat
  selSpace : Nat
  selIndex : Nat
  data : List Byte
  /-- The bytes of PERF. -/
  perf : Tab Byte
  deriving DecidableEq, Repr

/-- The reset values of Table 24.14. -/
def Dbg.reset : Dbg := ⟨false, false, 0, 0, 1, 0, 0, 0, [], []⟩

/-- A host directory update that waits for a boundary (16 R373): the submission, operation, entries still to apply and
the outcomes counted so far. -/
structure DirJob where
  sub : SubRef
  del : Bool
  entries : List (List Byte)
  counts : Tab Nat
  /-- The clock cycle in which its descriptor was fetched. -/
  seen : Nat
  deriving DecidableEq, Repr

/-- The key directory's registers and queues (16; 24 Table 24.3). -/
structure Dir where
  defRow : W32
  ready : Bool
  limit : Nat
  owner : Nat
  /-- REPLACED, INSERTED, FULL, DELETED, ABSENT, MALFORMED at 0 to 5. -/
  counts : Tab Nat
  host : List DirJob
  /-- The next bucket that compaction visits, and the way to clear in the second cycle of a move (R375). -/
  visit : Nat
  clearing : Option (Nat × Nat)
  deriving DecidableEq, Repr

/-- Resets of Table 24.3. -/
def Dir.reset : Dir := ⟨0, false, 0x1000, 0, [], [], 0, none⟩

/-- Weight-store readback (24 R547): STATUS 0 idle, 1 ready, 2 refused, 3 uncorrectable. -/
structure Readback where
  status : Nat
  core : Nat
  block : Nat
  data : List Byte
  record : List Byte
  deriving DecidableEq, Repr

/-- Idle. -/
def Readback.reset : Readback := ⟨0, 0, 0, [], []⟩

end Sys2Proof.Machine
end

