-- ==== Sys2Proof/Machine/SysState.lean ====
section
/-! DEFINITION. The state of the soundpost: security (19), the arbiter of activities, start-up and retained settings (22),
power (21; 24 Table 24.4), station time (21 R495 to R499; 24 Table 24.5). -/

namespace Sys2Proof.Machine

/-- A firmware image as stored in the tailpiece (19 Table 19.1): SVN, VERSION, digest, and whether it verifies. -/
structure FwImage where
  svn : Nat
  version : Nat
  digest : List Byte
  verifies : Bool
  deriving DecidableEq, Repr

/-- An SPDM session or connection of a requester (19 R434): 0 none, 1 version given, 2 capabilities given, 3 algorithms
chosen, 4 key exchange made, 5 session established. -/
structure Spdm where
  requester : Requester
  phase : Nat
  /-- Key updates made in the session. -/
  updates : Nat
  deriving DecidableEq, Repr

/-- A measurement: its value and change count (19 R433). -/
structure Measurement where
  value : List Byte
  changes : Nat
  deriving DecidableEq, Repr

/-- The spill keys of a group slot (19 R448, R449): the current generation, the member's spill counter, a distribution in
progress with the members that have not acknowledged, repeats. -/
structure SpillKeys where
  gen : Nat
  counter : Nat
  /-- The key of gen + 1 has been received or is being distributed. -/
  next : Bool
  waiting : List Place
  repeats : Nat
  /-- Key generations held; every other key is erased. -/
  held : List Nat
  deriving DecidableEq, Repr

/-- Generation 0. -/
def SpillKeys.reset : SpillKeys := ⟨0, 0, false, [], 0, [0]⟩

/-- A management slot from a peer soundpost (18 R425). -/
structure MgtSlot where
  peer : Place
  full : Bool
  timeout : Bool
  bytes : List Byte
  deriving DecidableEq, Repr

/-- The soundpost's security state (19). -/
structure Sec where
  linkIde : Bool
  /-- Partitions whose bound selective IDE stream is active. -/
  ideSel : List Nat
  meas : List (Nat × Measurement)
  publishers : List (Nat × List Byte)
  roots : List (Nat × List Byte)
  stored : FwImage
  running : FwImage
  svnFloor : Nat
  /-- A firmware write in progress: total length (19 R429, R430), and the bytes of the image as they stand. -/
  fwLen : Option Nat
  fwBytes : Mem
  /-- Waiting under R429. -/
  recovery : Bool
  /-- The identity key has been reconstructed (R431). -/
  identity : Bool
  sessions : List Spdm
  spill : List (Nat × SpillKeys)
  mgtSlots : List MgtSlot
  /-- SECURITY events that wait for PF0's event ring (Table 19.7). -/
  owed : List Nat
  deriving DecidableEq, Repr

/-- The soundpost before it has booted. -/
def Sec.reset : Sec :=
  { linkIde := false, ideSel := [], meas := [], publishers := [], roots := [], stored := ⟨0, 0, [], true⟩
    running := ⟨0, 0, [], true⟩, svnFloor := 0, fwLen := none, fwBytes := [], recovery := false, identity := false
    sessions := [], spill := [], mgtSlots := [], owed := [] }

/-- The retained settings of a port (22 R505). -/
structure PortKept where
  enable : Bool
  encrypt : Bool
  retune : Nat
  vcAlloc : List Nat
  shares : List Nat
  strict : List Bool
  deriving DecidableEq, Repr

/-- The power fields that PF0 writes (21 Tables 21.5, 21.7). -/
structure PowerSet where
  plSust : Nat
  plPeak : Nat
  fOp : Nat
  fFloor : Nat
  voiceMap : BitVec 16
  fixedFstep : Nat
  fixedState : Nat
  fixedVoicing : Nat
  deriving DecidableEq, Repr

/-- Tables 21.5 and 21.7. -/
def PowerSet.reset : PowerSet := ⟨0x60E, 0x708, 0xE, 4, 0xFA50, 0xE, 0, 0⟩

/-- The retained-settings record (22 R505). -/
structure Retained where
  shape : List Byte
  ports : List (Nat × PortKept)
  power : PowerSet
  freq : List (Nat × Nat)
  muteExp : Nat
  flagExps : List Nat
  svnFloor : Nat
  publishers : List (Nat × List Byte)
  roots : List (Nat × List Byte)
  deriving DecidableEq, Repr

/-- The default frequency table: MULT and VMV (21 Table 21.9). -/
def freqDefault : List (Nat × Nat) := (List.range 15).map (fun n => (6 + n, 600 + 20 * n)) ++ [(22, 940)]

/-- The arbiter, start-up and tailpiece (22; 01 R15, R16). -/
structure Maint where
  /-- MAINT_STATUS RUNNING (Table 22.6). -/
  running : Nat
  /-- The running activity was requested by recovery (20 R473). -/
  byRec : Bool
  /-- The activity that a recovery has suspended: code and argument. -/
  suspended : Option (Nat × Nat)
  pauseAsked : Bool
  /-- Recovery activities queued: code and argument (a core or a slot). -/
  queue : List (Nat × Nat)
  /-- The argument of the running activity. -/
  arg : Nat
  ready : Bool
  /-- Start-up order of Table 22.2 reached; 0 before VAUX. -/
  order : Nat
  slotId : Nat
  bootMode : Nat
  /-- THERMTRIP# has been asserted since the last package reset. -/
  tripped : Bool
  /-- The PASS_THROUGH_LEAVE that awaits READY: who asked, SEQ (Table 22.4). -/
  leaving : Option (Asker × W32)
  /-- Tailpiece records 1 to 6 that failed verification (01 Table 1.4). -/
  badRecords : List Nat
  /-- Grade F272 (part 0x0272) or F256. -/
  f272 : Bool
  /-- Cores that the grade record's enable mask leaves out. -/
  factoryOff : List Nat
  /-- The capo map's factory section: faulty physical lanes as (core, lane), spare-row substitutions as core, bank, row, spare (01 R15;
03 R44). -/
  laneFaults : List (Nat × Nat)
  factorySubs : List (Nat × Nat × Nat × Nat)
  /-- The capo map's field section: cores retired. -/
  retired : List Nat
  /-- Substitutions and record changes not yet written to the tailpiece: core, bank, row, spare (04 R89). -/
  pendingSubs : List (Nat × Nat × Nat × Nat)
  /-- Substitutions in the capo map's field section. -/
  subs : List (Nat × Nat × Nat × Nat)
  retained : Option Retained
  /-- A retained field has changed since the record was written (22 R506). -/
  dirty : Bool
  /-- PERST# is asserted. -/
  perst : Bool
  /-- The host interface is up. -/
  hostUp : Bool
  deriving DecidableEq, Repr

/-- Before VAUX is good; MAINT_STATUS RUNNING resets to START_UP (Table 22.6). -/
def Maint.reset : Maint :=
  { running := 0x0A, byRec := false, suspended := none, pauseAsked := false, queue := [], arg := 0, ready := false
    order := 0, slotId := 0, bootMode := 0, tripped := false, leaving := none, badRecords := [], f272 := true
    factoryOff := (List.range 16).map (272 + ·), laneFaults := [], factorySubs := [], retired := [], pendingSubs := [], subs := [], retained := none, dirty := false
    perst := false, hostUp := false }

/-- A part-state with the evaluations in a row at which its input has stayed below the falling threshold (21 R485). -/
structure PartState where
  val : Nat
  below : Nat
  deriving DecidableEq, Repr

/-- Power (21; 24 Table 24.4). -/
structure Power where
  vaux : Bool
  vana : Bool
  vmain : Bool
  pwrEn : Bool
  /-- Rails on: I/O, fabric island, memory, core (21 Table 21.2). -/
  railIo : Bool
  railFabric : Bool
  railMemory : Bool
  railCore : Bool
  /-- Converter stages in fault. -/
  stageFaults : List Nat
  railFault : Bool
  /-- Lane groups ungated: course × 8 + group (21 R478). -/
  ungated : List Nat
  set : PowerSet
  freqStage : List (Nat × Nat)
  freqStep : List (Nat × Nat)
  freqResult : Nat
  partP : PartState
  partT : PartState
  partS : PartState
  budget : Nat
  /-- The last samples: Tmax, P_1ms and P_1s in W, VMAIN in mV, input current in mA. -/
  tmax : Nat
  p1ms : Nat
  p1s : Nat
  vmainMv : Nat
  currentMa : Nat
  /-- Samples in a row with the current above 42 A; evaluations in a row with budget state 7, with budget state 5 or less, and with the
  emergency's inputs clear; samples in a row with Tmax at or above 105 °C and F_FLOOR in force (R483, R490, R492). -/
  overCount : Nat
  sevenCount : Nat
  fiveCount : Nat
  clearCount : Nat
  hotCount : Nat
  emergency : Bool
  /-- An emergency has cleared: one higher at the next step start (Table 21.10). -/
  raiseDue : Bool
  thermtrip : Bool
  deriving DecidableEq, Repr

/-- Nothing supplied; BUDGET_STATUS 0. -/
def Power.reset : Power :=
  { vaux := false, vana := false, vmain := false, pwrEn := false, railIo := false, railFabric := false, railMemory := false
    railCore := false, stageFaults := [], railFault := false, ungated := [], set := PowerSet.reset
    freqStage := freqDefault, freqStep := freqDefault, freqResult := 0, partP := ⟨0, 0⟩, partT := ⟨0, 0⟩
    partS := ⟨0, 0⟩, budget := 0, tmax := 0, p1ms := 0, p1s := 0, vmainMv := 0, currentMa := 0, overCount := 0
    sevenCount := 0, fiveCount := 0, clearCount := 0, hotCount := 0, emergency := false, raiseDue := false
    thermtrip := false }

/-- Station time besides the count (21 R495 to R499; 24 Table 24.5). Timestamps in 1/16 ns. -/
structure Sync where
  synced : Bool
  holdover : Bool
  hops : Nat
  /-- RATE_ADJ of the source. -/
  rateAdj : Int
  /-- Timestamps of the exchange in progress, as the child holds them, and the parent's hops. -/
  t1 : Nat
  t2 : Nat
  t3 : Nat
  parentHops : Nat
  /-- Parts per 10^9 by which the package steers its rate to its parent's. -/
  rate : Int
  /-- The offset still to be removed by slewing, and the part of a nanosecond that has passed, in 1/(`stationUnit`) ns. -/
  slew : Int
  part : Nat
  /-- Parent's and own times of the last exchange, for the rate. -/
  lastParent : Nat
  lastOwn : Nat
  deriving DecidableEq, Repr

/-- Not synced. -/
def Sync.reset : Sync :=
  { synced := false, holdover := false, hops := 0, rateAdj := 0, t1 := 0, t2 := 0, t3 := 0, parentHops := 0, rate := 0, slew := 0
    part := 0, lastParent := 0, lastOwn := 0 }

/-- Package control (24 Table 24.3, R529, R530). -/
structure Pkg where
  refused : Bool
  refusedAt : Nat
  muteExp : Nat
  /-- Lower halves of 64-bit registers that await their upper half: function × 2^24 + offset, and value. -/
  halves : List (Nat × Nat)
  /-- Live writes of package and port registers that wait for a step start: BAR0 offset and value (R531). -/
  live : List (Nat × Nat)
  /-- Bits that the device itself has set or cleared, and W1S bits that a host has written, in the present cycle: register and bits
  (00 R6). -/
  fresh : List (Nat × Nat)
  /-- Upper halves of 64-bit registers that a read of the lower half has latched: function × 2^24 + offset, and value (R529). -/
  latched : List (Nat × Nat)
  deriving DecidableEq, Repr

/-- Resets of Table 24.3. -/
def Pkg.reset : Pkg := ⟨false, 0, 0x18, [], [], [], []⟩

end Sys2Proof.Machine
end

