-- ==== Sys2Proof/Machine/State.lean ====
section
/-! DEFINITION. The state of the block, its faults and refusals, and the state after reset. -/

namespace Sys2Proof.Machine

/-- The model's faults: the block itself never stops with one. -/
inductive Fault where
  /-- Raised by nobody: every detected fault of the part is the effect of a command on State. Safe. -/
  | none
  deriving DecidableEq, Repr

/-- The model's refusals. -/
inductive Refusal where
  /-- Raised by an arm of the dispatch for a command that has no meaning yet. Safe. -/
  | notModelled (mnemonic : String)
  /-- Raised by every ZVIS word that the loader rejects under 08 R172: such a word is in no program. Safe. -/
  | reservedEncoding
  deriving DecidableEq, Repr

/-- A message that the package sends to other packages on CTL (09 R219; 07 R162; 14 R328; 15 R341; 17 R389, R391;
20 R468, R469). -/
inductive CtlMsg where
  /-- The lead sends a step start: slot, number, entry, voicing, seed, replay, LAST_OLD mark (09 R219, 17 Table 17.6). -/
  | stepStart (slot : Nat) (step : W64) (entry voicing : Nat) (seed : W64) (params : Tab W32) (replay lastOld : Bool)
  /-- The batch table, to logical core 0 of every member (14 R330). -/
  | batchTable (slot : Nat) (tid : BitVec 12) (rows : List (List Byte))
  /-- A member reports that its cores have finished a step, or that it has ended it, with its budget state
  (15 R341, 21 R486, 07 R164). -/
  | finished (slot : Nat) (step : W64) (budget : Nat) (report : MemberReport)
  /-- A member reports a detected fault to the lead (20 R468). -/
  | faultReport (slot : Nat) (step : W64) (reason : BitVec 16)
  /-- The lead ends a step on every member (20 R468; 07 R164), with the code of Table 18.7. -/
  | stop (slot : Nat) (step : W64) (status : Nat)
  /-- Page groups are being freed, and a member's acknowledgement (14 R328). -/
  | advance (slot : Nat) (group : Nat)
  | advanceAck (slot : Nat) (group : Nat)
  /-- Spill and reload of a request on the members, and their reports (14 R335, R337). -/
  | spill (slot : Nat) (id : W32) (set : Nat) (groups : List Nat)
  | reload (slot : Nat) (id : W32) (set : Nat) (groups : List Nat)
  | spillDone (slot : Nat) (id : W32) (gens : Nat × Nat) (full : Bool)
  | reloadDone (slot : Nat) (id : W32) (status : Nat)
  /-- Swap: release every layer, staged or why not (Table 17.7), loaded (17 Table 17.6). -/
  | releaseAll (slot : Nat)
  | staged (slot : Nat) (status : Nat)
  | loaded (slot : Nat)
  /-- A DISCARD notice for a transfer (20 R468). -/
  | discard (dest : Place) (core : BitVec 9) (tid : BitVec 12)
  /-- A heartbeat by a port: coordinate, compute state, highest step (20 R469). -/
  | heartbeat (port : Nat) (place : Place) (compute : Nat) (step : W64)
  /-- A SILENT report to the coordinator and the leads (20 R469). -/
  | silent (port : Nat)
  /-- Station-time messages by a port (21 R495). -/
  | sync (port : Nat)
  | followUp (port : Nat) (t1 : Nat) (sourceTime : Nat) (hops : Nat)
  | delayReq (port : Nat)
  | delayResp (port : Nat) (t4 : Nat)
  /-- Epoch change: SWITCH, a drain query, PURGE, RETIRE, and a package's answers (12 R300, R301). -/
  | switch
  | drainQuery
  | purge
  | retire
  | epochAck
  | drainAnswer (oldCount : Nat) (oldSeen : Bool)
  deriving DecidableEq, Repr

/-- A message that the package's soundpost sends on MGT. -/
inductive MgtMsg where
  /-- New route-slot contents (12 Table 12.4). -/
  | routeSlot (shape : List Byte) (fence : List Place)
  /-- FORM: a group's fields and its member list (24 R540), DISSOLVE (R541), and a member's answer. -/
  | formFields (slot : Nat) (fields : GroupFields)
  | formList (slot : Nat) (g : Nat) (members : List (Place × Nat × Tab Nat))
  | formed (slot : Nat)
  | dissolve (slot : Nat)
  | formAnswer (slot : Nat) (ws : Nat) (shards : Tab Nat) (g : Nat) (budget : Nat) (held : Bool) (run : MemberRun)
  /-- The manifest's header and section table (17 Table 17.6). -/
  | manifest (slot : Nat) (bytes : List Byte)
  /-- A chunk request to a loading source (17 R386). -/
  | chunk (slot : Nat) (chunk stream : Nat)
  /-- A spill key for a member, and its acknowledgement (19 R448). -/
  | spillKey (slot : Nat) (gen : Nat)
  | spillKeyAck (slot : Nat) (gen : Nat)
  /-- Link keys: ROTATE, RETIRE_KEY and their answers (19 R446). -/
  | rotate (port : Nat) (gen : Nat)
  | rotateAck (port : Nat) (busy : Bool)
  | retireKey (port : Nat) (gen : Nat)
  | retireKeyAck (port : Nat)
  /-- A message of the soundpost (18 R425). -/
  | message (dest : Place) (bytes : List Byte)
  deriving DecidableEq, Repr

/-- The soundpost's answers to SPDM, TDISP and IDE_KM requests (19 R434, R435, R440 to R444). -/
inductive SpdmReply where
  | version
  | capabilities
  | algorithms
  /-- SHA-512 of the certificate chain. -/
  | digests (chain : List Byte)
  | certificate (chain : List Byte)
  /-- The alias key's signature. -/
  | challengeAuth (signature : List Byte)
  /-- Index, value and change count of each measurement given. -/
  | measurements (l : List (Nat × List Byte × Nat))
  | keyExchange (signature : List Byte)
  | finish
  | keyUpdate
  | heartbeat
  | endSession
  | locked (p : Nat)
  | started (p : Nat)
  | stopped (p : Nat)
  | ideKm
  /-- An SPDM or TDISP error. -/
  | error
  deriving DecidableEq, Repr

/-- What the package has sent, oldest first: the outside world's inputs. -/
structure Out where
  ctl : List CtlMsg
  mgt : List MgtMsg
  /-- Cells handed to the fabric switch. -/
  cells : List Cell
  /-- Frames sent, by port (11 R262). -/
  frames : List (Nat × Frame)
  /-- Symbols sent, by port and lane (11 R258). -/
  lanes : List (Nat × Nat × List Nat)
  /-- Writes to host memory: function, address, bytes. -/
  host : List (Nat × Nat × List Byte)
  /-- Reads of host memory asked for: function, address, length. -/
  hostReads : List (Nat × Nat × Nat)
  /-- MSI-X messages: function, vector. -/
  msix : List (Nat × Nat)
  /-- Replies to board management on I3C (22 R509). -/
  i3c : List (List Byte)
  /-- Spill records in the order written (14 R335). -/
  spills : List (List Byte)
  /-- Answers over DOE or MGT (19 R434). -/
  spdm : List (Requester × SpdmReply)
  /-- Messages of `ctl` and of `mgt` that have left as cells (11 R271). -/
  posted : Nat × Nat
  deriving DecidableEq, Repr

/-- Nothing sent. -/
def Out.empty : Out := ⟨[], [], [], [], [], [], [], [], [], [], [], (0, 0)⟩

/-- The state of the block. -/
structure State where
  pending : List Instr
  free : Nat
  landings : List Landing
  cores : List (Nat × Core)
  clk : Clk
  groups : List (Nat × Group)
  steps : List (Nat × StepRun)
  images : List (Nat × Image)
  parts : List (Nat × Part)
  /-- Physical numbers of the enabled cores, rising (01 R8, R16). -/
  enabled : List Nat
  passThrough : Bool
  /-- Page generations: (slot, page group). -/
  pageGens : List (Nat × Tab Nat)
  funcs : List (Nat × Func)
  /-- STATION_TIME (21 R497). -/
  station : Nat
  /-- Fault log, oldest first, and the number of entries ever written (20 R474). -/
  faultLog : List FaultEntry
  faultCount : Nat
  /-- Jobs of the lookup engines and the update sequencer (16 R369, R371). -/
  kdq : List KdJob
  dbg : Dbg
  dir : Dir
  readback : Readback
  hazards : Tab Nat
  trace : List TraceRec
  /-- Cells on the way to a core of this package (12 R308), and cells in the fabric switch that wait for a port
  (12 R292, R294). -/
  mesh : List InCell
  fabric : List InCell
  /-- Route-table slots 0 and 1 (12 R298). -/
  routes : List (Nat × RouteSlot)
  /-- Cells counted as unroutable, by port; 8 for none (12 R290). -/
  unroutable : Tab Nat
  /-- Discards noticed in the last millisecond: destination core, transfer id, station time (20 R468). -/
  notices : List (Nat × Nat × Nat)
  ports : List (Nat × Port)
  /-- Optical dies 0 to 3 (01 R13). -/
  lasers : List (Nat × Laser)
  net : Net
  sec : Sec
  maint : Maint
  power : Power
  sync : Sync
  pkg : Pkg
  /-- MESH_CRC faults of the last hour, clock faults of the last 10 minutes: station times (20 R463, R464). -/
  meshFaults : List Nat
  clockFaults : List Nat
  out : Out
  deriving DecidableEq, Repr

/-- The clock before start-up: the counter at 0, nothing held, no PLL locked, frequency step 0. -/
def Clk.reset : Clk :=
  { tick := 0, heldTotal := 0, heldRun := 0, late := [], holds := [], conflicts := [], uses := [], previews := []
    locked := List.replicate 8 false, refclk := true, fstep := 0, change := none, diverges := 0, lockLosses := 0 }

/-- The block before start-up: Tables 22.6, 24.2 to 24.14 and the resets of each chapter; where the spec gives none,
log entries 3, 4 and 6. -/
def State.reset : State :=
  { pending := [], free := 0, landings := [], cores := [], clk := Clk.reset, groups := [], steps := [], images := []
    parts := [], enabled := List.range 272, passThrough := false, pageGens := [], funcs := [], station := 0
    faultLog := [], faultCount := 0, kdq := [], dbg := Dbg.reset, dir := Dir.reset
    readback := Readback.reset, hazards := [], trace := [], mesh := [], fabric := [], routes := [], unroutable := [], notices := []
    ports := [], lasers := [], net := Net.reset, sec := Sec.reset, maint := Maint.reset, power := Power.reset
    sync := Sync.reset, pkg := Pkg.reset, meshFaults := [], clockFaults := [], out := Out.empty }

end Sys2Proof.Machine
end

