-- ==== Sys2Proof/Machine/RingOps.lean ====
section
/-! DEFINITION. Writing to host memory: device rings, their producer indices and MSI-X messages, completions, token
records and events (18 R401 to R408, R411, R412, R418; 15 R357). -/

namespace Sys2Proof.Machine

/-- Function f. -/
def State.func (s : State) (f : Nat) : Func := Recs.get Func.reset s.funcs f

/-- Applies a function to function f's state. -/
def State.updFunc (s : State) (f : Nat) (g : Func → Func) : State := { s with funcs := Recs.put s.funcs f (g (s.func f)) }

/-- The ring of a key: submission r at r, completion at 64 + r, token output at 128 + r, event 192, record 193. -/
def Func.ring (f : Func) (k : Nat) : Ring := Recs.get Ring.reset f.rings k

/-- Applies a function to a ring. -/
def Func.updRing (f : Func) (k : Nat) (g : Ring → Ring) : Func := { f with rings := Recs.put f.rings k (g (f.ring k)) }

/-- Host window w. -/
def Func.win (f : Func) (w : Nat) : HostWin := Recs.get ⟨0, 0⟩ f.windows w

/-- Entries that a ring holds (R402). -/
def Ring.held (r : Ring) : Nat := (r.p - r.c).toNat

/-- P − C = 2^s (R402). -/
def Ring.full (r : Ring) : Bool := 2 ^ r.s ≤ r.held

/-- Entry bytes of a ring key (Table 18.2); a record slot has 2^SLOT bytes. -/
def Ring.entrySize (r : Ring) (k : Nat) : Nat :=
  if k < 64 then 64 else if k < 128 then 32 else if k < 192 then 16 else if k = 192 then 32 else 2 ^ r.slot

/-- Where a ring's device-written index lies in the status page (Table 18.3). -/
def indexOffset (k : Nat) : Nat := if k < 192 then 4 * k else 768 + 4 * (k - 192)

/-- Both pages of a function are set (R404). -/
def Func.pagesSet (f : Func) : Bool := f.dbPage != 0 && f.stPage != 0

/-- A write to host memory. -/
def State.hostWrite (s : State) (f addr : Nat) (bs : List Byte) : State :=
  { s with out := { s.out with host := s.out.host ++ [(f, addr, bs)] } }

/-- Writes a ring's index into the status page. -/
def State.writeIndex (s : State) (f k : Nat) (v : W32) : State :=
  if (s.func f).pagesSet then s.hostWrite f ((s.func f).stPage + indexOffset k) (leBytes 4 v.toNat) else s

/-- An MSI-X message, or its pending bit while the vector is masked (R411). -/
def State.msix (s : State) (f v : Nat) : State :=
  if (s.func f).masked.contains v then
    s.updFunc f (fun x => { x with pendingMsix := if x.pendingMsix.contains v then x.pendingMsix else x.pendingMsix ++ [v] })
  else { s with out := { s.out with msix := s.out.msix ++ [(f, v)] } }

/-- A device ring takes an entry: the entry, then the index, then the message (R407, R411). -/
def State.ringWrite (s : State) (f k : Nat) (bs : List Byte) : State :=
  let r := (s.func f).ring k
  let s := s.hostWrite f (r.base + r.p.toNat % 2 ^ r.s * r.entrySize k) bs
  let s := s.updFunc f (fun x => x.updRing k (fun r => { r with p := r.p + 1, since := r.since + 1 }))
  let s := s.writeIndex f k (r.p + 1)
  if r.countThr ≤ r.since + 1 ∨ r.timeThr = 0 then
    (s.updFunc f (fun x => x.updRing k (fun r => { r with since := 0 }))).msix f r.vector
  else s

/-- A device ring can take an entry: enabled and not full. -/
def State.ringRoom (s : State) (f k : Nat) : Bool := ((s.func f).ring k).en && !((s.func f).ring k).full

/-- A completion: its ring, or the completion buffer behind what waits there (R408, R412). -/
def State.complete (s : State) (x : SubRef) (bs : List Byte) : State :=
  if s.ringRoom x.func (64 + x.ring) && (s.func x.func).cqBuf.all (·.1 != x.ring) then
    s.ringWrite x.func (64 + x.ring) bs
  else s.updFunc x.func (fun f => { f with cqBuf := f.cqBuf ++ [(x.ring, bs)] })

/-- The 32 bytes of a completion (Table 18.5). -/
def complBytes (opcode status : Nat) (final : Bool) (tag : W32) (id detail : Nat) (step : W64) (time : Nat) : List Byte :=
  leBytes 1 opcode ++ leBytes 1 status ++ leBytes 1 (b01 final) ++ [0] ++ leBytes 4 tag.toNat ++ leBytes 4 id ++
    leBytes 4 detail ++ leBytes 8 step.toNat ++ leBytes 8 time

/-- A token record: its ring, or the output buffer (15 R357). -/
def State.tokenRecord (s : State) (f ring : Nat) (bs : List Byte) : State :=
  if s.ringRoom f (128 + ring) && (s.func f).tqBuf.all (·.1 != ring) then s.ringWrite f (128 + ring) bs
  else s.updFunc f (fun x => { x with tqBuf := x.tqBuf ++ [(ring, bs)] })

/-- The 32 bytes of an event (R418). -/
def Event.bytes (e : Event) : List Byte :=
  leBytes 2 e.code.toNat ++ leBytes 1 e.cls.toNat ++ [0] ++ leBytes 4 e.group.toNat ++ leBytes 8 e.step.toNat ++
    leBytes 8 e.time ++ leBytes 8 e.detail.toNat

/-- Raises an event at a function: its ring, or the event buffer of 256; further events are counted (R408, R418). -/
def State.raise (s : State) (f : Nat) (e : Event) : State :=
  if s.ringRoom f 192 && (s.func f).evBuf.isEmpty then s.ringWrite f 192 e.bytes
  else if (s.func f).evBuf.length < 256 then s.updFunc f (fun x => { x with evBuf := x.evBuf ++ [e] })
  else s.updFunc f (fun x => { x with evLost := x.evLost + 1 })

/-- An event at PF0 and at an owner. -/
def State.raiseTo (s : State) (owner : Nat) (e : Event) : State :=
  let s := s.raise 0 e
  if owner = 0 then s else s.raise owner e

/-- Completions that a ring can take leave the buffer, oldest first. -/
def State.drainCq (s : State) (f : Nat) : List (Nat × List Byte) → State
  | [] => s
  | (r, bs) :: l =>
    if s.ringRoom f (64 + r) then
      State.drainCq ((s.ringWrite f (64 + r) bs).updFunc f (fun x => { x with cqBuf := x.cqBuf.erase (r, bs) })) f l
    else State.drainCq s f l

/-- Token records that a ring can take leave the output buffer. -/
def State.drainTq (s : State) (f : Nat) : List (Nat × List Byte) → State
  | [] => s
  | (r, bs) :: l =>
    if s.ringRoom f (128 + r) then
      State.drainTq ((s.ringWrite f (128 + r) bs).updFunc f (fun x => { x with tqBuf := x.tqBuf.erase (r, bs) })) f l
    else State.drainTq s f l

/-- Events that the event ring can take leave the buffer; then one EVENTS_LOST carries the count (R408). -/
def State.drainEv (s : State) (f : Nat) : List Event → State
  | [] =>
    let n := (s.func f).evLost
    if n = 0 then s
    else if s.ringRoom f 192 then
      (s.ringWrite f 192 (Event.bytes ⟨0x0002, 1, 0, 0, s.station, BitVec.ofNat 64 n⟩)).updFunc f
        (fun x => { x with evLost := 0 })
    else s
  | e :: l =>
    if s.ringRoom f 192 then
      State.drainEv ((s.ringWrite f 192 e.bytes).updFunc f (fun x => { x with evBuf := x.evBuf.drop 1 })) f l
    else s

/-- Room in the device rings is filled from the function's buffers (R408). -/
def State.drainRings (s : State) (f : Nat) : State :=
  let s := s.drainCq f (s.func f).cqBuf
  let s := s.drainTq f (s.func f).tqBuf
  s.drainEv f (s.func f).evBuf

end Sys2Proof.Machine
end

