-- ==== Sys2Proof/Machine/Ops.lean ====
section
/-! DEFINITION. The named operations over State: cores, partitions and steps, memories, the exception log, the fault log
and events, stopping a step, results in flight. -/

namespace Sys2Proof.Machine

/-! ### Cores -/

/-- The core of a physical number. -/
def State.core (s : State) (c : Nat) : Core := Recs.get Core.reset s.cores c

/-- Puts a core. -/
def State.setCore (s : State) (c : Nat) (x : Core) : State := { s with cores := Recs.put s.cores c x }

/-- Applies a function to a core. -/
def State.updCore (s : State) (c : Nat) (f : Core → Core) : State := s.setCore c (f (s.core c))

/-- Applies a function to a core's control core. -/
def State.updCtl (s : State) (c : Nat) (f : Ctl → Ctl) : State := s.updCore c (fun x => { x with ctl := f x.ctl })

/-- Applies a function to a core's lane row. -/
def State.updLane (s : State) (c : Nat) (f : Lane → Lane) : State := s.updCore c (fun x => { x with lane := f x.lane })

/-- Applies a function to a core's vector engine. -/
def State.updVec (s : State) (c : Nat) (f : Vec → Vec) : State := s.updCore c (fun x => { x with vec := f x.vec })

/-- Applies a function to a core's scratchpad. -/
def State.updSp (s : State) (c : Nat) (f : SPad → SPad) : State := s.updCore c (fun x => { x with sp := f x.sp })

/-- Applies a function to a core's weight store. -/
def State.updWs (s : State) (c : Nat) (f : WStore → WStore) : State := s.updCore c (fun x => { x with ws := f x.ws })

/-- Applies a function to a core's move engine. -/
def State.updXfer (s : State) (c : Nat) (f : Xfer → Xfer) : State := s.updCore c (fun x => { x with xfer := f x.xfer })

/-- Applies a function to a core's fault detectors. -/
def State.updDet (s : State) (c : Nat) (f : Detect → Detect) : State := s.updCore c (fun x => { x with det := f x.det })

/-- Whether a physical core is enabled (01 R2, R16). -/
def State.isEnabled (s : State) (c : Nat) : Bool := s.enabled.contains c

/-- The enabled count N (01 R16). -/
def State.n (s : State) : Nat := s.enabled.length

/-- The logical number of a physical core: its rank among the enabled ones (01 R8). -/
def State.logical (s : State) (c : Nat) : Nat := (s.enabled.filter (· < c)).length

/-- The physical core of a logical number (01 R8, 08 R177). -/
def State.physOf (s : State) (l : Nat) : Option Nat := s.enabled[l]?

/-- Hops of the mesh route between two physical cores (12 R306). -/
def meshHops (a b : Nat) : Nat :=
  let d (x y : Nat) : Nat := if x ≤ y then y - x else x - y
  d (a % 24) (b % 24) + d (a / 24) (b / 24)

/-- Course boundaries between two physical cores: columns 6, 12, 18 and row 6 (12 R306). -/
def meshCrossings (a b : Nat) : Nat :=
  let d (x y : Nat) : Nat := if x ≤ y then y - x else x - y
  d (a % 24 / 6) (b % 24 / 6) + d (a / 24 / 6) (b / 24 / 6)

/-- The course of a physical core (01 R9). -/
def courseOf (c : Nat) : Nat := c / 24 / 6 * 4 + c % 24 / 6

/-- The whole numbers from a to b, in that direction. -/
def stretch (a b : Nat) : List Nat :=
  if a ≤ b then (List.range (b - a + 1)).map (a + ·) else (List.range (a - b + 1)).map (a - ·)

/-- The cores that the mesh route from a to b passes: along the row first, then along the column (12 R306). -/
def meshPath (a b : Nat) : List Nat :=
  (stretch (a % 24) (b % 24)).map (24 * (a / 24) + ·) ++ ((stretch (a / 24) (b / 24)).drop 1).map (fun r => 24 * r + b % 24)

/-- The links of a route with the tick in which each is crossed, the first in tick t: a tick for each hop, and 6 more behind each course
boundary (09 Table 9.1; DEDUCED, log entry 94). -/
def meshLinks (a b t : Nat) : List (Nat × Nat × Nat) :=
  let p := meshPath a b
  ((p.zip (p.drop 1)).foldl (fun (x : List (Nat × Nat × Nat) × Nat) l =>
    (x.1 ++ [(x.2, l.1, l.2)], x.2 + 1 + if courseOf l.1 == courseOf l.2 then 0 else 6)) ([], t)).1

/-! ### Partitions, groups, steps -/

/-- A partition's descriptor. -/
def State.part (s : State) (p : Nat) : Part := Recs.get Part.reset s.parts p

/-- The group slot g. -/
def State.group (s : State) (g : Nat) : Group := Recs.get Group.reset s.groups g

/-- Applies a function to group slot g. -/
def State.updGroup (s : State) (g : Nat) (f : Group → Group) : State :=
  { s with groups := Recs.put s.groups g (f (s.group g)) }

/-- The step of group slot g on this package. -/
def State.step' (s : State) (g : Nat) : StepRun := Recs.get StepRun.idle s.steps g

/-- Applies a function to the step of group slot g. -/
def State.updStep (s : State) (g : Nat) (f : StepRun → StepRun) : State :=
  { s with steps := Recs.put s.steps g (f (s.step' g)) }

/-- The image of group slot g. -/
def State.image (s : State) (g : Nat) : Image := Recs.get Image.empty s.images g

/-- Whether a logical core lies in a partition's range (19 R438). -/
def Part.holds (p : Part) (l : Nat) : Bool := p.first ≤ l && l < p.first + p.count

/-- The partition that owns a physical core (19 R438). -/
def State.partOf (s : State) (c : Nat) : Option Nat :=
  if s.isEnabled c then (List.range 9).find? (fun p => (s.part p).holds (s.logical c)) else none

/-- The physical cores of a partition. -/
def State.coresOf (s : State) (p : Nat) : List Nat :=
  s.enabled.filter (fun c => (s.part p).holds (s.logical c))

/-- Whether the step of a slot is in progress: it has started and not every member has reported (15 R341). -/
def StepRun.live (r : StepRun) : Bool :=
  match r.phase with | .starting | .running | .reported => true | _ => false

/-- Whether the step runs on this package's cores (20 R551). -/
def StepRun.onCores (r : StepRun) : Bool := match r.phase with | .starting | .running => true | _ => false

/-- Whether the cores hold the step: it runs, or they decode for it already (07 R151). -/
def StepRun.holdsCores (r : StepRun) : Bool :=
  match r.phase with | .starting => r.decodeAt.isSome | .running => true | _ => false

/-- Whether the next step of the slot has to wait: the step, its commit phase or the gathering of its record has not ended (15 R341). -/
def StepRun.busy (r : StepRun) : Bool := r.live || r.phase == .committing || r.phase == .stopping

/-- The group slot whose step concerns a core, among the formed groups of its partition's owner: the step that runs or,
between steps, the last that ran (07 R162, 08 R201, 09 R205). -/
def State.slotOf (s : State) (c : Nat) : Option Nat :=
  match s.partOf c with
  | none => none
  | some p =>
    let gs := (List.range 16).filter (fun g => (s.group g).formed && (s.group g).owner == p && (s.step' g).phase != .none)
    match ((gs.filter (fun g => (s.step' g).holdsCores)) ++ gs.filter (fun g => (s.step' g).onCores)).head? with
    | some g => some g
    | none => gs.foldl (fun m g => match m with
        | none => some g
        | some h => if (s.step' h).s0 < (s.step' g).s0 then some g else m) none

/-- The image whose program a core runs. -/
def State.programOf (s : State) (c : Nat) : Image := match s.slotOf c with | some g => s.image g | none => Image.empty

/-- The step that concerns a core; no step reads as step 0 with seed 0. -/
def State.stepOf (s : State) (c : Nat) : StepRun :=
  match s.slotOf c with | some g => s.step' g | none => StepRun.idle

/-- The digest salt in force for a core (10 R241). -/
def State.saltOf (s : State) (c : Nat) : W64 :=
  match s.slotOf c with | some g => (s.group g).salt | none => 0

/-- The tenant number of a core's partition; 0 where no partition owns it. -/
def State.tenantOf (s : State) (c : Nat) : Nat :=
  match s.partOf c with | some p => (s.part p).tenant | none => 0

/-- Route-table slot i (12 R298). -/
def State.routeSlot (s : State) (i : Nat) : RouteSlot := Recs.get RouteSlot.empty s.routes i

/-- The number of the CURRENT slot; 0 where none is (12 R298). -/
def State.epochBit (s : State) : Nat := if (s.routeSlot 1).st == 2 then 1 else 0

/-- The shape record in force. -/
def State.shape (s : State) : List Byte := (s.routeSlot s.epochBit).shape

/-- This package's place, from the shape record in force (12 Table 12.1); 0 without a record. -/
def State.place (s : State) : Place :=
  BitVec.ofNat 20 (fieldN s.shape 64 1 % 64 + 64 * (fieldN s.shape 65 1 % 64) + 4096 * (fieldN s.shape 66 1 % 64) +
    2 ^ 18 * (fieldN s.shape 67 1 % 4))

/-- The package is a spare, as it is without a record: it holds no coordinate and answers to no destination (12 R287, R302). -/
def State.spare (s : State) : Bool := s.shape.isEmpty || fieldN s.shape 68 1 != 0

/-- A place inside the declared shape, in a federated pod that is reached (08 R176, 12 R288, Table 12.1). -/
def State.placeOk (s : State) (p : Place) : Bool :=
  let n := p.toNat
  let pod := n / 2 ^ 18
  let f (o : Nat) : Nat := fieldN s.shape o 1
  n % 64 < f 2 && n / 64 % 64 < f 3 && n / 4096 % 64 < f 4 && bitN (f 6) pod &&
    (pod == s.place.toNat / 2 ^ 18 || f (16 + 12 * pod) != 0)

/-! ### Scratchpad -/

/-- Rows of the scratchpad (05 R90). -/
def spRows : Nat := 6144

/-- Bytes of the scratchpad. -/
def spBytes : Nat := 393216

/-- The 64 bytes of a row. -/
def SPad.row (m : SPad) (r : Nat) : List Byte := m.mem.read (64 * r) 64

/-- Whether a 64-bit word of the rows holds a double-bit error (05 R109). -/
def SPad.rowBad (m : SPad) (r : Nat) : Bool := m.errs.any (fun e => e.2 == .double && e.1 / 8 == r)

/-- Writes bytes at an address: every word that they touch carries a good code again, but for a word whose cells are faulty (05 R109). -/
def SPad.write (m : SPad) (a : Nat) (bs : List Byte) : SPad :=
  { m with
    mem := m.mem.write a bs
    errs := m.errs.filter (fun e => !(a < 8 * e.1 + 8 && 8 * e.1 < a + bs.length) || m.faulty.contains e.1) }

/-- Upsets of words found latent: a single-bit error in a word that has one already is a double-bit error; a word whose cells are faulty
fails at every later read (05 R109). -/
def SPad.upset (m : SPad) (flips : List (Nat × Bool × Bool)) : SPad :=
  flips.foldl (fun m f =>
    let double := f.2.1 || f.2.2 || m.errs.any (·.1 == f.1)
    { m with
      errs := m.errs.filter (·.1 != f.1) ++ [(f.1, if double then .double else .single)]
      faulty := if f.2.2 && !m.faulty.contains f.1 then m.faulty ++ [f.1] else m.faulty }) m

/-- Writes a row. -/
def SPad.writeRow (m : SPad) (r : Nat) (bs : List Byte) : SPad := m.write (64 * r) (sliceB bs 0 64)

/-- A read corrects in line the single-bit errors of the rows that it meets: they are counted, and the stored words stay as they are
until they are written (05 R109; DEDUCED, log entry 92). -/
def SPad.correct (m : SPad) (rows : List Nat) : SPad :=
  let hit := m.errs.filter (fun e => e.2 == .single && rows.contains (e.1 / 8))
  { m with corrected := satNat (2 ^ 32 - 1) (m.corrected + hit.length) }

/-! ### Weight store -/

/-- Blocks of a weight store (04 R71). -/
def wsBlocks : Nat := 3072

/-- The record of a block that the self-test left: Scheme 0, scales 0x7F and their CRC (22 R503). -/
def BlockRec.zero : BlockRec := ⟨0x8A1CE686, false, []⟩

/-- The record of a block. -/
def WStore.record (w : WStore) (b : Nat) : BlockRec := Recs.get BlockRec.zero w.records b

/-- The 4,096 bytes of a block in program-visible order (04 R71). -/
def WStore.block (w : WStore) (b : Nat) : List Byte := w.mem.read (4096 * b) 4096

/-- Record bytes 4 to 263 (04 Table 4.1). -/
def BlockRec.body (r : BlockRec) : List Byte :=
  (if r.square then 1 else 0) :: [0, 0, 0] ++ Tab.getList 0x7F r.scales 0 256

/-- The CRC of a block with its record (04 R74). -/
def WStore.crcOf (w : WStore) (b : Nat) : W32 := crc32c (w.block b ++ (w.record b).body)

/-- The region map entry d. -/
def WStore.region (w : WStore) (d : Nat) : Region := Recs.get Region.unused w.regions d

/-- The region that holds a block. -/
def WStore.regionOf (w : WStore) (b : Nat) : Option Region :=
  ((List.range 8).map w.region).find? (fun r => r.count != 0 && r.first ≤ b && b < r.first + r.count)

/-- The kind of the region that holds a block; 0 where the block is unassigned (04 R77, R78). -/
def WStore.kindOf (w : WStore) (b : Nat) : Nat := match w.regionOf b with | some r => r.kind | none => 0

/-- The bank of byte c of stored row r of a block: fretted in a weights region, linear elsewhere (04 R72). -/
def WStore.bankOf (w : WStore) (b r c : Nat) : Nat := if w.kindOf b == 1 then (r + c) % 64 else r

/-- The byte addresses that bank word `e` holds: word k of bank n's row of block b is numbered 512 b + 8 n + k (04 R72). -/
def WStore.wordBytes (w : WStore) (e : Nat) : List Nat :=
  let b := e / 512
  let n := e % 512 / 8
  (List.range 8).map (fun i =>
    let p := 8 * (e % 8) + i
    4096 * b + 64 * (if w.kindOf b == 1 then (n + 64 - p) % 64 else n) + p)

/-- The words that a write of n bytes from a touches carry good codes again; those of a record written whole do too (04 R81). -/
def WStore.recode (w : WStore) (a n : Nat) : WStore :=
  { w with errs := w.errs.filter (fun e => !(w.wordBytes e.1).any (fun x => a ≤ x && x < a + n)) }

/-- A block has been written: its record is written with it, the CRC recomputed, Scheme and scales as they stand (04 R74, R75, R83). -/
def WStore.sealBlock (w : WStore) (b : Nat) : WStore :=
  { w with
    records := Recs.put w.records b { w.record b with crc := w.crcOf b }
    recErrs := w.recErrs.filter (fun e => e.1 / 33 != b)
    writes := Tab.upd 0 w.writes b (· + 1) }

/-- Writes bytes within one block (04 R75, R81, R83). -/
def WStore.write (w : WStore) (a : Nat) (bs : List Byte) : WStore :=
  ({ w with mem := w.mem.write a bs }.recode a bs.length).sealBlock (a / 4096)

/-- Writes stored rows by byte address in one access; the CRC of every block written is recomputed (04 R75). -/
def WStore.writeRows (w : WStore) (rows : List (Nat × List Byte)) : WStore :=
  let w' := rows.foldl (fun w p => { w with mem := w.mem.write p.1 p.2 }.recode p.1 p.2.length) w
  ((rows.map (·.1 / 4096)).eraseDups).foldl WStore.sealBlock w'

/-- A word of a block or of its record holds a double-bit error, or the block awaits restoration (04 R86, R87). -/
def WStore.blockBad (w : WStore) (b : Nat) : Bool :=
  w.bad.contains b || w.errs.any (fun e => e.2 == .double && e.1 / 512 == b) ||
    w.recErrs.any (fun e => e.2 == .double && e.1 / 33 == b)

/-- The bank words that a read of stored row r of block b meets: every word of the block's banks where it is fretted, those of bank r
where it is linear (04 R72, R73). -/
def WStore.meets (w : WStore) (b r e : Nat) : Bool := e / 512 == b && (w.kindOf b == 1 || e % 512 / 8 == r)

/-- A read of the stored row at a byte address delivers nothing (04 R86, R87). -/
def WStore.rowBad (w : WStore) (a : Nat) : Bool :=
  w.bad.contains (a / 4096) || w.errs.any (fun e => e.2 == .double && w.meets (a / 4096) (a % 4096 / 64) e.1)

/-- Counts corrected errors by bank (04 R82). -/
def countBanks (t : Tab Nat) (hit : List (Nat × WordErr)) : Tab Nat :=
  hit.foldl (fun t e => Tab.upd 0 t (e.1 % 512 / 8) (fun n => satNat (2 ^ 32 - 1) (n + 1))) t

/-- A read corrects in line the single-bit errors of a block and counts them per bank; the stored words stay as they are until they are
written (04 R81, R82; DEDUCED, log entry 92). -/
def WStore.correct (w : WStore) (b : Nat) : WStore :=
  { w with corrected := countBanks w.corrected (w.errs.filter (fun e => e.2 == .single && e.1 / 512 == b)) }

/-- As `correct`, of a read of the stored row at a byte address. -/
def WStore.correctRow (w : WStore) (a : Nat) : WStore :=
  { w with
    corrected := countBanks w.corrected
      (w.errs.filter (fun e => e.2 == .single && w.meets (a / 4096) (a % 4096 / 64) e.1)) }

/-! ### Exceptions, faults, events -/

/-- Writes an exception record of a core: the first 16 of a step are kept, every one is counted (07 R166, R168).
`src` is 0 control core, 1 lane, 2 vector, 3 move queue, 4 arrival. -/
def State.logExc (s : State) (c : Nat) (tick : Nat) (offset : BitVec 24) (opcode : Byte) (src : Nat) (r : Reason)
    (detail : Nat) : State :=
  s.updCtl c (fun k => { k with
    skipCount := satNat (2 ^ 32 - 1) (k.skipCount + 1)
    recs := if k.recs.length < 16 then
        k.recs ++ [⟨BitVec.ofNat 32 tick, offset, opcode, BitVec.ofNat 16 (c + 512 * src), r, BitVec.ofNat 32 detail⟩]
      else k.recs })

/-- A fresh open value (log entry 5). -/
def State.takeFree (s : State) (w : Nat) : BitVec w × State :=
  (Config.freeWord w s.free, { s with free := s.free + 1 })

/-- The reasons whose DETAIL the manual gives: LANE_RESIDUE (20 Table 20.5), LINK_PROTOCOL and UNROUTABLE (20 R468), HOST_DMA (18 R400,
R417), RECORD_VERIFY (01 R15). -/
def detailGiven (reason : BitVec 16) : Bool :=
  reason == 0x0001 || reason == 0x0031 || reason == 0x0032 || reason == 0x00A0 || reason == 0x00D0

/-- Writes a fault-log entry and raises the FAULT event at PF0 and at the function whose step it touched (20 R474). The DETAIL of a
reason for which the manual gives none is an open value (log entry 5). -/
def State.logFault (s : State) (reason : BitVec 16) (cls outcome : Nat) (slot : Option Nat) (step : W64)
    (unit sub : BitVec 16) (detail : Nat) : State :=
  let g : W32 := match slot with | some g => (s.group g).id | none => 0
  let (open_, s) := if detailGiven reason then (BitVec.ofNat 32 detail, s) else s.takeFree 32
  let e : FaultEntry := ⟨reason, cls, outcome, g, step, s.station, unit, sub, open_⟩
  let idx := s.faultCount
  let s := { s with
    faultLog := (if s.faultLog.length < 1024 then s.faultLog else s.faultLog.drop 1) ++ [e]
    faultCount := s.faultCount + 1 }
  let ev : Event := ⟨0x0031, 2, g, step, s.station, BitVec.ofNat 64 (reason.toNat + idx * 65536)⟩
  let s := s.raise 0 ev
  match slot with
  | some g => if (s.group g).owner == 0 then s else s.raise (s.group g).owner ev
  | none => s

/-! ### Results in flight -/

/-- Puts a result in flight. -/
def State.land (s : State) (key prio c : Nat) (e : LandEff) : State :=
  { s with landings := Landing.insert ⟨key, prio, c, e⟩ s.landings }

/-- A result that lands at the end of package tick t. -/
def State.landEnd (s : State) (t prio c : Nat) (e : LandEff) : State := s.land (2 * t + 1) prio c e

/-- A result that lands at the start of package tick t. -/
def State.landStart (s : State) (t prio c : Nat) (e : LandEff) : State := s.land (2 * t) prio c e

/-- The clock cycle that the state stands in, counted since reset: ticks and held cycles (09 R204, R206). -/
def State.now (s : State) : Nat := s.clk.tick + s.clk.heldTotal

/-- Notes accesses to units of core c in package tick t by an instruction of a core, or by an arrival where there is no entry (09 R211). -/
def State.use (s : State) (t c from_ order : Nat) (e : Option QEntry) (l : List Access) : State :=
  { s with clk := { s.clk with uses := s.clk.uses ++ l.map (fun a => ⟨t, c, from_, order, a, e⟩) } }

/-- Opcode and engine of a ZVIS word: source 0 control core, 1 lane, 2 vector, 3 move queue (07 Table 7.4, 08
Table 8.2); none for a command that is no word. -/
def wordInfo : Instr → Option (Byte × Nat)
  | .nop .. => some (0x00, 0) | .halt .. => some (0x01, 0) | .loop .. => some (0x02, 0)
  | .endloop .. => some (0x03, 0) | .waitf .. => some (0x04, 0)
  | .setf .. => some (0x05, 3) | .incf .. => some (0x06, 3) | .decf .. => some (0x07, 3)
  | .signal .. => some (0x08, 3) | .expect .. => some (0x09, 3) | .mark .. => some (0x0A, 3)
  | .mova .. => some (0x10, 0) | .adda .. => some (0x11, 0) | .suba .. => some (0x12, 0)
  | .shla .. => some (0x13, 0) | .anda .. => some (0x14, 0) | .moda .. => some (0x15, 0) | .lda .. => some (0x16, 0)
  | .string .. => some (0x20, 1) | .stringt .. => some (0x21, 1) | .swapt .. => some (0x22, 1)
  | .bow .. => some (0x23, 1) | .bowg .. => some (0x24, 1) | .zacc .. => some (0x25, 1)
  | .window .. => some (0x26, 1) | .drain .. => some (0x27, 1)
  | .vld .. => some (0x40, 2) | .vst .. => some (0x41, 2) | .vfill .. => some (0x42, 2)
  | .vprog .. => some (0x43, 2) | .vcvt .. => some (0x44, 2) | .vperm .. => some (0x45, 2)
  | .vredInit .. => some (0x46, 2) | .vredAcc .. => some (0x46, 2) | .vredMerge .. => some (0x46, 2)
  | .vredPhase .. => some (0x46, 2) | .vredOut .. => some (0x46, 2) | .vredSmout .. => some (0x46, 2)
  | .vscan .. => some (0x47, 2)
  | .vtopkInit .. => some (0x48, 2) | .vtopkAcc .. => some (0x48, 2) | .vtopkMerge .. => some (0x48, 2)
  | .vtopkOut .. => some (0x48, 2)
  | .spfill .. => some (0x60, 3) | .spcopy .. => some (0x61, 3) | .wsrd .. => some (0x62, 3)
  | .wswr .. => some (0x63, 3) | .kvrd .. => some (0x64, 3) | .kvwr .. => some (0x65, 3)
  | .kvwrRemote .. => some (0x65, 3) | .send .. => some (0x66, 3) | .sendacc .. => some (0x67, 3)
  | .sendxor .. => some (0x68, 3) | .recvData .. => some (0x69, 3) | .recvAccumulator .. => some (0x69, 3)
  | .recvFastAdd .. => some (0x69, 3) | .recvXor .. => some (0x69, 3) | .recvOnDieRead .. => some (0x69, 3)
  | .hostrd .. => some (0x6A, 3) | .hostwr .. => some (0x6B, 3) | .kdlook .. => some (0x6C, 3)
  | .kdput .. => some (0x6D, 3)
  | _ => none

/-- The tick delta of a word (08 Table 8.1); 0 for a command that is no word. -/
def wordDelta : Instr → BitVec 12
  | .nop _ d | .halt _ d | .loop _ d _ _ | .endloop _ d | .waitf _ d _ _ | .setf _ d _ _ | .incf _ d _ | .decf _ d _
  | .signal _ d _ _ | .expect _ d _ | .mark _ d _ | .mova _ d _ _ _ | .adda _ d _ _ _ _ | .suba _ d _ _ _ _
  | .shla _ d _ _ _ _ | .anda _ d _ _ _ _ | .moda _ d _ _ _ _ | .lda _ d _ _ _ _ | .string _ d _ _ _
  | .stringt _ d _ _ _ | .swapt _ d | .bow _ d _ _ _ _ _ _ _ _ | .bowg _ d _ _ _ _ _ _ _ _ | .zacc _ d _
  | .window _ d _ _ _ _ _ | .drain _ d _ _ _ _ _ | .vld _ d _ _ _ _ | .vst _ d _ _ _ _ | .vfill _ d _ _
  | .vprog _ d _ | .vcvt _ d _ | .vperm _ d _ _ _ _ _ _ | .vredInit _ d _ _ _ _ _ _ | .vredAcc _ d _ _ _ _ _ _ _ _
  | .vredMerge _ d _ _ | .vredPhase _ d _ | .vredOut _ d _ _ _ | .vredSmout _ d _ _ _ _ | .vscan _ d _ _ _ _ _ _ _
  | .vtopkInit _ d _ | .vtopkAcc _ d _ _ _ | .vtopkMerge _ d _ | .vtopkOut _ d _ | .spfill _ d _ _ _ _ _ _
  | .spcopy _ d _ _ _ _ | .wsrd _ d _ _ _ _ | .wswr _ d _ _ _ _ | .kvrd _ d _ _ _ | .kvwr _ d _ _ _
  | .kvwrRemote _ d _ _ _ _ _ | .send _ d _ _ _ _ _ _ | .sendacc _ d _ _ _ _ _ | .sendxor _ d _ _ _ _ _ _
  | .recvData _ d _ _ | .recvAccumulator _ d _ _ | .recvFastAdd _ d _ _ | .recvXor _ d _ _ | .recvOnDieRead _ d _ _ _
  | .hostrd _ d _ _ _ _ _ | .hostwr _ d _ _ _ _ _ | .kdlook _ d _ _ _ _ | .kdput _ d _ _ _ _ => d
  | _ => 0

/-- The opcode of an entry's word. -/
def QEntry.opcode (e : QEntry) : Byte := match wordInfo e.instr with | some (o, _) => o | none => 0xFF

/-- The source of an entry's word. -/
def QEntry.source (e : QEntry) : Nat := match wordInfo e.instr with | some (_, n) => n | none => 0

/-- Writes a record into the trace, which keeps the first 256 of a step (09 R230). -/
def State.addTrace (s : State) (r : TraceRec) : State :=
  { s with trace := if s.trace.length < 256 then s.trace ++ [r] else s.trace }

/-- Adds a planned hold (09 R214). -/
def State.addHold (s : State) (h : Hold) : State :=
  if s.clk.holds.contains h then s else { s with clk := { s.clk with holds := s.clk.holds ++ [h] } }

/-- Removes a planned hold. -/
def State.dropHold (s : State) (h : Hold) : State := { s with clk := { s.clk with holds := s.clk.holds.filter (· != h) } }

/-- Reports a hazard of Table 9.9 in debug mode: its count, and a record among the first 256 of the trace (09 R229,
R230). -/
def State.hazard (s : State) (code c : Nat) (e : Option QEntry) (other : W32) : State :=
  if s.dbg.en then
    let r : TraceRec := match e with
      | some e => ⟨BitVec.ofNat 32 e.tick, e.offset, e.opcode, BitVec.ofNat 16 (c + 512 * e.source),
          BitVec.ofNat 8 code, other⟩
      | none => ⟨BitVec.ofNat 32 (s.clk.tick - (s.stepOf c).s0), 0xFFFFFF, 0xFF, BitVec.ofNat 16 (c + 512 * 4), BitVec.ofNat 8 code,
          other⟩
    { s with hazards := Tab.upd 0 s.hazards code (· + 1) }.addTrace r
  else s

/-- Whether some result in flight of a core is of a kind. -/
def State.inFlight (s : State) (c : Nat) (p : LandEff → Bool) : Bool := s.landings.any (fun l => l.core == c && p l.eff)

/-- A service access that its region does not admit is refused and logged in the fault log (04 R78). The spec names no REASON, CLASS or
DETAIL for it: they are open values; OUTCOME 0 and SUB 0xFFFF are the model's choice (log entry 93). -/
def State.serviceRefused (s : State) (c block : Nat) : State :=
  s.logFault Config.serviceReason Config.serviceClass 0 none 0 (BitVec.ofNat 16 c) 0xFFFF block

end Sys2Proof.Machine
end

