-- ==== Sys2Proof/Machine/ServeOps.lean ====
section
/-! DEFINITION. The serving controller's operations on one request: page groups freed and allocated (14 R328, R329, R331),
token records (15 R357), the end of a request (15 R356, R360, R362, R364). -/

namespace Sys2Proof.Machine

/-- Applies a function to a slot's serving data. -/
def State.updServe (s : State) (g : Nat) (f : Serve → Serve) : State :=
  s.updGroup g (fun k => { k with serve := f k.serve })

/-- Applies a function to a slot's swap. -/
def State.updSwap (s : State) (g : Nat) (f : Swap → Swap) : State := s.updGroup g (fun k => { k with swap := f k.swap })

/-- Entry e of a slot's request table; an entry that is not listed is FREE. -/
def Serve.req (v : Serve) (e : Nat) : Req := Recs.get Req.empty v.reqs e

/-- Applies a function to an entry. -/
def Serve.updReq (v : Serve) (e : Nat) (f : Req → Req) : Serve := { v with reqs := Recs.put v.reqs e (f (v.req e)) }

/-- Entry e of slot g. -/
def State.req (s : State) (g e : Nat) : Req := (s.group g).serve.req e

/-- Applies a function to entry e of slot g. -/
def State.updReq (s : State) (g e : Nat) (f : Req → Req) : State := s.updServe g (fun v => v.updReq e f)

/-- The entry that holds a REQ_ID in a state other than FREE. -/
def Serve.find (v : Serve) (id : W32) : Option (Nat × Req) :=
  v.reqs.find? (fun (p : Nat × Req) => p.2.state != .free && p.2.id == id)

/-- The members of a group besides this package. -/
def State.others (s : State) (g : Nat) : List Place :=
  ((s.group g).members.map (·.place)).filter (· != s.place)

/-- Sends a message on CTL. -/
def State.ctl (s : State) (m : CtlMsg) : State := { s with out := { s.out with ctl := s.out.ctl ++ [m] } }

/-- Sends a message on MGT. -/
def State.mgt (s : State) (m : MgtMsg) : State := { s with out := { s.out with mgt := s.out.mgt ++ [m] } }

/-- The generation of a page group advances on this package (14 R327). -/
def State.advanceGen (s : State) (g p : Nat) : State :=
  { s with pageGens := Recs.upd [] s.pageGens g (fun t => Tab.upd 0 t p (fun n => (n + 1) % 65536)) }

/-- The generation that a page group holds. -/
def State.pageGen (s : State) (slot g : Nat) : Nat := Tab.get 0 (Recs.get [] s.pageGens slot) g

/-- Frees page groups: the advance message to every member, this package's own advance, and, once every other member has
acknowledged, the free list (14 R328). -/
def State.freeGroups (s : State) (g : Nat) (ps : List Nat) : State :=
  ps.foldl (fun s p =>
    let others := s.others g
    let s := (s.ctl (.advance g p)).advanceGen g p
    s.updServe g (fun v =>
      if others.isEmpty then { v with taken := v.taken.erase p }
      else { v with freeing := v.freeing ++ [(p, others)] })) s

/-- The lowest-numbered free page groups, n of them, or none when fewer are free (14 R331). -/
def Group.lowestFree (k : Group) (n : Nat) : Option (List Nat) :=
  if n = 0 then some []
  else
    let free := (List.range k.kvG).filter (fun p => !k.serve.taken.contains p)
    if free.length < n then none else some (free.take n)

/-- The lowest-numbered free page-list blocks (14 R329). -/
def Serve.lowestBlocks (v : Serve) (n : Nat) : List Nat :=
  if n = 0 then []
  else
    let used := v.reqs.flatMap (fun (p : Nat × Req) => if p.2.state == .free then [] else p.2.blocks)
    ((List.range (used.length + n)).filter (fun b => !used.contains b)).take n

/-- A request takes page groups: its page list grows, and takes a block for every further 15 groups (14 R329). -/
def State.giveGroups (s : State) (g e : Nat) (ps : List Nat) : State :=
  s.updServe g (fun v =>
    let r := v.req e
    let pages := r.pages ++ ps
    let blocks := r.blocks ++ v.lowestBlocks (ceilDiv pages.length 15 - r.blocks.length)
    { v with taken := v.taken ++ ps }.updReq e (fun r => { r with
      pages := pages, blocks := blocks, list := BitVec.ofNat 32 (blocks.headD 0) }))

/-- The 16 bytes of a token record (15 Table 15.5). -/
def tokenBytes (id : W32) (value pos type : Nat) (step : W64) : List Byte :=
  leBytes 4 id.toNat ++ leBytes 4 value ++ leBytes 3 pos ++ leBytes 1 type ++ leBytes 4 step.toNat

/-- A record of a request goes to its ring or its function's output buffer (15 R357). -/
def State.reqRecord (s : State) (g e value pos type : Nat) : State :=
  let r := s.req g e
  if r.quiet then s else s.tokenRecord r.func r.ring (tokenBytes r.id value pos type (s.step' g).num)

/-- The END record of a request (15 Table 15.5). -/
def State.endRecord (s : State) (g e code : Nat) : State :=
  let r := s.req g e
  s.reqRecord g e (code + 256 * r.newCount) r.pos 1

/-- The entry becomes FREE and its page groups are freed; its REQ_ID joins its function's last 1,024 completions; a spill or reload
that waited for it is answered NOT_FOUND (14 R324, R328; 15 R360; 18 R414). -/
def State.freeReq (s : State) (g e : Nat) : State :=
  let r := s.req g e
  let s := match r.waitSub with
    | some x =>
      if r.quiet then s
      else
        let op := if r.state == ReqState.spilling then 4 else 5
        s.complete x (complBytes op 1 true x.tag r.id.toNat 0 0 s.station)
    | none => s
  let s := s.freeGroups g r.pages
  let s := s.updServe g (fun v => { v with
    reqs := v.reqs.filter (fun (p : Nat × Req) => p.1 != e), conts := v.conts.filter (fun c => c.2.1 != r.id) })
  s.updFunc r.func (fun f => { f with recent := (r.id :: f.recent).take 1024 })

/-- The request ends with a code and is freed (15 Table 15.6); a request whose END record has been written gets no second
one (15 R362). -/
def State.endReq (s : State) (g e code : Nat) : State :=
  (if (s.req g e).ended then s else s.endRecord g e code).freeReq g e

/-- A request that stops: with HOLD set it becomes IDLE and keeps its page groups, otherwise it is freed; in
CANCEL_PENDING it is freed at its boundary (15 R356, R362). -/
def State.stopReq (s : State) (g e code : Nat) : State :=
  let r := s.req g e
  let s := s.endRecord g e code
  if r.state == .cancelPending then s.updReq g e (fun r => { r with ended := true })
  else if r.hold then s.updReq g e (fun r => { r with state := .idle, drafts := [] })
  else s.freeReq g e

/-- The chosen requests of the led serving groups that hold page groups are put down for recovery prefill by the token journal; a request
whose record is missing, names another REQ_ID, or is too short ends with STEP_FAILED (20 R472). -/
def State.putRecover (s : State) (which : Nat → Req → Bool) (journal : List JournalRec) : State :=
  ((List.range 16).filter (fun g => (s.group g).formed && (s.group g).lead && !(s.group g).solver)).foldl (fun s g =>
    (s.group g).serve.reqs.foldl (fun s (p : Nat × Req) =>
      if p.2.state == .free || p.2.pages.isEmpty || !which g p.2 then s
      else match journal.find? (fun j => j.slot.val == g && j.entry.toNat == p.1) with
        | some j =>
          if j.id == p.2.id && decide (p.2.pos - 1 ≤ j.tokens.length) then
            if p.2.pos ≤ 1 then s
            else s.updServe g (fun w => { w with
              recover := w.recover.filter (fun r => r.1 != p.1) ++ [(p.1, j.tokens.take (p.2.pos - 1), 0, 0)] })
          else s.endReq g p.1 0x0A
        | none => s.endReq g p.1 0x0A) s) s

end Sys2Proof.Machine
end

