-- ==== Sys2Proof/Machine/MaintOps.lean ====
section
/-! DEFINITION. The arbiter of maintenance activities (20 R473; 22 R510 to R512). -/

namespace Sys2Proof.Machine

/-- Applies a function to the maintenance state. -/
def State.updMaint (s : State) (f : Maint → Maint) : State := { s with maint := f s.maint }

/-- Activities with a pause point (Table 22.5). -/
def pausable (code : Nat) : Bool := code == 3 || code == 4 || code == 7

/-- The spill keys of a slot. -/
def State.spillKeys (s : State) (g : Nat) : SpillKeys := Recs.get SpillKeys.reset s.sec.spill g

/-- Applies a function to the spill keys of a slot. -/
def State.updSpill (s : State) (g : Nat) (f : SpillKeys → SpillKeys) : State :=
  { s with sec := { s.sec with spill := Recs.put s.sec.spill g (f (s.spillKeys g)) } }

/-- The lead of a group sends the key of the next generation to every other member (19 R448, R449). -/
def State.sendSpillKey (s : State) (g : Nat) : State :=
  if (s.others g).isEmpty then s else s.mgt (.spillKey g (s.spillKeys g).gen)

/-- A structural activity begins; before its own work it writes the pending substitutions (R511). "Key retirement" begins with the
distribution of the next spill key (19 R449). -/
def State.startActivity (s : State) (code arg : Nat) (byRec : Bool) : State :=
  let s := s.updMaint (fun m => { m with
    running := code, arg := arg, byRec := byRec, pauseAsked := false
    subs := m.subs ++ m.pendingSubs, pendingSubs := [] })
  if code = 4 then
    (s.updSpill arg (fun k => { k with next := true, waiting := s.others arg, repeats := 0 })).sendSpillKey arg
  else s

/-- A recovery is requested: it starts when nothing runs, and otherwise joins the queue; a host-requested activity is
asked to pause (R473, R512). -/
def State.requestRecovery (s : State) (code arg : Nat) : State :=
  if s.maint.queue.contains (code, arg) || (s.maint.byRec && s.maint.running == code && s.maint.arg == arg) then s
  else if s.maint.running = 0 then s.startActivity code arg true
  else s.updMaint (fun m => { m with
    queue := m.queue ++ [(code, arg)]
    pauseAsked := m.pauseAsked || (!m.byRec && pausable m.running) })

/-- Whether a host request for a structural activity is answered BUSY: one runs, waits, or is paused (R473, R512). -/
def State.maintBusy (s : State) : Bool := s.maint.running != 0 || !s.maint.queue.isEmpty || s.maint.suspended.isSome

/-- A paused activity resumes once the recovery queue is empty and nothing runs (R512). -/
def State.resumePaused (s : State) : State :=
  match s.maint.suspended with
  | some (c, a) =>
    if s.maint.running = 0 ∧ s.maint.queue.isEmpty then s.updMaint (fun m => { m with running := c, arg := a, byRec := false, suspended := none })
    else s
  | none => s

/-- Asks the soundpost to retire a core: the activity "core retirement and reload" (20 R470). -/
def State.askRetire (s : State) (c : Nat) : State := s.requestRecovery 6 c

end Sys2Proof.Machine
end

