-- ==== Sys2Proof/Machine/StepEnd.lean ====
section
/-! DEFINITION. The end of a step: reports of the members, the step record (10 R243, R248; 18 R419 to R421), aborts
(07 R164, 09 R216), and the stop of a step after a fault (20 R467, R468). -/

namespace Sys2Proof.Machine

/-- The 16 bytes of an exception record (07 Table 7.4). -/
def ExcRec.bytes (r : ExcRec) : List Byte :=
  leBytes 4 r.tick.toNat ++ leBytes 3 r.offset.toNat ++ [r.opcode] ++ leBytes 2 r.source.toNat ++ [r.reason.code, 0] ++
    leBytes 4 r.detail.toNat

/-- Two digests of one point together: sums mod 2^61 − 1, saturating counts (10 R243). -/
def addDigest (a b : DigestPoint) : DigestPoint :=
  ⟨(a.h + b.h) % (2 ^ 61 - 1), satNat (2 ^ 32 - 1) (a.count + b.count), a.fed ||| b.fed⟩

/-- Adds the digests of a list into a table by point. -/
def addDigests (t l : List (Nat × DigestPoint)) : List (Nat × DigestPoint) :=
  l.foldl (fun t p => match t.find? (fun (q : Nat × DigestPoint) => q.1 == p.1) with
    | some q => Recs.put t p.1 (addDigest q.2 p.2)
    | none => Recs.put t p.1 p.2) t

/-- Reports together (10 R243, R248): flags ORed, counts added with saturation, records in order. -/
def addReports (a b : MemberReport) : MemberReport :=
  { status := if a.status = 0 then b.status else a.status
    flags := a.flags ||| b.flags
    skips := satNat (2 ^ 32 - 1) (a.skips + b.skips)
    stale := satNat (2 ^ 32 - 1) (a.stale + b.stale)
    dropped := satNat (2 ^ 32 - 1) (a.dropped + b.dropped)
    vary := a.vary || b.vary
    digests := addDigests a.digests b.digests
    recs := a.recs ++ b.recs
    hazards := (List.range 10).map (fun i => a.hazards.getD i 0 + b.hazards.getD i 0) }

/-- What one core adds. -/
def Core.report (x : Core) : MemberReport :=
  { status := 0, flags := x.ctl.status, skips := x.ctl.skipCount, stale := x.xfer.staleReads
    dropped := x.xfer.droppedWrites, vary := x.xfer.varyDone
    digests := x.xfer.digests.filter (fun (p : Nat × DigestPoint) => p.2.count != 0)
    recs := x.ctl.recs.map ExcRec.bytes, hazards := [] }

/-- What this package's cores add to the record of a slot's step, in the order of their logical numbers. -/
def State.ownReport (s : State) (g : Nat) : MemberReport :=
  let m := (s.coresOf (s.group g).owner).foldl (fun m c => addReports m (s.core c).report) noReport
  { m with hazards := (List.range 10).map (fun i => Tab.get 0 s.hazards (i + 1)) }

/-- An entry of Table 10.7. -/
def digestEntry (p : Nat × DigestPoint) : List Byte :=
  [BitVec.ofNat 8 p.1, BitVec.ofNat 8 p.2.fed, 0, 0] ++ leBytes 4 p.2.count ++ leBytes 8 p.2.h

/-- The step record of a slot's step with a status (10 Tables 10.6 to 10.8, 15 R358). -/
def State.stepRecord (s : State) (g : Nat) (st : StepStatus) (m : MemberReport) : StepRec :=
  let k := s.group g
  let r := s.step' g
  let gen := k.serve.gen.getD ⟨0, []⟩
  let digs := if k.tpoint ≠ 0 ∧ k.serve.tokN ≠ 0 then addDigests m.digests [(k.tpoint, ⟨k.serve.tokH, k.serve.tokN, 1⟩)]
    else m.digests
  let attr := b01 (s.image g).vary + 2 * b01 m.vary + 4 * b01 r.retry + 8 * b01 r.replay
  let head :=
    leBytes 8 r.num.toNat ++ leBytes 4 k.id.toNat ++ leBytes 1 r.entry ++ leBytes 1 r.voicing ++ leBytes 2 st.code ++
    leBytes 8 r.seed.toNat ++ sliceB (s.image g).digest 0 64 ++ sliceB gen.digest 0 64 ++ leBytes 4 gen.num.toNat ++
    leBytes 4 m.flags.toNat ++ leBytes 4 m.skips ++ leBytes 4 m.stale ++ leBytes 4 m.dropped ++ leBytes 1 attr ++
    [0, 0, 0] ++ leBytes 8 r.ticks ++ leBytes 8 r.held ++ leBytes 8 k.salt.toNat ++ leBytes 4 digs.length ++
    leBytes 4 r.committed ++ List.replicate 48 0
  { slot := g, group := k.id, step := r.num, head := head ++ digs.flatMap digestEntry, excs := m.recs
    hazards := (List.range 10).flatMap (fun i => leBytes 4 (m.hazards.getD i 0)) }

/-- The record as it fits a slot of 2^n bytes: exception records are dropped from the end (18 R420). -/
def StepRec.fit (r : StepRec) (n : Nat) : List Byte :=
  r.head ++ (r.excs.take ((2 ^ n - r.head.length - r.hazards.length) / 16)).flatten ++ r.hazards

/-- Writes a step record into a function's record ring, then raises RECORD (18 R419). -/
def State.putRecord (s : State) (f : Nat) (r : StepRec) : State :=
  let ring := (s.func f).ring 193
  let bs := r.fit ring.slot
  (s.ringWrite f 193 bs).raise f
    ⟨0x0001, 0, r.group, r.step, s.station, BitVec.ofNat 64 (ring.p.toNat + 2 ^ 32 * bs.length)⟩

/-- A step record goes to the owner's record ring, or waits at the lead (18 R419, R421). -/
def State.deliver (s : State) (f : Nat) (r : StepRec) : State :=
  if s.ringRoom f 193 && (s.func f).recWait.isEmpty then s.putRecord f r
  else s.updFunc f (fun x => { x with recWait := x.recWait ++ [r] })

/-- Waiting records are written while the ring makes room (18 R421). -/
def State.drainRec (s : State) (f : Nat) : List StepRec → State
  | [] => s
  | r :: l =>
    if s.ringRoom f 193 then
      State.drainRec ((s.putRecord f r).updFunc f (fun x => { x with recWait := x.recWait.drop 1 })) f l
    else s

/-- A STEP submission is answered (18 Tables 18.5, 18.7). -/
def State.answerStep (s : State) (g : Nat) (st : StepStatus) (len : Nat) : State :=
  match (s.step' g).sub with
  | some x =>
    (s.complete x (complBytes 0x10 st.code true x.tag (s.group g).id.toNat len (s.step' g).num s.station)).updStep g
      (fun r => { r with sub := none })
  | none => s

/-- Each request of a failed step receives END STEP_FAILED (20 R468; 15 Table 15.6); the boundary of 15 R362 after the step
moves up. -/
def State.failBatch (s : State) (g : Nat) : State :=
  let s := (s.step' g).batch.foldl (fun s b =>
    let r := s.req g b.entry
    if r.state != .free && r.id == b.id then s.endReq g b.entry 0x0A else s) s
  s.updServe g (fun v => { v with reqs := v.reqs.map (fun (p : Nat × Req) =>
    if p.2.boundary == some .nextCommit then (p.1, { p.2 with boundary := some .thisCommit }) else p) })

/-- A status by which a step has ended with an error. -/
def StepStatus.failed : StepStatus → Bool
  | .flagWaitTimeout | .muteTimeout | .stepTooLong | .stepError => true
  | _ => false

/-- The program state of a core is reset (07 R164; 05 R108; 06 R114; 03 R47). The records, counts, marks, status
and digests of the step, the image and the region map are kept. -/
def Core.resetProgram (x : Core) : Core :=
  { x with
    ctl := { x.ctl with
      regs := [], flags := [], pendSig := [], pendLost := [], loops := [], cursor := 0, dec := .decoding,
      stalled := [], laneQ := [], vecQ := [], moveQ := [], preStart := false, aborts := x.ctl.aborts + 1 }
    lane := { x.lane with
      setA := TuneSet.reset, setB := TuneSet.reset, activeB := false, acc := [], windows := [], residues := [], taken := [] }
    vec := { x.vec with regs := [], red := [], topkK := 0, topk := [] }
    sp := { x.sp with
      mem := [], errs := x.sp.errs.filter (fun e => x.sp.faulty.contains e.1)
      circ := x.sp.circ.map (fun d => (d.1, { d.2 with head := 0, count := 0, snap := none })) }
    xfer := { x.xfer with tids := [], waiting := x.xfer.waiting.filter (fun w => w.cell.kind == .signal) }
    det := { x.det with arbOpen := none }
    busy := [], trail := [] }

/-- The core of a checked item. -/
def itemCore : CheckItem → Option Nat
  | .transfer c _ _ => some c.val
  | .frontier c _ => some c.val
  | .outbound c _ _ => some c.val
  | .conflict _ => none

/-- Resets the program state of cores, with their results in flight and every mute that they assert: late items, an arbitration, the
conflicts of their accesses (07 R164). -/
def State.resetCores (s : State) (cs : List Nat) : State :=
  let s := { s with
    landings := s.landings.filter (fun l => !cs.contains l.core)
    clk := { s.clk with
      late := s.clk.late.filter (fun i => match itemCore i.item with | some c => !cs.contains c | none => true)
      holds := s.clk.holds.filter (fun h => match h with | .arbitration c => !cs.contains c | _ => true)
      uses := s.clk.uses.filter (fun u => !cs.contains u.by_)
      previews := s.clk.previews.filter (fun p => !cs.contains p.core) } }
  cs.foldl (fun s c => s.updCore c Core.resetProgram) s

/-- The members (places) whose reports of a step are outstanding; a lost package reports nothing (07 R168). -/
def State.unreported (s : State) (g : Nat) : List Place :=
  ((s.group g).members.map (·.place)).filter (fun p => !(s.step' g).reports.contains p && !s.net.lost.contains p)

/-- The lead writes the record of a step that has ended and, unless it is to be retried, answers its submission (10 R248, 15 R341). -/
def State.writeEnd (s : State) (g : Nat) : State :=
  let r := s.step' g
  let s := s.updStep g (fun r => { r with phase := .ended })
  let rec_ := s.stepRecord g r.status r.gath
  let s := s.deliver (s.group g).owner rec_
  let s := if r.final && r.status.failed then s.failBatch g else s
  if r.final then s.answerStep g r.status (rec_.fit ((s.func (s.group g).owner).ring 193).slot).length else s

/-- What this package adds to the record of a step that ends now: nothing before tick 0, nothing more once it has reported. -/
def State.endReport (s : State) (g : Nat) : MemberReport := if (s.step' g).phase == .running then s.ownReport g else noReport

/-- Ends a step on this package: its status, length and held cycles, and cores that retire with it. The lead gathers what the other
members' cores add and writes the record once all of it has come (07 R168; 10 R243, R248). -/
def State.closeStep (s : State) (g : Nat) (st : StepStatus) (final : Bool) : State :=
  let own := s.endReport g
  let s := s.updStep g (fun r => { r with
    phase := if (s.group g).lead then .stopping else .ended
    status := st, final := final, stopDue := false
    ticks := if r.phase == .committing then r.ticks else s.clk.tick - r.s0
    held := if r.phase == .committing then r.held else s.clk.heldTotal - r.held
    reports := if r.reports.contains s.place then r.reports else r.reports ++ [s.place], gath := addReports r.gath own })
  let s := (s.coresOf (s.group g).owner).foldl (fun s c =>
    if (s.core c).det.retireAtEnd then (s.updDet c (fun d => { d with retireAtEnd := false })).askRetire c else s) s
  if (s.group g).lead && (s.unreported g).isEmpty then s.writeEnd g else s

/-- A member ends a step: its status, and the partition's program state is reset (20 R468; 07 R164). -/
def State.endStep (s : State) (g : Nat) (st : StepStatus) (final : Bool) : State :=
  (s.closeStep g st final).resetCores (s.coresOf (s.group g).owner)

/-- A step is aborted with a status on this package: the lead tells the members, a member tells the lead (07 R164). -/
def State.abortStep (s : State) (g : Nat) (st : StepStatus) : State :=
  let r := s.step' g
  let m := { s.endReport g with status := st.code }
  let s := s.endStep g st true
  if (s.group g).lead then s.ctl (.stop g r.num st.code) else s.ctl (.finished g r.num 0 m)

/-- Stops the step of a slot after a detected fault: it is reported to the lead on CTL; the lead itself sends STOP to
the members and ends the step. At its fourth stop the step completes with STEP_ERROR and its requests end with
STEP_FAILED (20 R468). -/
def State.stopStep (s : State) (g : Nat) (reason : BitVec 16) : State :=
  let r := s.step' g
  if r.live then
    if (s.group g).lead then
      let last := 3 ≤ r.stops
      let s := s.endStep g .stepError last
      let s := s.updStep g (fun r => { r with stops := r.stops + 1, retryDue := !last })
      s.ctl (.stop g r.num 8)
    else s.ctl (.faultReport g r.num reason)
  else s

/-- Requests in CANCEL_PENDING whose boundary is the end of this commit phase are freed; those of the next one move up
(15 R360, R362). -/
def State.commitBoundary (s : State) (g : Nat) : State :=
  (s.group g).serve.reqs.foldl (fun s (p : Nat × Req) =>
    match p.2.boundary with
    | some .thisCommit => s.endReq g p.1 0x05
    | some .nextCommit => s.updReq g p.1 (fun r => { r with boundary := some .thisCommit })
    | _ => s) s

/-- The commit phase has ended: the step record is written and the step completes (15 R341, 10 R248). -/
def State.endCommit (s : State) (g : Nat) : State :=
  (if (s.group g).serve.recover.isEmpty then s.commitBoundary g else s).closeStep g (s.step' g).status true

/-- The budget state in force: FIXED_STATE while FIXED_STEP is set for any partition (19 R452). -/
def State.budgetNow (s : State) : Nat :=
  if (List.range 9).any (fun p => (s.part p).fixedStep) then s.power.set.fixedState else s.power.budget

/-- STEP_END on the lead: every member has reported; the commit time and the length are fixed, and the commit phase
begins (15 R341; 07 R168). -/
def State.stepEnd (s : State) (g : Nat) : State :=
  let m := (s.step' g).gath
  let s := s.updStep g (fun r => { r with
    phase := .committing, status := if m.skips = 0 then .completed else .completedWithExceptions
    ticks := s.clk.tick - r.s0, held := s.clk.heldTotal - r.held, commitTime := s.station, commitPos := 0 })
  if (s.step' g).serving && !(s.step' g).batch.isEmpty then s else s.endCommit g

/-- A member's report joins those of its step. -/
def State.takeReport (s : State) (g : Nat) (place : Place) (report : MemberReport) : State :=
  s.updStep g (fun r => { r with reports := r.reports ++ [place], gath := addReports r.gath { report with status := 0 } })

/-- A member (the lead itself among them) has reported the end of a step (15 R341, 21 R486; 07 R164, R168). -/
def State.memberReported (s : State) (g : Nat) (place : Place) (report : MemberReport) (budget : Nat) : State :=
  let r := s.step' g
  if (s.group g).lead && !r.reports.contains place && ((s.group g).members.map (·.place)).contains place then
    if r.phase == .stopping then
      let s := s.takeReport g place report
      if (s.unreported g).isEmpty then s.writeEnd g else s
    else if !r.live then s
    else if report.status ≠ 0 then
      let s := (s.takeReport g place report).endStep g (StepStatus.ofCode report.status) true
      s.ctl (.stop g r.num report.status)
    else
      let s := s.takeReport g place report
      let s := s.updServe g (fun v => { v with budgetStates := Recs.put v.budgetStates place.toNat budget })
      if ((s.group g).members.map (·.place)).all (fun p => (s.step' g).reports.contains p) then s.stepEnd g else s
  else s

/-- The cores of a slot's step have finished on this package, and every arbitration has resolved (15 R341, 20 R467). -/
def State.checkFinished (s : State) (g : Nat) : State :=
  let cs := s.coresOf (s.group g).owner
  if (s.step' g).phase == .running && cs.all (fun c => (s.core c).ctl.finished && (s.core c).det.arbOpen.isNone) then
    let m := s.ownReport g
    let s := s.updStep g (fun r => { r with phase := .reported })
    if (s.group g).lead then s.memberReported g s.place m s.budgetNow
    else s.ctl (.finished g (s.step' g).num s.budgetNow m)
  else s

/-- A fault of a core: logged, with the step it touches stopped and retried; between steps it is logged with GROUP and
STEP 0 and stops nothing (20 R468, R551). -/
def State.coreFault (s : State) (c : Nat) (reason : BitVec 16) (cls outcome : Nat) (sub : BitVec 16) (detail : Nat) :
    State :=
  match s.slotOf c with
  | some g =>
    if (s.step' g).onCores then
      (s.logFault reason cls outcome (some g) (s.step' g).num (BitVec.ofNat 16 c) sub detail).stopStep g reason
    else s.logFault reason cls outcome none 0 (BitVec.ofNat 16 c) sub detail
  | none => s.logFault reason cls outcome none 0 (BitVec.ofNat 16 c) sub detail

end Sys2Proof.Machine
end

