-- ==== Sys2Proof/Machine/Flags.lean ====
section
/-! DEFINITION. The sticky arithmetic status of a core (10 Table 10.8) and the flags that roundings and functions set
(02 Table 2.8, 06 Table 6.11). -/

namespace Sys2Proof.Machine

/-- Bits of Table 10.8. -/
inductive StatusBit where
  | dinx | dovf | dunf | dnan | vinx | vovf | vunf | vnan | vdz | permOor | rowEmpty | rowNan | special
  | gatherOor | gatherStale | flagSat
  deriving DecidableEq, Repr

/-- The bit's number (Table 10.8). -/
def StatusBit.pos : StatusBit → Nat
  | .dinx => 0 | .dovf => 1 | .dunf => 2 | .dnan => 3 | .vinx => 4 | .vovf => 5 | .vunf => 6 | .vnan => 7
  | .vdz => 8 | .permOor => 9 | .rowEmpty => 10 | .rowNan => 11 | .special => 12 | .gatherOor => 13
  | .gatherStale => 14 | .flagSat => 15

/-- A mask of one bit, or none. -/
def StatusBit.mask (b : StatusBit) (on : Bool) : BitVec 16 := if on then BitVec.ofNat 16 (2 ^ b.pos) else 0

/-- The exit flags that a rounding out of an accumulator sets (Table 2.8). -/
def exitMask (f : RFlags) : BitVec 16 :=
  StatusBit.dinx.mask f.inexact ||| StatusBit.dovf.mask f.ovf ||| StatusBit.dunf.mask f.unf ||| StatusBit.dnan.mask f.nan

/-- The vector flags that an operation sets (Table 6.11). -/
def vecMask (f : RFlags) : BitVec 16 :=
  StatusBit.vinx.mask f.inexact ||| StatusBit.vovf.mask f.ovf ||| StatusBit.vunf.mask f.unf |||
    StatusBit.vnan.mask f.nan ||| StatusBit.vdz.mask f.dz

/-- ORs bits into a core's arithmetic status. -/
def State.orStatus (s : State) (c : Nat) (m : BitVec 16) : State :=
  s.updCtl c (fun k => { k with status := k.status ||| m })

/-- Adds n to a flag; an increment lost at 255 sets FLAG_SAT (07 R159). -/
def State.addFlag (s : State) (c f n : Nat) : State :=
  let v := (Tab.get 0 (s.core c).ctl.flags f).toNat + n
  let s := s.updCtl c (fun k => { k with flags := Tab.set 0 k.flags f (BitVec.ofNat 8 (satNat 255 v)) })
  if v ≤ 255 then s else s.orStatus c (StatusBit.flagSat.mask true)

/-- The OR of a list of rounding flags. -/
def RFlags.all (l : List RFlags) : RFlags := l.foldl RFlags.or {}

end Sys2Proof.Machine
end

