-- ==== Sys2Proof/Machine/Operands.lean ====
section
/-! DEFINITION. Operand forms: address forms, counts and selectors, destination words, page handles (08 R174 to R176,
R194; 05 R102 to R105), and the choice of the reason that a record carries (08 R173). -/

namespace Sys2Proof.Machine

/-- A failed check: its reason and the offending value. -/
abbrev Fail := Option (Reason × Nat)

/-- The order in which a record carries the first failing reason (08 R173); reasons that the rule does not list come
after SLOT_BUSY, those of the move group last in code order. -/
def Reason.rank : Reason → Nat
  | .formatPair => 0 | .scaleMode => 1 | .badRound => 2 | .badField => 3 | .badAddress => 4 | .region => 5
  | .regionUnderrun => 6 | .regionFull => 7 | .slotBusy => 8 | .windowMismatch => 9 | .kind => 10
  | .flagUnderflow => 11 | .divZero => 12 | .badTarget => 13
  | r => r.code.toNat

/-- The failing check of lowest rank, the first of equals. -/
def pickFail : List Fail → Fail
  | [] => none
  | none :: l => pickFail l
  | some (r, d) :: l =>
    match pickFail l with
    | some (r', d') => if r'.rank < r.rank then some (r', d') else some (r, d)
    | none => some (r, d)

/-- A check that fails with a reason where the condition holds. -/
def failIf (b : Bool) (r : Reason) (d : Nat) : Fail := if b then some (r, d) else none

/-- Register r of the captured space of 07 R145. -/
def reg (regs : Tab W32) (r : Nat) : W32 := Tab.get 0 regs r

/-- Count register n. -/
def cnt (regs : Tab W32) (n : BitVec 3) : Nat := (reg regs (16 + n.toNat)).toNat

/-- The count of a release or commit selector: 0 for selector 0 (08 R175). -/
def selCount (regs : Tab W32) (n : BitVec 3) : Nat := if n = 0 then 0 else cnt regs n

/-- A resolved row operand: the scratchpad rows in order, and the region that it is relative to. -/
structure RowsAt where
  rows : List Nat
  ref : RowRef
  deriving DecidableEq, Repr

/-- The ring rows of a region from a ring offset. -/
def ringRows (d : Circ) (pos n : Nat) : List Nat :=
  (List.range n).map (fun i => d.base + (if d.size = 0 then 0 else (pos + i) % d.size))

/-- The region descriptor i of a scratchpad. -/
def SPad.circAt (m : SPad) (i : Nat) : Circ := Recs.get Circ.reset m.circ i

/-- Resolves an SR operand of n rows at issue (08 R174; 05 R102, R105, R111). -/
def resolveSr (m : SPad) (regs : Tab W32) (a : Sr) (n : Nat) : RowsAt × Fail :=
  let abs (row : Nat) : RowsAt × Fail :=
    (⟨(List.range n).map (row + ·), ⟨none, row, false⟩⟩,
      failIf (spRows ≤ row || spRows < row + n) .badAddress row)
  match a.mode.toNat with
  | 0 => abs a.value.toNat
  | 1 => abs (reg regs a.reg.toNat + a.value.setWidth 32).toNat
  | md =>
    let d := m.circAt a.reg.toNat
    let o := a.value.toNat
    let tail := md == 3
    let pos := if d.size = 0 then 0 else ((if tail then d.tail else d.head) + o) % d.size
    let room := if tail then d.size - d.count else d.count
    (⟨ringRows d pos n, ⟨some a.reg.toNat, pos, tail⟩⟩,
      if d.size = 0 then some (.region, a.reg.toNat)
      else failIf (room ≤ o || room < o + n) (if tail then .regionFull else .regionUnderrun) o)

/-- Resolves an SA operand of n rows. -/
def resolveSa (regs : Tab W32) (a : Sa) (n : Nat) : Nat × Fail :=
  let row := if a.mode then (reg regs a.reg.toNat + a.value.setWidth 32).toNat else a.value.toNat
  (row, failIf (spRows ≤ row || spRows < row + n) .badAddress row)

/-- Resolves a WB operand. -/
def resolveWb (regs : Tab W32) (a : Wb) : Nat × Fail :=
  let b := if a.mode then (reg regs a.reg.toNat + a.value.setWidth 32).toNat else a.value.toNat
  (b, failIf (wsBlocks ≤ b) .badAddress b)

/-- A release selector on an operand: BAD_FIELD where the operand is not head-relative, REGION_UNDERRUN where the
count goes beyond COUNT (08 R175, 05 R105). -/
def checkRelease (m : SPad) (regs : Tab W32) (a : Sr) (sel : BitVec 3) : Fail :=
  if sel = 0 then none
  else if a.mode.toNat ≠ 2 then some (.badField, sel.toNat)
  else failIf ((m.circAt a.reg.toNat).count < cnt regs sel) .regionUnderrun (cnt regs sel)

/-- A commit selector on an operand (08 R175, 05 R105). -/
def checkCommit (m : SPad) (regs : Tab W32) (a : Sr) (sel : BitVec 3) : Fail :=
  if sel = 0 then none
  else if a.mode.toNat ≠ 3 then some (.badField, sel.toNat)
  else failIf ((m.circAt a.reg.toNat).size - (m.circAt a.reg.toNat).count < cnt regs sel) .regionFull (cnt regs sel)

/-! ### Destination words (08 Table 8.4) -/

/-- CORE. -/
def destCore (w : W32) : Nat := (w.extractLsb' 0 9).toNat
/-- LOCAL. -/
def destLocal (w : W32) : Bool := w.getLsbD 29
/-- X, Y, Z and POD as a place. -/
def destPlace (w : W32) : Place :=
  (w.extractLsb' 9 18).setWidth 20 ||| ((w.extractLsb' 27 2).setWidth 20 <<< 18)
/-- Bits [31:30]. -/
def destReserved (w : W32) : Nat := (w.extractLsb' 30 2).toNat

/-- The destination word of a core of a place. -/
def mkDest (core : Nat) (p : Place) (isLocal : Bool) : W32 :=
  BitVec.ofNat 32 (core % 512 + 512 * (p.toNat % 2 ^ 18) + 2 ^ 27 * (p.toNat / 2 ^ 18) + (if isLocal then 2 ^ 29 else 0))

/-! ### Weight operands -/

/-- A block that a party needs in a region of a kind (04 R78). -/
def checkKind (w : WStore) (b kind : Nat) : Fail :=
  if wsBlocks ≤ b then none else failIf (w.kindOf b != kind) .region b

/-! ### KV pages (14 R325, R326; 08 R194) -/

/-- Blocks of a core's regions of a kind, in order of FIRST (14 R325, 16 R365). -/
def WStore.area (w : WStore) (kind : Nat) : List Nat :=
  let rs := ((List.range 8).map w.region).filter (fun r => r.kind == kind && r.count != 0)
  let rs := rs.foldl (fun l r => (l.filter (·.first < r.first)) ++ r :: l.filter (fun q => !(q.first < r.first))) []
  rs.flatMap (fun r => (List.range r.count).map (r.first + ·))

/-- Blocks of a core's KV area (14 R325). -/
def WStore.kvArea (w : WStore) : List Nat := w.area 2

/-- PB(c) for logical core l of a layout of shards with G groups (14 R326). -/
def pageBase (g : Nat) (shards : Tab Nat) (l : Nat) : Nat :=
  g * ((List.range l).foldl (fun n i => n + Tab.get 0 shards i) 0)

/-- The fields of a page handle (08 Table 8.12). -/
structure Handle where
  page : Nat
  first : Nat
  count : Nat
  reserved : Nat
  deriving DecidableEq, Repr

/-- Reads a page handle. -/
def Handle.ofWord (w : W32) : Handle :=
  ⟨(w.extractLsb' 0 18).toNat, (w.extractLsb' 18 6).toNat, (w.extractLsb' 24 6).toNat + 1, (w.extractLsb' 30 2).toNat⟩

/-- Reserved bits and the slot range of a handle against a pool from `lo` of `len` pages (08 R194). -/
def Handle.bad (h : Handle) (lo len : Nat) : Bool :=
  h.reserved != 0 || 64 < h.first + h.count || h.page < lo || lo + len ≤ h.page

/-- The byte addresses of the first rows of the blocks that the slots of a page lie in: row r of the access lies at
stored row (first × W_s + r) of the page, block r div 64 (14 R325, R326). -/
def pageRow (w : WStore) (ws local_ first r : Nat) : Nat :=
  let stored := first * ws + r
  let blk := (w.kvArea)[local_ * ws + stored / 64]?.getD wsBlocks
  4096 * blk + 64 * (stored % 64)

end Sys2Proof.Machine
end

