-- ==== Sys2Proof/Machine/DirOps.lean ====
section
/-! DEFINITION. The key directory (16 R365 to R371) and the start of a block's restoration (04 R86, R87; 17 R386, R394). -/

namespace Sys2Proof.Machine

/-! ### The directory -/

/-- The blocks of the bucket array: logical core order, then FIRST (R365): (core, block). -/
def State.dirBlocks (s : State) : List (Nat × Nat) :=
  s.enabled.flatMap (fun c => ((s.core c).ws.area 3).map (fun b => (c, b)))

/-- NB. -/
def State.dirNb (s : State) : Nat := 64 * s.dirBlocks.length

/-- The mix of R367. -/
def dirMix (k m : W64) : W64 :=
  let z := k ^^^ (k >>> 31)
  let z := z * m
  let z := z ^^^ (z >>> 29)
  let z := z * 0xF1C82A973E5DB463
  z ^^^ (z >>> 32)

/-- The two candidate buckets of a key (R367). -/
def dirBuckets (nb : Nat) (k : W64) : Nat × Nat :=
  let b1 := (dirMix k 0xB492F5C317AD6E2B).toNat % nb
  let b2 := (dirMix k 0x8E3F4C7AD1B60955).toNat % nb
  (b1, if b2 = b1 then Nat.xor b1 1 else b2)

/-- Where bucket b lies: core, block, stored row (R365). -/
def State.bucketAt (s : State) (b : Nat) : Option (Nat × Nat × Nat) :=
  (s.dirBlocks[b / 64]?).map (fun p => (p.1, p.2, b % 64))

/-- Entry of way w of bucket b (Table 16.1). -/
def State.dirWay (s : State) (b w : Nat) : List Byte :=
  match s.bucketAt b with
  | some (c, blk, r) => (s.core c).ws.mem.read (4096 * blk + 64 * r + 16 * w) 16
  | none => sliceB [] 0 16

/-- VALID. -/
def wayValid (e : List Byte) : Bool := bitN (fieldN e 14 1) 0
/-- KEY. -/
def wayKey (e : List Byte) : W64 := BitVec.ofNat 64 (fieldN e 0 8)

/-- Writes a way. -/
def State.setWay (s : State) (b w : Nat) (e : List Byte) : State :=
  match s.bucketAt b with
  | some (c, blk, r) => s.updWs c (fun ws => ws.write (4096 * blk + 64 * r + 16 * w) e)
  | none => s

/-- The core, block and byte address of the row of bucket b. -/
def State.bucketRow (s : State) (b : Nat) : Option (Nat × Nat × Nat) :=
  (s.bucketAt b).map (fun (c, blk, r) => (c, blk, 4096 * blk + 64 * r))

/-- A read of bucket b corrects its single-bit errors and counts them (04 R81, R82). -/
def State.dirRead (s : State) (b : Nat) : State :=
  match s.bucketRow b with
  | some (c, _, a) => s.updWs c (fun w => w.correctRow a)
  | none => s

/-- The core and block of a bucket whose row is uncorrectable. -/
def State.bucketBad (s : State) (b : Nat) : Option (Nat × Nat) :=
  match s.bucketRow b with
  | some (c, blk, a) => if (s.core c).ws.rowBad a then some (c, blk) else none
  | none => none

/-- The second cycle of a compaction's move, where one is under way: the original way is cleared, and the next bucket is due (R375). -/
def State.finishMove (s : State) : State :=
  match s.dir.clearing with
  | some (b, w) =>
    let s := s.setWay b w (List.replicate 16 0)
    { s with dir := { s.dir with visit := (s.dir.visit + 1) % max 1 s.dirNb, clearing := none } }
  | none => s

/-- The first valid way with a key, b1 before b2 (R368). -/
def State.dirFind (s : State) (k : W64) : Option (Nat × Nat) :=
  let (b1, b2) := dirBuckets s.dirNb k
  ((List.range 4).map (fun w => (b1, w)) ++ (List.range 4).map (fun w => (b2, w))).find? (fun p =>
    wayValid (s.dirWay p.1 p.2) && wayKey (s.dirWay p.1 p.2) == k)

/-- Valid ways of a bucket. -/
def State.dirCount (s : State) (b : Nat) : Nat := ((List.range 4).filter (fun w => wayValid (s.dirWay b w))).length

/-- The lowest free way of a bucket. -/
def State.dirFree (s : State) (b : Nat) : Option Nat := (List.range 4).find? (fun w => !wayValid (s.dirWay b w))

/-- Outcomes of Table 16.2 by their place in the counts. -/
inductive DirOutcome where
  | replaced | inserted | full | deleted | absent | malformed
  deriving DecidableEq, Repr

/-- REPLACED, INSERTED, FULL, DELETED, ABSENT, MALFORMED at 0 to 5 (Table 18.5). -/
def DirOutcome.pos : DirOutcome → Nat
  | .replaced => 0 | .inserted => 1 | .full => 2 | .deleted => 3 | .absent => 4 | .malformed => 5

/-- Applies one entry (R371). -/
def State.dirApply (s : State) (del : Bool) (e : List Byte) : DirOutcome × State :=
  let k := wayKey e
  let stored := sliceB e 0 14 ++ [1, 0]
  if fieldN e 14 2 ≠ 0 then (.malformed, s)
  else if s.dirNb = 0 then (.absent, s)
  else
    let (c1, c2) := dirBuckets s.dirNb k
    let s := (s.dirRead c1).dirRead c2
    match s.dirFind k with
    | some (b, w) => if del then (.deleted, s.setWay b w (List.replicate 16 0)) else (.replaced, s.setWay b w stored)
    | none =>
      if del then (.absent, s)
      else
        let b := if s.dirCount c2 < s.dirCount c1 then c2 else c1
        match s.dirFree b with
        | some w => (.inserted, s.setWay b w stored)
        | none => (.full, s.raiseTo s.dir.owner ⟨0x0010, 1, 0, 0, s.station, k⟩)

/-- Applies one entry and counts its outcome in the directory registers (R371). -/
def State.dirUpdate (s : State) (del : Bool) (e : List Byte) : DirOutcome × State :=
  let (o, s) := s.dirApply del e
  (o, { s with dir := { s.dir with counts := Tab.upd 0 s.dir.counts o.pos (fun n => satNat (2 ^ 32 - 1) (n + 1)) } })

/-- DIR_REFETCH for a run of buckets (Table 18.8). -/
def State.dirRefetch (s : State) (first count : Nat) : State :=
  s.raiseTo s.dir.owner ⟨0x0011, 1, 0, 0, s.station, BitVec.ofNat 64 (first + 2 ^ 32 * count)⟩

/-! ### Chunks -/

/-- Blocks of a chunk. -/
def Chunk.blocks (k : Chunk) : Nat := k.rb * k.cb

/-- Chunk i of a slot. -/
def Swap.chunk (w : Swap) (i : Nat) : Option Chunk := w.chunks[i]?

/-- Applies a function to chunk i of a slot. -/
def State.updChunk (s : State) (g i : Nat) (f : Chunk → Chunk) : State :=
  s.updSwap g (fun w => { w with chunks := w.chunks.modify i f })

/-- A chunk occupies a buffer of the converter: requested and not yet written (R387). -/
def Chunk.buffered (k : Chunk) : Bool := k.attempts != 0 && !k.verified

/-- The lowest stream number that no requested chunk uses. -/
def State.freeStream (s : State) : Nat :=
  ((List.range 64).find? (fun n => !(s.groups.any (fun p => p.2.swap.chunks.any (fun k => k.buffered && k.stream == n))))).getD 0

/-- Requests a chunk from the member's loading source: by DMA at FILEOFF of a window of PF0, or on MGT (R386). What an earlier attempt
brought on the stream is dropped. -/
def State.requestChunk (s : State) (g i stream : Nat) : State :=
  match (s.group g).swap.chunk i with
  | none => s
  | some k =>
    let src := (s.group g).loadSrc.toNat
    let s := s.updChunk g i (fun k => { k with attempts := k.attempts + 1, verified := false, stream := stream })
    let s := s.updSwap g (fun w => { w with inbox := w.inbox.filter (fun x => x.tid / 64 != stream) })
    if src % 2 = 1 then s.mgt (.chunk g i stream)
    else
      let w := (s.func 0).win (src / 2 % 64)
      { s with out := { s.out with hostReads := s.out.hostReads ++ [(0, w.base + k.fileOff, k.encLen)] } }

/-- The slot of a formed group of a core's partition that has a generation in force. -/
def State.genSlotOf (s : State) (c : Nat) : Option Nat :=
  match s.partOf c with
  | none => none
  | some p => (List.range 16).find? (fun g => (s.group g).formed && (s.group g).owner == p && (s.group g).serve.gen.isSome)

/-- The chunk of a slot that covers a block of a core (R380). -/
def State.chunkAt (s : State) (g c b : Nat) : Option Nat :=
  (s.group g).swap.chunks.findIdx? (fun k => k.core == s.logical c && k.first ≤ b && b < k.first + k.blocks)

/-- DETAIL of LOAD_STALLED and CHUNK_REFETCH: chunk, member, reason (Table 18.8). -/
def State.chunkDetail (s : State) (g i reason : Nat) : W64 :=
  let m := ((s.group g).members.findIdx? (fun m => m.place == s.place)).getD 0
  BitVec.ofNat 64 (i + 2 ^ 32 * m + 2 ^ 56 * reason)

/-- Raises CHUNK_REFETCH and requests the chunk again, once for each chunk (R394). -/
def State.refetchChunk (s : State) (g i : Nat) : State :=
  match (s.group g).swap.chunk i with
  | some k =>
    if k.verified then
      ((s.raise 0 ⟨0x0021, 1, (s.group g).id, 0, s.station, s.chunkDetail g i 0⟩).updChunk g i (fun k => { k with attempts := 0 })).requestChunk
        g i s.freeStream
    else s
  | none => s

/-! ### Restoration -/

/-- The core and block that hold the other copy of a table block: the same place in the region of the same kind on the
partner core whose partner is this core (Table 4.3). -/
def State.partnerBlock (s : State) (c b : Nat) : Option (Nat × Nat) :=
  match (s.core c).ws.regionOf b with
  | none => none
  | some r =>
    let w := (s.core r.partner).ws
    (((List.range 8).map w.region).find? (fun q =>
      q.kind == r.kind && q.count != 0 && q.mirror != r.mirror && q.partner == c)).map (fun q =>
        (r.partner, q.first + (b - r.first)))

/-- Blocks of the primary request-table regions in increasing logical core order (14 R322). -/
def State.tableBlocks (s : State) : List (Nat × Nat) :=
  s.enabled.flatMap (fun c =>
    (((List.range 8).map (s.core c).ws.region).filter (fun r => r.kind == 4 && r.count != 0 && !r.mirror)).flatMap
      (fun r => (List.range r.count).map (fun i => (c, r.first + i))))

/-- Both copies of a table block are uncorrectable: the group stops admitting, and the requests whose entries lie in a
request-table block end with STEP_FAILED (Table 4.6, 15 Table 15.6). -/
def State.tableLost (s : State) (c b : Nat) : State :=
  match s.partOf c with
  | none => s
  | some p =>
    match (List.range 16).find? (fun g => (s.group g).formed && (s.group g).owner == p && (s.group g).lead) with
    | none => s
    | some g =>
      let s := s.updServe g (fun v => { v with stopped := true })
      if (s.core c).ws.kindOf b = 4 then
        let at_ := match (s.core c).ws.regionOf b with
          | some r => if r.mirror then (s.partnerBlock c b).getD (c, b) else (c, b)
          | none => (c, b)
        match s.tableBlocks.findIdx? (· == at_) with
        | some n =>
          ((s.group g).serve.reqs.filter (fun (e : Nat × Req) => e.1 / 128 == n && e.2.state != .free)).foldl
            (fun s e => s.endReq g e.1 0x0A) s
        | none => s
      else s

/-- The other copy of a table block is uncorrectable too. -/
def State.bothBad (s : State) (c b : Nat) : Bool :=
  ((s.core c).ws.kindOf b == 4 || (s.core c).ws.kindOf b == 5) &&
    (match s.partnerBlock c b with | some (d, q) => (s.core d).ws.blockBad q | none => true)

/-- A block is found uncorrectable: its scheduled reads stop their steps until it is restored (R87), and what Table 4.6
asks of others is asked. -/
def State.startRestore (s : State) (c b : Nat) : State :=
  if (s.core c).ws.bad.contains b then s
  else
    let s := s.updWs c (fun w => { w with bad := w.bad ++ [b] })
    match (s.core c).ws.kindOf b with
    | 1 =>
      match s.genSlotOf c with
      | some g =>
        if (s.group g).parity then s
        else match s.chunkAt g c b with
          | some i => s.refetchChunk g i
          | none => s
      | none => s
    | 3 =>
      match s.dirBlocks.findIdx? (· == (c, b)) with
      | some n => s.dirRefetch (64 * n) 64
      | none => s
    | 4 | 5 => if s.bothBad c b then s.tableLost c b else s
    | _ => s

end Sys2Proof.Machine
end

