-- ==== Sys2Proof/Machine/LaneMath.lean ====
section
/-! DEFINITION. What the lane row computes: slices and scales of a restring (03 R53 to R56), block products (02 R24,
R25), long accumulators (02 R26 to R34), residues (20 R456), rounding out (02 R37 to R41), digests fed (10 R242). -/

namespace Sys2Proof.Machine

/-! ### Restringing -/

/-- A 4-bit weight format. -/
def is4bit (f : Nat) : Bool := f == 3 || f == 4 || f == 5

/-- A format accepted as a weight (02 Table 2.3). -/
def isWeight (f : Nat) : Bool := f ≤ 6

/-- The slices that a read of a block gives: byte i of string j at 64 j + i (03 R53, R54, R55). -/
def sliceBytes (block : List Byte) (trans : Bool) : Tab Byte :=
  if trans then
    Tab.setList 0 [] 0 ((List.range 64).flatMap (fun j => (List.range 64).map (fun i => block.getD (64 * i + j) 0)))
  else Tab.setList 0 [] 0 (block.take 4096)

/-- The record's scale byte at position p of string j (03 Table 3.2 with 04 Table 4.2). -/
def scaleByte (r : BlockRec) (fmt : Nat) (trans : Bool) (j p : Nat) : Byte :=
  let at' (n : Nat) : Byte := Tab.get 0x7F r.scales n
  if fmt == 6 then 0x7F
  else if is4bit fmt then
    let h := p / 2
    let q := p % 2
    if r.square then
      if trans then at' (4 * h + 2 * q + j / 32) else at' (4 * h + 2 * (j / 32) + q)
    else at' (2 * (j + 64 * h) + q)
  else if 2 ≤ p then 0x7F
  else if r.square then (if trans then at' (2 * p + j / 32) else at' (2 * (j / 32) + p))
  else at' (2 * j + p)

/-- The set that a restring of a block brings (03 R48, R56). -/
def mkTuneSet (b : Nat) (block : List Byte) (r : BlockRec) (fmt : BitVec 4) (trans : Bool) (l : Nat) : TuneSet :=
  { block := b, slices := sliceBytes block trans
    scales := Tab.setList 0x7F [] 0 ((List.range 256).map (fun n => scaleByte r fmt.toNat trans (n / 4) (n % 4)))
    fmt := fmt, trans := trans, square := r.square, l := l }

/-- The active set. -/
def Lane.active (l : Lane) : TuneSet := if l.activeB then l.setB else l.setA

/-- Writes the shadow set. -/
def Lane.writeShadow (l : Lane) (t : TuneSet) : Lane := if l.activeB then { l with setA := t } else { l with setB := t }

/-! ### Block products -/

/-- The activation format of a code (08 Table 8.7). -/
def actFmt (c : BitVec 2) : Fmt := match c.toNat with | 0 => .e4m3 | 1 => .e5m2 | 2 => .int8 | _ => .bf16

/-- The pairs of Table 2.3: BF16 with BF16, and every 8-bit activation with every 8-bit or 4-bit weight. -/
def pairOk (w : Nat) (a : BitVec 2) : Bool := if a.toNat == 3 then w == 6 else decide (w ≤ 5)

/-- The term of one product with its combined scale (02 R25, Table 2.4). A product of two infinities, for which Table 2.4 has no row, sets
PINF or NINF by the product's sign (DESIGN CHOICE, log entry 93). -/
def prodTerm (w a : Val) (ew ea : Byte) : Term :=
  if ew = 0xFF ∨ ea = 0xFF then .nan
  else match (w.mul a).1 with
    | .nan => .nan
    | .inf n => .inf n
    | .num n m e => .num n m (e + ew.toNat + ea.toNat - 254)

/-- A value as a term of an accumulation (02 R30, 06 R129). -/
def Val.toTerm : Val → Term
  | .nan => .nan
  | .inf n => .inf n
  | .num n m e => .num n m e

/-- The terms of string j's output from weight bytes read by `wt`, over positions 0 to E − 1; `hi` takes the scales of
positions 2 and 3 (03 R58, R60, Table 3.2). -/
def bowTerms (op : BowOp) (set : TuneSet) (j : Nat) (wt : Nat → Val) (hi : Bool) : List Term :=
  let af := actFmt op.afmt
  (List.range op.e).map (fun i =>
    let half := i / 32
    let a := if af == .bf16 then af.decode (fieldN op.data (2 * i) 2) else af.decode (op.data.getD i 0).toNat
    if af == .bf16 then prodTerm (wt i) a 0x7F 0x7F
    else prodTerm (wt i) a (Tab.get 0x7F set.scales (4 * j + half + (if hi then 2 else 0)))
      (if half = 0 then op.scale0 else op.scale1))

/-- Weight element i of string j: the low or high nibble for 4-bit formats. -/
def weightAt (set : TuneSet) (j i : Nat) (hi : Bool) : Val :=
  let b := (Tab.get 0 set.slices (64 * j + i)).toNat
  match Fmt.ofCode set.fmt.toNat with
  | some .bf16 =>
    Fmt.bf16.decode ((Tab.get 0 set.slices (64 * j + 2 * i)).toNat + 256 * (Tab.get 0 set.slices (64 * j + 2 * i + 1)).toNat)
  | some f => if is4bit set.fmt.toNat then f.decode (if hi then b / 16 else b % 16) else f.decode b
  | none => .num false 0 0

/-- The accumulator updates of a bow: (index, terms of strings 0 to 63; strings j ≥ L none) (03 R59, Table 3.3). -/
def bowUpdates (op : BowOp) (set : TuneSet) : List (Nat × List (List Term)) :=
  let per (hi : Bool) : List (List Term) :=
    (List.range 64).map (fun j => if j < set.l then bowTerms op set j (fun i => weightAt set j i hi) hi else [])
  if is4bit set.fmt.toNat then
    if set.trans then [(op.k, per op.nib)] else [(op.k, per false), (op.k + 8, per true)]
  else [(op.k, per false)]

/-- Index and nibble outside Table 3.3 for a set (03 R61). -/
def bowFieldBad (set : TuneSet) (k : Nat) (nib : Bool) : Bool :=
  if is4bit set.fmt.toNat then (if set.trans then false else nib || 8 ≤ k) else nib

/-! ### Long accumulators -/

/-- The bound of a term (02 R29). -/
def termMax : Int := 2 ^ 95 - 1

/-- The bound of a sum (02 R31). -/
def accMax : Int := 2 ^ 127 - 1

/-- What a term brings at window W: its integer and the flags INX, OVF, NAN, PINF, NINF (02 R25, R28, R29). -/
def termAt (w : Int) : Term → Int × Acc
  | .nan => (0, { Acc.zero with nan := true })
  | .inf n => (0, { Acc.zero with pinf := !n, ninf := n })
  | .num n m e =>
    let (v, ex) := roundInt n m (e - w)
    if 2 ^ 95 ≤ v.natAbs then (if n then -termMax else termMax, { Acc.zero with inx := !ex, ovf := true })
    else (v, { Acc.zero with inx := !ex })

/-- ORs the flags of `f` into `a`. -/
def Acc.orFlags (a f : Acc) : Acc :=
  { a with inx := a.inx || f.inx, ovf := a.ovf || f.ovf, nan := a.nan || f.nan, pinf := a.pinf || f.pinf,
           ninf := a.ninf || f.ninf }

/-- Adds an integer to I with the saturation of R31. -/
def Acc.addInt (a : Acc) (v : Int) : Acc :=
  let t := a.i.toInt + v
  if accMax < t then { a with i := BitVec.ofInt 128 accMax, ovf := true }
  else if t < -accMax then { a with i := BitVec.ofInt 128 (-accMax), ovf := true }
  else { a with i := BitVec.ofInt 128 t }

/-- Sum and flags of a list of terms at W. -/
def termsAt (w : Int) (ts : List Term) : Int × Acc :=
  ts.foldl (fun (p : Int × Acc) t => let (v, f) := termAt w t; (p.1 + v, p.2.orFlags f)) (0, Acc.zero)

/-- Adds the terms of one string (02 R30). -/
def Acc.addTerms (a : Acc) (w : Int) (ts : List Term) : Acc :=
  let (v, f) := termsAt w ts
  (a.addInt v).orFlags f

/-- Residue mod 4,095 of an integer (20 R456). -/
def residue (v : Int) : Nat := (v % 4095).toNat

/-- Accumulator k of string j. -/
def Lane.accAt (l : Lane) (k j : Nat) : Acc := Tab.get Acc.zero l.acc (64 * k + j)

/-- The window of index k. -/
def Lane.win (l : Lane) (k : Nat) : Int := Tab.get 0 l.windows k

/-- The residue register of index k, string j. -/
def Lane.resAt (l : Lane) (k j : Nat) : Nat := Tab.get 0 l.residues (64 * k + j)

/-- A residue register disagrees with the value that a read of index k meets (20 R456). -/
def Lane.readBad (l : Lane) (k : Nat) : Bool :=
  (List.range 64).any (fun j => residue (l.accAt k j).i.toInt != l.resAt k j)

/-- Sets an accumulator and its residue register. -/
def Lane.setAcc (l : Lane) (k j : Nat) (a : Acc) (r : Nat) : Lane :=
  { l with acc := Tab.set Acc.zero l.acc (64 * k + j) a, residues := Tab.set 0 l.residues (64 * k + j) r }

/-- Adds an integer and flags to one accumulator; the register advances by the integer's residue, or takes the value's
when the sum saturates (20 R456, R457). Answers whether the residues disagree. A bow's terms come summed: saturation is tested once a bow,
which the spec leaves open for a program past the limit of 02 R31 (DESIGN CHOICE, log entry 93). -/
def Lane.addTo (l : Lane) (k j : Nat) (v : Int) (f : Acc) : Lane × Bool :=
  let a := l.accAt k j
  let a' := (a.addInt v).orFlags f
  let t := a.i.toInt + v
  let r := if accMax < t ∨ t < -accMax then residue a'.i.toInt else (l.resAt k j + residue v) % 4095
  (l.setAcc k j a' r, r != residue a'.i.toInt)

/-- Clears index k: I and flags 0, register 0; WINDOW sets W (02 R27). -/
def Lane.clear (l : Lane) (k : Nat) (w : Option Int) : Lane :=
  { l with
    acc := Tab.clearRange l.acc (64 * k) (64 * k + 64)
    residues := Tab.clearRange l.residues (64 * k) (64 * k + 64)
    windows := match w with | some v => Tab.set 0 l.windows k v | none => l.windows }

/-- Replaces I, W and flags of index k (06 R129); the registers are set from the values (20 R456). -/
def Lane.restore (l : Lane) (k : Nat) (w : Int) (accs : List Acc) : Lane :=
  (List.range 64).foldl (fun l j =>
    let a := accs.getD j Acc.zero
    l.setAcc k j a (residue a.i.toInt)) { l with windows := Tab.set 0 l.windows k w }

/-- Adds per-string terms to index k; answers the strings whose residues disagree. -/
def Lane.addAll (l : Lane) (k : Nat) (terms : List (List Term)) : Lane × List Nat :=
  (List.range 64).foldl (fun (p : Lane × List Nat) j =>
    match terms.getD j [] with
    | [] => p
    | ts =>
      let (v, f) := termsAt (l.win k) ts
      let (l', bad) := p.1.addTo k j v f
      (l', if bad then p.2 ++ [j] else p.2)) (l, [])

/-- The five flags as bits 0 to 4: INX, OVF, NAN, PINF, NINF (06 R129, 13 R311). -/
def Acc.flagBits (a : Acc) : Nat := b01 a.inx + 2 * b01 a.ovf + 4 * b01 a.nan + 8 * b01 a.pinf + 16 * b01 a.ninf

/-- Reads the five flags. -/
def Acc.ofBits (i : BitVec 128) (f : Nat) : Acc := ⟨i, bitN f 0, bitN f 1, bitN f 2, bitN f 3, bitN f 4⟩

/-- The control word of an export or a record: W in [9:0], the flags in [14:10] (06 R129). -/
def ctrlWord (w : Int) (a : Acc) : W32 := BitVec.ofNat 32 (intBits 10 w + 1024 * a.flagBits)

/-- The window of a 10-bit field. -/
def winOf (f : Nat) : Int := (BitVec.ofNat 10 f).toInt

/-! ### Rounding out -/

/-- The value that an accumulator stands for, after the flag rules of R38; the Bool says that rule 1 applied. -/
def accVal (w : Int) (a : Acc) : Val :=
  if a.nan || (a.pinf && a.ninf) then .nan
  else if a.pinf then .inf false
  else if a.ninf then .inf true
  else .num (decide (a.i.toInt < 0)) a.i.toInt.natAbs w

/-- Rounds an accumulator to a target (02 R37 to R39; 06 R129 for the targets beyond DRAIN's). I = 0 gives +0. The
exit flags: rule 1 sets DNAN; a ±∞ sets DOVF where the target's row names it. -/
def roundOut (f : Fmt) (rm : RM) (u : Nat) (sat : Bool) (scale : Int) (v : Val) : Nat × RFlags :=
  let v := match v with | .num n m e => .num n m (e - scale) | v => v
  let (b, fl) := convert f rm u sat v
  match v with
  | .nan => (b, { nan := true })
  | .num _ m _ => if m == 0 then (0, {}) else (b, fl)
  | _ => (b, fl)

/-! ### Element tags and digests (10 R238, R242) -/

/-- BASE of the element tag: A15 as captured. -/
def tagBase (regs : Tab W32) : W32 := reg regs 15
/-- POINT: A14 bits [5:0]. -/
def tagPoint (regs : Tab W32) : Nat := ((reg regs 14).extractLsb' 0 6).toNat
/-- COUNT: A14 bits [12:6], 0 standing for 64; values above 64 take all 64 elements. -/
def tagCount (regs : Tab W32) : Nat :=
  let c := ((reg regs 14).extractLsb' 6 7).toNat
  if c = 0 then 64 else c

/-- Feeds values from element 0 of vector i to the point that the tag names (R242). `ints` says that accumulator
integers are fed. -/
def State.feed (s : State) (c : Nat) (regs : Tab W32) (vec : Nat) (ints : Bool) (vals : List Nat) : State :=
  let q := tagPoint regs
  if q = 0 then s
  else
    let vs := vals.take (tagCount regs)
    let h := digestSum (digestKey (s.saltOf c) q) (tagBase regs + BitVec.ofNat 32 (64 * vec)) vs
    s.updXfer c (fun x =>
      { x with digests := Recs.upd ⟨0, 0, 0⟩ x.digests q (fun d =>
        ⟨(d.h + h) % digestMod, satNat (2 ^ 32 - 1) (d.count + vs.length), d.fed ||| (if ints then 2 else 1)⟩) })

/-- I mod (2^61 − 1) as the least nonnegative residue (Table 10.4). -/
def digestInt (a : Acc) : Nat := (a.i.toInt % (digestMod : Int)).toNat

/-- The draw of position BASE + n for a core's step (R235, R236). -/
def State.draw (s : State) (c : Nat) (regs : Tab W32) (kind sub n : Nat) : Nat :=
  programDraw (s.stepOf c).seed (s.stepOf c).num kind sub (tagBase regs + BitVec.ofNat 32 n)

end Sys2Proof.Machine
end

