-- ==== Sys2Proof/Machine/VecMath.lean ====
section
/-! DEFINITION. What the vector engine and the reduction unit compute: packed forms (06 R113), micro-operations (R121 to
R124), conversions with block scales (R125 to R128), permutes (R130), reductions and softmax (R131 to R140). -/

namespace Sys2Proof.Machine

/-- Element j of register v. -/
def Vec.elem (x : Vec) (v j : Nat) : W32 := Tab.get 0 x.regs (64 * v + j)

/-- The 64 elements of register v. -/
def Vec.reg (x : Vec) (v : Nat) : List W32 := Tab.getList 0 x.regs (64 * v) 64

/-- The 256-byte image of a register (R112). -/
def imageOf (es : List W32) : List Byte := es.flatMap (fun e => leBytes 4 e.toNat)

/-- Elements from bytes. -/
def elemsOf (bs : List Byte) : List W32 := (List.range (bs.length / 4)).map (fun i => BitVec.ofNat 32 (fieldN bs (4 * i) 4))

/-- Raw value i of a register in a format and layout (R113, Table 6.1). -/
def rawAt (es : List W32) (f : Fmt) (packed : Bool) (i : Nat) : Nat :=
  if packed then
    match f.width with
    | 4 => (es.getD (i / 8) 0).toNat / 2 ^ (4 * (i % 8)) % 16
    | 8 => (es.getD (i / 4) 0).toNat / 2 ^ (8 * (i % 4)) % 256
    | 16 => (es.getD (i / 2) 0).toNat / 2 ^ (16 * (i % 2)) % 65536
    | _ => (es.getD i 0).toNat
  else (es.getD i 0).toNat % 2 ^ f.width

/-- The scale word of a packed 8-bit or 4-bit register: element 63, bits [15:0] (Table 6.1). -/
def scaleWord (es : List W32) : Nat := (es.getD 63 0).toNat % 65536

/-- The register image of 64 raw values in a format and layout, with a scale word where the form has one (R113, R126). -/
def packRaw (f : Fmt) (packed : Bool) (vals : List Nat) (scales : Nat) : List W32 :=
  if packed && f.width < 32 then
    let per := 32 / f.width
    (List.range 64).map (fun n =>
      if n < 64 / per then
        BitVec.ofNat 32 ((List.range per).foldl (fun w i => w + vals.getD (n * per + i) 0 * 2 ^ (f.width * i)) 0)
      else if n = 63 ∧ f.width ≤ 8 then BitVec.ofNat 32 scales
      else 0)
  else (List.range 64).map (fun i => BitVec.ofNat 32 (vals.getD i 0))

/-- A format that block scales apply to (R126). -/
def scalable (f : Fmt) : Bool := f.width ≤ 8

/-- The scale bytes of a source's halves (R126): NONE, IMM or WORD. -/
def srcScales (ssc : Nat) (imm : Byte) (es : List W32) : Nat × Nat :=
  match ssc with
  | 1 => (imm.toNat, imm.toNat)
  | 2 => (scaleWord es % 256, scaleWord es / 256)
  | _ => (127, 127)

/-- Value i of a register as a scaled source (R125, R126). -/
def srcVal (es : List W32) (f : Fmt) (packed : Bool) (sc : Nat × Nat) (i : Nat) : Val :=
  (f.decode (rawAt es f packed i)).scaled (if i < 32 then sc.1 else sc.2)

/-- BAD_FIELD of a source's scale selector: a scale for a format without one, WORD with the unpacked form (R126). -/
def srcScaleBad (ssc : Nat) (f : Fmt) (packed : Bool) : Bool :=
  (ssc != 0 && !scalable f) || (ssc == 2 && !packed) || ssc == 3

/-- The largest exponent under which a format's largest values lie (R128). -/
def emax : Fmt → Int
  | .e4m3 => 8 | .e5m2 => 15 | .e2m1 => 2 | .int8 => 6 | .int4 => 2 | .uint4 => 3 | _ => 0

/-- The AUTO scale of a half and whether it holds a NaN (R128). -/
def autoScale (f : Fmt) (vals : List Val) : Nat × Bool :=
  if vals.any (· == .nan) then (255, true)
  else
    let es := vals.filterMap Val.exp
    match es with
    | [] => (127, false)
    | e :: es =>
      let x := es.foldl max e - emax f
      ((max (-127) (min 127 x) + 127).toNat, false)

/-- A conversion of 64 values to a target with its scale (R125 to R128): raw results, scale word, flags. `out` says that
the source is an accumulator, whose zeros are +0 (02 R39). -/
def convertAll (f : Fmt) (rm : RM) (draw : Nat → Nat) (sat : Bool) (dsc : Nat) (imm : Byte) (out : Bool) (vals : List Val) :
    List Nat × Nat × RFlags :=
  let a0 := autoScale f (vals.take 32)
  let a1 := autoScale f (vals.drop 32)
  let (s0, s1) := match dsc with
    | 1 => (imm.toNat, imm.toNat)
    | 2 => (a0.1, a1.1)
    | _ => (127, 127)
  let auto := dsc == 2
  let rs := (vals.zipIdx).map (fun p =>
    let sc := if p.2 < 32 then s0 else s1
    if auto && sc == 255 then (0, ({ nan := true } : RFlags))
    else if out then roundOut f rm (draw p.2) (sat || auto) ((sc : Int) - 127) p.1
    else convert f rm (draw p.2) (sat || auto) (match p.1 with
      | .num n m e => .num n m (e - ((sc : Int) - 127))
      | v => v))
  (rs.map (·.1), s0 + 256 * s1, RFlags.all (rs.map (·.2)))

/-! ### Micro-operations -/

/-- Fields of a micro-operation (Table 6.4). -/
structure Uop where
  op : Nat
  d : Nat
  a : Nat
  b : Nat
  c : Nat
  fmt : Nat
  rm : Nat
  dir : Bool
  sat : Bool
  reserved : Nat
  deriving DecidableEq, Repr

/-- Reads a micro-operation word. -/
def Uop.ofWord (w : W32) : Uop :=
  let n := w.toNat
  ⟨bitsN n 5 0, bitsN n 8 6, bitsN n 11 9, bitsN n 14 12, bitsN n 17 15, bitsN n 21 18, bitsN n 24 22, bitN n 25,
   bitN n 26, bitsN n 31 27⟩

/-- Arithmetic right shift of a word. -/
def sra32 (a b : Nat) : Nat := ((BitVec.ofNat 32 a).sshiftRight (b % 32)).toNat

/-- The result of a micro-operation on its operands; `j` is the element number, `u` its draw (Table 6.5). -/
def Uop.run (o : Uop) (consts : List W32) (j u a b c : Nat) : Nat × RFlags :=
  let rm := (RM.ofCode o.rm).getD .ne
  let sg (n : Nat) : Int := (BitVec.ofNat 32 n).toInt
  match o.op with
  | 0x01 => fAdd rm a b
  | 0x02 => fSub rm a b
  | 0x03 => fMul rm a b
  | 0x04 => fFma rm a b c
  | 0x05 => (fMinMax false a b, {})
  | 0x06 => (fMinMax true a b, {})
  | 0x07 => (a % 2 ^ 31, {})
  | 0x08 => (a ^^^ 2 ^ 31, {})
  | 0x09 => fExp2 rm a
  | 0x0A => fLog2 rm a
  | 0x0B => fRcp rm a
  | 0x0C => fRsqrt rm a
  | 0x0D => (fRint rm a, {})
  | 0x0E => (fCmp (fun x y => decide (x < y)) a b, {})
  | 0x0F => (fCmp (fun x y => decide (x ≤ y)) a b, {})
  | 0x10 => (fCmp (fun x y => decide (x = y)) a b, {})
  | 0x11 => (if c ≠ 0 then a else b, {})
  | 0x12 => ((a + b) % 2 ^ 32, {})
  | 0x13 => ((a + 2 ^ 32 - b) % 2 ^ 32, {})
  | 0x14 => (a * b % 2 ^ 32, {})
  | 0x15 => (a &&& b, {})
  | 0x16 => (a ||| b, {})
  | 0x17 => (a ^^^ b, {})
  | 0x18 => (a * 2 ^ (b % 32) % 2 ^ 32, {})
  | 0x19 => (a / 2 ^ (b % 32), {})
  | 0x1A => (sra32 a b, {})
  | 0x1B => (if sg a < sg b then 1 else 0, {})
  | 0x1C =>
    match Fmt.ofCode o.fmt with
    | none => (a, {})
    | some f =>
      if o.dir then convert f rm u o.sat (f32 a) else convert .fp32 rm 0 false (f.decode a)
  | 0x1D => ((consts.getD o.a 0).toNat, {})
  | 0x1E => (j, {})
  | _ => (a, {})

/-- Runs a program on the temporaries of one element; micro-operation numbers count from `k` (R121). -/
def runUops (consts : List W32) (j : Nat) (draw : Nat → Nat) : List W32 → Nat → List Nat → RFlags → List Nat × RFlags
  | [], _, t, f => (t, f)
  | w :: ws, k, t, f =>
    let o := Uop.ofWord w
    if o.op = 0 then runUops consts j draw ws (k + 1) t f
    else
      let (v, g) := o.run consts j (if o.rm = 4 then draw k else 0) (t.getD o.a 0) (t.getD o.b 0) (t.getD o.c 0)
      runUops consts j draw ws (k + 1) (t.set o.d v) (f.or g)

/-! ### Reductions -/

/-- Whether the element of rank `a` with index `i` ranks above that of rank `b` with index `j` (R133). -/
def outranks (a : Int) (i : Nat) (b : Int) (j : Nat) : Bool := b < a || (a == b && i < j)

/-- The greater of two values, or with `mn` the lesser (R135). -/
def Red.takeVal (r : Red) (mn : Bool) (v : W32) (idx : Nat) : Red :=
  match rankKey v.toNat, rankKey r.val.toNat with
  | none, _ => r
  | some k, some k' =>
    if !r.has || (if mn then k < k' else outranks k idx k' r.idx.toNat) then
      { r with val := v, idx := BitVec.ofNat 32 idx, has := true }
    else r
  | some _, none => { r with val := v, idx := BitVec.ofNat 32 idx, has := true }

/-- Elements seen goes up, saturating (Table 6.9). -/
def Red.see (r : Red) (n : Nat) : Red := { r with seen := satNat (2 ^ 32 - 1) (r.seen + n) }

/-- RN of an FP32 operation's pattern. -/
def rn2 (f : RM → Nat → Nat → Nat × RFlags) (a b : Nat) : Nat := (f .ne a b).1

/-- The shifted exponential u of an element (R139, step 3). -/
def lseU (c m x : Nat) : Nat := (fExp2 .ne (rn2 fMul c (rn2 fSub x m))).1

/-- m as the state holds it: the canonical NaN where nothing but NaN has come. -/
def Red.m (r : Red) : Nat := if r.has then r.val.toNat else Fmt.fp32.nanBits

/-- One element of VRED ACC for the kinds MAX, MIN, ARGMAX, LSE (R135, R139). -/
def Red.accElem (r : Red) (v : W32) (idx : Nat) : Red :=
  let isNan := rankKey v.toNat == none
  if r.kind == 6 then
    if r.sumPhase then
      match f32 r.m, isNan with
      | .num _ _ _, false =>
        { r with acc := r.acc.addTerms r.w [(f32 (lseU r.c.toNat r.m v.toNat)).toTerm] }
      | _, _ => r
    else
      let r := r.see 1
      if isNan then { r with nan := true }
      else
        let r := if v = 0x7F800000 then { r with infs := satNat (2 ^ 32 - 1) (r.infs + 1) } else r
        r.takeVal false v 0
  else
    let r := r.see 1
    if isNan then { r with nan := true } else r.takeVal (r.kind == 3) v (if r.kind == 4 then idx else 0)

/-- The class of an LSE row (Table 6.10). -/
def Red.lseClass (r : Red) : Nat :=
  if r.nan then 1
  else if !r.has || r.val = 0xFF800000 then 2
  else if r.val = 0x7F800000 then 3
  else 4

/-- S_f of an LSE state (R139). -/
def Red.sumF (r : Red) : Nat := (roundOut .fp32 .ne 0 false 0 (accVal r.w r.acc)).1

/-- RN(1 / k) of a whole number (Table 6.10): the quotient to more bits than FP32 has, with what is left over kept sticky. -/
def recipNat (k : Nat) : Nat :=
  (toF32 .ne (sticky false (2 ^ fnPrec / k) (-(fnPrec : Int)) (2 ^ fnPrec / k * k == 2 ^ fnPrec), false)).1

/-- rinv: 1 / S_f in class NORMAL, 1 / k in class INF (R139, Table 6.10). -/
def Red.rinv (r : Red) : Nat :=
  match r.lseClass with
  | 4 => (fRcp .ne r.sumF).1
  | 3 => recipNat r.infs
  | _ => 0

/-- L of an LSE row (R139, Table 6.10). -/
def Red.lseL (r : Red) : Nat :=
  match r.lseClass with
  | 1 => Fmt.fp32.nanBits
  | 2 => Fmt.fp32.infBits true
  | 3 => Fmt.fp32.infBits false
  | _ => rn2 fAdd r.m (rn2 fMul (fLog2 .ne r.sumF).1 r.d.toNat)

/-- The four words of I. -/
def Acc.words (a : Acc) : List W32 := (List.range 4).map (fun i => BitVec.ofNat 32 (a.i.toNat / 2 ^ (32 * i)))

/-- A reduction record (Table 6.9); `sum5` is the rounded sum of a SUM state. -/
def Red.record (r : Red) (sum5 : Nat) : List W32 :=
  let sums := r.kind == 1 || r.kind == 6
  let w (n : Nat) : W32 := BitVec.ofNat 32 n
  let e03 := if sums then r.acc.words else List.replicate 4 0
  let e4 := if sums then ctrlWord r.w r.acc else 0
  let e5 := match r.kind with
    | 1 => w sum5
    | 5 => BitVec.ofInt 32 r.exp
    | 0 => 0
    | _ => w r.m
  let e6 := match r.kind with | 4 => r.idx | 6 => w r.infs | _ => 0
  let lse := r.kind == 6
  let e1014 := if lse then [r.c, r.d, w r.lseL, w r.rinv, w r.lseClass] else List.replicate 5 0
  e03 ++ [e4, e5, e6, w r.seen, w (b01 r.nan + 2 * b01 r.special + 4 * b01 r.sumPhase), w r.kind] ++ e1014 ++
    List.replicate 49 0

/-- Reads a record back (R137). -/
def Red.ofRecord (es : List W32) : Red :=
  let e (i : Nat) : Nat := (es.getD i 0).toNat
  let kind := e 9
  let i : BitVec 128 := BitVec.ofNat 128 (e 0 + e 1 * 2 ^ 32 + e 2 * 2 ^ 64 + e 3 * 2 ^ 96)
  { Red.empty with
    kind := kind, w := winOf (e 4), acc := Acc.ofBits i (e 4 / 1024)
    val := es.getD 5 0
    idx := if kind == 4 then es.getD 6 0 else if kind == 6 then 0 else 0
    has := decide (rankKey (e 5) ≠ none) && (kind == 2 || kind == 3 || kind == 4 || kind == 6)
    exp := (es.getD 5 0).toInt
    seen := e 7, nan := bitN (e 8) 0, special := bitN (e 8) 1, sumPhase := bitN (e 8) 2
    infs := if kind == 6 then e 6 else 0, c := es.getD 10 0, d := es.getD 11 0 }

/-- Combines a record into a state of its kind (R137). -/
def Red.merge (r q : Red) : Red :=
  let r' := { r with seen := satNat (2 ^ 32 - 1) (r.seen + q.seen), nan := r.nan || q.nan,
                     infs := satNat (2 ^ 32 - 1) (r.infs + q.infs) }
  let best (r' : Red) : Red := if q.has then r'.takeVal (r.kind == 3) q.val q.idx.toNat else r'
  match r.kind with
  | 1 => { r' with acc := (r.acc.addInt q.acc.i.toInt).orFlags q.acc }
  | 5 => { r' with exp := max r.exp q.exp, special := r.special || q.special }
  | 6 => if r.sumPhase then { r' with acc := (r.acc.addInt q.acc.i.toInt).orFlags q.acc } else best r'
  | _ => best r'

/-- Puts an element into a top-k list, highest first (R136). -/
def topkInsert (k : Nat) (v : W32) (i : Nat) : List (W32 × W32) → List (W32 × W32)
  | [] => if 0 < k then [(v, BitVec.ofNat 32 i)] else []
  | (w, j) :: l =>
    match k, rankKey v.toNat, rankKey w.toNat with
    | 0, _, _ => []
    | k + 1, some a, some b =>
      if outranks a i b j.toNat then (v, BitVec.ofNat 32 i) :: ((w, j) :: l).take k
      else (w, j) :: topkInsert k v i l
    | _, _, _ => (w, j) :: l

/-- Element j of a VPROG source for vector i: register, broadcast or absent (06 R121, 08 R185). -/
def vprogSrc (v : Vec) (k : BitVec 2) (r : BitVec 5) (elem : BitVec 6) (i j : Nat) : Nat :=
  match k.toNat with
  | 1 => (v.elem (r.toNat + i) j).toNat
  | 2 => (v.elem (r.toNat + i) elem.toNat).toNat
  | _ => 0

/-- Vector i of a VPROG reads its sources in tick t, runs the program, feeds the digest and puts its result in flight
(06 R116, R121 to R123; 10 R236, R242). -/
def State.vprogVec (s : State) (c t : Nat) (o : VprogOp) (i : Nat) (e : QEntry) : State :=
  let v := (s.core c).vec
  match (v.progs.find? (·.1 == o.p.toNat)) with
  | none => s
  | some (_, pr) =>
    let draw (j k : Nat) : Nat := s.draw c e.regs 3 k (64 * i + j)
    let outs := (List.range 64).map (fun j =>
      let t0 := [vprogSrc v o.k0 o.s0 o.elem i j, vprogSrc v o.k1 o.s1 o.elem i j, vprogSrc v o.k2 o.s2 o.elem i j,
        0, 0, 0, 0, 0]
      runUops pr.consts j (draw j) pr.ops 0 t0 {})
    let vals := outs.map (fun p => p.1.getD 0 0)
    let s := s.orStatus c (vecMask (RFlags.all (outs.map (·.2))))
    let s := s.feed c e.regs i false vals
    let s := s.landEnd (t + 2 * pr.ops.length - 1) 22 c (.vreg (o.vd.toNat + i) 0 (vals.map (BitVec.ofNat 32)))
    if i < o.r.toNat then s.landStart (t + 1) 8 c (.vprog o (i + 1) e) else s

end Sys2Proof.Machine
end

