-- ==== Sys2Proof/Machine/Land.lean ====
section
/-! DEFINITION. Landing: what each result in flight does when the clock reaches it (09 R207; 02 R34; 03 R49, R51, R60,
R62; 05 R98 to R107; 08 R187; 20 R456 to R458), and the passing of ticks. -/

namespace Sys2Proof.Machine

/-! ### Detected faults of a core's units -/

/-- A scratchpad read meets an uncorrectable word: nothing is delivered, the step stops; a second detection retires the
core (05 R110). -/
def State.spFault (s : State) (c row : Nat) : State :=
  let n := (s.core c).sp.unc + 1
  let s := s.updSp c (fun m => { m with unc := n })
  let s := s.coreFault c 0x0012 3 (if 2 ≤ n then 3 else 1) (BitVec.ofNat 16 (row % 32)) row
  if 2 ≤ n then s.askRetire c else s

/-- A scheduled read meets an uncorrectable block: nothing is delivered, the step stops, the block's restoration starts
(04 R86, R87). -/
def State.wsFault (s : State) (c block : Nat) : State :=
  (s.startRestore c block).coreFault c 0x0010 2 1 0xFFFF block

/-- A core is counted as for a transient; the second within 10 minutes retires it (20 R458). -/
def State.transient (s : State) (c : Nat) : State :=
  let recent := (s.core c).det.transients.filter (fun t => s.station < t + 600000000000)
  let s := s.updDet c (fun d => { d with transients := recent ++ [s.station] })
  if recent.isEmpty then s else s.askRetire c

/-- ACC_RESIDUE: a read of index k meets a wrong residue (20 R456, R458). -/
def State.accResidue (s : State) (c k : Nat) : State :=
  (s.coreFault c 0x0002 1 1 (BitVec.ofNat 16 k) k).transient c

/-- LANE_RESIDUE in a bow's landing tick: a late item checked at that tick, and the hold of the arbitration (20 R458).
Without a bow's journal entry (a converted value, a received partial sum) nothing can be recomputed: the step stops and
the core is counted as for a transient (DEDUCED, log entry 20). -/
def State.laneResidue (s : State) (c j : Nat) (bow : Bool) (t : Nat) : State :=
  if bow then
    let s := s.updDet c (fun d => { d with arbOpen := some t })
    if s.clk.holds.contains (.arbitration c) then s
    else { s with clk := { s.clk with holds := s.clk.holds ++ [.arbitration c] } }
  else (s.coreFault c 0x0001 1 1 (BitVec.ofNat 16 j) 0).transient c

/-! ### Circular regions -/

/-- Releases n rows of a region; a release that does not fit COUNT at the start of its tick t, or what other releases of the tick have
left of it, is dropped and logged (05 R103, R105). -/
def State.doRelease (s : State) (c t reg_ n : Nat) (e : QEntry) (src : Nat) (opcode : Byte) : State :=
  let d := (s.core c).sp.circAt reg_
  if d.countAt t < n ∨ d.count < n then s.logExc c e.tick e.offset opcode src .regionUnderrun n
  else if n = 0 then s
  else s.updSp c (fun m => { m with
    circ := Recs.put m.circ reg_ { d with head := (d.head + n) % d.size, count := d.count - n, snap := some (t, d.countAt t) } })

/-- Commits n rows: COUNT rises, and the region's flag counts the advance with the other increments of the cycle (05 R103, R107; 07
R160). -/
def State.advanceTail (s : State) (c t reg_ n : Nat) : State :=
  let d := (s.core c).sp.circAt reg_
  let s := s.updSp c (fun m => { m with
    circ := Recs.put m.circ reg_ { d with count := d.count + n, snap := some (t, d.countAt t) } })
  if d.flagen then s.landEnd t 42 c (.incFlag d.flag.toNat) else s

/-- A commit does not fit COUNT at the start of its tick t, or what other commits of the tick have left of the room (05 R105). -/
def Circ.commitFails (d : Circ) (t n : Nat) : Bool := decide (d.size - d.countAt t < n) || decide (d.size - d.count < n)

/-- A commit of an instruction; one that no longer fits is dropped and logged (05 R105). -/
def State.doCommit (s : State) (c t reg_ n : Nat) (e : QEntry) (src : Nat) (opcode : Byte) : State :=
  if ((s.core c).sp.circAt reg_).commitFails t n then s.logExc c e.tick e.offset opcode src .regionFull n
  else if n = 0 then s
  else s.advanceTail c t reg_ n

/-! ### The bow -/

/-- The reasons for which the word has no offending field: the slot is held, the package has no directory (07 Table 7.4). -/
def detailOpen (r : Reason) : Bool := r == .slotBusy || r == .kdRegion

/-- Logs a skipped entry. Where no field offends, the DETAIL is an open value (log entries 5 and 89). -/
def State.logEntry (s : State) (c : Nat) (e : QEntry) (r : Reason) (d : Nat) : State :=
  if detailOpen r then
    (s.takeFree 32).2.logExc c e.tick e.offset e.opcode e.source r (s.takeFree 32).1.toNat
  else s.logExc c e.tick e.offset e.opcode e.source r d

/-- The terms of a taken bow go in flight: they are added in its landing tick (03 R60, R62); the bow may be sampled
(20 R461). -/
def State.bowGo (s : State) (c : Nat) (op : BowOp) (set : TuneSet) (land : Nat) (e : QEntry) : State :=
  (bowUpdates op set).foldl (fun s (k, ts) =>
    (s.landEnd land 3 c (.accAdd k ts (some (op, set)))).use land c c 0 (some e) [.accAdd k]) s

/-- The checks of a bow that need the active set: the pair and Table 3.3 (03 R61, R69). -/
def bowSetFail (op : BowOp) (set : TuneSet) : Fail :=
  pickFail [failIf (!pairOk set.fmt.toNat op.afmt) .formatPair op.afmt.toNat,
    failIf (bowFieldBad set op.k op.nib) .badField op.k]

/-- In debug mode, the bows that may meet a restring in flight are kept with the set that they took, for the 4 ticks of a restring
(03 R49, R52). -/
def State.noteTaken (s : State) (c b : Nat) (e : QEntry) : State :=
  if s.dbg.en then
    s.updLane c (fun l => { l with taken := l.taken.filter (fun x => decide (b < x.1 + 4)) ++ [(b, l.activeB, e)] })
  else s

/-- A bow takes the active set at the end of its issue tick b, and with it the words of its operand (03 R51, R52); a bow that is skipped
has read nothing (R69). -/
def State.bowTake (s : State) (c b : Nat) (op : BowOp) (g : Option Gather) (fail : Fail) (rel : Option (Nat × Nat))
    (rows : List Nat) (e : QEntry) : State :=
  let set := (s.core c).lane.active
  match pickFail [bowSetFail op set, fail] with
  | some (r, d) => s.logEntry c e r d
  | none =>
    match rows.find? (s.core c).sp.rowBad with
    | some row => s.spFault c row
    | none =>
      let s := ((s.updSp c (fun m => m.correct rows.eraseDups)).use b c c 1 (some e) (rows.map .rowRead)).noteTaken c b e
      let s := match rel with | some (q, n) => s.landEnd b 30 c (.release q n e) | none => s
      match g with
      | none => s.bowGo c op set (b + if op.afmt.toNat == 3 then 7 else 6) e
      | some g => s.landStart (b + 1) 5 c (.gather op g set e)

/-- A restring lands; in debug mode the bows that took its set while it was in flight are early tuning reads (03 R49, R51, R52). -/
def State.doRestring (s : State) (c t : Nat) (set : TuneSet) : State :=
  let l := (s.core c).lane
  let other : W32 := match s.clk.uses.find? (fun u => u.core == c && u.tick == t && u.what == .tuneWrite) with
    | some u => (match u.entry with | some e => e.offset.setWidth 32 | none => 0xFFFFFFFF)
    | none => 0xFFFFFFFF
  let early := l.taken.filter (fun x => x.2.1 != l.activeB && decide (t ≤ x.1 + 4) && decide (x.1 < t))
  early.foldl (fun s x => s.hazard 0x03 c (some x.2.2) other) (s.updLane c (fun l => l.writeShadow set))

/-- The address of gathered element i: none for the padding index or an address outside the scratchpad (03 R63). -/
def gatherAddr (base : W32) (idx : Nat) : Option Nat :=
  if idx == 0xFFFF then none
  else if spBytes ≤ base.toNat + idx then none else some (base.toNat + idx)

/-- Rows of one bank that a gather reads, each named row once, in the order named. -/
def bankRows (rows : List Nat) (bank : Nat) : List Nat :=
  (rows.filter (· % 32 == bank)).foldl (fun l r => if l.contains r then l else l ++ [r]) []

/-- The largest number of distinct rows that any bank holds (05 R95). -/
def gatherCost (rows : List Nat) : Nat :=
  (List.range 32).foldl (fun m b => max m (bankRows rows b).length) 0

/-- The second tick of a BOWG: it reads its second list row, the gathered bytes and the scale pair, and costs the m − 1
held cycles that were planned; what they do not reach is +0 (03 R62, R63; 05 R95; 09 R212). Indices at positions E and above are not
gathered (DESIGN CHOICE, log entry 93). -/
def State.doGather (s : State) (c t : Nat) (op : BowOp) (g : Gather) (set : TuneSet) (e : QEntry) : State :=
  let sp := (s.core c).sp
  if sp.rowBad g.row1 then s.spFault c g.row1
  else
    let list := g.list0 ++ sp.row g.row1
    let idx := (List.range op.e).map (fun i => fieldN list (2 * i) 2)
    let addrs := idx.map (gatherAddr g.base)
    let scaleRows := match g.scaleAt with | some a => [a / 64, (a + 1) / 64] | none => []
    let rows := addrs.filterMap (fun a => a.map (· / 64)) ++ scaleRows
    let need := gatherCost rows
    let served (r : Nat) : Bool := ((bankRows rows (r % 32)).take g.planned).contains r
    match rows.find? (fun r => served r && sp.rowBad r) with
    | some r => s.spFault c r
    | none =>
      let byte (a : Option Nat) : Byte := match a with
        | some a => if served (a / 64) then sp.mem.byte a else 0
        | none => 0
      let oor := (idx.zip addrs).any (fun p => p.1 != 0xFFFF && p.2.isNone)
      let s := s.updSp c (fun m => m.correct (g.row1 :: rows))
      let s := s.orStatus c (StatusBit.gatherOor.mask oor ||| StatusBit.gatherStale.mask (decide (g.planned < need)))
      let s := (s.use t c c 1 (some e) ((g.row1 :: rows.filter served).eraseDups.map .rowRead))
      let s := { s with clk := { s.clk with conflicts := s.clk.conflicts ++ [(t, g.planned - 1)] } }
      let op := { op with
        data := addrs.map byte
        scale0 := match g.scaleAt with | some a => byte (some a) | none => op.scale0
        scale1 := match g.scaleAt with | some a => byte (some (a + 1)) | none => op.scale1 }
      s.bowGo c op set (t + 6) e

/-- The entries of the last 16 bows; the entries of one bow have its landing tick (20 R458). -/
def keepBows (l : List Journal) : List Journal :=
  match l with
  | [] => []
  | j :: js =>
    let ticks := (l.map (·.tick)).foldl (fun m t => if m.contains t then m else m ++ [t]) []
    if 16 < ticks.length then js.filter (fun k => k.tick != j.tick) else l

/-- Terms are added into index k (02 R34, step 2); a bow's are journalled (20 R458) and may be sampled (20 R461). -/
def State.doAccAdd (s : State) (c t k : Nat) (terms : List (List Term)) (bow : Option (BowOp × TuneSet)) : State :=
  let l := (s.core c).lane
  let (l', bad) := l.addAll k terms
  let s := s.updLane c (fun _ => l')
  let s := match bow with
    | none => s
    | some (op, set) =>
      let sums := (List.range 64).map (fun j => (termsAt (l.win k) (terms.getD j [])).1)
      let jr : Journal := ⟨t, k, op, set, l.win k, sums, sums.map residue, Tab.get 0 (s.core c).ws.writes set.block⟩
      let (f, s) := s.takeFree 24
      let num := (s.stepOf c).num
      s.updLane c (fun l => { l with
        journal := keepBows (l.journal ++ [jr])
        samples := if f = 0 ∧ l.samples.length < 64 then l.samples ++ [⟨num, jr, false⟩] else l.samples })
  bad.foldl (fun s j => s.laneResidue c j bow.isSome t) s

/-! ### Moves -/

/-- A cell of a transfer from a core (11 R269, R270). -/
def mkCell (dest : W32) (place : Place) (core : Nat) (vc : BitVec 3) (route : BitVec 2) (op : Nat) (tenant : Nat)
    (tid : BitVec 12) (index total : Nat) (mark : CellMark) (payload : List Byte) : Cell :=
  { dest := if destLocal dest then place else destPlace dest
    core := BitVec.ofNat 9 core, vc := vc, epoch := false
    cls := BitVec.ofNat 4 (4 * op + route.toNat), tenant := BitVec.ofNat 3 tenant, tid := tid
    index := BitVec.ofNat 11 index, last := index + 1 == total, mark := mark, payload := sliceB payload 0 32 }

/-- Puts cells into a core's outbound buffer (09 R209). -/
def State.emit (s : State) (c : Nat) (cells : List Cell) : State :=
  s.updXfer c (fun x => { x with outbound := x.outbound ++ cells })

/-- The two cells of a row of a transfer, the first at `index`. -/
def rowCells (s : State) (c : Nat) (dest : W32) (vc : BitVec 3) (route : BitVec 2) (op : Nat) (tid : BitVec 12)
    (index total : Nat) (mark : CellMark) (row : List Byte) : List Cell :=
  let mk (i : Nat) (p : List Byte) : Cell :=
    mkCell dest s.place (destCore dest) vc route op (s.tenantOf c) tid i total mark p
  [mk index (row.take 32), mk (index + 1) (row.drop 32)]

/-- Hands one block of rows to its sink at the read's tick; `i` is the index of the first row. -/
def State.sinkRows (s : State) (c : Nat) (sink : RowSink) (i : Nat) (rows : List (List Byte)) : State :=
  match sink with
  | .send dest vc route tid kind total =>
    s.emit c ((rows.zipIdx).flatMap (fun p =>
      rowCells s c dest vc route (if kind == .xor then 3 else 0) tid (2 * (i + p.2)) total .none p.1))
  | .kvRemote dest tid total =>
    s.emit c ((rows.zipIdx).flatMap (fun p =>
      rowCells s c dest 2 0 0 tid (2 * (i + p.2) + 1) total .kvwr p.1))
  | .hostwr addr tid =>
    s.updXfer c (fun x => { x with
      hostOut := x.hostOut ++ (rows.zipIdx).map (fun p => (tid, addr + 64 * (i + p.2), p.1)) })
  | _ => s

/-- What a sink does once the last row has been read, in tick t. -/
def State.sinkEnd (s : State) (c t : Nat) (r : RowRead) : State :=
  match r.sink with
  | .wswr block row =>
    (s.landEnd (t + 3) 12 c (.ws (4096 * block + 64 * row) r.got.flatten)).use (t + 3) c c 2 (some r.entry) [.wsAll]
  | .kvLocal addrs gen slot page =>
    if Tab.get 0 (Recs.get [] s.pageGens slot) page == gen.toNat then
      (s.landEnd (t + 3) 12 c (.wsRows (addrs.zip r.got))).use (t + 3) c c 2 (some r.entry)
        (addrs.map (fun a => .wsBank (a % 4096 / 64)))
    else s.updXfer c (fun x => { x with droppedWrites := x.droppedWrites + 1 })
  | .kdlook count row tid =>
    { s with kdq := s.kdq ++
      [⟨c, tid, false, false, (List.range count).map (fun n => sliceB r.got.flatten (8 * n) 8), row, 0⟩] }
  | .kdput count del tid =>
    { s with kdq := s.kdq ++
      [⟨c, tid, true, del, (List.range count).map (fun n => sliceB r.got.flatten (16 * n) 16), 0, 0⟩] }
  | _ => s

/-- Reads the next 32 rows of a move in tick t (08 R187). -/
def State.doRowRead (s : State) (c t : Nat) (r : RowRead) : State :=
  let now := r.rows.take 32
  let sp := (s.core c).sp
  match now.find? sp.rowBad with
  | some row => s.spFault c row
  | none =>
    let data := now.map sp.row
    let s := (s.updSp c (fun m => m.correct now)).use t c c 3 (some r.entry) (now.map .rowRead)
    let s := s.sinkRows c r.sink r.next data
    let r := { r with rows := r.rows.drop 32, next := r.next + now.length, got := r.got ++ data }
    match r.rows with
    | [] =>
      let s := match r.rel with | some (q, n) => s.landEnd t 30 c (.release q n r.entry) | none => s
      s.sinkEnd c t r
    | _ => s.landStart (t + 1) 6 c (.rowRead r)

/-- The size of the next block: a run is cut into blocks of q from its start row, so that in descending order a short block comes first
(R98, R99; DEDUCED, log entry 93). -/
def RowRun.block (r : RowRun) : Nat :=
  match r.source with
  | .copy _ true => (r.rows.length - 1) % r.q + 1
  | _ => r.q

/-- Handles the next block of q rows of an SPFILL or SPCOPY in tick t (05 R98, R99): a fill writes in tick t, a copy
reads in tick t and writes three ticks later. -/
def State.doRowRun (s : State) (c t : Nat) (r : RowRun) : State :=
  let now := r.rows.take r.block
  let rest := r.rows.drop r.block
  let sp := (s.core c).sp
  let finish (s : State) (w : Nat) : State :=
    match rest, r.com with
    | [], some (q, n) => s.landEnd w 31 c (.commit q n r.entry)
    | [], none => s
    | _, _ => s.landStart (t + 1) 7 c (.rowRun { r with rows := rest })
  match r.source with
  | .fill w =>
    let row := (List.replicate 16 (leBytes 4 w.toNat)).flatten
    finish ((s.landEnd t 11 c (.rowList (now.map (fun p => (p.1, row))))).use t c c 2 (some r.entry)
      (now.map (fun p => .rowWrite p.1))) t
  | .copy _ _ =>
    match (now.map (·.2)).find? sp.rowBad with
    | some row => s.spFault c row
    | none =>
      let s := (s.updSp c (fun m => m.correct (now.map (·.2)))).use t c c 3 (some r.entry) (now.map (fun p => .rowRead p.2))
      finish ((s.landEnd (t + 3) 11 c (.rowList (now.map (fun p => (p.1, sp.row p.2))))).use (t + 3) c c 2 (some r.entry)
        (now.map (fun p => .rowWrite p.1))) (t + 3)

/-- The record of an arrival: the step tick, the opener's offset and opcode when the arrival belongs to an open id
(08 R201). -/
def State.logArrival (s : State) (c : Nat) (tid : Option Nat) (r : Reason) (d : Nat) : State :=
  let o := tid.bind (fun t => (s.core c).xfer.tids.find? (·.tid == t))
  let tick := (s.clk.tick + 2 ^ 64 - (s.stepOf c).s0) % 2 ^ 64
  match o with
  | some o => s.logExc c tick o.offset o.opcode 4 r d
  | none => s.logExc c tick 0xFFFFFF 0xFF 4 r d

/-- Applies a function to the open transfer of an id. -/
def State.updTid (s : State) (c tid : Nat) (f : OpenTid → OpenTid) : State :=
  s.updXfer c (fun x => { x with tids := x.tids.map (fun o => if o.tid == tid then f o else o) })

/-- Received partial sums are added, and their flags ORed, when W is the receiving accumulator's; otherwise the
contribution is logged once with WINDOW_MISMATCH (02 R32, R33, 13 R315). -/
def State.doAccPart (s : State) (c t k : Nat) (w : Int) (sums : List (Nat × Int)) (flags : List (Nat × Nat)) (tid : Nat) :
    State :=
  let l := (s.core c).lane
  if l.win k != w then
    if (s.core c).xfer.tids.any (fun o => o.tid == tid && o.mismatch) then s
    else (s.logArrival c (some tid) .windowMismatch (intBits 10 w)).updTid c tid (fun o => { o with mismatch := true })
  else
    let l := flags.foldl (fun l p =>
      { l with acc := Tab.upd Acc.zero l.acc (64 * k + p.1) (fun a => a.orFlags (Acc.ofBits 0 p.2)) }) l
    let (l, bad) := sums.foldl (fun (q : Lane × List Nat) p =>
      let (l', b) := q.1.addTo k p.1 p.2 Acc.zero
      (l', if b then q.2 ++ [p.1] else q.2)) (l, [])
    let s := s.updLane c (fun _ => l)
    bad.foldl (fun s j => s.laneResidue c j false t) s

/-- XORs bytes into the scratchpad; the row is read, a faulty word delivers nothing (05 R109, R110; 13 R319). -/
def State.doXor (s : State) (c addr : Nat) (bs : List Byte) : State :=
  let sp := (s.core c).sp
  if sp.rowBad (addr / 64) then s.spFault c (addr / 64)
  else s.updSp c (fun m => (m.correct [addr / 64]).write addr ((sp.mem.read addr bs.length).zipWith (· ^^^ ·) bs))

/-- Adds FP32 elements into the scratchpad, each rounded to nearest-even (08 R198, 13 R318). -/
def State.doFadd (s : State) (c addr : Nat) (bs : List Byte) : State :=
  let sp := (s.core c).sp
  if sp.rowBad (addr / 64) then s.spFault c (addr / 64)
  else
    let old := sp.mem.read addr bs.length
    let sum (i : Nat) : List Byte := leBytes 4 (fAdd .ne (fieldN old (4 * i) 4) (fieldN bs (4 * i) 4)).1
    s.updSp c (fun m => (m.correct [addr / 64]).write addr ((List.range (bs.length / 4)).flatMap sum))

/-- The commit of a completed transfer; one that no longer fits is dropped and logged as an arrival (05 R103; DESIGN CHOICE, log entry
93). -/
def State.doArrCommit (s : State) (c t reg_ n tid : Nat) : State :=
  if ((s.core c).sp.circAt reg_).commitFails t n then s.logArrival c (some tid) .regionFull n
  else if n = 0 then s
  else s.advanceTail c t reg_ n

/-- Marks an open transfer complete. -/
def State.tidComplete (s : State) (c tid : Nat) : State :=
  s.updXfer c (fun x => { x with tids := x.tids.map (fun o => if o.tid == tid then { o with complete := true } else o) })

/-- Writes rows from a row on. -/
def SPad.writeRows (m : SPad) : Nat → List (List Byte) → SPad
  | _, [] => m
  | r, b :: bs => SPad.writeRows (m.writeRow r b) (r + 1) bs

/-- What a result in flight does when it lands in tick t on core c. -/
def State.applyEff (s : State) (c t : Nat) : LandEff → State
  | .restring set => s.doRestring c t set
  | .bowTake op g fail rel rows e => s.bowTake c t op g fail rel rows e
  | .gather op g set e => s.doGather c t op g set e
  | .accClear k w => s.updLane c (fun l => l.clear k w)
  | .accRestore k w accs => s.updLane c (fun l => l.restore k w accs)
  | .accAdd k terms bow => s.doAccAdd c t k terms bow
  | .vreg v first elems => s.updVec c (fun x => { x with regs := Tab.setList 0 x.regs (64 * v + first) elems })
  | .rows row bytes => s.updSp c (fun m => m.write (64 * row) bytes)
  | .rowList rows => s.updSp c (fun m => rows.foldl (fun m p => m.writeRow p.1 p.2) m)
  | .ws addr bytes => s.updWs c (fun w => w.write addr bytes)
  | .vprog o i e => s.vprogVec c t o i e
  | .rowRead r => s.doRowRead c t r
  | .rowRun r => s.doRowRun c t r
  | .release q n e => s.doRelease c t q n e e.source e.opcode
  | .commit q n e => s.doCommit c t q n e e.source e.opcode
  | .setFlag f v => s.updCtl c (fun k => { k with flags := Tab.set 0 k.flags f v })
  | .incFlag f => s.addFlag c f 1
  | .signalFlag f _ => s.addFlag c f 1
  | .decFlag f e =>
    let v := Tab.get 0 (s.core c).ctl.flags f
    if v = 0 then s.logEntry c e .flagUnderflow f
    else s.updCtl c (fun k => { k with flags := Tab.set 0 k.flags f (v - 1) })
  | .tidDone tid => s.tidComplete c tid
  | .wsRows rows => s.updWs c (fun w => w.writeRows rows)
  | .bytes addr bs => (s.updSp c (fun m => m.write addr bs)).use t c c 3 none [.rowWrite (addr / 64)]
  | .xorBytes addr bs => (s.doXor c addr bs).use t c c 3 none [.rowWrite (addr / 64)]
  | .fadd addr bs => (s.doFadd c addr bs).use t c c 3 none [.rowWrite (addr / 64)]
  | .accPart k w sums flags tid => s.doAccPart c t k w sums flags tid
  | .arrCommit q n tid => s.doArrCommit c t q n tid

/-! ### Time -/

/-- Lands the results due up to key `k`, oldest first; each landing may put further ones in flight. -/
def State.drainLandings (s : State) (k : Nat) : Nat → State
  | 0 => s
  | n + 1 =>
    match s.landings with
    | [] => s
    | l :: ls =>
      if l.key ≤ k then State.drainLandings (({ s with landings := ls }).applyEff l.core (l.key / 2) l.eff) k n else s

/-- Landings that one call may handle: every chain in flight ends within the rows of a scratchpad. -/
def landFuel (s : State) : Nat := (s.landings.length + 1) * 8192

/-! ### Conflicts (09 R211 to R215) -/

/-- The ports, banks and links that an access needs: a kind, the core or the near end, the bank or the far end. -/
def Use.ports (u : Use) : List (Nat × Nat × Nat) :=
  match u.what with
  | .rowRead r => [(0, u.core, r % 32)]
  | .rowWrite r => [(1, u.core, r % 32)]
  | .wsBank b => [(2, u.core, b)]
  | .wsAll => (List.range 64).map (fun b => (2, u.core, b))
  | .regWrite _ => [(3, u.core, 0)]
  | .link a b _ _ _ => [(4, a, b)]
  | .lane a b => [(5, a, b)]
  | _ => []

/-- Two notes of one access: an instruction's own, or the shared read of an on-die row and its multicast (05 R95, R97; 09 R213). -/
def Use.same (u v : Use) : Bool :=
  u.what == v.what && u.core == v.core &&
    match u.what with
    | .link .. => true
    | .lane .. => false
    | _ => u.entry == v.entry || (u.onDie && v.onDie)

/-- Accesses of scheduled parties in the present tick, each once, in the order in which they are served (04 Table 4.5, 05 Table 5.1, 06
R117, 09 R213). -/
def State.usesNow (s : State) : List Use :=
  let now := s.clk.uses.filter (fun u => u.tick == s.clk.tick && u.entry.isSome)
  sortBy (fun a b => decide (a.order ≤ b.order)) (now.foldl (fun l u => if l.any (Use.same u) then l else l ++ [u]) [])

/-- The accesses at one port, bank or link. -/
def atPort (us : List Use) (p : Nat × Nat × Nat) : List Use := us.filter (fun u => u.ports.contains p)

/-- Deferrals that accesses at one place need: every access beyond the first, eight SIGNALs counting as one (12 R307). -/
def deferrals (us : List Use) (p : Nat × Nat × Nat) : Nat :=
  (if p.1 = 5 then ceilDiv (atPort us p).length 8 else (atPort us p).length) - 1

/-- The largest number of deferrals that any place needs in the present tick (R211). -/
def State.conflictCost (s : State) : Nat :=
  let us := s.usesNow
  (us.flatMap Use.ports).foldl (fun m p => max m (deferrals us p)) 0

/-- Held cycles planned for package tick t, the largest of them (R211, R212, R215). -/
def State.conflictAt (s : State) (t : Nat) : Nat :=
  s.clk.conflicts.foldl (fun m (p : Nat × Nat) => if p.1 = t then max m p.2 else m) 0

/-- Held cycles that conflicts put behind the present tick (R211, R215). -/
def State.conflictHold (s : State) : Nat := max (s.conflictAt s.clk.tick) s.conflictCost

/-! ### The hazard detector (09 R229, R230) -/

/-- The program offset of the instruction that makes an access. -/
def Use.offset (u : Use) : W32 := match u.entry with | some e => e.offset.setWidth 32 | none => 0xFFFFFFFF

/-- The scheduled step tick of the instruction that makes an access; the largest where none does. -/
def Use.sched (u : Use) : Nat := match u.entry with | some e => e.tick | none => 2 ^ 64

/-- What a write overwrites: row r, 8,192 + register, 16,384 + accumulator index. -/
def Access.written : Access → Option Nat
  | .rowWrite r => some r | .regWrite v => some (8192 + v) | .accWrite k => some (16384 + k) | _ => none

/-- What a read reads, where a program has to write it first (05 R108, 06 R114). -/
def Access.readTarget : Access → Option Nat
  | .rowRead r => some r | .regRead v => some (8192 + v) | _ => none

/-- The row that an access names. -/
def Access.row : Access → Option Nat
  | .rowRead r => some r | .rowWrite r => some r | _ => none

/-- Whether an access reads what an open transfer writes (08 R180, 09 R218): the rows that its cells reach so far, or its index. -/
def OpenTid.covers (o : OpenTid) (m : SPad) (a : Access) : Bool :=
  let rows (n : Nat) : List Nat := match o.rows.reg with
    | none => (List.range n).map (o.rows.pos + ·)
    | some q => ringRows (m.circAt q) o.rows.pos n
  match a, o.form with
  | .accRead k, .acc k' => k == k'
  | .rowRead r, .fast => (rows 4).contains r
  | .rowRead r, .hostrd => (rows o.want).contains r
  | .rowRead r, .kdlook => (rows (ceilDiv o.want 8)).contains r
  | .rowRead r, .data => (rows (ceilDiv (o.total.getD o.rcvd) 2)).contains r
  | .rowRead r, .xor => (rows (ceilDiv (o.total.getD o.rcvd) 2)).contains r
  | _, _ => false

/-- The hazards of one access of the present tick, after those before it in `earlier`: code and the other instruction's offset (Table 9.9). -/
def State.hazardsOf (s : State) (earlier : List Use) (u : Use) : List (Nat × W32) :=
  let x := s.core u.core
  let all := s.clk.uses.filter (fun v => v.core == u.core)
  let trail (t : Nat) : Option Trail := x.trail.find? (fun p => p.target == t)
  let first (l : List Use) (code : Nat) : List (Nat × W32) := match l with | v :: _ => [(code, v.offset)] | [] => []
  let acc : List (Nat × W32) := match u.what with
    | .accRead k => first (all.filter (fun v => v.what == .accAdd k && decide (s.clk.tick ≤ v.tick))) 0x02
    | _ => []
  let reg : List (Nat × W32) := match u.what with
    | .regRead v => first (all.filter (fun w => w.what == .regWrite v && decide (s.clk.tick ≤ w.tick) && decide (w.sched < u.sched))) 0x04
    | _ => []
  let unwritten : List (Nat × W32) := match u.what.readTarget with
    | some t => if (trail t).isNone then [(0x05, 0xFFFFFFFF)] else []
    | none => []
  let early : List (Nat × W32) := match x.xfer.tids.find? (fun o => o.covers x.sp u.what) with
    | some o => [(0x06, o.offset.setWidth 32)]
    | none => []
  let writes : List (Nat × W32) := match u.what.written, u.entry with
    | some t, some _ =>
      first (earlier.filter (fun v => v.core == u.core && v.entry.isSome && v.what.written == some t)) 0x07 ++
        (match trail t with
          | some p => if t < 16384 ∧ u.sched < p.sched then [(0x08, p.offset)] else []
          | none => [])
    | _, _ => []
  let window : List (Nat × W32) := match u.what.row with
    | some r => first (all.filter (fun v => v.what == .window r && v.entry != u.entry &&
        (match v.entry with | some e => decide (x.ctl.s0 + e.tick ≤ s.clk.tick) | none => false))) 0x09
    | none => []
  let stale : List (Nat × W32) := match u.what with
    | .rowWrite r => if s.clk.previews.any (fun p => p.core == u.core && (r == p.row || r == p.row + 1)) then [(0x0A, 0xFFFFFFFF)] else []
    | _ => []
  acc ++ reg ++ unwritten ++ early ++ writes ++ window ++ stale

/-- The writes of the present tick go into a core's trail. -/
def State.noteTrail (s : State) (u : Use) : State :=
  match u.what.written with
  | some t => s.updCore u.core (fun x => { x with
      trail := x.trail.filter (fun p => p.target != t) ++ [⟨t, u.sched, u.offset, s.clk.tick⟩] })
  | none => s

/-- The conflicts of the present tick, once for each pair of instructions: the one that is served first and the one that is deferred. -/
def State.conflictPairs (s : State) : List (Use × Use) :=
  let us := s.usesNow
  let pairs := ((us.flatMap Use.ports).eraseDups).flatMap (fun p =>
    let l := atPort us p
    if deferrals us p = 0 then [] else match l with
      | a :: rest => (rest.filter (fun v => v.entry != a.entry)).map (fun v => (a, v))
      | [] => [])
  pairs.foldl (fun l p => if l.any (fun q => q.1.entry == p.1.entry && q.2.entry == p.2.entry) then l else l ++ [p]) []

/-- The detector looks at the accesses of the present tick (R230). It changes neither timing nor bits. -/
def State.detect (s : State) : State :=
  if s.dbg.en then
    let now := s.clk.uses.filter (fun u => u.tick == s.clk.tick && (match u.what with | .window _ => false | _ => true))
    let s' := s.conflictPairs.foldl (fun s p => s.hazard 0x01 p.2.by_ p.2.entry p.1.offset) s
    let s' := (now.zipIdx).foldl (fun t p =>
      (s.hazardsOf (now.take p.2) p.1).foldl (fun t h => t.hazard h.1 p.1.by_ p.1.entry h.2) t) s'
    now.foldl (fun s u => s.noteTrail u) s'
  else s

/-! ### The counter -/

/-- The word at an offset of the image that a core runs, as a tick delta (08 Table 8.1). -/
def State.deltaAt (s : State) (c off : Nat) : Nat :=
  match (s.programOf c).words[off]? with | some w => bitsN w.toNat 19 8 | none => 0

/-- The program offset of the word behind the ENDLOOP that closes the skipped body: `depth` further loops are open at `off`. -/
def afterLoop : Nat → Nat → Nat → List W64 → Nat
  | 0, off, _, _ => off
  | _ + 1, off, _, [] => off
  | n + 1, off, depth, w :: ws =>
    if w.toNat % 256 = 0x02 then afterLoop n (off + 1) (depth + 1) ws
    else if w.toNat % 256 = 0x03 then (if depth = 0 then off + 1 else afterLoop n (off + 1) (depth - 1) ws)
    else afterLoop n (off + 1) depth ws

/-- The frontier of a control core: the scheduled step tick of the oldest word that it has not finished decoding, none after HALT. A
word held for its full queue counts as decoded (07 R154, R156). -/
def State.frontier (s : State) (c : Nat) : Option Nat :=
  let k := (s.core c).ctl
  let next : Nat := match k.stalled with | i :: _ => (wordDelta i).toNat | [] => s.deltaAt c k.offset.toNat
  match k.dec with
  | .halted => none
  | .waiting _ _ t => some t
  | .held _ _ => some (k.cursor + next)
  | .decoding => some (k.cursor + next)
  | .skipping d =>
    let ws := (s.programOf c).words
    some (k.cursor + s.deltaAt c (afterLoop (ws.length + 1) k.offset.toNat d (ws.drop k.offset.toNat)))

/-- The slots whose step runs on this package. -/
def State.running (s : State) : List Nat := (s.steps.filter (fun (p : Nat × StepRun) => p.2.phase == .running)).map (·.1)

/-- A late item still binds the counter in a clock cycle: it has not arrived, or less than 8 cycles before (09 R210). -/
def LateItem.binds (l : LateItem) (cycle : Nat) : Bool := match l.arrived with | none => true | some a => decide (cycle < a + 8)

/-- The last tick that the counter may reach in the next cycle: a late item checked at tick a lets ticks a + 1 to a + 7 run (09 R210),
a decided frequency change lets T0 − 1 run (R214), and a planned hold stops the counter. -/
def State.limit (s : State) : Option Nat :=
  let ch := match s.clk.change with | some (t0, _) => [t0 - 1] | none => []
  let hold := if s.clk.holds.isEmpty then [] else [s.clk.tick]
  let late := (s.clk.late.filter (fun l => l.binds (s.now + 1))).map (fun l => l.checkTick + 7)
  (late ++ ch ++ hold).foldl (fun m x => match m with | none => some x | some y => some (min x y)) none

/-- Whether the counter may pass to tick t. -/
def State.mayReach (s : State) (t : Nat) : Bool :=
  match s.limit with | none => true | some m => t ≤ max m s.clk.tick

/-- The parts of a nanosecond in which station time is kept: every multiplier of REFCLK from 6 to 24 divides a tenth of
this number, and 10^9 divides it for rates in parts per 10^9. -/
def stationUnit : Nat := 5354228880 * 10 ^ 9

/-- This package is the source of station time of its torus: the coordinator (21 R495). -/
def State.isSource (s : State) : Bool := s.net.coordinator == s.place && !s.spare

/-- Parts per 10^9 by which station time runs fast: the source by RATE_ADJ, any other by the rate of its parent (21 R497). -/
def State.stationRate (s : State) : Int := if s.isSource then s.sync.rateAdj else s.sync.rate

/-- Station time runs for one clock cycle of the frequency step in force, held or not, while the fabric island is clocked; an offset is
removed at up to 200 ppm beyond the rate (21 R497, R499; 09 Table 9.0). -/
def State.passTime (s : State) : State :=
  if s.power.railFabric && s.clk.refclk then
    let mult := max 1 (s.power.freqStep.getD s.clk.fstep (6, 600)).1
    let cycle := 10 * 5354228880 / mult
    let most : Int := cycle * 200000
    let move := max (-most) (min most s.sync.slew)
    let part := s.sync.part + (((10 ^ 9 : Int) + s.stationRate) * cycle + move).toNat
    { s with
      station := (s.station + part / stationUnit) % 2 ^ 64
      sync := { s.sync with slew := s.sync.slew - move, part := part % stationUnit } }
  else s

end Sys2Proof.Machine
end

