-- ==== Sys2Proof/Machine/VecFx.lean ====
section
/-! DEFINITION. Issue of a timed instruction (08 R173) and the effects of the vector instructions (06, 08 R184, R185). -/

namespace Sys2Proof.Machine

/-- What an instruction issues with: its core, the package tick of its scheduled tick, its queue entry. -/
structure Ctx where
  core : Nat
  tick : Nat
  entry : QEntry
  deriving DecidableEq, Repr

/-- The captured registers. -/
def Ctx.regs (x : Ctx) : Tab W32 := x.entry.regs

/-- The issue slots (03 Table 3.4, 06 Table 6.2, 08 Table 8.10). -/
inductive SlotId where
  | restring | swap | bow | accumulator | memory | element | reduction | control | local | out | into | service
  deriving DecidableEq, Repr

/-- Index of a slot in a core's occupancy table. -/
def SlotId.idx : SlotId → Nat
  | .restring => 0 | .swap => 1 | .bow => 2 | .accumulator => 3 | .memory => 4 | .element => 5 | .reduction => 6
  | .control => 7 | .local => 8 | .out => 9 | .into => 10 | .service => 11

/-- Whether a slot is held in the tick of issue. -/
def State.slotHeld (s : State) (x : Ctx) (sl : SlotId) : Bool := x.tick < Tab.get 0 (s.core x.core).busy sl.idx

/-- Holds a free slot for `occ` ticks (08 R173, R186); a held slot stays as it is. -/
def State.takeSlot (s : State) (x : Ctx) (sl : SlotId) (occ : Nat) : State :=
  if s.slotHeld x sl then s
  else s.updCore x.core (fun k => { k with busy := Tab.set 0 k.busy sl.idx (x.tick + occ) })

/-- The register and accumulator operands that an instruction reads in its issue tick (06 Table 6.3; 02 R34); a VPROG reads vector i of
its sources i ticks later. -/
def operandReads : Instr → List Access
  | .vst _ _ _ v _ _ => [.regRead v.toNat]
  | .vcvt _ _ o =>
    if o.sk then [.accRead (o.s.toNat % 16)]
    else if o.dk && o.sfmt == 10 then (List.range 5).map (fun i => .regRead (o.s.toNat + i))
    else [.regRead o.s.toNat]
  | .vperm _ _ _ a i _ _ _ => [.regRead a.toNat, .regRead i.toNat]
  | .vredInit _ _ _ v k ws _ _ => if k == 6 || ws then [.regRead v.toNat] else []
  | .vredAcc _ _ _ v _ _ _ _ _ _ => [.regRead v.toNat]
  | .vredMerge _ _ _ v => [.regRead v.toNat]
  | .vredSmout _ _ _ _ v _ => [.regRead v.toNat]
  | .vscan _ _ _ v _ _ _ _ _ => [.regRead v.toNat]
  | .vtopkAcc _ _ v _ _ => [.regRead v.toNat]
  | .vtopkMerge _ _ v => [.regRead v.toNat, .regRead (v.toNat + 1)]
  | .window _ _ _ ws _ v _ => if ws then [.regRead v.toNat] else []
  | .drain _ _ k _ _ _ _ => [.accRead k.toNat]
  | .sendacc _ _ k _ _ _ _ => [.accRead k.toNat]
  | _ => []

/-- Issue in a slot: the slot is taken, the first failing check is logged and skips the instruction, otherwise it has
its effect (08 R173). -/
def State.issueIn (s : State) (x : Ctx) (sl : SlotId) (occ : Nat) (fails : List Fail) (eff : State → State) : State :=
  match pickFail (fails ++ [failIf (s.slotHeld x sl) .slotBusy 0]) with
  | some (r, d) => (s.takeSlot x sl occ).logEntry x.core x.entry r d
  | none => eff ((s.takeSlot x sl occ).use x.tick x.core x.core 0 (some x.entry) (operandReads x.entry.instr))

/-- The scratchpad of the issuing core. -/
def State.spOf (s : State) (x : Ctx) : SPad := (s.core x.core).sp

/-- A format code that is no format, or not accepted by `ok` (02 R21). -/
def fmtFail (code : BitVec 4) (ok : Fmt → Bool) : Fail :=
  match Fmt.ofCode code.toNat with
  | some f => failIf (!ok f) .formatPair code.toNat
  | none => some (.formatPair, code.toNat)

/-- A register result: the register reads it from tick `usable` on (06 R116); `prio` orders the write port (R117). -/
def State.landReg (s : State) (x : Ctx) (usable prio v first : Nat) (es : List W32) : State :=
  (s.landEnd (usable - 1) prio x.core (.vreg v first es)).use (usable - 1) x.core x.core prio (some x.entry) [.regWrite v]

/-- The reads and writes of a VPROG by vector (06 Table 6.3): package tick and what is read or written. -/
def vprogUses (t n : Nat) (o : VprogOp) : List (Nat × List Access) :=
  (List.range (o.r.toNat + 1)).flatMap (fun i =>
    let src (k : BitVec 2) (r : BitVec 5) : List Access := if k = 0 then [] else [.regRead (r.toNat + i)]
    [(t + i, src o.k0 o.s0 ++ src o.k1 o.s1 ++ src o.k2 o.s2), (t + i + 2 * n - 1, [.regWrite (o.vd.toNat + i)])])

/-- VLD (06 R119). -/
def State.fxVld (s : State) (x : Ctx) (row : Sr) (vd : BitVec 5) (n : BitVec 2) (rls : BitVec 3) : State :=
  let sp := s.spOf x
  let (at_, f) := resolveSr sp x.regs row (n.toNat + 1)
  s.issueIn x .memory 1 [f, checkRelease sp x.regs row rls] (fun s =>
    match at_.rows.find? sp.rowBad with
    | some r => s.spFault x.core r
    | none =>
      let s := (s.updSp x.core (fun m => m.correct at_.rows)).use x.tick x.core x.core 2 (some x.entry) (at_.rows.map .rowRead)
      let s := s.landReg x (x.tick + 3) 21 vd.toNat 0 (elemsOf (at_.rows.flatMap sp.row))
      if rls = 0 then s else s.landEnd x.tick 30 x.core (.release row.reg.toNat (cnt x.regs rls) x.entry))

/-- VST (06 R119). -/
def State.fxVst (s : State) (x : Ctx) (row : Sr) (vs : BitVec 5) (n : BitVec 2) (cmt : BitVec 3) : State :=
  let sp := s.spOf x
  let (at_, f) := resolveSr sp x.regs row (n.toNat + 1)
  s.issueIn x .memory 1 [f, checkCommit sp x.regs row cmt] (fun s =>
    let img := imageOf ((s.core x.core).vec.reg vs.toNat)
    let s := s.landEnd x.tick 10 x.core
      (.rowList ((at_.rows.zipIdx).map (fun p => (p.1, sliceB img (64 * p.2) 64))))
    let s := s.use x.tick x.core x.core 1 (some x.entry) (at_.rows.map .rowWrite)
    if cmt = 0 then s else s.landEnd x.tick 31 x.core (.commit row.reg.toNat (cnt x.regs cmt) x.entry))

/-- VFILL (06 R119). -/
def State.fxVfill (s : State) (x : Ctx) (vd : BitVec 5) (imm : W32) : State :=
  s.issueIn x .memory 1 [] (fun s => s.landReg x (x.tick + 1) 21 vd.toNat 0 (List.replicate 64 imm))

/-- VPROG (06 R121). -/
def State.fxVprog (s : State) (x : Ctx) (o : VprogOp) : State :=
  let past (k : BitVec 2) (r : BitVec 5) : Bool := k ≠ 0 && 31 < r.toNat + o.r.toNat
  let has := (s.core x.core).vec.progs.any (·.1 == o.p.toNat)
  s.issueIn x .element (o.r.toNat + 1)
    [failIf (31 < o.vd.toNat + o.r.toNat) .badField o.vd.toNat, failIf (past o.k0 o.s0) .badField o.s0.toNat,
     failIf (past o.k1 o.s1) .badField o.s1.toNat, failIf (past o.k2 o.s2) .badField o.s2.toNat,
     failIf (!has) .badField o.p.toNat]
    (fun s =>
      let n := (((s.core x.core).vec.progs.find? (·.1 == o.p.toNat)).map (·.2.ops.length)).getD 0
      ((vprogUses x.tick n o).foldl (fun s u => s.use u.1 x.core x.core 22 (some x.entry) u.2) s).vprogVec x.core x.tick o 0 x.entry)

/-- VCVT (06 R125 to R129, 08 R185). -/
def State.fxVcvt (s : State) (x : Ctx) (o : VcvtOp) : State :=
  let v := (s.core x.core).vec
  let l := (s.core x.core).lane
  let rmF := failIf ((RM.ofCode o.rm.toNat).isNone) .badRound o.rm.toNat
  let rm := (RM.ofCode o.rm.toNat).getD .ne
  let lacc : BitVec 4 := 10
  let k := o.s.toNat % 16
  let kd := o.d.toNat % 16
  let notLacc (f : Fmt) : Bool := f != .lacc
  let sf := (Fmt.ofCode o.sfmt.toNat).getD .fp32
  let df := (Fmt.ofCode o.dfmt.toNat).getD .fp32
  let dstBad := (o.dsc ≠ 0 && !scalable df) || (o.dsc = 2 && !o.dlay) || o.dsc = 3 || (o.dsc = 1 && o.imm = 0xFF)
  let srcBad := srcScaleBad o.ssc.toNat sf o.slay
  let draw (n : Nat) : Nat := if rm == .st then s.draw x.core x.regs 2 0 n else 0
  match o.sk, o.dk with
  | false, false =>
    s.issueIn x .element 1
      [fmtFail o.sfmt notLacc, fmtFail o.dfmt notLacc, rmF, failIf srcBad .badField o.ssc.toNat,
       failIf dstBad .badField o.dsc.toNat]
      (fun s =>
        let es := v.reg o.s.toNat
        let vals := (List.range 64).map (srcVal es sf o.slay (srcScales o.ssc.toNat o.imm es))
        let (raw, sw, fl) := convertAll df rm draw o.sat o.dsc.toNat o.imm false vals
        let s := s.orStatus x.core (vecMask fl)
        let s := s.feed x.core x.regs 0 false raw
        s.landReg x (x.tick + 2) 22 o.d.toNat 0 (packRaw df o.dlay raw sw))
  | true, false =>
    if o.sfmt = lacc && o.dfmt = lacc then
      s.issueIn x .element 1
        [rmF, failIf (27 < o.d.toNat) .badField o.d.toNat, failIf (o.ssc ≠ 0) .badField o.ssc.toNat,
         failIf (o.dsc ≠ 0) .badField o.dsc.toNat] (fun s =>
        if l.readBad k then s.accResidue x.core k
        else
          let accs := (List.range 64).map (l.accAt k)
          let s := s.feed x.core x.regs 0 true (accs.map digestInt)
          let word (i : Nat) : List W32 :=
            if i < 4 then accs.map (fun a => a.words.getD i 0) else accs.map (ctrlWord (l.win k))
          (List.range 5).foldl (fun s i => s.landReg x (x.tick + 3 + i) 22 (o.d.toNat + i) 0 (word i)) s)
    else
      s.issueIn x .element 1
        [failIf (o.sfmt ≠ lacc) .formatPair o.sfmt.toNat, fmtFail o.dfmt notLacc, rmF,
         failIf (o.ssc ≠ 0) .badField o.ssc.toNat, failIf dstBad .badField o.dsc.toNat]
        (fun s =>
          if l.readBad k then s.accResidue x.core k
          else
            let vals := (List.range 64).map (fun j => accVal (l.win k) (l.accAt k j))
            let (raw, sw, fl) := convertAll df rm draw o.sat o.dsc.toNat o.imm true vals
            let s := s.orStatus x.core (exitMask fl)
            let s := s.feed x.core x.regs 0 false raw
            s.landReg x (x.tick + 3) 22 o.d.toNat 0 (packRaw df o.dlay raw sw))
  | false, true =>
    if o.sfmt = lacc then
      let ctl (j : Nat) : Nat := (v.elem (o.s.toNat + 4) j).toNat
      let past := 27 < o.s.toNat
      let mixed := (List.range 64).any (fun j => ctl j % 1024 != ctl 0 % 1024)
      s.issueIn x .element 1
        [failIf (o.dfmt ≠ lacc) .formatPair o.dfmt.toNat, rmF, failIf past .badField o.s.toNat,
         failIf (o.ssc ≠ 0) .badField o.ssc.toNat, failIf (o.dsc ≠ 0) .badField o.dsc.toNat, failIf (!past && mixed) .windowMismatch k]
        (fun s =>
          let accs := (List.range 64).map (fun j =>
            let w (i : Nat) : Nat := (v.elem (o.s.toNat + i) j).toNat
            Acc.ofBits (BitVec.ofNat 128 (w 0 + w 1 * 2 ^ 32 + w 2 * 2 ^ 64 + w 3 * 2 ^ 96)) (ctl j / 1024))
          (s.landEnd (x.tick + 3) 2 x.core (.accRestore kd (winOf (ctl 0)) accs)).use (x.tick + 3) x.core x.core 0 (some x.entry)
            [.accWrite kd])
    else
      s.issueIn x .element 1
        [fmtFail o.sfmt notLacc, failIf (o.dfmt ≠ lacc) .formatPair o.dfmt.toNat, rmF,
         failIf srcBad .badField o.ssc.toNat, failIf (o.dsc ≠ 0) .badField o.dsc.toNat]
        (fun s =>
          let es := v.reg o.s.toNat
          let terms := (List.range 64).map (fun j => [(srcVal es sf o.slay (srcScales o.ssc.toNat o.imm es) j).toTerm])
          s.landEnd (x.tick + 3) 3 x.core (.accAdd kd terms none))
  | true, true => s.issueIn x .element 1 [some (.formatPair, o.dfmt.toNat), rmF] (fun s => s)

/-- VPERM (06 R130). -/
def State.fxVperm (s : State) (x : Ctx) (vd vs vi : BitVec 5) (vl : BitVec 7) (fsel : Bool) (freg : BitVec 5) : State :=
  let n := vl.toNat
  s.issueIn x .element 1 [failIf (n = 0 || 64 < n) .badField n] (fun s =>
    let v := (s.core x.core).vec
    let fill : W32 := if fsel then reg x.regs freg.toNat else 0
    let idx (j : Nat) : Nat := (v.elem vi.toNat j).toNat
    let out := (List.range 64).map (fun j =>
      if n ≤ j then fill else if idx j < n then v.elem vs.toNat (idx j) else fill)
    let oor := (List.range n).any (fun j => n ≤ idx j)
    let s := s.orStatus x.core (StatusBit.permOor.mask oor)
    s.landReg x (x.tick + 2) 22 vd.toNat 0 out)

/-! ### Reductions -/

/-- A reduction state. -/
def State.redOf (s : State) (x : Ctx) (q : BitVec 3) : Red := Recs.get Red.empty (s.core x.core).vec.red q.toNat

/-- Writes a reduction state. -/
def State.setRed (s : State) (x : Ctx) (q : BitVec 3) (r : Red) : State :=
  s.updVec x.core (fun v => { v with red := Recs.put v.red q.toNat r })

/-- An FP32 pattern of a finite value. -/
def finiteF32 (b : W32) : Bool := match f32 b.toNat with | .num _ _ _ => true | _ => false

/-- VRED INIT (06 R132, R139; 08 Table 8.8). -/
def State.fxVredInit (s : State) (x : Ctx) (q : BitVec 3) (v : BitVec 5) (kind : BitVec 3) (wsrc : Bool) (w : BitVec 10)
    (elem : BitVec 6) : State :=
  let vec := (s.core x.core).vec
  let we := (vec.elem v.toNat elem.toNat).toInt
  let wv : Int := if wsrc then we else w.toInt
  let c := vec.elem v.toNat 0
  let d := vec.elem v.toNat 1
  let cOk := finiteF32 c && decide ((0 : Int) < (cmpKey c.toNat).getD 0)
  s.issueIn x .reduction 1
    [failIf (kind = 0 || kind = 7) .badField kind.toNat,
     failIf (kind = 1 && (wv < -512 || 511 < wv)) .badField (we % 2 ^ 32).toNat,
     failIf (kind = 6 && !(cOk && finiteF32 d)) .badField c.toNat]
    (fun s => s.setRed x q { Red.empty with
      kind := kind.toNat, w := if kind = 1 then wv else if kind = 6 then -92 else 0
      c := if kind = 6 then c else 0, d := if kind = 6 then d else 0 })

/-- VRED ACC (06 R132 to R135, R139). -/
def State.fxVredAcc (s : State) (x : Ctx) (q : BitVec 3) (v : BitVec 5) (e : BitVec 6) (fmt : BitVec 4) (lay : Bool)
    (ssc : BitVec 2) (imm : BitVec 8) (base : BitVec 4) : State :=
  let r := s.redOf x q
  let es := (s.core x.core).vec.reg v.toNat
  let n := e.toNat + 1
  let b := (reg x.regs base.toNat).toNat
  let f := (Fmt.ofCode fmt.toNat).getD .fp32
  let isSum := r.kind == 1
  s.issueIn x .reduction 1
    [if isSum then fmtFail fmt (fun f => f != .lacc)
     else failIf (r.kind != 0 && r.kind != 5 && fmt ≠ 8) .formatPair fmt.toNat,
     failIf (isSum && srcScaleBad ssc.toNat f lay || !isSum && ssc ≠ 0) .badField ssc.toNat,
     failIf (r.kind == 4 && decide (2 ^ 24 ≤ b + e.toNat)) .badField b,
     failIf (r.kind == 0 || r.kind == 5) .kind q.toNat]
    (fun s =>
      if isSum then
        let vals := (List.range n).map (srcVal es f lay (srcScales ssc.toNat imm es))
        let terms := vals.map Val.toTerm
        let r := (({ r with acc := r.acc.addTerms r.w terms }).see n)
        s.setRed x q { r with nan := r.nan || vals.any (· == Val.nan) }
      else
        let vs := es.take n
        let r' := (vs.zipIdx).foldl (fun r p => r.accElem p.1 (b + p.2)) r
        let anyNan := vs.any (fun v => rankKey v.toNat == none)
        (s.setRed x q r').orStatus x.core (StatusBit.vnan.mask anyNan))

/-- VSCAN (02 R36, 06 R135). -/
def State.fxVscan (s : State) (x : Ctx) (q : BitVec 3) (vs : BitVec 5) (e : BitVec 6) (fmt : BitVec 4) (lay : Bool)
    (ssc : BitVec 2) (imm : BitVec 8) : State :=
  let r := s.redOf x q
  let es := (s.core x.core).vec.reg vs.toNat
  let f := (Fmt.ofCode fmt.toNat).getD .fp32
  let n := e.toNat + 1
  s.issueIn x .reduction 1
    [fmtFail fmt (fun f => f != .lacc), failIf (srcScaleBad ssc.toNat f lay) .badField ssc.toNat,
     failIf (r.kind != 5) .kind q.toNat]
    (fun s =>
      let vals := (List.range n).map (srcVal es f lay (srcScales ssc.toNat imm es))
      let special := vals.any (fun v => match v with | .num _ _ _ => false | _ => true)
      let r' := { r with
        exp := (vals.filterMap Val.exp).foldl max r.exp, special := r.special || special
        nan := r.nan || vals.any (· == Val.nan) }
      (s.setRed x q (r'.see n)).orStatus x.core (StatusBit.special.mask special))

/-- VRED MERGE (06 R137). -/
def State.fxVredMerge (s : State) (x : Ctx) (q : BitVec 3) (v : BitVec 5) : State :=
  let r := s.redOf x q
  let p := Red.ofRecord ((s.core x.core).vec.reg v.toNat)
  s.issueIn x .reduction 1
    [failIf (r.kind == 6 && p.kind == 6 && (r.c ≠ p.c || r.d ≠ p.d)) .badField p.c.toNat,
     failIf (r.kind == 0 || r.kind != p.kind || r.sumPhase != p.sumPhase) .kind p.kind,
     failIf (r.kind == 1 && p.kind == 1 && r.w != p.w) .windowMismatch (intBits 32 p.w)]
    (fun s => s.setRed x q (r.merge p))

/-- VRED PHASE (06 R139, step 2). -/
def State.fxVredPhase (s : State) (x : Ctx) (q : BitVec 3) : State :=
  let r := s.redOf x q
  s.issueIn x .reduction 1 [failIf (r.kind != 6 || r.sumPhase) .kind q.toNat]
    (fun s => s.setRed x q { r with sumPhase := true, acc := Acc.zero, w := -92 })

/-- VRED OUT (06 R134, R137, R139). -/
def State.fxVredOut (s : State) (x : Ctx) (q : BitVec 3) (v : BitVec 5) (rm : BitVec 3) : State :=
  let r := s.redOf x q
  let m := (RM.ofCode rm.toNat).getD .ne
  s.issueIn x .reduction 1
    [failIf (r.kind == 1 && (RM.ofCode rm.toNat).isNone) .badRound rm.toNat]
    (fun s =>
      let u := if m == .st then s.draw x.core x.regs 4 0 0 else 0
      let (b, fl) := roundOut .fp32 m u false 0 (accVal r.w r.acc)
      let s := if r.kind == 1 then s.orStatus x.core (exitMask fl) else s
      let s := if r.kind == 6 then s.orStatus x.core
          (StatusBit.rowNan.mask (r.lseClass == 1) ||| StatusBit.rowEmpty.mask (r.lseClass == 2)) else s
      let rec_ := r.record b
      let s := s.feed x.core x.regs 0 false [(rec_.getD 5 0).toNat]
      s.landReg x (x.tick + 4) 23 v.toNat 0 rec_)

/-- VRED SMOUT (06 R139, R140). -/
def State.fxVredSmout (s : State) (x : Ctx) (q : BitVec 3) (v vs : BitVec 5) (e : BitVec 6) : State :=
  let r := s.redOf x q
  s.issueIn x .reduction 1 [failIf (r.kind != 6 || !r.sumPhase) .kind q.toNat]
    (fun s =>
      let es := (s.core x.core).vec.reg vs.toNat
      let cl := r.lseClass
      let rinv := r.rinv
      let p (w : W32) : Nat := match cl with
        | 1 => Fmt.fp32.nanBits
        | 2 => 0
        | 3 => if w = 0x7F800000 then rinv else 0
        | _ => rn2 fMul (lseU r.c.toNat r.m w.toNat) rinv
      let out := (es.zipIdx).map (fun a => if a.2 ≤ e.toNat then BitVec.ofNat 32 (p a.1) else 0)
      let s := s.orStatus x.core (StatusBit.rowNan.mask (cl == 1) ||| StatusBit.rowEmpty.mask (cl == 2))
      s.landReg x (x.tick + 8) 23 v.toNat 0 out)

/-- VTOPK INIT (06 R132, R136). -/
def State.fxVtopkInit (s : State) (x : Ctx) (k : BitVec 6) : State :=
  s.issueIn x .reduction 1 [] (fun s => s.updVec x.core (fun v => { v with topkK := k.toNat + 1, topk := [] }))

/-- VTOPK ACC (06 R133, R136). -/
def State.fxVtopkAcc (s : State) (x : Ctx) (v : BitVec 5) (e : BitVec 6) (base : BitVec 4) : State :=
  let b := (reg x.regs base.toNat).toNat
  let vec := (s.core x.core).vec
  s.issueIn x .reduction 2
    [failIf (decide (2 ^ 24 ≤ b + e.toNat)) .badField b]
    (fun s =>
      let vs := (vec.reg v.toNat).take (e.toNat + 1)
      let kept := (vs.zipIdx).foldl (fun l p =>
        if rankKey p.1.toNat == none then l else topkInsert vec.topkK p.1 (b + p.2) l) vec.topk
      let s := s.updVec x.core (fun v => { v with topk := kept })
      s.orStatus x.core (StatusBit.vnan.mask (vs.any (fun w => rankKey w.toNat == none))))

/-- VTOPK MERGE (06 R136, R137): padding entries are ignored. -/
def State.fxVtopkMerge (s : State) (x : Ctx) (v : BitVec 5) : State :=
  let vec := (s.core x.core).vec
  s.issueIn x .reduction 1 [failIf (31 ≤ v.toNat) .badField v.toNat]
    (fun s =>
      let vals := (vec.reg v.toNat).zip (vec.reg (v.toNat + 1))
      let kept := vals.foldl (fun l p =>
        if p.2 = 0xFFFFFFFF || rankKey p.1.toNat == none then l else topkInsert vec.topkK p.1 p.2.toNat l) vec.topk
      (s.updVec x.core (fun v => { v with topk := kept })).orStatus x.core
        (StatusBit.vnan.mask (vals.any (fun p => p.2 ≠ 0xFFFFFFFF && rankKey p.1.toNat == none))))

/-- VTOPK OUT (06 R136). -/
def State.fxVtopkOut (s : State) (x : Ctx) (v : BitVec 5) : State :=
  let vec := (s.core x.core).vec
  s.issueIn x .reduction 1 [failIf (31 ≤ v.toNat) .badField v.toNat]
    (fun s =>
      let pad := vec.topk ++ List.replicate (64 - vec.topk.length) ((0xFF800000 : W32), (0xFFFFFFFF : W32))
      let s := s.landReg x (x.tick + 4) 23 v.toNat 0 (pad.map (·.1))
      s.landReg x (x.tick + 5) 23 (v.toNat + 1) 0 (pad.map (·.2)))

end Sys2Proof.Machine
end

