-- ==== Sys2Proof/Machine/LaneFx.lean ====
section
/-! DEFINITION. The effects of the lane instructions (03; 08 R181 to R183). -/

namespace Sys2Proof.Machine

/-- A restring (03 R48, R49, R69; 04 R78, R86). -/
def State.fxRestring (s : State) (x : Ctx) (block : Wb) (fmt : BitVec 4) (l : BitVec 6) (trans : Bool) : State :=
  let ws := (s.core x.core).ws
  let (b, f) := resolveWb x.regs block
  let r := ws.record b
  s.issueIn x .restring 1
    [failIf (!isWeight fmt.toNat || (trans && fmt = 6)) .formatPair fmt.toNat,
     failIf (trans && b < wsBlocks && !r.square) .scaleMode b, f, checkKind ws b 1]
    (fun s =>
      if ws.blockBad b then s.wsFault x.core b
      else
        (((s.updWs x.core (fun w => w.correct b)).landStart (x.tick + 4) 0 x.core
          (.restring (mkTuneSet b (ws.block b) r fmt trans (l.toNat + 1)))).use x.tick x.core x.core 1 (some x.entry)
          [.wsAll]).use (x.tick + 4) x.core x.core 0 (some x.entry) [.tuneWrite])

/-- SWAPT (03 R50). -/
def State.fxSwapt (s : State) (x : Ctx) : State :=
  s.issueIn x .swap 1 [] (fun s => s.updLane x.core (fun l => { l with activeB := !l.activeB }))

/-- The address of a scale pair under SSRC 1 (08 Table 8.6). -/
def scaleAddr (regs : Tab W32) (scale : BitVec 8) : Nat := (reg regs (scale.toNat % 16)).toNat

/-- A scale pair's address is too high (03 R69, 08 R183). -/
def scaleFail (regs : Tab W32) (ssrc : Bool) (scale : BitVec 8) : Fail :=
  failIf (ssrc && 393214 < scaleAddr regs scale) .badAddress (scaleAddr regs scale)

/-- BOW (03 R57 to R61). Checks that need the active set are made when the set is taken, at the end of the tick, and before the operand's
words count as read. A BF16 bow with SSRC 1 reads its scale pair too, although it has no scale (03 R57; DESIGN CHOICE, log entry 93). -/
def State.fxBow (s : State) (x : Ctx) (data : Sr) (k : BitVec 4) (nib : Bool) (e : BitVec 6) (afmt : BitVec 2)
    (ssrc : Bool) (scale : BitVec 8) (rls : BitVec 3) : State :=
  let sp := s.spOf x
  let (at_, f) := resolveSr sp x.regs data 1
  let bf := afmt = 3
  let fail := pickFail [failIf (bf && 31 < e.toNat) .badField (e.toNat + 1), f, checkRelease sp x.regs data rls,
    scaleFail x.regs ssrc scale, failIf (s.slotHeld x .bow) .slotBusy 0]
  let s := s.takeSlot x .bow (if bf then 2 else 1)
  let a := scaleAddr x.regs scale
  let op : BowOp :=
    { k := k.toNat, nib := nib, e := e.toNat + 1, afmt := afmt
      scale0 := if ssrc then sp.mem.byte a else scale, scale1 := if ssrc then sp.mem.byte (a + 1) else scale
      data := sp.row (at_.rows.headD 0) }
  let rows := at_.rows ++ (if ssrc then [a / 64, (a + 1) / 64] else [])
  let rel := if rls = 0 then none else some (data.reg.toNat, cnt x.regs rls)
  match fail with
  | some _ => s.landEnd x.tick 0 x.core (.bowTake op none fail rel [] x.entry)
  | none => s.landEnd x.tick 0 x.core (.bowTake op none none rel rows x.entry)

/-- The accesses per bank that a preview planned for the BOWG due in a tick; 64 without one (09 R212). -/
def State.plannedFor (s : State) (c t : Nat) : Nat :=
  match s.clk.previews.find? (fun p => p.core == c && (s.core c).ctl.s0 + p.tick == t) with
  | some p => p.m
  | none => 64

/-- BOWG (03 R62, R63). -/
def State.fxBowg (s : State) (x : Ctx) (list : Sa) (base : BitVec 4) (k : BitVec 4) (nib : Bool) (e : BitVec 6)
    (afmt : BitVec 2) (ssrc : Bool) (scale : BitVec 8) : State :=
  let sp := s.spOf x
  let (row, f) := resolveSa x.regs list 2
  let fail := pickFail [failIf (afmt = 3) .formatPair 3, f, scaleFail x.regs ssrc scale,
    failIf (s.slotHeld x .bow) .slotBusy 0]
  let s := s.takeSlot x .bow 2
  let op : BowOp :=
    { k := k.toNat, nib := nib, e := e.toNat + 1, afmt := afmt, scale0 := scale, scale1 := scale, data := [] }
  let g : Gather := ⟨reg x.regs base.toNat, sp.row row, row + 1,
    if ssrc then some (scaleAddr x.regs scale) else none, s.plannedFor x.core x.tick⟩
  match fail with
  | some _ => s.landEnd x.tick 0 x.core (.bowTake op (some g) fail none [] x.entry)
  | none => s.landEnd x.tick 0 x.core (.bowTake op (some g) none none [row] x.entry)

/-- ZACC (02 R27). -/
def State.fxZacc (s : State) (x : Ctx) (k : BitVec 4) : State :=
  s.issueIn x .accumulator 1 [] (fun s =>
    (s.landEnd x.tick 1 x.core (.accClear k.toNat none)).use x.tick x.core x.core 0 (some x.entry) [.accWrite k.toNat])

/-- WINDOW (02 R27, 08 R183). -/
def State.fxWindow (s : State) (x : Ctx) (k : BitVec 4) (wsrc : Bool) (w : BitVec 10) (vs : BitVec 5) (elem : BitVec 6) :
    State :=
  let ve := (s.core x.core).vec.elem vs.toNat elem.toNat
  let wv : Int := if wsrc then ve.toInt else w.toInt
  s.issueIn x .accumulator 1 [failIf (wv < -512 || 511 < wv) .badField ve.toNat]
    (fun s => (s.landEnd x.tick 1 x.core (.accClear k.toNat (some wv))).use x.tick x.core x.core 0 (some x.entry)
      [.accWrite k.toNat])

/-- The targets of DRAIN (02 R37). -/
def drainTarget (f : Fmt) : Bool := f == .fp32 || f == .bf16 || f == .fp16 || f == .int32

/-- DRAIN (02 R37 to R41, 03 R66, R67). -/
def State.fxDrain (s : State) (x : Ctx) (k : BitVec 4) (vd : BitVec 5) (fmt : BitVec 4) (rm : BitVec 3) (clr : Bool) :
    State :=
  let m := (RM.ofCode rm.toNat).getD .ne
  let f := (Fmt.ofCode fmt.toNat).getD .fp32
  s.issueIn x .accumulator 1 [fmtFail fmt drainTarget, failIf (RM.ofCode rm.toNat).isNone .badRound rm.toNat]
    (fun s =>
      let l := (s.core x.core).lane
      if l.readBad k.toNat then s.accResidue x.core k.toNat
      else
        let outs := (List.range 64).map (fun j =>
          let u := if m == .st then s.draw x.core x.regs 1 0 j else 0
          roundOut f m u false 0 (accVal (l.win k.toNat) (l.accAt k.toNat j)))
        let vals := outs.map (·.1)
        let s := s.orStatus x.core (exitMask (RFlags.all (outs.map (·.2))))
        let s := s.feed x.core x.regs 0 false vals
        let s := s.landReg x (x.tick + 3) 20 vd.toNat 0 (vals.map (BitVec.ofNat 32))
        if clr then (s.landEnd x.tick 1 x.core (.accClear k.toNat none)).use x.tick x.core x.core 0 (some x.entry) [.accWrite k.toNat]
        else s)

end Sys2Proof.Machine
end

