-- ==== Sys2Proof/Machine/LoadOps.lean ====
section
/-! DEFINITION. The on-arrival converter: LZ4 decoding, formed blocks, verification and placement of chunks, the release of
layers (17 R382 to R388, R391). -/

namespace Sys2Proof.Machine

/-! ### LZ4 block format (R382, step 3) -/

/-- Copies n bytes from `off` bytes back; the output is held last byte first. -/
def lz4Copy : Nat → Nat → List Byte → List Byte
  | 0, _, out => out
  | n + 1, off, out => lz4Copy n off ((out[off - 1]?.getD 0) :: out)

/-- A length whose four bits were 15 goes on in further bytes while they are 255. -/
def lz4Length : List Byte → Nat → Option (Nat × List Byte)
  | [], _ => none
  | b :: l, n => if b = 255 then lz4Length l (n + 255) else some (n + b.toNat, l)

/-- The length of a nibble. -/
def lz4Field (nib : Nat) (l : List Byte) : Option (Nat × List Byte) := if nib = 15 then lz4Length l 15 else some (nib, l)

/-- Decodes the sequences; the last one ends after its literals. `none`: a malformed sequence. -/
def lz4Decode : Nat → List Byte → List Byte → Option (List Byte)
  | 0, _, _ => none
  | _ + 1, [], _ => none
  | fuel + 1, t :: l, out =>
    match lz4Field (t.toNat / 16) l with
    | none => none
    | some (n, l) =>
      if l.length < n then none
      else
        let out := (l.take n).reverse ++ out
        let l := l.drop n
        match l with
        | [] => some out.reverse
        | o0 :: o1 :: l =>
          let off := o0.toNat + 256 * o1.toNat
          match lz4Field (t.toNat % 16) l with
          | none => none
          | some (m, l) => if off = 0 ∨ out.length < off then none else lz4Decode fuel l (lz4Copy (m + 4) off out)
        | [_] => none

/-! ### Forming blocks (R383, R384) -/

/-- The block's shape for a format: outputs and inputs. -/
def tileOf (f : Fmt) : Nat × Nat :=
  if f.width = 4 then (128, 64) else if f.width = 16 then (64, 32) else (64, 64)

/-- The scale byte of an element of a block (04 Table 4.2). -/
def scaleSlot (square : Bool) (o i : Nat) : Nat :=
  if square then 4 * (o / 64) + 2 * (o % 64 / 32) + i / 32 else 2 * o + i / 32

/-- One element of a target with the scale of its group (R384, 06 R128). -/
def quantise (f : Fmt) (sc : Nat) (v : Val) : Nat :=
  (convert f .ne 0 true (match v with | .num n m e => .num n m (e - ((sc : Int) - 127)) | v => v)).1

/-- A formed block of an 8-bit or 4-bit target: data, then record bytes 4 to 263. `el o i` is the element of output o and
input i of the block. -/
def formQuant (f : Fmt) (square : Bool) (el : Nat → Nat → Val) : List Byte :=
  let (no, ni) := tileOf f
  let cells := (List.range no).flatMap (fun o => (List.range ni).map (fun i => (o, i)))
  let used := if square then (if no = 128 then 8 else 4) else 2 * no
  let scales := (List.range used).map (fun n =>
    (autoScale f ((cells.filter (fun p => scaleSlot square p.1 p.2 == n)).map (fun p => el p.1 p.2))).1)
  let q (o i : Nat) : Nat := quantise f (scales.getD (scaleSlot square o i) 127) (el o i)
  let data := (List.range 64).flatMap (fun r => (List.range 64).map (fun c =>
    BitVec.ofNat 8 (if no = 128 then q r c + 16 * q (r + 64) c else q r c)))
  data ++ [BitVec.ofNat 8 (b01 square), 0, 0, 0] ++ scales.map (BitVec.ofNat 8) ++ List.replicate (256 - used) 0x7F

/-- A formed block of a BF16 target: the tile's bytes, Scheme 0 and unused scales. `el o i` is the element's code. -/
def formCopy (el : Nat → Nat → Nat) : List Byte :=
  (List.range 64).flatMap (fun r => (List.range 32).flatMap (fun c => leBytes 2 (el r c))) ++ [0, 0, 0, 0] ++
    List.replicate 256 0x7F

/-- The blocks of a decoded chunk, or a reason of Table 17.5 (R383, R384). -/
def Chunk.form (k : Chunk) (raw : List Byte) : Except Nat (List (List Byte)) :=
  if k.formed then
    let bs := (List.range k.blocks).map (fun n => sliceB raw (4356 * n) 4356)
    if bs.any (fun b => 1 < fieldN b 4096 1 || fieldN b 4097 3 != 0) then .error 5 else .ok bs
  else
    let f := (Fmt.ofCode k.dfmt).getD .bf16
    let (no, ni) := tileOf f
    let outs := k.rb * no
    let ins := k.cb * ni
    let code (o i : Nat) : Nat := fieldN raw (2 * (if k.transpose then i * outs + o else o * ins + i)) 2
    let el (o i : Nat) : Val := Fmt.bf16.decode (code o i)
    let bad := (List.range (outs * ins)).any (fun n => match Fmt.bf16.decode (fieldN raw (2 * n) 2) with
      | .num .. => false | _ => true)
    if bad then .error 4
    else .ok ((List.range k.blocks).map (fun n =>
      let br := n / max 1 k.cb
      let bc := n % max 1 k.cb
      if f == .bf16 then formCopy (fun o i => code (br * no + o) (bc * ni + i))
      else formQuant f k.square (fun o i => el (br * no + o) (bc * ni + i))))

/-- The blocks that a chunk's encoded bytes give, or a reason (R382, steps 1 to 4 without the placed hash). -/
def Chunk.decode (k : Chunk) (enc : List Byte) : Except Nat (List (List Byte)) :=
  if enc.length ≠ k.encLen then .error 1
  else if Config.sha512 enc ≠ k.srcHash then .error 2
  else match (if k.enc = 1 then lz4Decode (enc.length + 1) enc [] else some enc) with
    | none => .error 3
    | some raw => if raw.length ≠ k.rawLen then .error 3 else k.form raw

/-! ### Placement -/

/-- Writes a formed block: 4,096 data bytes and record bytes 4 to 263 (17 R383). -/
def WStore.writeFormed (w : WStore) (b : Nat) (bs : List Byte) : WStore :=
  let r : BlockRec := { crc := 0, square := fieldN bs 4096 1 == 1, scales := Tab.setList 0x7F [] 0 (sliceB bs 4100 256) }
  { w with records := Recs.put w.records b r }.write (4096 * b) (sliceB bs 0 4096)

/-- The formed blocks of a chunk as they stand in its core (17 R385). -/
def State.formedBytes (s : State) (k : Chunk) : List Byte :=
  match s.physOf k.core with
  | none => []
  | some c => (List.range k.blocks).flatMap (fun i =>
      (s.core c).ws.block (k.first + i) ++ ((s.core c).ws.record (k.first + i)).body)

/-- A block holds its bits and its record again (R87): the bank rows of an uncorrectable block are to take spare rows (R89). -/
def State.restored (s : State) (c b : Nat) : State :=
  s.updWs c (fun w => { w with
    bad := w.bad.filter (· != b)
    errs := w.errs.filter (fun e => e.1 / 512 != b)
    recErrs := w.recErrs.filter (fun e => e.1 / 33 != b)
    spareDue := if w.blockBad b then w.spareDue ++ ((List.range 64).map (64 * b + ·)).filter (fun r => !w.spareDue.contains r)
      else w.spareDue })

/-- Raises LOAD_STALLED (Table 18.8). -/
def State.loadStalled (s : State) (g i reason : Nat) : State :=
  (s.raise 0 ⟨0x0020, 1, (s.group g).id, 0, s.station, s.chunkDetail g i reason⟩).updSwap g
    (fun w => { w with stalled := some (i, reason) })

/-- A chunk's attempt has failed: it is requested again, or its third failure stalls the activity (R382). -/
def State.chunkFailed (s : State) (g i reason stream : Nat) : State :=
  match (s.group g).swap.chunk i with
  | none => s
  | some k =>
    let s := s.updChunk g i (fun k => { k with held := none })
    if k.attempts < 3 then s.requestChunk g i stream else s.loadStalled g i reason

/-- A chunk is converted and written; it is usable once its placed hash has passed (R382, step 4). -/
def State.writeChunk (s : State) (g i stream : Nat) (enc : List Byte) : State :=
  match (s.group g).swap.chunk i with
  | none => s
  | some k =>
    match k.decode enc, s.physOf k.core with
    | .error r, _ => s.chunkFailed g i r stream
    | .ok _, none => s
    | .ok bs, some c =>
      if (List.range k.blocks).any (fun n => (s.core c).ws.kindOf (k.first + n) != 1) then
        (s.serviceRefused c (k.first)).chunkFailed g i 6 stream
      else
      let s := (bs.zipIdx).foldl (fun s b => s.updWs c (fun w => w.writeFormed (k.first + b.2) b.1)) s
      if Config.sha512 bs.flatten = k.placedHash then
        ((List.range k.blocks).foldl (fun s n => s.restored c (k.first + n)) s).updChunk g i
          (fun k => { k with verified := true, held := none })
      else s.chunkFailed g i 6 stream

/-- A chunk may be written: no swap holds its layer back, or the layer has been released on its core (R388, R391). -/
def State.chunkFree (s : State) (g : Nat) (k : Chunk) : Bool :=
  let w := (s.group g).swap
  w.phase == .none || w.releasedAll ||
    (match s.physOf k.core with | some c => w.released.contains (c, k.layer) | none => false)

/-- Chunks held verified are written once their layer is released. -/
def State.flushHeld (s : State) (g : Nat) : State :=
  ((s.group g).swap.chunks.zipIdx).foldl (fun s p =>
    match p.1.held with
    | some enc => if s.chunkFree g p.1 then s.writeChunk g p.2 p.1.stream enc else s
    | none => s) s

/-- Requests chunks in ascending layer order, and within a layer in chunk order, while one of the four buffers is free; of a
layer that is not released at most four (R387, R388). -/
def State.fetchChunks (s : State) (g : Nat) : State :=
  let order := sortBy (fun a b => decide (a.1.layer ≤ b.1.layer)) (s.group g).swap.chunks.zipIdx
  order.foldl (fun s p =>
    let w := (s.group g).swap
    let used := s.groups.foldl (fun n (q : Nat × Group) => n + (q.2.swap.chunks.filter Chunk.buffered).length) 0
    if p.1.attempts = 0 ∧ !p.1.verified ∧ w.stalled.isNone ∧ used < 4 then
      s.requestChunk g p.2 s.freeStream
    else s) s

/-! ### Chunk streams (R386) -/

/-- Transfers of 65,536 bytes that an encoded chunk takes. -/
def Chunk.transfers (k : Chunk) : Nat := ceilDiv k.encLen 65536

/-- The slot and chunk that a stream's transfer belongs to: requested from a server, still awaited (R176, R386). -/
def State.streamChunk (s : State) (tid : Nat) : Option (Nat × Nat) :=
  (List.range 16).findSome? (fun g =>
    if (s.group g).loadSrc.toNat % 2 = 1 then
      ((s.group g).swap.chunks.findIdx? (fun k =>
        k.buffered && k.held.isNone && k.stream == tid / 64 && decide (tid % 64 < k.transfers))).map (fun i => (g, i))
    else none)

/-- A cell of a transfer. -/
def StreamIn.put (x : StreamIn) (index : Nat) (last : Bool) (payload : List Byte) : StreamIn :=
  { x with cells := x.cells ++ [(index, payload)], total := if last then some (index + 1) else x.total }

/-- The transfer is complete by count (12 R296). -/
def StreamIn.met (x : StreamIn) : Bool := x.total == some x.cells.length

/-- Its bytes, cell by cell. -/
def StreamIn.bytes (x : StreamIn) : List Byte :=
  (List.range x.cells.length).flatMap (fun i => match x.cells.find? (fun c => c.1 == i) with | some c => c.2 | none => [])

/-- The transfers of a stream that have come. -/
def State.stream (s : State) (g n : Nat) : List StreamIn := (s.group g).swap.inbox.filter (fun x => x.tid / 64 == n)

/-- The bytes of a chunk are there: they are checked, and written unless its layer is still to be released (R382, R388). -/
def State.chunkArrived (s : State) (g i stream : Nat) (k : Chunk) (data : List Byte) : State :=
  if data.length ≠ k.encLen then s.chunkFailed g i 1 stream
  else if Config.sha512 data ≠ k.srcHash then s.chunkFailed g i 2 stream
  else if s.chunkFree g k then (s.writeChunk g i stream data).fetchChunks g
  else s.updChunk g i (fun k => { k with held := some data })

/-- A cell on BLK to CORE 0x1FF of a requested stream goes to the converter; the chunk's last transfer to complete makes the chunk
whole (R386). The bytes of its last cell beyond ENCLEN are dropped; a number of cells that ENCLEN does not take is a LENGTH failure. -/
def State.chunkCell (s : State) (cell : Cell) (g i : Nat) : State :=
  let t := cell.tid.toNat
  let s := s.updSwap g (fun w => { w with
    inbox := if w.inbox.any (fun x => x.tid == t) then w.inbox
      else w.inbox ++ [⟨t, [], none⟩] })
  let s := s.updSwap g (fun w => { w with
    inbox := w.inbox.map (fun x => if x.tid == t then x.put cell.index.toNat cell.last cell.payload else x) })
  match (s.group g).swap.chunk i with
  | none => s
  | some k =>
    let l := s.stream g k.stream
    if (List.range k.transfers).all (fun n => l.any (fun x => x.tid % 64 == n && x.met)) then
      let data := (List.range k.transfers).flatMap (fun n =>
        match l.find? (fun x => x.tid % 64 == n) with | some x => x.bytes | none => [])
      let data := if data.length = 32 * ceilDiv k.encLen 32 then data.take k.encLen else data
      let s := s.updSwap g (fun w => { w with inbox := w.inbox.filter (fun x => x.tid / 64 != k.stream) })
      s.chunkArrived g i k.stream k data
    else s

/-- Releases a layer on a core in the LAST_OLD step of a swap (R391). -/
def State.releaseLayer (s : State) (g c layer : Nat) : State :=
  let w := (s.group g).swap
  if w.lastOldRunning && !(w.released.contains (c, layer)) then
    ((s.updSwap g (fun w => { w with released := w.released ++ [(c, layer)] })).flushHeld g).fetchChunks g
  else s

/-- RELEASE_ALL (R391). -/
def State.releaseEvery (s : State) (g : Nat) : State :=
  ((s.updSwap g (fun w => { w with releasedAll := true })).flushHeld g).fetchChunks g

end Sys2Proof.Machine
end

