-- ==== Sys2Proof/Machine/CtlFx.lean ====
section
/-! DEFINITION. The effects of the timed control instructions (07 R159 to R162, R169; 08 R180; 10 R252; 17 R391;
20 R460). -/

namespace Sys2Proof.Machine

/-- SETF (07 R159): lands first in its cycle (R160). -/
def State.fxSetf (s : State) (x : Ctx) (flag : BitVec 6) (value : BitVec 8) : State :=
  s.issueIn x .control 1 [] (fun s => s.landEnd x.tick 41 x.core (.setFlag flag.toNat value))

/-- INCF (07 R159). -/
def State.fxIncf (s : State) (x : Ctx) (flag : BitVec 6) : State :=
  s.issueIn x .control 1 [] (fun s => s.landEnd x.tick 42 x.core (.incFlag flag.toNat))

/-- DECF (07 R159): it sees the increments of its cycle (R160), so its check is made there. -/
def State.fxDecf (s : State) (x : Ctx) (flag : BitVec 6) : State :=
  s.issueIn x .control 1 [] (fun s => s.landEnd x.tick 43 x.core (.decFlag flag.toNat x.entry))

/-- Whether a destination word stays on the issuing package: LOCAL, or its coordinate and pod are the package's own. -/
def State.destHere (s : State) (w : W32) : Bool := destLocal w || destPlace w == s.place

/-- A destination word that no package of the torus answers to (08 R176). -/
def State.destFail (s : State) (w : W32) : Fail :=
  failIf (destReserved w != 0 || (!destLocal w && !s.placeOk (destPlace w))) .badDest w.toNat

/-- The physical core of a logical number named on the issuing package: BAD_TARGET where there is none (07 R161, 08
R179), PARTITION where it lies in another partition (19 R439). -/
def State.targetFail (s : State) (c l : Nat) : Fail :=
  match s.physOf l with
  | none => some (.badTarget, l)
  | some d => failIf (s.partOf d != s.partOf c) .partition l

/-- SIGNAL (07 R161, R162): to another package as a CTL cell whose payload carries the step number and, as the spec does not say where,
whose TID the flag (log entry 97). -/
def State.fxSignal (s : State) (x : Ctx) (flag : BitVec 6) (dreg : BitVec 4) : State :=
  let w := reg x.regs dreg.toNat
  if s.destHere w then
    s.issueIn x .control 1 [failIf (destReserved w != 0) .badDest w.toNat, s.targetFail x.core (destCore w)] (fun s =>
      match s.physOf (destCore w) with
      | some d =>
        (meshLinks x.core d (x.tick + 1)).foldl (fun s l => s.use l.1 x.core x.core (s.logical x.core) (some x.entry) [.lane l.2.1 l.2.2])
          (s.landEnd (x.tick + 2 + meshHops x.core d + 6 * meshCrossings x.core d) 42 d (.signalFlag flag.toNat x.core))
      | none => s)
  else
    s.issueIn x .control 1 [s.destFail w] (fun s => s.emit x.core [
      mkCell w s.place (destCore w) 1 0 0 (s.tenantOf x.core) (flag.setWidth 12) 0 1 .signal (leBytes 8 (s.stepOf x.core).num.toNat)])

/-- EXPECT (08 R180): closes the id; what the transfer delivered may be used. -/
def State.fxExpect (s : State) (x : Ctx) (tid : BitVec 12) : State :=
  s.issueIn x .control 1 [failIf (!((s.core x.core).xfer.tids.any (·.tid == tid.toNat))) .tidUnknown tid.toNat]
    (fun s => s.updXfer x.core (fun k => { k with tids := k.tids.filter (·.tid != tid.toNat) }))

/-- The layer that a mark names (17 R391). -/
def layerOfMark (m : Nat) : Option Nat := if 0xF000 ≤ m then some (m - 0xF000) else none

/-- A step ends with REPLAY_STOPPED on this package, and its program state is kept (10 R252); the other members are told
(07 R164). -/
def State.stopReplay (s : State) (g : Nat) : State :=
  let r := s.step' g
  let m := { s.endReport g with status := StepStatus.replayStopped.code }
  let s := s.closeStep g .replayStopped true
  if (s.group g).lead then s.ctl (.stop g r.num m.status) else s.ctl (.finished g r.num s.budgetNow m)

/-- The replay stop of debug mode: this mark for its occurrence holds the package, and the step ends with the tick (10 R252). -/
def State.replayStop (s : State) (x : Ctx) (mark : BitVec 16) : State :=
  let d := s.dbg
  if s.dbg.en && d.stopEn && mark == d.stopMark && s.logical x.core == d.stopCore && (s.stepOf x.core).replay then
    let n := (s.core x.core).ctl.markSeen + 1
    let s := s.updCtl x.core (fun k => { k with markSeen := n })
    if n = d.stopOcc then
      match s.slotOf x.core with
      | some g => (s.updStep g (fun r => { r with stopDue := true })).addHold .replayStop
      | none => s.addHold .replayStop
    else s
  else s

/-- MARK (07 R169), with the marks that open idle slots (20 R460), release layers (17 R391) and stop a replay. -/
def State.fxMark (s : State) (x : Ctx) (mark : BitVec 16) : State :=
  s.issueIn x .control 1 [] (fun s =>
    let m := mark.toNat
    let s := s.updCtl x.core (fun k => { k with lastMark := mark, lastMarkTick := BitVec.ofNat 32 x.entry.tick })
    let s := if s.dbg.en then s.addTrace ⟨BitVec.ofNat 32 x.entry.tick, x.entry.offset, 0x0A,
        BitVec.ofNat 16 (x.core + 512 * 3), 0, mark.setWidth 32⟩ else s
    let s := if 0xEE00 ≤ m ∧ m ≤ 0xEEFF then
        s.updDet x.core (fun d => { d with idleUntil := x.tick + 4096 * (m - 0xEE00 + 1) }) else s
    let s := match layerOfMark m, s.slotOf x.core with
      | some l, some g => s.releaseLayer g x.core l
      | _, _ => s
    s.replayStop x mark)

end Sys2Proof.Machine
end

