-- ==== Sys2Proof/Machine/Arrive.lean ====
section
/-! DEFINITION. Arrivals of cells at their cores (08 R176, R188, R195, R198, R201; 12 R296, R297; 13 R314 to R319;
19 R439; 20 R468), and transfer completion. -/

namespace Sys2Proof.Machine

/-- Counts a cell as unroutable at the port by which it came (12 R290). -/
def State.countUnroutable (s : State) (port : Nat) : State := { s with unroutable := Tab.upd 0 s.unroutable port (· + 1) }

/-- A SECURITY event for PF0 and a partition (19 Table 19.7). -/
def State.security (s : State) (p code : Nat) : State :=
  s.raiseTo p ⟨0x0040, 2, 0, 0, s.station, BitVec.ofNat 64 code⟩

/-- The destination's handling of a DISCARD notice: an entry that names the step, which is stopped (20 R468). -/
def State.discardHere (s : State) (core tid : Nat) : State :=
  match s.physOf core with
  | some d => s.coreFault d 0x0033 6 1 0xFFFF (tid + 4096 * core)
  | none => s.logFault 0x0033 6 1 none 0 0xFFFF 0xFFFF (tid + 4096 * core)

/-- A package discards a cell on SCH, REQ or RSP: one entry, unless another entry covers it, and one notice in any 1 ms
for a destination core and transfer id (20 R468). -/
def State.noteDiscard (s : State) (port : Nat) (reason : Option (BitVec 16)) (cell : Cell) : State :=
  let c := cell.core.toNat
  let t := cell.tid.toNat
  if cell.vc.toNat == 0 || cell.vc.toNat == 2 || cell.vc.toNat == 3 then
    if s.notices.any (fun (n : Nat × Nat × Nat) => n.1 == c && n.2.1 == t && s.station < n.2.2 + 1000000) then s
    else
      let s := { s with notices := (s.notices.filter (fun (n : Nat × Nat × Nat) => s.station < n.2.2 + 1000000)) ++ [(c, t, s.station)] }
      let s := match reason with
        | some r => s.logFault r 6 1 none 0 (if port < 8 then BitVec.ofNat 16 (0x8000 + port) else 0xFFFF) 0xFFFF (t + 4096 * c)
        | none => s
      if cell.dest == s.place then s.discardHere c t
      else { s with out := { s.out with ctl := s.out.ctl ++ [CtlMsg.discard cell.dest cell.core cell.tid] } }
  else s

/-- A cell that no correct sender sends: discarded, logged with TRANSFER_SIZE, reported as a link-class fault (12 R297). The record names
the open id that the cell belongs to, if it belongs to one (08 R201). -/
def State.excessCell (s : State) (c : Nat) (opened : Option Nat) (x : InCell) : State :=
  (s.logArrival c opened .transferSize x.cell.index.toNat).noteDiscard x.port (some 0x0031) x.cell

/-- The counts of R296 after a cell, or none where R297 discards it: RCVD, TOTAL. -/
def countCell (rcvd : Nat) (total : Option Nat) (cell : Cell) : Option (Nat × Option Nat) :=
  match total with
  | some t => if cell.last || t ≤ cell.index.toNat || t < rcvd + 1 then none else some (rcvd + 1, total)
  | none => if cell.last then some (rcvd + 1, some (cell.index.toNat + 1)) else some (rcvd + 1, none)

/-- The scratchpad row of row r of a transfer, or why it cannot be written now (05 R106, 08 R198). -/
inductive RowTarget where
  | row (n : Nat)
  | past
  | wait (reg : Nat)
  deriving DecidableEq, Repr

/-- Where row r of a transfer opened with `ref` lies. -/
def rowTarget (m : SPad) (ref : RowRef) (r : Nat) : RowTarget :=
  match ref.reg with
  | none => if spRows ≤ ref.pos + r then .past else .row (ref.pos + r)
  | some q =>
    let d := m.circAt q
    if d.size = 0 then .past
    else
      let off := (ref.pos + d.size - d.tail) % d.size + r
      if ref.tail && d.size - d.count ≤ off then .wait q
      else .row (d.base + (ref.pos + r) % d.size)

/-- A cell waits for room or for its id to open (05 R106, 08 R188). -/
def State.holdCell (s : State) (c : Nat) (x : InCell) : State :=
  s.updXfer c (fun k => { k with waiting := k.waiting ++ [x] })

/-- A cell whose row lies beyond the room of region q waits, and sets OVERRUN (05 R106). -/
def State.holdOver (s : State) (c q : Nat) (x : InCell) : State :=
  (s.holdCell c x).updSp c (fun m => { m with circ := Recs.put m.circ q { m.circAt q with overrun := true } })

/-- What an arriving cell writes: the effect for a row target. -/
def kindEff (k : CellKind) (addr : Nat) (bs : List Byte) : LandEff :=
  match k with | .xor => .xorBytes addr bs | .fast => .fadd addr bs | _ => .bytes addr bs

/-- A cell of rows (RECV forms 0 and 3): half row INDEX mod 2 of row INDEX div 2 (11 R270, 13 R319). -/
def State.takeRowCell (s : State) (c : Nat) (o : OpenTid) (x : InCell) (n : Nat × Option Nat) : State :=
  let cell := x.cell
  let r := cell.index.toNat / 2
  let count (s : State) : State := s.updTid c o.tid (fun o => { o with rcvd := n.1, total := n.2 })
  match rowTarget (s.core c).sp o.rows r with
  | .row row =>
    (count s).landEnd s.clk.tick 13 c (kindEff cell.kind (64 * row + 32 * (cell.index.toNat % 2)) cell.payload)
  | .past =>
    let s := if cell.index.toNat % 2 = 0 then s.logArrival c (some o.tid) .badAddress (o.rows.pos + r) else s
    count s
  | .wait q => s.holdOver c q x

/-! ### Contributions (13) -/

/-- FORM of a head. -/
def headForm (h : List Byte) : Nat := fieldN h 2 1
/-- W of a head. -/
def headW (h : List Byte) : Int := winOf (fieldN h 0 2 % 1024)
/-- The cell total of Table 13.1 for a FORM. -/
def formTotal (f : Nat) : Nat := if f = 0 then 19 else if f = 1 then 35 else 9

/-- A head with a reserved FORM or a nonzero reserved field, or one whose FORM the operation does not send
(13 R310, R317). -/
def headBad (h : List Byte) (k : CellKind) : Bool :=
  let f := headForm h
  2 < f || (fieldN h 0 2 / 1024 != 0) || (f == 2 && fieldN h 0 2 != 0) || (f != 0 && fieldN h 3 1 != 0) ||
    127 < fieldN h 3 1 || fieldN h 4 1 / 64 != 0 || fieldN h 5 3 != 0 || fieldN h 12 4 != 0 ||
    fieldN h 16 8 / 2 ^ 61 != 0 || fieldN h 24 8 != 0 || (k == .fast) != (f == 2)

/-- A signed little-endian value of n bytes. -/
def signedLe (bs : List Byte) (o n : Nat) : Int :=
  let v := fieldN bs o n
  if v < 2 ^ (8 * n - 1) then (v : Int) else (v : Int) - 2 ^ (8 * n)

/-- The values that value cell m of a contribution brings: (string, value as digested, value). -/
def cellValues (h : List Byte) (index : Nat) (p : List Byte) : List (Nat × Nat × Int) :=
  match headForm h with
  | 0 => (List.range 4).map (fun i =>
      let v := signedLe p (8 * i) 8 * 2 ^ fieldN h 3 1
      (4 * (index - 3) + i, (v % (digestMod : Int)).toNat, v))
  | 1 => (List.range 2).map (fun i =>
      let v := signedLe p (16 * i) 16
      (2 * (index - 3) + i, (v % (digestMod : Int)).toNat, v))
  | _ => (List.range 8).map (fun i => (8 * (index - 1) + i, fieldN p (4 * i) 4, 0))

/-- The check digest's part of some values under a core's salt (13 R316). -/
def State.checkPart (s : State) (c : Nat) (h : List Byte) (vals : List (Nat × Nat × Int)) : Nat :=
  vals.foldl (fun n v =>
    (n + digestCoeff (digestKey (s.saltOf c) (fieldN h 4 1 % 64)) (BitVec.ofNat 32 (fieldN h 8 4 + v.1)) * v.2.1)
      % digestMod) 0

/-- The five flags of the strings that a flag cell covers (13 R311). -/
def flagVals (index : Nat) (p : List Byte) : List (Nat × Nat) :=
  let v := fieldN p 0 20
  ((List.range 32).map (fun j => (32 * (index - 1) + j, v / 2 ^ (5 * j) % 32))).filter (·.2 != 0)

/-- A flag or value cell of a contribution to index k whose head is accepted (13 R315). -/
def State.takePart (s : State) (c : Nat) (o : OpenTid) (k : Nat) (h : List Byte) (index : Nat) (p : List Byte) : State :=
  if index ≤ 2 then s.landEnd s.clk.tick 3 c (.accPart k (headW h) [] (flagVals index p) o.tid)
  else
    let vals := (cellValues h index p).filter (·.1 < 64)
    let out := vals.any (fun v => v.2.2 < -(2 ^ 127) || 2 ^ 127 ≤ v.2.2)
    let s := s.updTid c o.tid (fun o => { o with digest := (o.digest + s.checkPart c h vals) % digestMod })
    if out then
      (s.logArrival c (some o.tid) .formMismatch index).updTid c o.tid (fun o => { o with faulty := true })
    else s.landEnd s.clk.tick 3 c (.accPart k (headW h) (vals.map (fun v => (v.1, v.2.2))) [] o.tid)

/-- A value cell of a fast sum whose head is accepted: eight elements, 32 bytes of half row INDEX − 1 of the four rows; a cell whose row has
no room waits (05 R106, 13 R318). -/
def State.takeFast (s : State) (c : Nat) (o : OpenTid) (h : List Byte) (x : InCell) (n : Nat × Option Nat) : State :=
  let i := x.cell.index.toNat
  let taken : State :=
    let vals := (cellValues h i x.cell.payload).filter (·.1 < 64)
    s.updTid c o.tid (fun o => { o with rcvd := n.1, total := n.2, digest := (o.digest + s.checkPart c h vals) % digestMod })
  match rowTarget (s.core c).sp o.rows ((i - 1) / 2) with
  | .row row => taken.landEnd s.clk.tick 13 c (.fadd (64 * row + 32 * ((i - 1) % 2)) x.cell.payload)
  | .past => if i % 2 = 1 then taken.logArrival c (some o.tid) .badAddress (o.rows.pos + (i - 1) / 2) else taken
  | .wait q => s.holdOver c q x

/-- A flag or value cell of an open transfer whose head `h` is accepted (13 R314); a second head is a cell that no correct sender sends. -/
def State.takeValue (s : State) (c tid : Nat) (h : List Byte) (x : InCell) : State :=
  match (s.core c).xfer.tids.find? (·.tid == tid) with
  | none => s
  | some o =>
    match (if x.cell.index = 0 then none else countCell o.rcvd o.total x.cell) with
    | none => s.excessCell c (some tid) x
    | some n =>
      let count : State := s.updTid c tid (fun o => { o with rcvd := n.1, total := n.2 })
      if o.discard then count
      else match o.form with
        | .acc k => count.takePart c o k h x.cell.index.toNat x.cell.payload
        | _ => s.takeFast c o h x n

/-- A cell of a contribution: the head is taken first, and with it the cells that have waited for it (13 R314). -/
def State.takeContribution (s : State) (c : Nat) (o : OpenTid) (x : InCell) : State :=
  match o.head with
  | some h => s.takeValue c o.tid h x
  | none =>
    if x.cell.index = 0 then
      match countCell o.rcvd o.total x.cell with
      | none => s.excessCell c (some o.tid) x
      | some n =>
        let h := x.cell.payload
        let bad := headBad h x.cell.kind
        let s := s.updTid c o.tid (fun o => { o with
          rcvd := n.1, total := n.2, head := some h, discard := o.discard || bad, faulty := o.faulty || bad })
        let s := if bad then s.logArrival c (some o.tid) .formMismatch (headForm h) else s
        let mine (y : InCell) : Bool := y.cell.tid.toNat == o.tid && y.cell.kind == x.cell.kind
        let waited := (s.core c).xfer.waiting.filter mine
        let s := s.updXfer c (fun k => { k with waiting := k.waiting.filter (fun y => !mine y) })
        waited.foldl (fun s y => s.takeValue c o.tid h y) s
    else s.holdCell c x

/-- The kind of cell that a form takes in (08 R198). -/
def TidForm.takes (f : TidForm) (k : CellKind) : Bool :=
  match f, k with
  | .data, .data => true
  | .acc _, .acc => true
  | .fast, .fast => true
  | .xor, .xor => true
  | .kvwr, .data => true
  | _, _ => false

/-- A cell of an open transfer (08 R198; 12 R296, R297). -/
def State.takeCell (s : State) (c : Nat) (o : OpenTid) (x : InCell) : State :=
  let cell := x.cell
  match countCell o.rcvd o.total cell with
  | none => s.excessCell c (some o.tid) x
  | some n =>
    if !o.form.takes cell.kind then
      let s := s.updTid c o.tid (fun o => { o with rcvd := n.1, total := n.2 })
      if o.discard then s
      else
        let contribution := cell.kind == .acc || cell.kind == .fast
        (s.logArrival c (some o.tid) .formMismatch cell.cls.toNat).updTid c o.tid
          (fun o => { o with discard := true, faulty := o.faulty || contribution })
    else match o.form with
    | .acc _ => s.takeContribution c o x
    | .fast => s.takeContribution c o x
    | .kvwr => s.updTid c o.tid (fun o => { o with rcvd := n.1, total := n.2 })
    | _ => if o.discard then s.updTid c o.tid (fun o => { o with rcvd := n.1, total := n.2 })
           else s.takeRowCell c o x n

/-! ### KV-write contexts -/

/-- The head cell's payload of a context. -/
def KvCtx.head (k : KvCtx) : Option (List Byte) := (k.cells.find? (fun x => x.cell.index == 0)).map (·.cell.payload)

/-- A cell of a remote KVWR: contexts are formed by transfer id, up to 64 (08 R195). -/
def State.takeKvCell (s : State) (c : Nat) (x : InCell) : State :=
  let cell := x.cell
  let m := (s.core c).xfer
  let take (k : KvCtx) : State :=
    if cell.index = 0 ∧ k.head.isSome then s.excessCell c none x
    else match countCell k.rcvd k.total cell with
      | none => s.excessCell c none x
      | some n =>
        let k := { k with rcvd := n.1, total := n.2, cells := k.cells ++ [x] }
        s.updXfer c (fun m => { m with kvctx := (m.kvctx.filter (·.tid != k.tid)) ++ [k] })
  match m.kvctx.find? (·.tid == cell.tid.toNat) with
  | some k => take k
  | none => if m.kvctx.length < 64 then take ⟨cell.tid.toNat, cell.tenant.toNat, [], 0, none⟩ else s.holdCell c x

/-- A SIGNAL of another package at its core, by its step number against the current step's (07 R162); its increment joins those of the
cycle (R160). -/
def State.signalAt (s : State) (c : Nat) (x : InCell) : State :=
  let f := x.cell.tid.toNat % 64
  let step := leNat (x.cell.payload.take 8)
  let cur := (s.core c).ctl.ran.toNat
  if step = cur then s.landEnd s.clk.tick 42 c (.incFlag f)
  else if step = cur + 1 then
    let n := (Tab.get 0 (s.core c).ctl.pendSig f).toNat
    s.updCtl c (fun k =>
      if n < 255 then { k with pendSig := Tab.set 0 k.pendSig f (BitVec.ofNat 8 (n + 1)) }
      else if k.pendLost.contains f then k else { k with pendLost := k.pendLost ++ [f] })
  else if cur < step then s.holdCell c x
  else s.logArrival c none .staleSignal (f + 256 * (Tab.get 0 (s.core c).ctl.flags f).toNat)

/-- Cells that an open transfer takes by its id. -/
def byTid (k : CellKind) : Bool := k != .kvwr && k != .signal && k != .service

/-- A cell at its core: the open transfer takes it, or it waits until the id opens (08 R188). -/
def State.cellAt (s : State) (c : Nat) (x : InCell) : State :=
  match x.cell.kind with
  | .kvwr => s.takeKvCell c x
  | .signal => s.signalAt c x
  | .service => s
  | _ =>
    match (s.core c).xfer.tids.find? (·.tid == x.cell.tid.toNat) with
    | some o => s.takeCell c o x
    | none => s.holdCell c x

/-- The core that keeps the record of an arrival that names no core: FIRST of the lowest partition with the tenant
(08 R176). -/
def State.arrivalKeeper (s : State) (tenant : Nat) : Option Nat :=
  match (List.range 9).find? (fun p => (s.part p).count != 0 && (s.part p).tenant == tenant) with
  | some p => s.physOf (s.part p).first
  | none => none

/-- An arrival for a core that does not exist (08 R176). -/
def State.badTarget (s : State) (port : Nat) (tenant core : Nat) : State :=
  match s.arrivalKeeper tenant with
  | some k => s.logExc k ((s.clk.tick + 2 ^ 64 - (s.stepOf k).s0) % 2 ^ 64) 0xFFFFFF 0xFF 4 .badTarget core
  | none => s.countUnroutable port

/-- A cell for this package reaches its core (08 R176, 19 R439). -/
def State.cellIn (s : State) (x : InCell) : State :=
  let cell := x.cell
  if s.passThrough then s.countUnroutable x.port
  else if cell.core = 0x1FF then
    match (if cell.vc.toNat = 6 then s.streamChunk cell.tid.toNat else none) with
    | some (g, i) => s.chunkCell cell g i
    | none => s.badTarget x.port cell.tenant.toNat 0x1FF
  else match s.physOf cell.core.toNat with
    | none => s.badTarget x.port cell.tenant.toNat cell.core.toNat
    | some c =>
      match s.partOf c with
      | some p =>
        if (s.part p).tenant != cell.tenant.toNat then
          (s.logArrival c none .partition cell.tenant.toNat).security p 0x0003
        else s.cellAt c x
      | none => s.cellAt c x

/-- Cells that waited are offered again, oldest first. -/
def State.retryCells (s : State) (c : Nat) (cells : List InCell) : State :=
  cells.foldl (fun s x => s.cellAt c x) s

/-- All waiting cells of a core are offered again. -/
def State.retryWaiting (s : State) (c : Nat) : State :=
  let w := (s.core c).xfer.waiting
  (s.updXfer c (fun x => { x with waiting := [] })).retryCells c w

/-! ### Completion -/

/-- RCVD = TOTAL (12 R296). -/
def OpenTid.met (o : OpenTid) : Bool := o.total == some o.rcvd

/-- The rows that a transfer commits when it completes (05 R103, 08 R198). -/
def OpenTid.commitRows (o : OpenTid) : Nat :=
  if o.discard then 0
  else match o.form with
    | .data | .xor | .hostrd => ceilDiv (o.total.getD 0) 2
    | .fast => 4
    | _ => 0

/-- A transfer completes by count: its commit, and for a contribution its check (12 R296; 13 R316, R317). -/
def State.completeTid (s : State) (c : Nat) (o : OpenTid) : State :=
  let s := s.tidComplete c o.tid
  let s := match o.rows.reg with
    | some q => if o.rows.tail && o.commitRows != 0 then s.landEnd s.clk.tick 31 c (.arrCommit q o.commitRows o.tid) else s
    | none => s
  let isContribution := match o.form with | .acc _ => true | .fast => true | _ => false
  if isContribution || o.faulty then
    let size := match o.head with | some h => !o.discard && o.total != some (formTotal (headForm h)) | none => isContribution && !o.discard
    let differs := match o.head with | some h => !o.discard && !size && o.digest != fieldN h 16 8 | none => false
    let s := if size then s.logArrival c (some o.tid) .formMismatch (o.total.getD 0) else s
    let s := if differs then s.logArrival c (some o.tid) .digestMismatch o.tid else s
    if o.faulty || size || differs then s.coreFault c 0x0040 7 1 0xFFFF o.tid else s
  else s

end Sys2Proof.Machine
end

