-- ==== Sys2Proof/Machine/MoveFx.lean ====
section
/-! DEFINITION. The effects of the move instructions (08 R186 to R202; 05 R96 to R99; 13 R309 to R313). -/

namespace Sys2Proof.Machine

/-! ### Shared checks -/

/-- Opening a transfer id (08 R188). -/
def State.tidFail (s : State) (x : Ctx) (tid : BitVec 12) : Fail :=
  let ts := (s.core x.core).xfer.tids
  pickFail [failIf (ts.any (·.tid == tid.toNat)) .tidBusy tid.toNat, failIf (64 ≤ ts.length) .tidTableFull tid.toNat]

/-- Opens a transfer id; cells that waited for it are counted from now on (12 R297). -/
def State.openTid (s : State) (x : Ctx) (tid : BitVec 12) (form : TidForm) (rows : RowRef) (want : Nat) : State :=
  let o : OpenTid :=
    { tid := tid.toNat, form := form, rows := rows, rcvd := 0, total := none, complete := false
      offset := x.entry.offset, opcode := x.entry.opcode, head := none, digest := 0, discard := false
      mismatch := false, faulty := false, want := want, got := 0 }
  let s := s.updXfer x.core (fun k => { k with tids := k.tids ++ [o] })
  let w := (s.core x.core).xfer.waiting.filter (fun c => c.cell.tid == tid && byTid c.cell.kind)
  (s.updXfer x.core (fun k => { k with
    waiting := k.waiting.filter (fun c => !(c.cell.tid == tid && byTid c.cell.kind)) })).retryCells x.core w

/-- A destination word: reserved bits and shape (08 R176), a core of another partition (19 R439), and a package that
holds none of the partition's groups (08 R196; DEDUCED, log entry 21). -/
def State.sendFail (s : State) (x : Ctx) (w : W32) : Fail :=
  let other : Bool := match s.physOf (destCore w) with | some d => s.partOf d != s.partOf x.core | none => false
  let away : Bool := match s.partOf x.core with
    | some p => (List.range 16).all (fun g =>
        !((s.group g).formed && (s.group g).owner == p && (s.group g).members.any (·.place == destPlace w)))
    | none => false
  pickFail [s.destFail w, failIf (if s.destHere w then other else away) .partition w.toNat]

/-- The channel of a VC code (08 Table 8.11, 11 Table 11.10). -/
def vcOf (code : BitVec 2) : BitVec 3 := match code.toNat with | 0 => 0 | 1 => 2 | 2 => 3 | _ => 6

/-- A channel that the partition may not name (08 R196, 19 Table 19.4). -/
def State.vcFail (s : State) (x : Ctx) (code : BitVec 2) : Fail :=
  match s.partOf x.core with
  | some p => failIf (!(s.part p).vcen.getLsbD code.toNat) .vcDenied code.toNat
  | none => none

/-- Reads rows from tick s on (08 R187). -/
def State.startRead (s : State) (x : Ctx) (rows : List Nat) (sink : RowSink) (rel : Option (Nat × Nat)) : State :=
  s.doRowRead x.core x.tick ⟨rows, 0, [], sink, rel, x.entry⟩

/-! ### Local moves -/

/-- The pattern of SPFILL (08 R191); PSRC 5 takes a sample of the entropy source, a free value (log entry 5). -/
def State.fillWord (s : State) (x : Ctx) (psrc : BitVec 3) (preg : BitVec 5) : W32 × State :=
  match psrc.toNat with
  | 0 => (reg x.regs preg.toNat, s)
  | 1 => (BitVec.ofNat 32 x.tick, s)
  | 2 => (BitVec.ofNat 32 (x.tick / 2 ^ 32), s)
  | 3 => (BitVec.ofNat 32 s.station, s)
  | 4 => (BitVec.ofNat 32 (s.station / 2 ^ 32), s)
  | _ => s.takeFree 32

/-- The rows of a run paired with the rows that they are copied from, in the order in which their blocks are handled (05 R98, R99). -/
def runRows (dst src : List Nat) (down : Bool) : List (Nat × Nat) :=
  if down then (dst.zip src).reverse else dst.zip src

/-- SPFILL (05 R98, 08 R191). -/
def State.fxSpfill (s : State) (x : Ctx) (row : Sr) (c : BitVec 3) (q : BitVec 5) (psrc : BitVec 3) (preg : BitVec 5)
    (cmt : BitVec 3) : State :=
  let n := cnt x.regs c
  let bad := n = 0 ∨ 6144 < n
  let sp := s.spOf x
  let (at_, f) := resolveSr sp x.regs row (if bad then 1 else n)
  s.issueIn x .local (if bad then 1 else ceilDiv n (q.toNat + 1))
    [failIf bad .badField n, f, checkCommit sp x.regs row cmt]
    (fun s =>
      let (w, s) := s.fillWord x psrc preg
      let s := if 1 ≤ psrc.toNat then s.updXfer x.core (fun k => { k with varyDone := true }) else s
      s.doRowRun x.core x.tick ⟨.fill w, runRows at_.rows at_.rows false, q.toNat + 1,
        if cmt = 0 then none else some (row.reg.toNat, cnt x.regs cmt), x.entry⟩)

/-- SPCOPY (05 R98, R99). -/
def State.fxSpcopy (s : State) (x : Ctx) (src dst : Sa) (c : BitVec 3) (q : BitVec 5) : State :=
  let n := cnt x.regs c
  let bad := n = 0 ∨ 6144 < n
  let m := if bad then 1 else n
  let (a, f) := resolveSa x.regs src m
  let (b, g) := resolveSa x.regs dst m
  s.issueIn x .local (if bad then 1 else ceilDiv n (q.toNat + 1)) [failIf bad .badField n, f, g] (fun s =>
    let rows (r : Nat) : List Nat := (List.range n).map (r + ·)
    s.doRowRun x.core x.tick ⟨.copy a (a < b), runRows (rows b) (rows a) (a < b), q.toNat + 1, none, x.entry⟩)

/-- The 64 bytes of stored row r of a block. -/
def WStore.storedRow (w : WStore) (b r : Nat) : List Byte := w.mem.read (4096 * b + 64 * r) 64

/-- WSRD (08 R192). -/
def State.fxWsrd (s : State) (x : Ctx) (block : Wb) (part : Bool) (row : BitVec 6) (sp : Sr) : State :=
  let ws := (s.core x.core).ws
  let (b, f) := resolveWb x.regs block
  let n := if part then 1 else 64
  let (at_, g) := resolveSr (s.spOf x) x.regs sp n
  s.issueIn x .local (if part then 1 else 2) [f, checkKind ws b 1, g] (fun s =>
    if ws.blockBad b then s.wsFault x.core b
    else
      let s := (s.updWs x.core (fun w => w.correct b)).use x.tick x.core x.core 2 (some x.entry) [.wsAll]
      let rows := if part then [ws.storedRow b row.toNat] else (List.range 64).map (ws.storedRow b)
      let pairs := at_.rows.zip rows
      let s := (s.landEnd (x.tick + 3) 11 x.core (.rowList (pairs.take 32))).use (x.tick + 3) x.core x.core 2 (some x.entry)
        ((pairs.take 32).map (fun p => .rowWrite p.1))
      let s := if part then s else (s.landEnd (x.tick + 4) 11 x.core (.rowList (pairs.drop 32))).use (x.tick + 4) x.core x.core 2
        (some x.entry) ((pairs.drop 32).map (fun p => .rowWrite p.1))
      if sp.mode = 3 then
        s.landEnd (x.tick + if part then 3 else 4) 31 x.core (.commit sp.reg.toNat n x.entry)
      else s)

/-- WSWR (08 R193). -/
def State.fxWswr (s : State) (x : Ctx) (block : Wb) (part : Bool) (row : BitVec 6) (sp : Sr) : State :=
  let ws := (s.core x.core).ws
  let (b, f) := resolveWb x.regs block
  let n := if part then 1 else 64
  let (at_, g) := resolveSr (s.spOf x) x.regs sp n
  s.issueIn x .local (if part then 1 else 2) [f, checkKind ws b 1, g] (fun s =>
    s.startRead x at_.rows (.wswr b (if part then row.toNat else 0))
      (if sp.mode = 2 then some (sp.reg.toNat, n) else none))

/-! ### KV pages -/

/-- The layout that KVRD and KVWR of a core use: group slot, W_s, G, layer-shards (08 R194, 14 R325). -/
structure KvLayout where
  slot : Nat
  ws : Nat
  g : Nat
  shards : Tab Nat
  deriving DecidableEq, Repr

/-- The layout of the group whose step concerns a core. -/
def State.kvLayout (s : State) (c : Nat) : Option KvLayout :=
  (s.slotOf c).map (fun g => ⟨g, (s.group g).kvWs, (s.group g).kvG, (s.group g).shards⟩)

/-- Byte addresses of the stored rows of an access to a page of a core (14 R326). -/
def KvLayout.addrs (y : KvLayout) (w : WStore) (l : Nat) (h : Handle) : List Nat :=
  let local_ := h.page - pageBase y.g y.shards l
  (List.range (h.count * y.ws)).map (pageRow w y.ws local_ h.first)

/-- The page group of a page of logical core l (14 R326). -/
def KvLayout.groupOf (y : KvLayout) (l page : Nat) : Nat :=
  (page - pageBase y.g y.shards l) / max 1 (Tab.get 0 y.shards l)

/-- Handle checks for a page of the issuing core (08 R194, 14 R326). -/
def State.kvFail (s : State) (x : Ctx) (h : Handle) (w : W32) : Fail :=
  match s.kvLayout x.core with
  | none => some (.kvHandle, w.toNat)
  | some y =>
    let l := s.logical x.core
    failIf (h.bad (pageBase y.g y.shards l) (y.g * Tab.get 0 y.shards l)) .kvHandle w.toNat

/-- KVRD (08 R195). The page is read in the issue tick (DEDUCED, log entry 22). -/
def State.fxKvrd (s : State) (x : Ctx) (hreg : BitVec 4) (greg : BitVec 3) (sp : Sr) : State :=
  let w := reg x.regs hreg.toNat
  let h := Handle.ofWord w
  let y := (s.kvLayout x.core).getD ⟨0, 1, 0, []⟩
  let n := h.count * y.ws
  let bad := s.kvFail x h w
  let (at_, f) := resolveSr (s.spOf x) x.regs sp n
  s.issueIn x .local (ceilDiv n 32) [bad, f] (fun s =>
    let ws := (s.core x.core).ws
    let l := s.logical x.core
    let addrs := y.addrs ws l h
    let fresh := s.pageGen y.slot (y.groupOf l h.page) == cnt x.regs greg % 65536
    let lands (s : State) (rows : List (List Byte)) : State :=
      (List.range (ceilDiv n 32)).foldl (fun s k =>
        let part := ((at_.rows.zip rows).drop (32 * k)).take 32
        ((s.landEnd (x.tick + 3 + k) 11 x.core (.rowList part)).use (x.tick + 3 + k) x.core x.core 2 (some x.entry)
          (part.map (fun p => .rowWrite p.1))).use (x.tick + k) x.core x.core 2 (some x.entry)
          (((addrs.drop (32 * k)).take 32).map (fun a => .wsBank (a % 4096 / 64)))) s
    if fresh then
      match addrs.find? ws.rowBad with
      | some a => s.wsFault x.core (a / 4096)
      | none =>
        let s := s.updWs x.core (fun w => addrs.foldl (fun w a => w.correctRow a) w)
        lands s (addrs.map (fun a => ws.mem.read a 64))
    else
      let s := s.updXfer x.core (fun k => { k with staleReads := k.staleReads + 1 })
      lands s (addrs.map (fun _ => List.replicate 64 0)))

/-- KVWR with REMOTE 0 (08 R195). -/
def State.fxKvwr (s : State) (x : Ctx) (hreg : BitVec 4) (greg : BitVec 3) (sp : Sr) : State :=
  let w := reg x.regs hreg.toNat
  let h := Handle.ofWord w
  let y := (s.kvLayout x.core).getD ⟨0, 1, 0, []⟩
  let n := h.count * y.ws
  let bad := s.kvFail x h w
  let (at_, f) := resolveSr (s.spOf x) x.regs sp n
  s.issueIn x .local (ceilDiv n 32) [bad, f] (fun s =>
    let l := s.logical x.core
    s.startRead x at_.rows
      (.kvLocal (y.addrs (s.core x.core).ws l h) ((reg x.regs (16 + greg.toNat)).setWidth 16) y.slot (y.groupOf l h.page))
      none)

/-- The logical core that holds a page of a layout (14 R326). -/
def pageCore (g : Nat) (shards : Tab Nat) (page : Nat) : Option Nat :=
  (List.range 288).find? (fun l => pageBase g shards l ≤ page && page < pageBase g shards l + g * Tab.get 0 shards l)

/-- KVWR with REMOTE 1 (08 R194, R195). -/
def State.fxKvwrRemote (s : State) (x : Ctx) (hreg : BitVec 4) (greg : BitVec 3) (sp : Sr) (dreg : BitVec 4)
    (tid : BitVec 12) : State :=
  let w := reg x.regs hreg.toNat
  let h := Handle.ofWord w
  let d := reg x.regs dreg.toNat
  let own := s.destHere d
  let y := s.kvLayout x.core
  -- W_s, G and layer-shards of the holder
  let far : Option (Nat × Nat × Tab Nat) := match y with
    | none => none
    | some y =>
      if own then some (y.ws, y.g, y.shards)
      else ((s.group y.slot).members.find? (·.place == destPlace d)).map (fun m => (m.ws, m.g, m.shards))
  let (ws, g, shards) := far.getD (1, 0, [])
  let n := h.count * ws
  let pool := pageBase g shards 288
  let holder := pageCore g shards h.page
  let bad := failIf (h.bad 0 pool) .kvHandle w.toNat
  let memberF : Fail := if own then failIf y.isNone .kvHandle w.toNat else failIf far.isNone .badDest d.toNat
  let destF : Fail := if own then failIf (destReserved d != 0) .badDest d.toNat else s.destFail d
  let otherF : Fail := match holder with
    | some l => if own then s.targetFail x.core l else none
    | none => none
  let (at_, f) := resolveSr (s.spOf x) x.regs sp n
  s.issueIn x .out (ceilDiv n 32)
    [destF, memberF, bad, otherF, f, failIf (1023 < n) .transferSize n, s.tidFail x tid]
    (fun s =>
      let dst := mkDest (holder.getD 0) (destPlace d) own
      let s := s.openTid x tid .kvwr ⟨none, 0, false⟩ 0
      let head := leBytes 4 w.toNat ++ leBytes 2 (cnt x.regs greg) ++ [0, 0] ++
        leBytes 4 (mkDest (s.logical x.core) s.place own).toNat
      let s := s.emit x.core
        [mkCell dst s.place (holder.getD 0) 2 0 0 (s.tenantOf x.core) tid 0 (2 * n + 1) .kvwr head]
      s.startRead x at_.rows (.kvRemote dst tid (2 * n + 1)) none)

/-! ### Sends -/

/-- SEND and SENDXOR (08 R196, 13 R319). -/
def State.fxSend (s : State) (x : Ctx) (sp : Sr) (c : BitVec 3) (dreg : BitVec 4) (vc : BitVec 2) (cls : BitVec 4)
    (tid : BitVec 12) (xor : Bool) : State :=
  let n := cnt x.regs c
  let bad := n = 0 ∨ 1024 < n
  let d := reg x.regs dreg.toNat
  let (at_, f) := resolveSr (s.spOf x) x.regs sp (if bad then 1 else n)
  s.issueIn x .out (if bad then 1 else ceilDiv n 32)
    [s.sendFail x d, failIf bad .transferSize n, f, s.vcFail x vc]
    (fun s => s.startRead x at_.rows
      (.send d (vcOf vc) (cls.setWidth 2) tid (if xor then .xor else .data) (2 * n)) none)

/-- Trailing zero bits of a nonzero natural number, up to a bound. -/
def trailing : Nat → Nat → Nat
  | 0, _ => 0
  | n + 1, v => if v % 2 = 0 then trailing n (v / 2) + 1 else 0

/-- Range packing: the shift and the slices when they fit (13 R312). -/
def rangePack (vals : List Int) : Option (Nat × List Int) :=
  let nz := vals.filter (· != 0)
  if nz.isEmpty then some (0, vals)
  else
    let sh := nz.foldl (fun m v => min m (trailing 128 v.natAbs)) 128
    let sl := vals.map (fun v => v / 2 ^ sh)
    if sl.all (fun v => -(2 ^ 63) ≤ v && v < 2 ^ 63) then some (sh, sl) else none

/-- The two's-complement bytes of a value. -/
def intBytes (n : Nat) (v : Int) : List Byte := leBytes n (intBits (8 * n) v)

/-- The payload of a head cell (13 Table 13.2). -/
def headCell (w : Int) (form shift point : Nat) (base : W32) (h : Nat) : List Byte :=
  leBytes 2 (if form = 2 then 0 else intBits 10 w) ++ leBytes 1 form ++ leBytes 1 shift ++ leBytes 1 point ++ [0, 0, 0] ++
    leBytes 4 base.toNat ++ [0, 0, 0, 0] ++ leBytes 8 h

/-- The payload of a flag cell for strings from `from_` on (13 R311). -/
def flagCell (accs : List Acc) (from_ : Nat) : List Byte :=
  leBytes 20 ((List.range 32).foldl (fun n j => n + (accs.getD (from_ + j) Acc.zero).flagBits * 2 ^ (5 * j)) 0)

/-- The payloads of a contribution, and the values that it feeds to digests (13 R309 to R316). -/
def contribution (w : Int) (accs : List Acc) (enc : Nat) (base : W32) (point : Nat) (salt : W64) :
    List (List Byte) × List Nat × RFlags :=
  let sum (vs : List Nat) : Nat := digestSum (digestKey salt point) base vs
  if enc = 2 then
    let outs := accs.map (fun a => roundOut .fp32 .ne 0 false 0 (accVal w a))
    let vs := outs.map (·.1)
    (headCell w 2 0 point base (sum vs) ::
      (List.range 8).map (fun m => (List.range 8).flatMap (fun i => leBytes 4 (vs.getD (8 * m + i) 0))),
      vs, RFlags.all (outs.map (·.2)))
  else
    let is := accs.map (fun a => a.i.toInt)
    let vs := accs.map digestInt
    let flags := [flagCell accs 0, flagCell accs 32]
    match (if enc = 0 then rangePack is else none) with
    | some (sh, sl) =>
      (headCell w 0 sh point base (sum vs) :: flags ++
        (List.range 16).map (fun m => (List.range 4).flatMap (fun i => intBytes 8 (sl.getD (4 * m + i) 0))), vs, {})
    | none =>
      (headCell w 1 0 point base (sum vs) :: flags ++
        (List.range 32).map (fun m => (List.range 2).flatMap (fun i => intBytes 16 (is.getD (2 * m + i) 0))), vs, {})

/-- SENDACC (08 R197; 13 R309 to R313). -/
def State.fxSendacc (s : State) (x : Ctx) (k : BitVec 4) (dreg : BitVec 4) (enc : BitVec 2) (cls : BitVec 4)
    (tid : BitVec 12) : State :=
  let d := reg x.regs dreg.toNat
  s.issueIn x .out 1 [s.sendFail x d] (fun s =>
    let l := (s.core x.core).lane
    if l.readBad k.toNat then s.accResidue x.core k.toNat
    else
      let accs := (List.range 64).map (l.accAt k.toNat)
      let (cells, vals, fl) := contribution (l.win k.toNat) accs enc.toNat (tagBase x.regs) (tagPoint x.regs)
        (s.saltOf x.core)
      let s := if enc = 2 then (s.orStatus x.core (exitMask fl)).updXfer x.core (fun k => { k with varyDone := true }) else s
      let s := s.feed x.core x.regs 0 (enc ≠ 2) vals
      s.emit x.core ((cells.zipIdx).map (fun p =>
        mkCell d s.place (destCore d) 0 (cls.setWidth 2) (if enc = 2 then 2 else 1) (s.tenantOf x.core) tid p.2
          cells.length .none p.1)))

/-! ### Receives -/

/-- RECV of forms 0, 2 and 3: one row is checked at issue, four for form 2 (08 R198; log entry 23). -/
def State.fxRecvRows (s : State) (x : Ctx) (tid : BitVec 12) (sp : Sr) (form : TidForm) : State :=
  let n := if form == .fast then 4 else 1
  let (at_, f) := resolveSr (s.spOf x) x.regs sp n
  s.issueIn x .into 1 [f, s.tidFail x tid] (fun s =>
    let s := if form == .fast then s.updXfer x.core (fun k => { k with varyDone := true }) else s
    s.openTid x tid form at_.ref 0)

/-- RECV of form 1 (08 R198). -/
def State.fxRecvAcc (s : State) (x : Ctx) (tid : BitVec 12) (k : BitVec 4) : State :=
  s.issueIn x .into 1 [s.tidFail x tid] (fun s => s.openTid x tid (.acc k.toNat) ⟨none, 0, false⟩ 0)

/-- The allowance A of the form-4 RECV at a word: PARAM of its relocation record of kind 4 (09 R225, R227). -/
def Image.allowance (m : Image) (off : Nat) : Nat :=
  match m.relocs.find? (fun w => w.toNat / 2 ^ 37 % 8 == 4 && w.toNat % 2 ^ 24 == off) with
  | some w => w.toNat / 2 ^ 40
  | none => 0

/-- A row of core d has been read in tick t by an on-die scheduled read: readers of the same row in one tick share the access (05 R97). -/
def State.rowServed (s : State) (d t row : Nat) : Bool :=
  s.clk.uses.any (fun u => u.tick == t && u.core == d && u.what == .rowRead row && u.onDie)

/-- RECV of form 4: the on-die scheduled read (05 R96, R97; 08 R198; 09 R213, R227; 19 R439). -/
def State.fxOnDie (s : State) (x : Ctx) (score : BitVec 9) (srow : BitVec 13) (sp : Sr) : State :=
  let (at_, f) := resolveSr (s.spOf x) x.regs sp 1
  s.issueIn x .into 1 [failIf (spRows ≤ srow.toNat) .badAddress srow.toNat, f, s.targetFail x.core score.toNat]
    (fun s =>
      match s.physOf score.toNat with
      | none => s
      | some d =>
        let m := (s.core d).sp
        let row := srow.toNat
        let served := s.rowServed d x.tick row
        let land := x.tick + 3 + 2 + meshHops d x.core + 6 * meshCrossings d x.core
        let dst := at_.rows.headD 0
        let use (s : State) (t : Nat) (core order : Nat) (a : Access) : State := s.use t core x.core order (some x.entry) [a]
        let s := use s x.tick d 3 (.rowRead row)
        if m.rowBad row then (if served then s else s.spFault d row)
        else
          let s := if served then s else s.updSp d (fun m => m.correct [row])
          let s := s.landEnd land 11 x.core (.rowList [(dst, m.row row)])
          let s := use s land x.core 2 (.rowWrite dst)
          let s := (meshLinks d x.core (x.tick + 4)).foldl (fun s l => use s l.1 d (s.logical x.core) (.link l.2.1 l.2.2 d row x.tick)) s
          use s (x.tick + (s.programOf x.core).allowance x.entry.offset.toNat) x.core 0 (.window dst))

/-! ### Services -/

/-- The function that owns a core's partition; PF0 where no partition owns it (08 R199). -/
def State.ownerOf (s : State) (c : Nat) : Nat := (s.partOf c).getD 0

/-- Checks of HOSTRD and HOSTWR (08 R199). -/
def State.windowFail (s : State) (x : Ctx) (buf : BitVec 6) (off n : Nat) : Fail :=
  let w := (s.func (s.ownerOf x.core)).win buf.toNat
  pickFail [failIf (off % 64 != 0) .badAddress off, failIf (w.len = 0 || w.len < off + 64 * n) .hostWindow off]

/-- HOSTRD: the read is asked of PCI Express; its data comes with HOST_READ_COMPLETION (08 R199). -/
def State.fxHostrd (s : State) (x : Ctx) (buf : BitVec 6) (oreg : BitVec 4) (sp : Sr) (c : BitVec 3) (tid : BitVec 12) :
    State :=
  let n := cnt x.regs c
  let bad := n = 0 ∨ 1024 < n
  let off := (reg x.regs oreg.toNat).toNat
  let (at_, f) := resolveSr (s.spOf x) x.regs sp (if bad then 1 else n)
  s.issueIn x .service 1 [failIf bad .transferSize n, s.windowFail x buf off n, f, s.tidFail x tid] (fun s =>
    let fn := s.ownerOf x.core
    let s := s.openTid x tid .hostrd at_.ref n
    { s with out := { s.out with hostReads := s.out.hostReads ++ [(fn, ((s.func fn).win buf.toNat).base + off, 64 * n)] } })

/-- HOSTWR (08 R199). -/
def State.fxHostwr (s : State) (x : Ctx) (buf : BitVec 6) (oreg : BitVec 4) (sp : Sr) (c : BitVec 3) (tid : BitVec 12) :
    State :=
  let n := cnt x.regs c
  let bad := n = 0 ∨ 1024 < n
  let off := (reg x.regs oreg.toNat).toNat
  let (at_, f) := resolveSr (s.spOf x) x.regs sp (if bad then 1 else n)
  s.issueIn x .service (if bad then 1 else ceilDiv n 32)
    [failIf bad .transferSize n, s.windowFail x buf off n, f, s.tidFail x tid]
    (fun s =>
      let w := (s.func (s.ownerOf x.core)).win buf.toNat
      (s.openTid x tid .hostwr ⟨none, 0, false⟩ n).startRead x at_.rows (.hostwr (w.base + off) tid.toNat) none)

/-- The package has key-directory blocks (16 R365). -/
def State.hasDir (s : State) : Bool :=
  s.enabled.any (fun c => (List.range 8).any (fun d => ((s.core c).ws.region d).kind == 3 && ((s.core c).ws.region d).count != 0))

/-- KDLOOK (08 R200). -/
def State.fxKdlook (s : State) (x : Ctx) (sp : Sr) (c : BitVec 3) (rreg : BitVec 4) (tid : BitVec 12) : State :=
  let n := cnt x.regs c
  let bad := n = 0 ∨ 8192 < n
  let rows := ceilDiv n 8
  let dst := (reg x.regs rreg.toNat).toNat
  let (at_, f) := resolveSr (s.spOf x) x.regs sp (if bad then 1 else rows)
  s.issueIn x .service (if bad then 1 else ceilDiv rows 32)
    [failIf bad .transferSize n, f, failIf (spRows < dst + rows) .badAddress dst, s.tidFail x tid,
     failIf (!s.hasDir) .kdRegion 0]
    (fun s => (s.openTid x tid .kdlook ⟨none, dst, false⟩ n).startRead x at_.rows (.kdlook n dst tid.toNat) none)

/-- KDPUT (08 R200). -/
def State.fxKdput (s : State) (x : Ctx) (sp : Sr) (c : BitVec 3) (op : Bool) (tid : BitVec 12) : State :=
  let n := cnt x.regs c
  let bad := n = 0 ∨ 4096 < n
  let rows := ceilDiv n 4
  let (at_, f) := resolveSr (s.spOf x) x.regs sp (if bad then 1 else rows)
  s.issueIn x .service (if bad then 1 else ceilDiv rows 32)
    [failIf bad .transferSize n, f, s.tidFail x tid, failIf (!s.hasDir) .kdRegion 0]
    (fun s => (s.openTid x tid .kdput ⟨none, 0, false⟩ n).startRead x at_.rows (.kdput n op tid.toNat) none)

end Sys2Proof.Machine
end

