-- ==== Sys2Proof/Machine/Issue.lean ====
section
/-! DEFINITION. The control core: decoding of words, the engine queues and issue (07 R145 to R164; 09 R208 to R210). -/

namespace Sys2Proof.Machine

/-! ### Words -/

/-- The engine whose queue a timed word enters; none for an untimed one (07 R149). -/
def engineOf (i : Instr) : Option Engine :=
  match wordInfo i with
  | some (_, 1) => some .lane
  | some (_, 2) => some .vector
  | some (_, 3) => some .move
  | _ => none

/-- The effect of a timed instruction that issues. -/
def State.fxOf (s : State) (x : Ctx) : Instr → State
  | .setf _ _ f v => s.fxSetf x f v
  | .incf _ _ f => s.fxIncf x f
  | .decf _ _ f => s.fxDecf x f
  | .signal _ _ f r => s.fxSignal x f r
  | .expect _ _ t => s.fxExpect x t
  | .mark _ _ m => s.fxMark x m
  | .string _ _ b f l => s.fxRestring x b f l false
  | .stringt _ _ b f l => s.fxRestring x b f l true
  | .swapt _ _ => s.fxSwapt x
  | .bow _ _ d k nib e af ss sc rls => s.fxBow x d k nib e af ss sc rls
  | .bowg _ _ l b k nib e af ss sc => s.fxBowg x l b k nib e af ss sc
  | .zacc _ _ k => s.fxZacc x k
  | .window _ _ k ws w v e => s.fxWindow x k ws w v e
  | .drain _ _ k v f r c => s.fxDrain x k v f r c
  | .vld _ _ r v n l => s.fxVld x r v n l
  | .vst _ _ r v n l => s.fxVst x r v n l
  | .vfill _ _ v i => s.fxVfill x v i
  | .vprog _ _ o => s.fxVprog x o
  | .vcvt _ _ o => s.fxVcvt x o
  | .vperm _ _ v a i l fs fr => s.fxVperm x v a i l fs fr
  | .vredInit _ _ q v k ws w e => s.fxVredInit x q v k ws w e
  | .vredAcc _ _ q v e f l ss i b => s.fxVredAcc x q v e f l ss i b
  | .vredMerge _ _ q v => s.fxVredMerge x q v
  | .vredPhase _ _ q => s.fxVredPhase x q
  | .vredOut _ _ q v r => s.fxVredOut x q v r
  | .vredSmout _ _ q v a e => s.fxVredSmout x q v a e
  | .vscan _ _ q v e f l ss i => s.fxVscan x q v e f l ss i
  | .vtopkInit _ _ k => s.fxVtopkInit x k
  | .vtopkAcc _ _ v e b => s.fxVtopkAcc x v e b
  | .vtopkMerge _ _ v => s.fxVtopkMerge x v
  | .vtopkOut _ _ v => s.fxVtopkOut x v
  | .spfill _ _ r c q ps pr cm => s.fxSpfill x r c q ps pr cm
  | .spcopy _ _ a b c q => s.fxSpcopy x a b c q
  | .wsrd _ _ b p r sp => s.fxWsrd x b p r sp
  | .wswr _ _ b p r sp => s.fxWswr x b p r sp
  | .kvrd _ _ h g sp => s.fxKvrd x h g sp
  | .kvwr _ _ h g sp => s.fxKvwr x h g sp
  | .kvwrRemote _ _ h g sp r t => s.fxKvwrRemote x h g sp r t
  | .send _ _ sp c r v k t => s.fxSend x sp c r v k t false
  | .sendacc _ _ k r e c t => s.fxSendacc x k r e c t
  | .sendxor _ _ sp c r v k t => s.fxSend x sp c r v k t true
  | .recvData _ _ t sp => s.fxRecvRows x t sp .data
  | .recvAccumulator _ _ t k => s.fxRecvAcc x t k
  | .recvFastAdd _ _ t sp => s.fxRecvRows x t sp .fast
  | .recvXor _ _ t sp => s.fxRecvRows x t sp .xor
  | .recvOnDieRead _ _ c r sp => s.fxOnDie x c r sp
  | .hostrd _ _ b o sp c t => s.fxHostrd x b o sp c t
  | .hostwr _ _ b o sp c t => s.fxHostwr x b o sp c t
  | .kdlook _ _ sp c r t => s.fxKdlook x sp c r t
  | .kdput _ _ sp c o t => s.fxKdput x sp c o t
  | _ => s

/-! ### Queues -/

/-- An engine's queue. -/
def Ctl.queue (k : Ctl) : Engine → List QEntry
  | .lane => k.laneQ | .vector => k.vecQ | .move => k.moveQ

/-- Puts an engine's queue. -/
def Ctl.setQueue (k : Ctl) (e : Engine) (q : List QEntry) : Ctl :=
  match e with | .lane => { k with laneQ := q } | .vector => { k with vecQ := q } | .move => { k with moveQ := q }

/-- Entries of a queue (07 R153). -/
def queueDepth : Nat := 32

/-- Cells that an outbound instruction takes; none for one bound to be skipped for its size (09 R209, 13 R313). -/
def State.cellsOf (s : State) (c : Nat) (e : QEntry) : Option Nat :=
  let sized (n lim k : Nat) : Option Nat := if n = 0 ∨ lim < n then none else some k
  match e.instr with
  | .send _ _ _ k _ _ _ _ | .sendxor _ _ _ k _ _ _ _ | .hostwr _ _ _ _ _ k _ =>
    sized (cnt e.regs k) 1024 (2 * cnt e.regs k)
  | .kvwrRemote _ _ h _ _ _ _ =>
    let n := (Handle.ofWord (reg e.regs h.toNat)).count * ((s.kvLayout c).getD ⟨0, 1, 0, []⟩).ws
    sized n 1023 (2 * n + 1)
  | .sendacc _ _ _ _ enc _ _ => some (if enc.toNat = 2 then 9 else 35)
  | _ => none

/-- Cells that moves under way have taken in a core's outbound buffer and not yet filled (09 R209): two for each row still to be read. -/
def State.claimed (s : State) (c : Nat) : Nat :=
  (s.landings.map (fun l => if l.core = c then
    match l.eff with
    | .rowRead r => (match r.sink with | .send .. => 2 * r.rows.length | .kvRemote .. => 2 * r.rows.length | .hostwr .. => 2 * r.rows.length | _ => 0)
    | _ => 0 else 0)).sum

/-- Cells in a core's outbound buffer, those taken by instructions under way among them; a HOSTWR row is two cells (09 R209). -/
def State.outUsed (s : State) (c : Nat) : Nat :=
  let x := (s.core c).xfer
  x.outbound.length + 2 * x.hostOut.length + s.claimed c

/-- Cells of the outbound instructions that a core has queued for ticks before `due` (09 R209). -/
def State.cellsBefore (s : State) (c due : Nat) : Nat :=
  (((s.core c).ctl.moveQ.filter (fun e => decide (e.tick < due))).map (fun e => (s.cellsOf c e).getD 0)).sum

/-- The outbound buffer has no room for n cells of an instruction due at step tick `due` (09 R209). -/
def State.spaceShort (s : State) (c n due : Nat) : Bool := decide (2048 < s.outUsed c + s.cellsBefore c due + n)

/-- The transfer id that a word opens (08 R188). -/
def opensTid : Instr → Option (BitVec 12)
  | .recvData _ _ t _ | .recvAccumulator _ _ t _ | .recvFastAdd _ _ t _ | .recvXor _ _ t _ | .kvwrRemote _ _ _ _ _ _ t
  | .hostrd _ _ _ _ _ _ t | .hostwr _ _ _ _ _ _ t | .kdlook _ _ _ _ _ t | .kdput _ _ _ _ _ t => some t
  | _ => none

/-- The transfer that an EXPECT of `tid` due at step tick `due` names has not met its count: the id is open and not complete, once the
openings and EXPECTs queued before it have been passed. An id that nothing opens is not waited for: its EXPECT gives TID_UNKNOWN
(09 R208; DEDUCED, log entry 95). -/
def State.transferLate (s : State) (c tid due : Nat) : Bool :=
  let now : Bool := match (s.core c).xfer.tids.find? (·.tid == tid) with | some o => !o.complete | none => false
  ((s.core c).ctl.moveQ.filter (fun e => decide (e.tick < due))).foldl (fun (late : Bool) e =>
    if (opensTid e.instr).map (·.toNat) == some tid then true
    else match e.instr with
      | .expect _ _ t => if t.toNat = tid then false else late
      | _ => late) now

/-- What keeps an entry from issuing: the transfer that an EXPECT names is not complete, or the outbound buffer has no
room (08 R180, 09 R208, R209). -/
def State.blockItem (s : State) (c : Nat) (e : QEntry) : Option CheckItem :=
  match e.instr with
  | .expect _ _ tid => if s.transferLate c tid.toNat e.tick then some (.transfer (Fin.ofNat 288 c) tid e.tick) else none
  | _ =>
    match s.cellsOf c e with
    | some n => if s.spaceShort c n e.tick then some (.outbound (Fin.ofNat 288 c) n e.tick) else none
    | none => none

/-- An item is late at a check tick (09 R208). -/
def State.addLate (s : State) (i : CheckItem) (t : Nat) : State :=
  if s.clk.late.any (fun l => l.item == i) then s
  else { s with clk := { s.clk with late := s.clk.late ++ [⟨i, t, none⟩] } }

/-- Whether a checked item has not arrived yet (Table 9.2). -/
def State.missing (s : State) : CheckItem → Bool
  | .transfer c tid due => s.transferLate c.val tid.toNat due
  | .frontier c t => match s.frontier c.val with | some f => decide ((s.core c.val).ctl.s0 + f ≤ t + 16) | none => false
  | .outbound c n due => s.spaceShort c.val n due
  | .conflict _ => false

/-- The items of a core whose check tick is the present one or lies behind it: its frontier, the transfers that its queued EXPECTs name,
the room for its queued outbound instructions (09 R208, Table 9.2; 07 R156). -/
def State.checksOf (s : State) (c : Nat) : List (CheckItem × Nat) :=
  let k := (s.core c).ctl
  let t := s.clk.tick
  (.frontier (Fin.ofNat 288 c) t, t) ::
    (k.moveQ.filter (fun e => decide (k.s0 + e.tick ≤ t + 16))).filterMap (fun e =>
      let item : Option CheckItem := match e.instr with
        | .expect _ _ tid => some (.transfer (Fin.ofNat 288 c) tid e.tick)
        | _ => (s.cellsOf c e).map (fun n => .outbound (Fin.ofNat 288 c) n e.tick)
      item.map (fun i => (i, k.s0 + e.tick - 16)))

/-- The checks at the end of the present tick, on every core of a running step (09 R208). -/
def State.lateChecks (s : State) : State :=
  (s.running.flatMap (fun g => (s.coresOf (s.group g).owner).flatMap s.checksOf)).foldl
    (fun t i => if s.missing i.1 then t.addLate i.1 i.2 else t) s

/-- Late items that have arrived in the present clock cycle (09 R208). -/
def State.arrivals (s : State) : State :=
  { s with clk := { s.clk with late := s.clk.late.map (fun l =>
      if l.arrived.isNone && !s.missing l.item then { l with arrived := some s.now } else l) } }

/-- Every item of a slot's step that is due before tick 16 has arrived (09 R210): its cores decode it, with their frontiers at tick 16 or
beyond, and nothing queued for an earlier tick waits. -/
def State.preReady (s : State) (g : Nat) : Bool :=
  (s.coresOf (s.group g).owner).all (fun c =>
    let k := (s.core c).ctl
    k.preStart && (match s.frontier c with | some f => decide (16 ≤ f) | none => true) &&
      (k.moveQ.filter (fun e => decide (e.tick < 16))).all (fun e => (s.blockItem c e).isNone))

/-- The steps that wait for their tick 0: from which cycle on their early items have all arrived. -/
def State.readyChecks (s : State) : State :=
  { s with steps := s.steps.map (fun (p : Nat × StepRun) =>
      if p.2.phase == .starting then
        (p.1, { p.2 with readyAt := if s.preReady p.1 then some (p.2.readyAt.getD s.now) else none })
      else p) }

/-- Package tick at which an entry issues: its scheduled tick, or the present one when that has passed. -/
def State.issueTick (s : State) (c : Nat) (e : QEntry) : Nat := max s.clk.tick ((s.core c).ctl.s0 + e.tick)

/-- The queued entry that issues next: the earliest, then by core and engine. A core that is not enabled, or that decodes a step whose tick
0 has not begun, issues nothing (01 R12; 07 R151). -/
def State.nextEntry (s : State) : Option (Nat × Engine × QEntry) :=
  let heads := (s.cores.filter (fun (p : Nat × Core) => s.isEnabled p.1 && !p.2.ctl.preStart)).flatMap (fun (p : Nat × Core) =>
    [Engine.lane, .vector, .move].filterMap (fun e => (p.2.ctl.queue e).head?.map (fun q => (p.1, e, q))))
  heads.foldl (fun m h => match m with
    | none => some h
    | some b => if s.issueTick h.1 h.2.2 < s.issueTick b.1 b.2.2 then some h else m) none

/-- Issues the queued entries whose tick has come (07 R153). An entry that waits for its transfer or for room keeps the counter. -/
def State.pump : Nat → State → State
  | 0, s => s
  | n + 1, s =>
    match s.nextEntry with
    | none => s
    | some (c, eng, e) =>
      let t := s.issueTick c e
      if s.clk.tick < t then s
      else match s.blockItem c e with
        | some i => s.addLate i (t - 16)
        | none => State.pump n ((s.updCtl c (fun k => k.setQueue eng ((k.queue eng).drop 1))).fxOf ⟨c, t, e⟩ e.instr)

/-- Looks at the queues that suffice for every queued entry and one more look. -/
def State.pumpFuel (s : State) : Nat :=
  2 * (s.cores.foldl (fun n p => n + p.2.ctl.laneQ.length + p.2.ctl.vecQ.length + p.2.ctl.moveQ.length) 0) + 2

/-- Issues every queued entry whose tick has come. -/
def State.pumpAll (s : State) : State := s.pump s.pumpFuel

/-- Replay stops met in the present tick end their steps, now that the tick is complete (10 R252). -/
def State.replayStops (s : State) : State :=
  (List.range 16).foldl (fun s g => if (s.step' g).stopDue then s.stopReplay g else s) s

/-- The end of the present tick: what is due by then lands, and in its first cycle the detector looks at it and the checks are made. -/
def State.endTick (s : State) : State :=
  let s := s.drainLandings (2 * s.clk.tick + 1) (landFuel s)
  (if s.clk.heldRun = 0 then s.detect.lateChecks else s).replayStops

/-- The start offset of a core (09 R224, R226). -/
def State.startOffset (s : State) (g c : Nat) : Nat :=
  let m := s.image g
  let r := s.step' g
  match m.entries.find? (fun (p : Nat × Nat × Voicing) => p.1 == r.entry && p.2.1 == r.voicing) with
  | none => 0
  | some v =>
    match m.starts.find? (fun (p : Nat × Nat × Nat × Nat) =>
        p.1 == v.2.2.start && p.2.1 == s.n && p.2.2.1 == s.logical c) with
    | some p => p.2.2.2
    | none => 0

/-- A core begins to decode its part of a step: registers, loops and cursor cleared, flags at their initial values plus the pending
counts, the counters of the step cleared; nothing issues before tick 0 (07 R151, R162, R168; 09 R219). The step is from here on the one
that a SIGNAL's number is compared with (DEDUCED, log entry 96). -/
def Core.begin (x : Core) (num : W64) (offset : Nat) (init : List Byte) : Core :=
  let sum (f : Nat) : Nat := (init.getD f 0).toNat + (Tab.get 0 x.ctl.pendSig f).toNat
  let sat := (List.range 64).any (fun f => decide (255 < sum f)) || !x.ctl.pendLost.isEmpty
  { x with
    ctl := { x.ctl with
      regs := [], flags := Tab.setList 0 [] 0 ((List.range 64).map (fun f => BitVec.ofNat 8 (satNat 255 (sum f))))
      pendSig := [], pendLost := [], loops := [], cursor := 0, skipCount := 0, recs := [], offset := BitVec.ofNat 24 offset
      dec := .decoding, stalled := [], laneQ := [], vecQ := [], moveQ := [], finished := false
      status := StatusBit.flagSat.mask sat, markSeen := 0, preStart := true, ran := num }
    sp := { x.sp with circ := x.sp.circ.map (fun d => (d.1, { d.2 with overrun := false })) }
    xfer := { x.xfer with digests := [], varyDone := false, staleReads := 0, droppedWrites := 0 }
    det := { x.det with checkerFaults := 0 }
    trail := [] }

/-- The step of another slot of the same owner holds the cores (09 R219). -/
def State.coresBusy (s : State) (g : Nat) : Bool :=
  (List.range 16).any (fun h => h != g && (s.group h).owner == (s.group g).owner && (s.step' h).holdsCores)

/-- The cores begin to decode for a step that has come, once they are free (07 R151). After a replay stop the program state is reset first
(10 R252). -/
def State.beginDecode (s : State) (g : Nat) : State :=
  let r := s.step' g
  if r.phase == .starting && r.decodeAt.isNone && !s.coresBusy g && (s.image g).loaded && !s.passThrough then
    let cs := s.coresOf (s.group g).owner
    let s := if s.clk.holds.contains .replayStop then (s.resetCores cs).dropHold .replayStop else s
    let s := cs.foldl (fun s c => s.updCore c (fun x => x.begin r.num (s.startOffset g c) (s.image g).flags)) s
    (cs.foldl (fun s c => s.retryWaiting c) s).updStep g (fun r => { r with decodeAt := some s.now })
  else s

/-- Every step that waits for its cores gets them where they are free. -/
def State.beginDecodes (s : State) : State := (List.range 16).foldl State.beginDecode s

/-- The counter passes to the next tick: what is due at its start lands, and what is queued for it issues. -/
def State.passTick (s : State) : State :=
  let t := s.clk.tick + 1
  let s := { s with clk := { s.clk with
    tick := t, heldRun := 0
    late := s.clk.late.filter (fun l => l.binds (s.now + 1))
    conflicts := s.clk.conflicts.filter (fun (p : Nat × Nat) => decide (t ≤ p.1))
    uses := s.clk.uses.filter (fun u => decide (t ≤ u.tick))
    previews := s.clk.previews.filter (fun p => (s.core p.core).ctl.preStart || decide (t ≤ (s.core p.core).ctl.s0 + p.tick + 1)) } }
  (s.drainLandings (2 * t) (landFuel s)).pumpAll

/-- One clock cycle with nothing commanded (log entry 2): station time runs, what is due lands, late items are found and arrive, and the
counter passes to the next tick, or the cycle is a held one (09 R204, R206, R208 to R215). -/
def State.cycle (s : State) : State :=
  let s := s.resumePaused.passTime.arrivals.endTick.beginDecodes.readyChecks
  if s.mayReach (s.clk.tick + 1) && s.conflictHold ≤ s.clk.heldRun then s.passTick
  else { s with clk := { s.clk with heldTotal := s.clk.heldTotal + 1, heldRun := s.clk.heldRun + 1 } }

/-- n ticks on, without holds: what the check of conflicts foresees (09 R211). -/
def State.ahead : Nat → State → State
  | 0, s => s
  | n + 1, s => State.ahead n s.endTick.passTick

/-- The held cycles that the conflicts of package tick t need, from the queued entries and their captured operands (09 R211). -/
def State.foreseen (s : State) (t : Nat) : Nat := ((State.ahead (t - s.clk.tick) s).endTick).conflictHold

/-! ### Decoding -/

/-- Logs a skipped word of the control core: source 0, the word's scheduled tick (08 R173). -/
def State.logWord (s : State) (c tick : Nat) (off : BitVec 24) (i : Instr) (r : Reason) (d : Nat) : State :=
  s.logExc c tick off (match wordInfo i with | some (o, _) => o | none => 0xFF) 0 r d

/-- Writes an A or C register (07 R145). -/
def State.setReg (s : State) (c : Nat) (d : BitVec 5) (v : W32) : State :=
  s.updCtl c (fun k => { k with regs := Tab.set 0 k.regs d.toNat v })

/-- Operand B of address arithmetic: a register, or a 20-bit immediate, sign-extended (08 Table 8.5). -/
def opB (regs : Tab W32) (bk : Bool) (b : BitVec 20) : W32 :=
  if bk then b.signExtend 32 else reg regs (b.toNat % 32)

/-- A word of the step parameter block (07 R147). -/
def State.paramWord (s : State) (c n : Nat) : W32 :=
  let r := s.stepOf c
  match n with
  | 0 => r.num.setWidth 32
  | 1 => (r.num >>> 32).setWidth 32
  | 2 => BitVec.ofNat 32 r.entry
  | 3 => BitVec.ofNat 32 s.n
  | 4 => BitVec.ofNat 32 (s.logical c)
  | n => Tab.get 0 r.params n

/-- The step that a core's abort ends, or the core's own program state when no step runs on it (07 R152, R164). -/
def State.abortCore (s : State) (c : Nat) (st : StepStatus) : State :=
  match s.slotOf c with
  | some g => if (s.step' g).onCores then s.abortStep g st else s.resetCores [c]
  | none => s.resetCores [c]

/-- The cursor would pass 2^40 − 1 (07 R152). -/
def State.tooLong (s : State) (c : Nat) (off : BitVec 24) (i : Instr) : State :=
  (s.logWord c ((s.core c).ctl.cursor + (wordDelta i).toNat) off i .stepTooLong (wordDelta i).toNat).abortCore c .stepTooLong

/-- An untimed word takes effect when it is decoded (07 R146, R147, R157 to R159). -/
def State.untimed (s : State) (c tick : Nat) (off : BitVec 24) (i : Instr) : State :=
  let k := (s.core c).ctl
  match i with
  | .halt _ _ => s.updCtl c (fun k => { k with dec := .halted })
  | .loop _ _ src n =>
    let v : W32 := if src then reg k.regs (16 + n.toNat) else n.setWidth 32
    if v = 0 then s.updCtl c (fun k => { k with dec := .skipping 0 })
    else s.updCtl c (fun k => { k with loops := k.loops ++ [⟨v, off + 1⟩] })
  | .endloop _ _ =>
    match k.loops.getLast? with
    | none => s
    | some top =>
      if top.remaining - 1 = 0 then s.updCtl c (fun k => { k with loops := k.loops.dropLast })
      else s.updCtl c (fun k => { k with
        loops := k.loops.dropLast ++ [{ top with remaining := top.remaining - 1 }], offset := top.body })
  | .waitf _ _ f n =>
    if n = 0 then s.logWord c tick off i .badField 0
    else s.updCtl c (fun k => { k with dec := .waiting f n tick, waitFrom := s.now })
  | .mova _ _ d sk v => s.setReg c d (if sk then v else reg k.regs (v.toNat % 32))
  | .adda _ _ d a bk b => s.setReg c d (reg k.regs a.toNat + opB k.regs bk b)
  | .suba _ _ d a bk b => s.setReg c d (reg k.regs a.toNat - opB k.regs bk b)
  | .shla _ _ d a bk b => s.setReg c d (reg k.regs a.toNat <<< ((opB k.regs bk b).toNat % 32))
  | .anda _ _ d a bk b => s.setReg c d (reg k.regs a.toNat &&& opB k.regs bk b)
  | .moda _ _ d a bk b =>
    let m := opB k.regs bk b
    if m = 0 then s.logWord c tick off i .divZero 0 else s.setReg c d (reg k.regs a.toNat % m)
  | .lda _ _ d src a n =>
    if src then
      let addr := (reg k.regs a.toNat).toNat + n.toNat
      if 4096 ≤ addr then s.logWord c tick off i .badAddress addr
      else s.setReg c d (Tab.get 0 (s.core c).vec.consts addr)
    else s.setReg c d (s.paramWord c n.toNat)
  | _ => s

/-- A timed word enters its engine's queue with the registers captured, or is held while the queue is full (07 R150,
R153, R154). -/
def State.enqueue (s : State) (c tick : Nat) (off : BitVec 24) (i : Instr) (eng : Engine) : State :=
  let k := (s.core c).ctl
  if queueDepth ≤ (k.queue eng).length then s.updCtl c (fun k => { k with dec := .held i tick })
  else (s.updCtl c (fun k => k.setQueue eng (k.queue eng ++ [⟨i, tick, off, k.regs⟩]))).pumpAll

/-- A control core decodes a word (07 R148, R149). -/
def State.decodeNow (s : State) (c : Nat) (i : Instr) : State :=
  let k := (s.core c).ctl
  let tick := k.cursor + (wordDelta i).toNat
  if 2 ^ 40 ≤ tick then s.tooLong c k.offset i
  else
    let s := s.updCtl c (fun k => { k with cursor := tick, offset := k.offset + 1 })
    match engineOf i with
    | some eng => s.enqueue c tick k.offset i eng
    | none => s.untimed c tick k.offset i

/-- A word comes to a control core: it is decoded, waits while decoding is stopped, or lies in the body of a loop that is
skipped (07 R154, R157, R158, R163). A core that is not enabled or has halted decodes nothing. -/
def State.decode (s : State) (c : Nat) (i : Instr) : State :=
  if s.passThrough || !s.isEnabled c then s
  else
    let k := (s.core c).ctl
    match k.dec with
    | .halted => s
    | .waiting .. | .held .. => s.updCtl c (fun k => { k with stalled := k.stalled ++ [i] })
    | .skipping d =>
      let dec : DecState := match i with
        | .loop .. => .skipping (d + 1)
        | .endloop .. => if d = 0 then .decoding else .skipping (d - 1)
        | _ => .skipping d
      s.updCtl c (fun k => { k with dec := dec, offset := k.offset + 1 })
    | .decoding => s.decodeNow c i

/-- Words that waited are decoded in order; those of a program that an abort has ended are gone (07 R152, R164). -/
def State.decodeAll (s : State) (c : Nat) : List Instr → State
  | [] => s
  | i :: l =>
    let n := (s.core c).ctl.aborts
    let t := s.decode c i
    if (t.core c).ctl.aborts = n then State.decodeAll t c l else t

/-- Decoding resumes: the words that waited are decoded in order. -/
def State.resume (s : State) (c : Nat) : State :=
  let w := (s.core c).ctl.stalled
  (s.updCtl c (fun k => { k with dec := .decoding, stalled := [] })).decodeAll c w

/-- Every ZVIS command: a word that no program may hold is refused (08 R172), any other goes to its core. -/
def execWord (core : CoreId) (i : Instr) (s : State) : Host.Outcome State Fault Refusal :=
  if wordOk s.n (s.logical core.val) i then .next (s.decode core.val i) else .refused .reservedEncoding

end Sys2Proof.Machine
end

