-- ==== Sys2Proof/Machine/SysOps.lean ====
section
/-! DEFINITION. Package-wide operations: faults that stop every running step, loss of compute and pass-through mode
(20 R464, R465, R468, R551; 22 R507). -/

namespace Sys2Proof.Machine

/-- Bits of a register are set or cleared in the present cycle, which holds every command since the last one (00 R6; DEDUCED, log entry
100). -/
def State.touch (s : State) (reg bits : Nat) : State := { s with pkg := { s.pkg with fresh := s.pkg.fresh ++ [(reg, bits)] } }

/-- The bits of a register that have been set or cleared in the present cycle. -/
def State.freshBits (s : State) (reg : Nat) : Nat :=
  s.pkg.fresh.foldl (fun n p => if p.1 = reg then n ||| p.2 else n) 0

/-- The key of DB_HOST, MBO_CTRL and MBI_CTRL of a function among these: the BAR2 offset after the BAR0 offsets (18 Table 18.9). -/
def bar2Key (f o : Nat) : Nat := 2 ^ 24 * (f + 1) + o

/-- The BAR0 offset of PARITY of a group slot (24 Table 24.12). -/
def parityAt (g : Nat) : Nat := 0x200058 + 0x10000 * g

/-- The device clears PARITY VALID (17 R393); a 1 that PF0 writes in the same cycle stays (00 R6). -/
def State.clearParity (s : State) (g : Nat) : State :=
  if s.freshBits (parityAt g) = 0 then s.updGroup g (fun k => { k with parity := false }) else s

/-- Applies a function to the power state. -/
def State.updPower (s : State) (f : Power → Power) : State := { s with power := f s.power }

/-- Applies a function to the clock. -/
def State.updClk (s : State) (f : Clk → Clk) : State := { s with clk := f s.clk }

/-- Applies a function to the security state. -/
def State.updSec (s : State) (f : Sec → Sec) : State := { s with sec := f s.sec }

/-- A register write that the manual refuses (24 R530): BAR0 offset. -/
def State.refuse (s : State) (at_ : Nat) : State :=
  { s with pkg := { s.pkg with refused := true, refusedAt := at_, fresh := s.pkg.fresh ++ [(0x1010, 1)] } }

/-- The slots whose step runs on this package's cores. -/
def State.liveSlots (s : State) : List Nat := (List.range 16).filter (fun g => (s.step' g).onCores)

/-- Stops every step in progress on this package (R468). -/
def State.stopAll (s : State) (reason : BitVec 16) : State :=
  s.liveSlots.foldl (fun s g => s.stopStep g reason) s

/-- The newest entry's FAULT event at the partitions of further steps that the fault touched, once at each that has not been told
(18 Table 18.8). -/
def State.tellOwners (s : State) (reason : BitVec 16) : List Nat → List Nat → State
  | _, [] => s
  | told, g :: l =>
    let f := (s.group g).owner
    if told.contains f then s.tellOwners reason told l
    else
      (s.raise f ⟨0x0031, 2, (s.group g).id, (s.step' g).num, s.station,
        BitVec.ofNat 64 (reason.toNat + (s.faultCount - 1) * 65536)⟩).tellOwners reason (f :: told) l

/-- A detected fault of a package-wide unit: one entry, naming the first step in progress, and every step in progress
stops (R464, R468, R474); with no step it is logged with GROUP and STEP 0 (R551). -/
def State.packageFault (s : State) (reason : BitVec 16) (cls outcome : Nat) (unit sub : BitVec 16) (detail : Nat) :
    State :=
  match s.liveSlots with
  | g :: l =>
    ((s.logFault reason cls outcome (some g) (s.step' g).num unit sub detail).tellOwners reason [0, (s.group g).owner] l).stopAll reason
  | [] => s.logFault reason cls outcome none 0 unit sub detail

/-- This package's index in a group's member list. -/
def State.memberIndex (s : State) (g : Nat) : Nat :=
  ((s.group g).members.findIdx? (fun m => m.place == s.place)).getD 0

/-- A structural activity ends with INTERRUPTED (Table 18.8, 22 R507). -/
def State.interrupted (s : State) : State :=
  s.raise 0 ⟨0x0022, 0, 0, 0, s.station, BitVec.ofNat 64 (s.memberIndex s.maint.arg)⟩

/-- What the compute domain holds is lost: cores and their memories, the serving controller, the directory's queues, the
converter (01 R14; 22 R507, R508). -/
def State.loseCompute (s : State) : State :=
  { s with
    landings := [], cores := s.cores.map (fun p => (p.1, p.2.unpowered)), groups := [], steps := [], images := [], pageGens := [], kdq := []
    dir := { Dir.reset with defRow := s.dir.defRow, limit := s.dir.limit, owner := s.dir.owner }
    readback := Readback.reset, hazards := [], trace := []
    clk := { s.clk with late := [], holds := [], conflicts := [], uses := [], previews := [], change := none }
    power := { s.power with railMemory := false, railCore := false, ungated := [] } }

/-- The virtual functions are disabled (22 R507, 24 R533). -/
def State.disableVfs (s : State) : State :=
  (List.range 8).foldl (fun s i => s.updFunc (i + 1) (fun f => { f with enabled := false })) s

/-- In pass-through mode every ring of PF0 but the event ring is stopped (24 R533). -/
def State.stopRings (s : State) : State :=
  s.updFunc 0 (fun f => { f with
    rings := f.rings.map (fun (p : Nat × Ring) => if p.1 = 192 then p else (p.1, { p.2 with en := false, stopped := true }))
    subs := [] })

/-- Entry into pass-through mode; it is never refused, and a return from it that is under way ends (R507). -/
def State.enterPassThrough (s : State) (reason : BitVec 16) : State :=
  if s.passThrough && !s.power.railMemory && !s.power.railCore then s
  else
    let s := s.stopAll reason
    let fw := s.maint.running == 7 || (match s.maint.suspended with | some (c, _) => c == 7 | none => false)
    let s := if s.maint.running != 0 && s.maint.running != 7 then s.interrupted else s
    let s := s.updMaint (fun m => { m with
      running := if fw then 7 else 0, byRec := false, pauseAsked := false, suspended := none, queue := []
      ready := false, leaving := none, order := if m.leaving.isSome then max m.order 3 else m.order })
    { s.loseCompute.disableVfs.stopRings with passThrough := true }

/-- A supply fault: compute and memory rails go, and the package enters pass-through mode (01 R14; 20 R465). -/
def State.supplyFault (s : State) (unit : BitVec 16) (detail : Nat) : State :=
  (s.packageFault 0x0060 9 4 unit 0xFFFF detail).enterPassThrough 0x0060

/-- A clock fault counts toward pass-through: the second within 10 minutes (R464). -/
def State.clockFault (s : State) (reason : BitVec 16) (unit : BitVec 16) (detail : Nat) : State :=
  let recent := s.clockFaults.filter (fun t => s.station < t + 600000000000)
  let again := !recent.isEmpty
  let s := { s with clockFaults := recent ++ [s.station] }
  let s := s.packageFault reason 8 (if again then 4 else 1) unit 0xFFFF detail
  if again then s.enterPassThrough reason else s

/-- Decides a frequency change: it takes effect at the first multiple of 4,096 at least 8 ticks away; a later decision
replaces an earlier one (21 R491). -/
def State.decideFreq (s : State) (step : Nat) : State :=
  s.updClk (fun c => { c with change := some (ceilDiv (c.tick + 8) 4096 * 4096, step) })

end Sys2Proof.Machine
end

