-- ==== Sys2Proof/Machine/HostOps.lean ====
section
/-! DEFINITION. Submission entries and their completions (18 R409, R412, R413). -/

namespace Sys2Proof.Machine

/-- OPCODE (Table 18.4). -/
def Sub.op (x : Sub) : Nat := fieldN x.bytes 0 1
/-- TAG. -/
def Sub.tag (x : Sub) : W32 := BitVec.ofNat 32 (fieldN x.bytes 4 4)
/-- Bytes 8 to 11: REQ_ID, or GROUP of STEP, LOAD_IMAGE and SWAP. -/
def Sub.id (x : Sub) : W32 := BitVec.ofNat 32 (fieldN x.bytes 8 4)
/-- Bytes 56 to 59: GROUP of the request opcodes. -/
def Sub.group (x : Sub) : W32 := BitVec.ofNat 32 (fieldN x.bytes 56 4)
/-- The submission that a completion answers. -/
def Sub.ref (x : Sub) (f : Nat) : SubRef := ⟨f, x.ring, x.tag⟩

/-- The ID field of a completion: 0 for DIR_UPDATE (Table 18.5). -/
def Sub.complId (x : Sub) : Nat := if x.op = 0x13 then 0 else x.id.toNat

/-- Answers a submission (R412). -/
def State.answer (s : State) (f : Nat) (x : Sub) (status detail : Nat) (step : W64) : State :=
  s.complete (x.ref f) (complBytes x.op status true x.tag x.complId detail step s.station)

/-- The first submission of a function that waits to be processed, with the given opcode in front. -/
def State.front (s : State) (f op : Nat) : Option Sub :=
  match (s.func f).subs with
  | x :: _ => if x.op = op then some x else none
  | [] => none

/-- The front submission has been processed. -/
def State.popSub (s : State) (f : Nat) : State := s.updFunc f (fun x => { x with subs := x.subs.drop 1 })

/-- The range of bytes that a submission addresses in a window: offset a multiple of 4, window set, range inside
(R409, R413). -/
def State.rangeOk (s : State) (f : Nat) (x : Sub) (len : Nat) : Bool :=
  let b := fieldN x.bytes 40 1
  let w := (s.func f).win b
  let off := fieldN x.bytes 48 8
  b < 64 && w.len != 0 && off % 4 == 0 && off + len ≤ w.len

/-- Bytes of an entry that are not among those that its opcode uses must be 0 (R409). -/
def Sub.reservedZero (x : Sub) (used : List (Nat × Nat)) : Bool :=
  (List.range 64).all (fun i =>
    i == 0 || (4 ≤ i && i < 8) || used.any (fun (p : Nat × Nat) => p.1 ≤ i && i < p.1 + p.2) || fieldN x.bytes i 1 == 0)

end Sys2Proof.Machine
end

