-- ==== Sys2Proof/Machine/Fabric.lean ====
section
/-! DEFINITION. The fabric switch: routes, the escape channels, fences, discards, receive-buffer occupancy (11 R273, R274;
12 R288 to R299). -/

namespace Sys2Proof.Machine

/-- Port p. -/
def State.port (s : State) (p : Nat) : Port := Recs.get Port.reset s.ports p

/-- Applies a function to port p. -/
def State.updPort (s : State) (p : Nat) (f : Port → Port) : State := { s with ports := Recs.put s.ports p (f (s.port p)) }

/-- Applies a function to the routing state. -/
def State.updNet (s : State) (f : Net → Net) : State := { s with net := f s.net }

/-! ### Shape fields (Table 12.1) -/

/-- Axis length. -/
def axisLen (shape : List Byte) (a : Nat) : Nat := fieldN shape (2 + a) 1
/-- Whether an axis wraps. -/
def axisWrap (shape : List Byte) (a : Nat) : Bool := bitN (fieldN shape 5 1) a
/-- A coordinate of a place: axis 0 x, 1 y, 2 z. -/
def coord (p : Place) (a : Nat) : Nat := p.toNat / 64 ^ a % 64
/-- The pod of a place. -/
def podOf (p : Place) : Nat := p.toNat / 2 ^ 18
/-- The axes of an order code (Table 12.2); reserved codes are in no record. -/
def axesOf (code : Nat) : List Nat :=
  match code with | 0 => [0, 1, 2] | 1 => [0, 2, 1] | 2 => [1, 0, 2] | 3 => [1, 2, 0] | 4 => [2, 0, 1] | _ => [2, 1, 0]

/-- Hops left on an axis: the + direction is allowed, the − direction is allowed (R289). -/
def axisDirs (shape : List Byte) (a s d : Nat) : Bool × Bool :=
  let l := axisLen shape a
  if s = d then (false, false)
  else if axisWrap shape a then
    let k := (d + l - s) % l
    (k ≤ l - k, l - k ≤ k)
  else (s < d, d < s)

/-- The port of a direction: X+, X−, Y+, Y−, Z+, Z−. -/
def portOf (a : Nat) (plus : Bool) : Nat := 2 * a + (if plus then 0 else 1)

/-- The end of a cell's present leg, or the side port by which it crosses to another pod (R288). -/
inductive Leg where
  | here
  | to (p : Place)
  | side (port : Nat)
  | none
  deriving DecidableEq, Repr

/-- The leg of a cell by a shape record (R288). -/
def legOf (shape : List Byte) (me dest : Place) : Leg :=
  if podOf dest = podOf me then (if dest = me then .here else .to dest)
  else
    let o := 16 + 12 * podOf dest
    let n := fieldN shape o 1
    if n = 0 then .none
    else
      let i := (Nat.xor (Nat.xor (coord dest 0) (coord dest 1)) (coord dest 2)) % n
      let g := fieldN shape (o + 1 + 3 * i) 3
      let at_ : Place := BitVec.ofNat 20 (g % 2 ^ 18 + 2 ^ 18 * podOf me)
      if at_ = me then .side (if bitN g 18 then 7 else 6) else .to at_

/-- The port of a scheduled cell's next hop (R289, R290). -/
def schedPort (shape : List Byte) (me d : Place) (order : Nat) : Option Nat :=
  let e := fieldN shape (12 + order) 1
  ((axesOf (e % 8)).find? (fun a => coord me a != coord d a)).map (fun a =>
    let (plus, minus) := axisDirs shape a (coord me a) (coord d a)
    portOf a (if plus && minus then !bitN (e / 8) a else plus))

/-- The productive ports of an unscheduled cell, in the order of ties (R292); where no axis wraps, the − directions come
first (R293). -/
def productive (shape : List Byte) (me d : Place) : List Nat :=
  let all := (List.range 3).flatMap (fun a =>
    let (plus, minus) := axisDirs shape a (coord me a) (coord d a)
    (if plus then [portOf a true] else []) ++ (if minus then [portOf a false] else []))
  if (List.range 3).any (axisWrap shape) then all
  else
    let neg := all.filter (fun p => p % 2 == 1)
    if neg.isEmpty then all else neg

/-- The escape port and channel: X, Y, Z order, ties in the + direction; ESC-high on and after the dateline of the axis
(R294). -/
def escapeHop (shape : List Byte) (me d : Place) (x : InCell) : Option (Nat × BitVec 3) :=
  ((List.range 3).find? (fun a => coord me a != coord d a)).map (fun a =>
    let plus := (axisDirs shape a (coord me a) (coord d a)).1
    let here := coord me a
    let crosses := axisWrap shape a && (if plus then here + 1 == axisLen shape a else here == 0)
    let later := x.chan == 7 && x.port < 6 && x.port / 2 == a
    (portOf a plus, if crosses || later then 7 else 4))

/-- A cell that is discarded as unroutable (R290, R295, R298, R299). -/
def State.unroute (s : State) (x : InCell) : State :=
  (s.countUnroutable x.port).noteDiscard x.port (some 0x0032) x.cell

/-- Whether a channel is on at the far end of a port. -/
def Port.on (p : Port) (v : BitVec 3) : Bool := !(p.farOff.getLsbD v.toNat)

/-- Cells of a channel in a port's outbound queue. -/
def Port.queued (p : Port) (v : BitVec 3) : Nat := (p.outq.filter (fun q => q.1 == v)).length

/-- Puts a cell into a port's outbound queue. -/
def State.queueCell (s : State) (p : Nat) (v : BitVec 3) (x : InCell) : State :=
  s.updPort p (fun k => { k with outq := k.outq ++ [(v, x)] })

/-- An unscheduled cell takes a productive port that is on, else the escape, else waits in the switch; it is discarded
when every one of them is DOWN (R292 to R295). -/
def State.routeFree (s : State) (shape : List Byte) (d : Place) (x : InCell) : State :=
  let me := s.place
  let wraps := (List.range 3).any (axisWrap shape)
  let onEsc := x.chan == 4 || x.chan == 7
  let esc := if wraps then escapeHop shape me d x else none
  let up (p : Nat) : Bool := (s.port p).st != .down
  let free := if onEsc then [] else productive shape me d
  let best := (free.filter (fun p => up p && (s.port p).on x.cell.vc)).foldl (fun m p => match m with
    | none => some p
    | some q => if (s.port p).queued x.cell.vc < (s.port q).queued x.cell.vc then some p else m) none
  match best with
  | some p => s.queueCell p x.cell.vc x
  | none =>
    match esc with
    | some (p, v) =>
      if up p && (s.port p).on v then s.queueCell p v x
      else if free.any up || up p then { s with fabric := s.fabric ++ [x] }
      else s.unroute x
    | none => if free.any up then { s with fabric := s.fabric ++ [x] } else s.unroute x

/-- The coordinate fence of a slot (R299). -/
def fenced (r : RouteSlot) (me dest : Place) : Bool := podOf dest == podOf me && r.fence.contains dest

/-- A cell that the package holds is routed by the slot that its EPOCH names: to a port, to its core over the mesh, or
discarded (R288 to R299). -/
def State.forward (s : State) (x : InCell) : State :=
  let r := s.routeSlot (if x.cell.epoch then 1 else 0)
  let local_ := x.cell.dest == s.place && !s.spare
  if x.port == 8 && local_ && r.st == 0 then { s with mesh := s.mesh ++ [x] }
  else if r.st = 0 then s.unroute x
  else if fenced r s.place x.cell.dest then s.unroute x
  else
    match legOf r.shape s.place x.cell.dest with
    | .here => if s.spare then s.unroute x else { s with mesh := s.mesh ++ [x] }
    | .none => s.unroute x
    | .side p => if (s.port p).st == .down then s.unroute x else s.queueCell p x.cell.vc x
    | .to d =>
      if x.cell.vc = 0 then
        match schedPort r.shape s.place d (x.cell.cls.toNat % 4) with
        | some p => if (s.port p).st == .down then s.unroute x else s.queueCell p 0 x
        | none => s.unroute x
      else s.routeFree r.shape d x

/-- Cells that wait in the switch are routed again, oldest first. -/
def State.pumpFabric (s : State) : State :=
  s.fabric.foldl (fun s x => s.forward x) { s with fabric := [] }

/-! ### Receive buffers -/

/-- Every cell in the package that keeps a place in a receive buffer (R273). -/
def State.heldCells (s : State) : List InCell :=
  s.mesh ++ s.fabric ++ s.ports.flatMap (fun (p : Nat × Port) => p.2.outq.map (·.2)) ++
    s.cores.flatMap (fun (c : Nat × Core) => c.2.xfer.waiting ++ c.2.xfer.kvctx.flatMap (·.cells))

/-- Cells of channel v in port p's receive buffer. -/
def State.occupancy (s : State) (p v : Nat) : Nat :=
  (s.heldCells.filter (fun x => x.port == p && x.chan.toNat == v)).length

/-- The OFF bits that a port sends: on at B − 3,084 cells, off again at B − 3,596 or below (R274). -/
def State.offBits (s : State) (p : Nat) : Byte :=
  let k := s.port p
  BitVec.ofNat 8 ((List.range 8).foldl (fun n v =>
    let b := k.vcAlloc.getD v 0
    let occ := s.occupancy p v
    let off := if b ≤ occ + 3084 then true else if occ + 3596 ≤ b then false else k.ownOff.getLsbD v
    if off then n + 2 ^ v else n) 0)

end Sys2Proof.Machine
end

