-- ==== Sys2Proof/Machine/ArrivalEvents.lean ====
section
/-! DEFINITION. Arrivals, completions, host reads, and cells that leave their core (05 R103, R106; 07 R162; 08 R195, R199,
R201; 09 R209; 12 R295 to R298; 18 R400). -/

namespace Sys2Proof.Machine

/-- SIGNAL_ARRIVAL (07 R162): a SIGNAL that an accepted frame of the port carried reaches its core (11 R267). -/
def execSignalArrival (port : PortId) (core : BitVec 9) (flag : BitVec 6) (step : W64) (tenant : BitVec 3) (s : State) :
    Host.Outcome State Fault Refusal :=
  match s.mesh.find? (fun x => x.port == port.val && x.cell.kind == .signal && x.cell.core == core && x.cell.tenant == tenant &&
      x.cell.tid == flag.setWidth 12 && fieldN x.cell.payload 0 8 == step.toNat) with
  | some x => .next ({ s with mesh := s.mesh.erase x }.cellIn x)
  | none => .next s

/-- The index of the port that an arrival names; 8 for the mesh. -/
def viaPort : Via → Nat | .mesh => 8 | .port p => p.val

/-- CELL_ARRIVAL (12 R296): a cell that the fabric switch has sent to a core of this package over the mesh reaches it (11 R267). -/
def execCellArrival (via : Via) (chan : BitVec 3) (cell : Cell) (s : State) : Host.Outcome State Fault Refusal :=
  let x : InCell := ⟨viaPort via, chan, cell⟩
  .next (if s.mesh.contains x then { s with mesh := s.mesh.erase x }.cellIn x else s)

/-- TRANSFER_COMPLETE (12 R296; 13 R316, R317): RCVD meets TOTAL. -/
def execTransferComplete (core : CoreId) (tid : BitVec 12) (s : State) : Host.Outcome State Fault Refusal :=
  let c := core.val
  match (s.core c).xfer.tids.find? (·.tid == tid.toNat) with
  | some o => .next (if o.met && !o.complete then s.completeTid c o else s)
  | none => .next s

/-- WAITING_ARRIVAL_WRITE (05 R106): cells that waited write once there is room. -/
def execWaitingArrivalWrite (core : CoreId) (s : State) : Host.Outcome State Fault Refusal := .next (s.retryWaiting core.val)

/-- The rows that a context's cells carry, in order: row r's halves travel in cells 2 r + 1 and 2 r + 2 (08 R195). -/
def KvCtx.rows (k : KvCtx) : List (List Byte) :=
  let half (i : Nat) : List Byte :=
    match k.cells.find? (fun x => x.cell.index.toNat == i) with | some x => sliceB x.cell.payload 0 32 | none => sliceB [] 0 32
  (List.range ((k.total.getD 1 - 1) / 2)).map (fun r => half (2 * r + 1) ++ half (2 * r + 2))

/-- KV_WRITE_CONTEXT_COMPLETE (08 R195): the generation is compared once, the rows are all written or all dropped, and a
reply goes to the return address. -/
def execKvWriteContextComplete (core : CoreId) (tid : BitVec 12) (s : State) : Host.Outcome State Fault Refusal :=
  let c := core.val
  match (s.core c).xfer.kvctx.find? (fun k => k.tid == tid.toNat && k.total == some k.rcvd) with
  | none => .next s
  | some k =>
    match k.head with
    | none => .next s
    | some head =>
      let h := Handle.ofWord (BitVec.ofNat 32 (fieldN head 0 4))
      let gen := fieldN head 4 2
      let ret : W32 := BitVec.ofNat 32 (fieldN head 8 4)
      let y := (s.kvLayout c).getD ⟨0, 1, 0, []⟩
      let l := s.logical c
      let ok := !h.bad (pageBase y.g y.shards l) (y.g * Tab.get 0 y.shards l) && s.pageGen y.slot (y.groupOf l h.page) == gen
      let s := s.updXfer c (fun x => { x with kvctx := x.kvctx.filter (·.tid != k.tid) })
      let s := if ok then s.landEnd s.clk.tick 13 c (.wsRows ((y.addrs (s.core c).ws l h).zip k.rows))
        else s.updXfer c (fun x => { x with droppedWrites := x.droppedWrites + 1 })
      let reply := mkCell ret s.place (destCore ret) 3 0 0 k.tenant tid 0 1 .none [BitVec.ofNat 8 (b01 (!ok))]
      .next ((s.updXfer c (fun x => { x with replies := x.replies ++ [reply] })).retryWaiting c)

/-- The scratchpad row of row r of an open transfer. -/
def SPad.rowOf (m : SPad) (ref : RowRef) (r : Nat) : Nat :=
  match ref.reg with
  | none => ref.pos + r
  | some q => let d := m.circAt q; d.base + (if d.size = 0 then 0 else (ref.pos + r) % d.size)

/-- HOST_READ_COMPLETION (08 R199): rows of a HOSTRD from row `first` on are written; the transfer completes, and its
commit applies, with the last of them. -/
def execHostReadCompletion (core : CoreId) (tid : BitVec 12) (first : BitVec 11) (data : List Byte) (s : State) :
    Host.Outcome State Fault Refusal :=
  let c := core.val
  match (s.core c).xfer.tids.find? (fun o => o.tid == tid.toNat && o.form == .hostrd && !o.complete) with
  | none => .next s
  | some o =>
    let n := min (data.length / 64) (o.want - first.toNat)
    let rows := (List.range n).map (fun i => ((s.core c).sp.rowOf o.rows (first.toNat + i), sliceB data (64 * i) 64))
    let s := s.landEnd s.clk.tick 14 c (.rowList rows)
    let got := o.got + n
    let s := s.updTid c o.tid (fun o => { o with got := got, rcvd := 2 * got })
    if o.want ≤ got then
      .next (s.completeTid c { o with got := got, rcvd := 2 * got, total := some (2 * o.want) })
    else .next s

/-- A fault that completes a slot's step with STEP_ERROR without a retry (18 R400). -/
def State.stepDead (s : State) (g : Nat) (reason : BitVec 16) (detail : Nat) : State :=
  if (s.step' g).live then
    let s := s.logFault reason 6 2 (some g) (s.step' g).num 0xFFFF 0xFFFF detail
    s.abortStep g .stepError
  else s

/-- Stops a ring and raises RING_FAULT (18 R400, R406). -/
def State.ringFault (s : State) (f : Nat) (ring : Option Nat) : State :=
  let s := match ring with
    | some r => s.updFunc f (fun x => x.updRing r (fun k => { k with en := false, stopped := true }))
    | none => s
  s.raise f ⟨0x0050, 2, 0, 0, s.station,
    match ring with | some r => BitVec.ofNat 64 (256 * r) | none => 1⟩

/-- HOST_DMA_ERROR (18 R400): a poisoned or failed completion delivers nothing; what follows depends on what read. -/
def execHostDmaError (read : DmaRead) (s : State) : Host.Outcome State Fault Refusal :=
  match read with
  | .core c => match s.slotOf c.val with
    | some g => .next (s.stepDead g 0x00A0 0)
    | none => .next (s.logFault 0x00A0 6 0 none 0 (BitVec.ofNat 16 c.val) 0xFFFF 0)
  | .step g => .next (s.stepDead g.val 0x00A0 0)
  | .ring f r => .next (s.ringFault f.val (some r.toNat))
  | .doorbell f => .next ((s.updFunc f.val (fun x => { x with fetching := false })).ringFault f.val none)
  | .descriptor f => match (s.func f.val).subs with
    | x :: _ => .next ((s.answer f.val x 0xFF 0 0).popSub f.val)
    | [] => .next s
  | .load g => match (s.group g.val).swap.sub with
    | some x => .next ((s.complete x (complBytes 0x12 0xFF true x.tag (s.group g.val).id.toNat 0 0 s.station)).updSwap g.val
        (fun w => { w with sub := none }))
    | none => .next s
  | .reload g id => match (s.group g.val).serve.find id with
    | some (e, r) => match r.state, r.waitSub with
      | .reloading, some x =>
        .next ((s.complete x (complBytes 0x05 0xFF true x.tag id.toNat 0 0 s.station)).updReq g.val e
          (fun r => { r with state := .spilled, waitSub := none, waitOn := [] }))
      | _, _ => .next s
    | none => .next s

/-- CELL_LEAVES_OUTBOUND_BUFFER (09 R209; 12 R295, R298): a cell is stamped with the CURRENT slot's number and enters the
switch, replies ahead of other unscheduled cells; or a HOSTWR row is posted. -/
def execCellLeavesOutboundBuffer (core : CoreId) (what : OutKind) (s : State) : Host.Outcome State Fault Refusal :=
  let c := core.val
  let x := (s.core c).xfer
  let stamp (cell : Cell) : InCell := ⟨8, cell.vc, { cell with epoch := s.epochBit == 1 }⟩
  let reply : Option State := match x.replies with
    | r :: l => some ((s.updXfer c (fun x => { x with replies := l })).forward (stamp r))
    | [] => none
  match what with
  | .reply => .next (reply.getD s)
  | .cell =>
    match x.outbound with
    | cell :: l =>
      match (if cell.vc = 0 then none else reply) with
      | some s' => .next s'
      | none =>
        .next ((s.updXfer c (fun x => { x with outbound := l })).forward (stamp cell)).pumpAll
    | [] => .next s
  | .host =>
    match x.hostOut with
    | (tid, addr, row) :: l =>
      let s := (s.updXfer c (fun x => { x with hostOut := l })).hostWrite (s.ownerOf c) addr row
      let s := s.updTid c tid (fun o => { o with got := o.got + 1 })
      let s := match (s.core c).xfer.tids.find? (·.tid == tid) with
        | some o => if o.form == TidForm.hostwr && o.want ≤ o.got && !o.complete then s.tidComplete c tid else s
        | none => s
      .next s.pumpAll
    | [] => .next s

end Sys2Proof.Machine
end

