-- ==== Sys2Proof/Machine/Control.lean ====
section
/-! DEFINITION. The words of the control core (07; 08 R178 to R180): one meaning for each command. -/

namespace Sys2Proof.Machine

/-- NOP (R148). -/
def execNop (core : CoreId) (delta : BitVec 12) (s : State) :
    Host.Outcome State Fault Refusal :=
  execWord core (.nop core delta) s

/-- HALT (R158). -/
def execHalt (core : CoreId) (delta : BitVec 12) (s : State) :
    Host.Outcome State Fault Refusal :=
  execWord core (.halt core delta) s

/-- LOOP (R157). -/
def execLoop (core : CoreId) (delta : BitVec 12) (src : Bool) (count : BitVec 12) (s : State) :
    Host.Outcome State Fault Refusal :=
  execWord core (.loop core delta src count) s

/-- ENDLOOP (R157). -/
def execEndloop (core : CoreId) (delta : BitVec 12) (s : State) :
    Host.Outcome State Fault Refusal :=
  execWord core (.endloop core delta) s

/-- WAITF (R159). -/
def execWaitf (core : CoreId) (delta : BitVec 12) (flag : BitVec 6) (n : BitVec 8) (s : State) :
    Host.Outcome State Fault Refusal :=
  execWord core (.waitf core delta flag n) s

/-- SETF (R159). -/
def execSetf (core : CoreId) (delta : BitVec 12) (flag : BitVec 6) (value : BitVec 8) (s : State) :
    Host.Outcome State Fault Refusal :=
  execWord core (.setf core delta flag value) s

/-- INCF (R159). -/
def execIncf (core : CoreId) (delta : BitVec 12) (flag : BitVec 6) (s : State) :
    Host.Outcome State Fault Refusal :=
  execWord core (.incf core delta flag) s

/-- DECF (R159). -/
def execDecf (core : CoreId) (delta : BitVec 12) (flag : BitVec 6) (s : State) :
    Host.Outcome State Fault Refusal :=
  execWord core (.decf core delta flag) s

/-- SIGNAL (R161). -/
def execSignal (core : CoreId) (delta : BitVec 12) (flag : BitVec 6) (dreg : BitVec 4) (s : State) :
    Host.Outcome State Fault Refusal :=
  execWord core (.signal core delta flag dreg) s

/-- EXPECT (R180). -/
def execExpect (core : CoreId) (delta : BitVec 12) (tid : BitVec 12) (s : State) :
    Host.Outcome State Fault Refusal :=
  execWord core (.expect core delta tid) s

/-- MARK (R169). -/
def execMark (core : CoreId) (delta : BitVec 12) (mark : BitVec 16) (s : State) :
    Host.Outcome State Fault Refusal :=
  execWord core (.mark core delta mark) s

/-- MOVA (R146). -/
def execMova (core : CoreId) (delta : BitVec 12) (d : BitVec 5) (sk : Bool) (src : W32) (s : State) :
    Host.Outcome State Fault Refusal :=
  execWord core (.mova core delta d sk src) s

/-- ADDA (R146). -/
def execAdda (core : CoreId) (delta : BitVec 12) (d : BitVec 5) (a : BitVec 5) (bk : Bool) (b : BitVec 20) (s : State) :
    Host.Outcome State Fault Refusal :=
  execWord core (.adda core delta d a bk b) s

/-- SUBA (R146). -/
def execSuba (core : CoreId) (delta : BitVec 12) (d : BitVec 5) (a : BitVec 5) (bk : Bool) (b : BitVec 20) (s : State) :
    Host.Outcome State Fault Refusal :=
  execWord core (.suba core delta d a bk b) s

/-- SHLA (R146). -/
def execShla (core : CoreId) (delta : BitVec 12) (d : BitVec 5) (a : BitVec 5) (bk : Bool) (b : BitVec 20) (s : State) :
    Host.Outcome State Fault Refusal :=
  execWord core (.shla core delta d a bk b) s

/-- ANDA (R146). -/
def execAnda (core : CoreId) (delta : BitVec 12) (d : BitVec 5) (a : BitVec 5) (bk : Bool) (b : BitVec 20) (s : State) :
    Host.Outcome State Fault Refusal :=
  execWord core (.anda core delta d a bk b) s

/-- MODA (R146). -/
def execModa (core : CoreId) (delta : BitVec 12) (d : BitVec 5) (a : BitVec 5) (bk : Bool) (b : BitVec 20) (s : State) :
    Host.Outcome State Fault Refusal :=
  execWord core (.moda core delta d a bk b) s

/-- LDA (R147). -/
def execLda (core : CoreId) (delta : BitVec 12) (d : BitVec 5) (src : Bool) (a : BitVec 5) (imm : BitVec 12) (s : State) :
    Host.Outcome State Fault Refusal :=
  execWord core (.lda core delta d src a imm) s

end Sys2Proof.Machine
end

