-- ==== Sys2Proof/Machine/CoreEvents.lean ====
section
/-! DEFINITION. The events of the control cores, the mute and the clock (07 R144, R152, R154, R158, R163, R164; 09 R208 to
R216; 21 R491). -/

namespace Sys2Proof.Machine

/-- A waiting WAITF whose flag has reached n consumes n, and decoding resumes (R160, R163). -/
def execWaitfSatisfied (core : CoreId) (s : State) : Host.Outcome State Fault Refusal :=
  let c := core.val
  match (s.core c).ctl.dec with
  | .waiting f n _ =>
    let v := Tab.get 0 (s.core c).ctl.flags f.toNat
    if n ≤ v then .next ((s.updCtl c (fun k => { k with flags := Tab.set 0 k.flags f.toNat (v - n) })).resume c).pumpAll
    else .next s
  | _ => .next s

/-- A word held for its full queue enters it once an entry has left, and decoding resumes (R154). -/
def execDecodeResume (core : CoreId) (s : State) : Host.Outcome State Fault Refusal :=
  let c := core.val
  let k := (s.core c).ctl
  match k.dec with
  | .held i tick =>
    match engineOf i with
    | some eng =>
      if (k.queue eng).length < queueDepth then
        .next ((s.updCtl c (fun k => { k.setQueue eng (k.queue eng ++ [⟨i, tick, k.offset - 1, k.regs⟩]) with
          dec := .decoding })).resume c).pumpAll
      else .next s
    | none => .next s
  | _ => .next s

/-- SEQ_MISCOMPARE: the step stops and is retried; a drone visit comes before the retry; the second within 10 minutes
retires the core (R144; 20 R462, R551). -/
def execSeqMiscompare (core : CoreId) (s : State) : Host.Outcome State Fault Refusal :=
  let c := core.val
  if s.isEnabled c && !s.passThrough then
    let recent := (s.core c).det.seqTimes.filter (fun t => s.station < t + 600000000000)
    let again := !recent.isEmpty
    let s := s.updDet c (fun d => { d with seqTimes := recent ++ [s.station], visitAsked := true })
    let s := s.coreFault c 0x0003 4 (if again then 3 else 1) 0xFFFF 0
    .next (if again then s.askRetire c else s)
  else .next s

/-- The cycles that a WAITF of a core may wait: 2^k of its partition (R164). -/
def State.flagBound (s : State) (c : Nat) : Nat :=
  2 ^ (match s.partOf c with | some p => (s.part p).flagExp | none => Part.reset.flagExp)

/-- A WAITF has waited 2^k cycles, held ones included: it is logged, and the step completes with FLAG_WAIT_TIMEOUT (R164; DETAIL by
Table 7.4). -/
def execFlagWaitTimeout (core : CoreId) (s : State) : Host.Outcome State Fault Refusal :=
  let c := core.val
  match (s.core c).ctl.dec with
  | .waiting f _ t =>
    let v := Tab.get 0 (s.core c).ctl.flags f.toNat
    if (s.core c).ctl.waitFrom + s.flagBound c ≤ s.now then
      .next ((s.logExc c t ((s.core c).ctl.offset - 1) 0x04 0 .flagWaitTimeout (f.toNat + 256 * v.toNat)).abortCore c
        .flagWaitTimeout)
    else .next s
  | _ => .next s

/-- A word whose delta would take the cursor past 2^40 − 1 aborts the step (R152). -/
def execStepTooLong (core : CoreId) (delta : BitVec 12) (s : State) : Host.Outcome State Fault Refusal :=
  let c := core.val
  let k := (s.core c).ctl
  if s.isEnabled c && k.dec == .decoding && 2 ^ 40 ≤ k.cursor + delta.toNat then
    .next (s.tooLong c k.offset (.nop core delta))
  else .next s

/-- Releases every layer of a core's chunks in a LAST_OLD step (17 R391). -/
def State.releaseLayers (s : State) (g c : Nat) : State :=
  (s.group g).swap.chunks.foldl (fun s k => s.releaseLayer g c k.layer) s

/-- Some result of a core is in flight, a SIGNAL that it has sent among them (R158). -/
def State.resultsOut (s : State) (c : Nat) : Bool :=
  s.landings.any (fun l => match l.eff with | .signalFlag _ d => d == c | _ => l.core == c)

/-- A core that has decoded HALT, with its queues empty and its results landed, has finished its part (R158; 17 R391). -/
def execCoreFinished (core : CoreId) (s : State) : Host.Outcome State Fault Refusal :=
  let c := core.val
  let k := (s.core c).ctl
  if k.dec == .halted && !k.finished && !k.preStart && k.laneQ.isEmpty && k.vecQ.isEmpty && k.moveQ.isEmpty && !s.resultsOut c
  then
    let s := s.updCtl c (fun k => { k with finished := true })
    match s.slotOf c with
    | some g => .next ((s.releaseLayers g c).checkFinished g)
    | none => .next s
  else .next s

/-- The check tick of an item (Table 9.2). -/
def State.checkTick (s : State) : CheckItem → Nat
  | .transfer c _ due => (s.core c.val).ctl.s0 + due - 16
  | .frontier _ t => t
  | .outbound c _ due => (s.core c.val).ctl.s0 + due - 16
  | .conflict t => t - 16

/-- The check of one item, which the clock makes of every item at the end of its check tick: it is late when it has not arrived by then.
The check of a tick's conflicts plans their held cycles (R208, R211). -/
def execLateItemCheck (item : CheckItem) (s : State) : Host.Outcome State Fault Refusal :=
  match item with
  | .conflict t =>
    .next (if s.clk.tick ≤ t ∧ t ≤ s.clk.tick + 16 then
        s.updClk (fun k => { k with conflicts := k.conflicts ++ [(t, s.foreseen t)] }) else s)
  | i => .next (if s.missing i && s.checkTick i ≤ s.clk.tick then s.addLate i (s.checkTick i) else s)

/-- The counter resumes 8 cycles after the last late item has arrived: the items that no longer bind it go (R210). -/
def execMuteRelease (s : State) : Host.Outcome State Fault Refusal :=
  .next (s.updClk (fun k => { k with late := k.late.filter (fun l => l.binds s.now) }))

/-- The DETAIL of a MUTE_TIMEOUT entry: the transfer id, frontier tick or cells of the late item (DESIGN CHOICE, log
entry 24). -/
def itemDetail : CheckItem → Nat
  | .transfer _ tid _ => tid.toNat
  | .frontier _ t => t
  | .outbound _ n _ => n
  | .conflict t => t

/-- A late item keeps the counter from its next tick (R210, R216). -/
def State.keepsHold (s : State) (l : LateItem) : Bool := l.arrived.isNone && decide (l.checkTick + 7 ≤ s.clk.tick)

/-- 2^j held cycles in a row: every step whose late item keeps the hold ends with MUTE_TIMEOUT; the item is logged (R216). -/
def execMuteTimeout (s : State) : Host.Outcome State Fault Refusal :=
  if 2 ^ s.pkg.muteExp ≤ s.clk.heldRun then
    .next ((s.clk.late.filter s.keepsHold).foldl (fun s l =>
      match itemCore l.item with
      | some c =>
        let g := (s.slotOf c).filter (fun g => (s.step' g).onCores)
        let s := s.logFault 0x00C0 8 2 g (match g with | some g => (s.step' g).num | none => 0) (BitVec.ofNat 16 c) 0xFFFF
          (itemDetail l.item)
        s.abortCore c .muteTimeout
      | none => s) s).pumpAll
  else .next s

/-- A decided change takes effect between tick T0 − 1 and T0; the counter holds for relock (R491, R214). -/
def execFrequencyChange (s : State) : Host.Outcome State Fault Refusal :=
  match s.clk.change with
  | some (t0, step) =>
    if t0 ≤ s.clk.tick + 1 then
      .next ((s.updClk (fun k => { k with change := none, fstep := step, locked := List.replicate 8 false })).addHold .frequency)
    else .next s
  | none => .next s

/-- Every course's PLL reports lock (R214; 20 R464). -/
def execPllLock (s : State) : Host.Outcome State Fault Refusal :=
  if s.clk.refclk then
    .next (((s.updClk (fun k => { k with locked := List.replicate 8 true })).dropHold .frequency).dropHold .lockLoss).pumpAll
  else .next s

/-- A scheduled party reads a bank of a core's scratchpad in the present tick. -/
def State.bankTaken (s : State) (c bank : Nat) : Bool :=
  s.usesNow.any (fun u => u.ports.contains (0, c, bank))

/-- The preview of the oldest queued BOWG of a core that has none: between ticks τ − 16 and τ − 9 its two list rows are read below every
scheduled read, and m is formed (R212; 05 R95). One that loses its bank yields. A BOWG due before tick 16 may be previewed before tick 0
(DEDUCED from R210, log entry 93). -/
def State.preview (s : State) (c : Nat) : State :=
  let k := (s.core c).ctl
  let sp := (s.core c).sp
  let todo := k.laneQ.filterMap (fun e => match e.instr with
    | .bowg _ _ list base _ _ el _ ssrc scale =>
      let t := e.tick
      if s.clk.previews.any (fun p => p.core == c && p.tick == t) then none
      else some (t, (resolveSa e.regs list 2).1, reg e.regs base.toNat, el.toNat + 1,
        if ssrc then some (scaleAddr e.regs scale) else none)
    | _ => none)
  match todo.head? with
  | some (t, row, base, n, scale) =>
    let due := k.s0 + t
    if (if k.preStart then t < 16 else due ≤ s.clk.tick + 16 && s.clk.tick + 9 ≤ due) && !s.bankTaken c (row % 32) && !s.bankTaken c ((row + 1) % 32) then
      match [row, row + 1].find? sp.rowBad with
      | some r => s.spFault c r
      | none =>
        let list := sp.row row ++ sp.row (row + 1)
        let rows := ((List.range n).filterMap (fun i => gatherAddr base (fieldN list (2 * i) 2))).map (· / 64)
        let pair := match scale with | some a => [a / 64, (a + 1) / 64] | none => []
        let m := max 1 (gatherCost (rows ++ pair))
        (s.updSp c (fun m => m.correct [row, row + 1])).updClk (fun k => { k with previews := k.previews ++ [⟨c, t, row, m⟩] })
    else s
  | none => s

/-- BOWG_PREVIEW (R212). -/
def execBowgPreview (core : CoreId) (s : State) : Host.Outcome State Fault Refusal := .next (s.preview core.val)

end Sys2Proof.Machine
end

