-- ==== Sys2Proof/Machine/LiveOps.lean ====
section
/-! DEFINITION. Live writes of package and port registers: they wait for a step start (24 R531). -/

namespace Sys2Proof.Machine

/-- POWER_LIMIT as written (21 Table 21.5). -/
def PowerSet.takeLimit (x : PowerSet) (v : Nat) : PowerSet := { x with plSust := bitsN v 10 0, plPeak := bitsN v 26 16 }

/-- POWER_CONTROL as written (21 Table 21.7); `held`: the fields of fixed-step mode stay. -/
def PowerSet.takeControl (x : PowerSet) (v : Nat) (held : Bool) : PowerSet :=
  { x with
    fOp := bitsN v 3 0, fFloor := bitsN v 7 4, voiceMap := BitVec.ofNat 16 (bitsN v 23 8)
    fixedFstep := if held then x.fixedFstep else bitsN v 27 24
    fixedState := if held then x.fixedState else bitsN v 30 28
    fixedVoicing := if held then x.fixedVoicing else bitsN v 33 32 }

/-- A locked partition has FIXED_STEP set (21 Table 21.7). -/
def State.fixedHeld (s : State) : Bool := (List.range 9).any (fun p => (s.part p).conf && (s.part p).fixedStep)

/-- SHARE_LO (`hi` false) or SHARE_HI as written: four shares and STRICT bits (24 Table 24.6). -/
def Port.takeShares (k : Port) (hi : Bool) (v : Nat) : Port :=
  let put {α : Type} (old new : List α) : List α := if hi then old.take 4 ++ new else new ++ old.drop 4
  { k with
    shares := put k.shares ((List.range 4).map (fun i => bitsN v (16 * i + 8) (16 * i)))
    strict := put k.strict ((List.range 4).map (fun i => bitN v (16 * i + 15))) }

/-- One live write of a package or port register takes effect: DEFROW, POWER_LIMIT, POWER_CONTROL, SHARE_LO, SHARE_HI. -/
def State.applyLive (s : State) (p : Nat × Nat) : State :=
  let o := p.1
  let v := p.2
  if o = 0x1020 then { s with dir := { s.dir with defRow := BitVec.ofNat 32 v } }
  else if o = 0x2000 then s.updPower (fun x => { x with set := x.set.takeLimit v })
  else if o = 0x2008 then s.updPower (fun x => { x with set := x.set.takeControl v s.fixedHeld })
  else if 0x10000 ≤ o ∧ o < 0x18000 then s.updPort (o / 0x1000 - 0x10) (fun k => k.takeShares (o % 0x1000 == 0x28) v)
  else s

/-- A live write takes effect; all but DEFROW are retained settings (22 R505, R506). -/
def State.takeLive (s : State) (p : Nat × Nat) : State :=
  let s := s.applyLive p
  if p.1 = 0x1020 then s else s.updMaint (fun m => { m with dirty := true })

/-- At a step start the waiting live writes take effect. -/
def State.pkgLiveIn (s : State) : State :=
  { s.pkg.live.foldl State.takeLive s with pkg := { s.pkg with live := [] } }

/-- A live write waits while its group or port is `used`; otherwise it takes effect at once. -/
def State.liveReg (s : State) (used : Bool) (o v : Nat) : State :=
  if used then { s with pkg := { s.pkg with live := s.pkg.live ++ [(o, v)] } } else s.takeLive (o, v)

/-- A port as it will stand once its waiting writes have taken effect. -/
def State.portAhead (s : State) (p : Nat) : Port :=
  (s.pkg.live.foldl State.applyLive s).port p

end Sys2Proof.Machine
end

