-- ==== Sys2Proof/Machine/GroupOps.lean ====
section
/-! DEFINITION. The serving controller between steps: live fields, voicings, budgets, admission, selection, spills and
reloads, the swap point, and the start of a step (14 R331 to R339; 15 R342, R550; 17 R390; 18 R417, R421; 21 R486, R487; 24 R531). -/

namespace Sys2Proof.Machine

/-! ### Live fields (24 R531, R543) -/

/-- Takes one live field: at its offset of Table 24.12; a budget field at 2^20 + 32 × customer + byte; a stop-set byte at
2^24 + 256 × set + byte. -/
def Group.applyLive (k : Group) (p : Nat × Nat) : Group :=
  let o := p.1
  let v := p.2
  if 2 ^ 24 ≤ o then
    let i := (o - 2 ^ 24) / 256
    let set := (sliceB (Recs.get [] k.serve.stopSets i) 0 256).set ((o - 2 ^ 24) % 256) (BitVec.ofNat 8 v)
    { k with serve := { k.serve with stopSets := Recs.put k.serve.stopSets i set } }
  else if 2 ^ 20 ≤ o then
    let c := (o - 2 ^ 20) / 32
    let b := Recs.get Budget.zero k.serve.budgets c
    let b := match (o - 2 ^ 20) % 32 with
      | 0 => { b with allow := v }
      | 16 => { b with ftg := v }
      | 20 => { b with valid := bitN v 0 }
      | _ => b
    { k with serve := { k.serve with
        budgets := Recs.put k.serve.budgets c { b with paused := b.allow != 2 ^ 32 - 1 && decide (b.allow ≤ b.used) } } }
  else match o with
    | 0x30 => { k with reserve := v % 65536 }
    | 0x38 => { k with eosId := BitVec.ofNat 32 v }
    | 0x3C => { k with serveEntry := v % 64 }
    | 0x708 => { k with seed := BitVec.ofNat 64 v }
    | _ =>
      if 0x60 ≤ o ∧ o < 0xA0 then
        let i := (o - 0x60) / 16
        let (b, t, p, d) := k.voices.getD i (1, 0, 0, 0)
        let x := if (o - 0x60) % 16 = 0 then (v % 65536, v / 65536 % 2 ^ 20, p, d) else (b, t, v % 2 ^ 32, v / 2 ^ 32)
        { k with voices := k.voices.set i x }
      else if 0x714 ≤ o ∧ o < 0x800 then { k with params := Tab.set 0 k.params ((o - 0x700) / 4) (BitVec.ofNat 32 v) }
      else k

/-- Writes a live field: at once while the group is not formed, otherwise at the next step start. -/
def State.liveWrite (s : State) (g o v : Nat) : State :=
  s.updGroup g (fun k => if k.formed then { k with live := k.live ++ [(o, v)] } else k.applyLive (o, v))

/-- The waiting live fields take effect. -/
def State.liveIn (s : State) (g : Nat) : State :=
  s.updGroup g (fun k => { k.live.foldl Group.applyLive k with live := [] })

/-! ### Voicings (09 R221; 21 R486, R487) -/

/-- The voicing that runs when `want` is chosen: it, the nearest present one with a higher number, or the highest. -/
def Image.voicingFor (m : Image) (entry want : Nat) : Nat :=
  let vs := (m.entries.filter (fun (e : Nat × Nat × Voicing) => e.1 == entry)).map (fun (e : Nat × Nat × Voicing) => e.2.1)
  match (vs.filter (want ≤ ·)) with
  | v :: l => l.foldl min v
  | [] => vs.foldl max 0

/-- The budget state of a group (21 R486). -/
def State.groupBudget (s : State) (g : Nat) : Nat :=
  (s.group g).serve.budgetStates.foldl (fun m (p : Nat × Nat) => max m p.2) s.budgetNow

/-- The voicing of the next step of a group (21 R487; 19 R452). -/
def State.nextVoicing (s : State) (g entry : Nat) : Nat :=
  let want := if (s.part (s.group g).owner).fixedStep then s.power.set.fixedVoicing
    else s.power.set.voiceMap.toNat / 4 ^ s.groupBudget g % 4
  (s.image g).voicingFor entry want

/-! ### Budgets (14 R339) -/

/-- The window of a time. -/
def Group.window (k : Group) (t : Nat) : Nat := (t - k.winT0) / max 1 k.winL

/-- The roll-over into window k. -/
def Budget.roll (b : Budget) (k : Nat) : Budget :=
  if b.win < k then
    let carry := (b.used - b.allow) - (k - b.win - 1) * b.allow
    { b with used := carry, debt := carry, win := k }
  else b

/-- PAUSED, recomputed. -/
def Budget.repause (b : Budget) : Budget := { b with paused := b.allow != 2 ^ 32 - 1 && decide (b.allow ≤ b.used) }

/-- Charges tokens committed in window k. -/
def Budget.charge (b : Budget) (k n : Nat) : Budget :=
  let b := b.roll k
  Budget.repause { b with used := satNat (2 ^ 32 - 1) (b.used + n), total := satNat (2 ^ 64 - 1) (b.total + n) }

/-- A customer's budget entry. -/
def Serve.budget (v : Serve) (c : Nat) : Budget := Recs.get Budget.zero v.budgets c

/-- The roll-over of a step start, for every paused customer. -/
def State.rollBudgets (s : State) (g : Nat) : State :=
  let k := (s.group g).window s.station
  s.updServe g (fun v => { v with budgets := v.budgets.map (fun (p : Nat × Budget) =>
    if p.2.paused then (p.1, (p.2.roll k).repause) else p) })

/-! ### Admission (14 R332 to R334) -/

/-- The generation that admission accepts: NEXT once the swap point is fixed (17 R390). -/
def Group.admits (k : Group) : Option Nat :=
  if k.swap.phase == .fixed then some (k.swap.nextGen.toNat % 256) else k.serve.gen.map (·.num.toNat % 256)

/-- The request of a submission (Table 18.4). -/
def NewReq.req (n : NewReq) : Req :=
  let f (o w : Nat) : Nat := fieldN n.bytes o w
  { Req.empty with
    id := BitVec.ofNat 32 (f 8 4), cust := f 12 2 % 16384, acancel := bitN (f 1 1) 0, hold := bitN (f 1 1) 1
    spec := f 14 1, stopset := f 3 1, seed := BitVec.ofNat 64 (f 16 8), mgen := f 15 1, prompt := f 24 3, maxnew := f 28 3
    ring := f 2 1, func := n.sub.func, unrun := n.prompt, deadline := BitVec.ofNat 32 (f 32 4), ftg := f 36 4, sub := n.sub }

/-- The first cause of Table 14.4 that applies; 0 for none. `isNew`: it holds no entry yet. -/
def State.admitCause (s : State) (g : Nat) (r : Req) (isNew : Bool) : Nat :=
  let k := s.group g
  let v := k.serve
  let b := v.budget r.cust
  let others := v.reqs.filter (fun (p : Nat × Req) => p.2.state != .free && (isNew || p.2.id != r.id))
  let free := k.kvG - v.taken.length
  let q := (v.reqs.filter (fun (p : Nat × Req) => p.2.state == .admitted || p.2.state == .prefill)).foldl
    (fun n (p : Nat × Req) => n + p.2.unrun.length) 0
  let (_, _, pt, dt) := k.voices.getD (s.nextVoicing g k.serveEntry) (1, 0, 0, 0)
  let goal := 1000 * (if r.ftg = 0 then b.ftg else r.ftg)
  if !b.valid then 4
  else if r.prompt = 0 ∨ r.maxnew = 0 ∨ 4 < r.spec ∨ !bitN (fieldN (Recs.get [] v.stopSets r.stopset) 164 1) 0 ∨
      523776 < r.prompt + r.maxnew + r.spec then 5
  else if k.admits != some r.mgen then 6
  else if isNew && others.any (fun (p : Nat × Req) => p.2.id == r.id) then 7
  else if v.stopped then 8
  else if k.kvG < ceilDiv (r.prompt + r.maxnew + r.spec) 64 then 9
  else if isNew && decide (k.entries ≤ others.length) then 0xA
  else if r.acancel && decide (64 ≤ (others.filter (fun (p : Nat × Req) => p.2.acancel)).length) then 0xB
  else if b.paused then 1
  else if free < ceilDiv (r.prompt + min k.reserve r.maxnew + r.spec) 64 then 2
  else if goal ≠ 0 ∧ goal < (q + r.prompt) * pt + dt then 3
  else 0

/-- The deadline lies ahead of a time (R333). -/
def deadlineAhead (d : W32) (t : Nat) : Bool :=
  let n := (d - BitVec.ofNat 32 (t / 1024)).toNat
  d != 0 && decide (1 ≤ n) && decide (n < 2 ^ 31)

/-- Distance of a deadline from a time, as a signed circular number. -/
def deadlineRank (t : Nat) (d : W32) : Int := (d - BitVec.ofNat 32 (t / 1024)).toInt

/-- The lowest FREE entry (DESIGN CHOICE, log entry 30). -/
def Serve.freeEntry (v : Serve) : Nat :=
  ((List.range (v.reqs.length + 1)).find? (fun e => v.reqs.all (fun (p : Nat × Req) => p.1 != e))).getD 0

/-- The completion of a REQUEST (Tables 18.5, 18.6); a function that has been reset gets none (18 R398). -/
def State.answerRequest (s : State) (r : Req) (code : Nat) (final : Bool) (step : W64) : State :=
  if r.quiet then s else s.complete r.sub (complBytes 1 code final r.sub.tag r.id.toNat 0 step s.station)

/-- Admits, defers or rejects one request; `slot` is its entry when it is DEFERRED. -/
def State.admitOne (s : State) (g : Nat) (r : Req) (slot : Option Nat) : State :=
  let step := (s.group g).stepLast + 1
  let cause := s.admitCause g r slot.isNone
  let e := slot.getD (s.group g).serve.freeEntry
  if cause = 0 then
    let s := s.updServe g (fun v => { v with
      nextOrder := v.nextOrder + 1
      reqs := Recs.put v.reqs e { r with state := .admitted, list := 0, lastStep := step.setWidth 32, order := v.nextOrder } })
    s.answerRequest r 0 true step
  else if cause < 4 && deadlineAhead r.deadline s.station then
    match slot with
    | some _ => s
    | none =>
      let s := s.updServe g (fun v => { v with
        nextOrder := v.nextOrder + 1
        reqs := Recs.put v.reqs e { r with state := .deferred, list := r.deadline, order := v.nextOrder } })
      s.answerRequest r cause false step
  else
    let s := match slot with
      | some e => s.updServe g (fun v => { v with reqs := v.reqs.filter (fun (p : Nat × Req) => p.1 != e) })
      | none => s
    s.answerRequest r (cause + 128) true step

/-- Admission: DEFERRED requests by deadline, then the submissions fetched since, by ring and in ring order (R332). -/
def State.admission (s : State) (g : Nat) : State :=
  let v := (s.group g).serve
  let waiting := sortBy (fun (a b : Nat × Req) =>
      decide (deadlineRank s.station a.2.deadline < deadlineRank s.station b.2.deadline) ||
        (deadlineRank s.station a.2.deadline == deadlineRank s.station b.2.deadline && decide (a.2.order ≤ b.2.order)))
    (v.reqs.filter (fun (p : Nat × Req) => p.2.state == .deferred))
  let news := sortBy (fun (a b : NewReq) => decide (a.sub.ring ≤ b.sub.ring)) v.news
  let s := waiting.foldl (fun s (p : Nat × Req) => s.admitOne g p.2 (some p.1)) s
  (news.foldl (fun s n => s.admitOne g n.req none) s).updServe g (fun v => { v with news := [] })

/-! ### Spill and reload (14 R331, R335 to R337; 19 R449, R450) -/

/-- Places of every member of a group. -/
def Group.places (k : Group) : List Place := k.members.map (·.place)

/-- A spill of an IDLE request starts: every member is to write its records. -/
def State.startSpill (s : State) (g e : Nat) (sub : Option SubRef) : State :=
  let k := s.group g
  let r := s.req g e
  let set := k.serve.nextSpill
  let s := s.updServe g (fun v => { v with nextSpill := v.nextSpill + 1 }.updReq e (fun r => { r with
    state := .spilling, waitOn := k.places, waitSub := sub, spillPages := r.pages.length, spillGens := none, spillSet := set }))
  if (s.others g).isEmpty then s else s.ctl (.spill g r.id set r.pages)

/-- The current spill-key generation of a slot. -/
def State.spillGen (s : State) (g : Nat) : Nat := (Recs.get SpillKeys.reset s.sec.spill g).gen

/-- A reload of a SPILLED request: a spill set of a retired generation ends it (19 R450); otherwise fresh page groups are
allocated and every member restores its pages. With too few free groups it stays SPILLED until there are enough (DESIGN
CHOICE, log entry 31). -/
def State.startReload (s : State) (g e : Nat) (sub : Option SubRef) : State :=
  let k := s.group g
  let r := s.req g e
  let retired := match r.spillGens with | some (old, _) => decide (old + 1 < s.spillGen g) | none => false
  if retired then
    let s := match sub with
      | some x => s.complete x (complBytes 5 1 true x.tag r.id.toNat 0 0 s.station)
      | none => s
    (s.updReq g e (fun r => { r with waitSub := none })).endReq g e 7
  else
    match k.lowestFree r.spillPages with
    | none => s.updReq g e (fun r => { r with waitSub := sub })
    | some ps =>
      let s := (s.updReq g e (fun r => { r with state := .reloading, waitOn := k.places, waitSub := sub })).giveGroups g e ps
      if (s.others g).isEmpty then s else s.ctl (.reload g r.id r.spillSet ps)

/-! ### Selection (15 R342) -/

/-- The selection as it goes: state, rows taken, rows of the batch table used, prefill tokens left, DECODE requests left out
for want of a page group, and whether it has stopped. -/
structure Sel where
  s : State
  rows : List BatchRow
  used : Nat
  ptok : Nat
  leftOut : List Nat
  stop : Bool

/-- Offers one request to the selection. -/
def Sel.offer (x : Sel) (g batch : Nat) (pre : Bool) (e : Nat) : Sel :=
  let r := x.s.req g e
  let count := if pre then min r.unrun.length x.ptok else 1 + r.drafts.length
  let n := ceilDiv (r.pos + count + r.spec) 64
  let rows := 1 + ceilDiv n 8
  if x.stop || decide (batch ≤ x.rows.length) || (pre && x.ptok == 0) || decide (1024 < x.used + rows) then
    { x with stop := true }
  else match (x.s.group g).lowestFree (n - r.pages.length) with
    | none => { x with leftOut := x.leftOut ++ [e] }
    | some ps =>
      { x with
        s := (x.s.giveGroups g e ps).updReq g e (fun r => if r.state == .admitted then { r with state := .prefill } else r)
        rows := x.rows ++ [⟨e, r.id, r.pos, pre, count, r.spec, pre && count == r.unrun.length⟩]
        used := x.used + rows, ptok := if pre then x.ptok - count else x.ptok }

/-- The requests that selection may take: customer not paused, room in the function's output buffer, of the generation in
force. -/
def State.selectable (s : State) (g : Nat) : List (Nat × Req) :=
  let v := (s.group g).serve
  v.reqs.filter (fun (p : Nat × Req) =>
    !(v.budget p.2.cust).paused && decide ((s.func p.2.func).tqBuf.length ≤ 2048) &&
      v.gen.map (·.num.toNat % 256) == some p.2.mgen &&
      (p.2.state == .admitted || p.2.state == .prefill || p.2.state == .decode))

/-- Selects the requests of a step in voicing v: DECODE by last step, then prefill in admission order. When every DECODE
request is left out for want of page groups, the oldest IDLE request is spilled, or the most recently admitted DECODE
request ends with PAGES_EXHAUSTED (R331). -/
def State.select (s : State) (g v : Nat) : State × List BatchRow :=
  let (batch, ptok, _, _) := (s.group g).voices.getD v (1, 0, 0, 0)
  let all := s.selectable g
  let byOrder (l : List (Nat × Req)) := sortBy (fun (a b : Nat × Req) => decide (a.2.order ≤ b.2.order)) l
  let dec := all.filter (fun (p : Nat × Req) => p.2.state == .decode)
  let plain := sortBy (fun (a b : Nat × Req) => decide (a.2.lastStep.toNat ≤ b.2.lastStep.toNat))
    (dec.filter (fun (p : Nat × Req) => p.2.unrun.isEmpty))
  let pre := byOrder (all.filter (fun (p : Nat × Req) => p.2.state == .prefill)) ++
    byOrder (all.filter (fun (p : Nat × Req) => p.2.state == .admitted)) ++
    byOrder (dec.filter (fun (p : Nat × Req) => !p.2.unrun.isEmpty))
  let x : Sel := ⟨s, [], 0, ptok, [], false⟩
  let x := plain.foldl (fun x (p : Nat × Req) => x.offer g batch false p.1) x
  let x := pre.foldl (fun x (p : Nat × Req) => x.offer g batch true p.1) x
  if dec.isEmpty || !dec.all (fun (p : Nat × Req) => x.leftOut.contains p.1) then (x.s, x.rows)
  else
    let idle := sortBy (fun (a b : Nat × Req) => decide (a.2.lastStep.toNat ≤ b.2.lastStep.toNat))
      ((x.s.group g).serve.reqs.filter (fun (p : Nat × Req) => p.2.state == .idle))
    match idle with
    | p :: _ => (x.s.startSpill g p.1 none, x.rows)
    | [] =>
      match (byOrder dec).getLast? with
      | some p => (x.s.endReq g p.1 6, x.rows)
      | none => (x.s, x.rows)

/-! ### The swap point (17 R390) -/

/-- Whether the swap point falls at this admission point: RESTART and a full load at the first, DRAIN when no request of the
old generation is active or the limit is reached. -/
def State.atSwapPoint (s : State) (g : Nat) : Bool :=
  let k := s.group g
  k.swap.phase == .fixed &&
    (k.swap.policy != 0 || decide (k.swap.limit ≤ 1) ||
      k.serve.reqs.all (fun (p : Nat × Req) =>
        !((p.2.state == .deferred || p.2.state == .admitted || p.2.state == .prefill || p.2.state == .decode) &&
          k.serve.gen.map (·.num.toNat % 256) == some p.2.mgen)))

/-- At the swap point every request of the old generation ends with MODEL_RESTART, NEXT becomes CURRENT, and the layers are
released unless a LAST_OLD step has run. -/
def State.swapPoint (s : State) (g : Nat) : State :=
  if s.atSwapPoint g then
    let old := (s.group g).serve.gen.map (·.num.toNat % 256)
    let s := (s.group g).serve.reqs.foldl (fun s (p : Nat × Req) =>
      if p.2.state != .free && old == some p.2.mgen then s.endReq g p.1 0x0C else s) s
    let w := (s.group g).swap
    let s := s.updGroup g (fun k => { k with
      serve := { k.serve with gen := some ⟨w.nextGen, w.nextDigest⟩ }
      swap := { k.swap with phase := .loading, lastOldRunning := false } })
    if w.released.isEmpty then
      let s := if (s.others g).isEmpty then s else s.ctl (.releaseAll g)
      s.releaseEvery g
    else s
  else s

/-! ### Starting a step -/

/-- The rows of the batch table (14 R330). -/
def State.batchBytes (s : State) (g : Nat) (rows : List BatchRow) : List (List Byte) :=
  rows.flatMap (fun b =>
    let n := ceilDiv (b.pos + b.count + b.spec) 64
    let pages := (s.req g b.entry).pages.take n
    let head := leBytes 4 b.entry ++ leBytes 3 b.pos ++ leBytes 1 (b01 b.prefill) ++ leBytes 3 b.count ++ leBytes 1 b.spec ++
      leBytes 4 n
    sliceB head 0 64 :: (List.range (ceilDiv n 8)).map (fun i =>
      sliceB (((pages.drop (8 * i)).take 8).flatMap (fun p => leBytes 8 (p + 2 ^ 32 * s.pageGen g p))) 0 64))

/-- The cells of a batch table for logical core 0 of a package of the group, on CTL (14 R330). -/
def State.tableCells (s : State) (g : Nat) (dest : Place) (tid : BitVec 12) (rows : List (List Byte)) : List InCell :=
  (List.range (2 * rows.length)).map (fun i =>
    (⟨8, 1, { dest := dest, core := 0, vc := 1, epoch := s.epochBit == 1, cls := 0
              tenant := BitVec.ofNat 3 (s.part (s.group g).owner).tenant, tid := tid, index := BitVec.ofNat 11 i
              last := i + 1 == 2 * rows.length, mark := .none
              payload := sliceB (rows.getD (i / 2) []) (32 * (i % 2)) 32 }⟩ : InCell))

/-- Sends the batch table to logical core 0 of every member: here by the mesh (14 R330). -/
def State.sendBatch (s : State) (g : Nat) : State :=
  let k := s.group g
  let rows := s.batchBytes g (s.step' g).batch
  if rows.isEmpty then s
  else
    let s := { s with mesh := s.mesh ++ s.tableCells g s.place k.btTid rows }
    if (s.others g).isEmpty then s else s.ctl (.batchTable g k.btTid rows)

/-- The input list of a batch, in batch-table order (18 R417). -/
def State.inputList (s : State) (g : Nat) (rows : List BatchRow) : List W32 :=
  rows.flatMap (fun b =>
    let r := s.req g b.entry
    if b.prefill then r.unrun.take b.count else r.lastTok :: r.drafts)

/-- Sends a step's start, batch table and input list; without a window for the list the step is stopped with HOST_DMA
(09 R219; 14 R330; 18 R417). -/
def State.launch (s : State) (g : Nat) : State :=
  let k := s.group g
  let r := s.step' g
  let s := if (s.others g).isEmpty then s
    else s.ctl (.stepStart g r.num r.entry r.voicing r.seed r.params r.replay k.swap.lastOldRunning)
  let w := (s.func k.owner).win k.inputWin
  let fail (s : State) (d : Nat) : State :=
    (s.logFault 0x00A0 6 (if 3 ≤ r.stops then 2 else 1) (some g) r.num 0xFFFF 0xFFFF d).stopStep g 0x00A0
  if r.input.isEmpty then s.sendBatch g
  else if w.len = 0 then fail s 1
  else if w.len < 4 * r.input.length then fail s 2
  else (s.hostWrite k.owner w.base (r.input.flatMap (fun t => leBytes 4 t.toNat))).sendBatch g

/-- The frequency step of the next step start (Table 21.10; in fixed-step mode 19 R452), none where it stays. -/
def State.freqWanted (s : State) : Option Nat :=
  let p := s.power
  let now := match s.clk.change with | some (_, n) => n | none => s.clk.fstep
  let want :=
    if (List.range 9).any (fun q => (s.part q).fixedStep) then p.set.fixedFstep
    else if p.set.fOp < now then p.set.fOp
    else if p.emergency then now
    else if p.raiseDue then min (now + 1) p.set.fOp
    else if 100 ≤ p.sevenCount ∧ p.set.fFloor < now then now - 1
    else if 1000 ≤ p.fiveCount ∧ now < p.set.fOp then now + 1
    else now
  if want = now then none else some want

/-- The power manager's decision at a step start (21 R490). -/
def State.freqAtStart (s : State) : State :=
  let s' := match s.freqWanted with | some n => s.decideFreq n | none => s
  s'.updPower (fun p => { p with raiseDue := false })

/-- The step of a slot as it starts on this package: the live writes take effect (24 R531), its cores begin to decode, and
it waits for its tick 0. -/
def State.begin (s : State) (g : Nat) (r : StepRun) : State :=
  (s.pkgLiveIn.freqAtStart.updStep g (fun old => { r with
    phase := .starting, s0 := s.clk.tick, startCycle := s.now, held := s.clk.heldTotal
    highest := if old.highest.toNat < r.num.toNat then r.num else old.highest })).beginDecode g

/-- A group may start a step here: not busy with one, a generation in force, room for its record, the directory ready where
its image looks keys up, for a serving group SYNCED set (16 R376; 17 R392; 18 R421; 21 R499). -/
def State.canStart (s : State) (g : Nat) : Bool :=
  let k := s.group g
  (k.solver || s.sync.synced) && k.formed && k.lead && !(s.step' g).busy && !(s.step' g).retryDue && k.serve.gen.isSome && (s.image g).loaded &&
    s.ringRoom k.owner 193 && (s.func k.owner).recWait.isEmpty &&
    (s.dir.ready || !(s.image g).words.any (fun w => w.toNat % 256 == 0x6C))

/-- A serving step starts (15 R550; 10 R231). -/
def State.startServing (s : State) (g v : Nat) (rows : List BatchRow) : State :=
  let k := s.group g
  let num := k.stepLast + 1
  let input := s.inputList g rows
  let drain := k.swap.phase == .fixed
  let s := s.updGroup g (fun k => { k with
    stepLast := num
    serve := { k.serve with tokH := 0, tokN := 0, pausedNow := [], pauses := [] }
    swap := if drain then { k.swap with limit := k.swap.limit - 1, lastOldRunning := k.swap.limit - 1 == 1 } else k.swap })
  (s.begin g { StepRun.idle with
    num := num, entry := k.serveEntry, voicing := v, seed := k.seed, params := k.params, batch := rows, input := input
    serving := true }).launch g

/-- The boundaries of 15 R362 that lie before selection. -/
def State.admissionBoundary (s : State) (g : Nat) : State :=
  (s.group g).serve.reqs.foldl (fun s (p : Nat × Req) =>
    if p.2.state == .cancelPending && p.2.boundary == some .admission then s.endReq g p.1 5 else s) s

/-- No step starts at this admission point: every CANCEL_PENDING request is freed (15 R362). -/
def State.noStart (s : State) (g : Nat) : State :=
  (s.group g).serve.reqs.foldl (fun s (p : Nat × Req) =>
    if p.2.state == .cancelPending then s.endReq g p.1 5 else s) s

/-- Without a generation in force every request ends with STEP_FAILED (17 R392). -/
def State.noGeneration (s : State) (g : Nat) : State :=
  if (s.group g).serve.gen.isSome then s
  else (s.group g).serve.reqs.foldl (fun s (p : Nat × Req) => if p.2.state != .free then s.endReq g p.1 0x0A else s) s

/-- Reloads that wait for page groups are tried again. -/
def State.retryReloads (s : State) (g : Nat) : State :=
  (s.group g).serve.reqs.foldl (fun s (p : Nat × Req) =>
    if p.2.state == .spilled && (p.2.waitSub.isSome || (s.group g).serve.conts.any (fun c => c.2.1 == p.2.id)) then
      s.startReload g p.1 p.2.waitSub
    else s) s

/-- The actions of an admission point of a serving group (14 R549), in the order of log entry 32. -/
def State.servePoint (s : State) (g : Nat) : State :=
  let s := ((((s.liveIn g).admissionBoundary g).swapPoint g).rollBudgets g).noGeneration g
  let s := (s.retryReloads g).admission g
  let v := s.nextVoicing g (s.group g).serveEntry
  if s.canStart g && (s.group g).stepLast != 0xFFFFFFFFFFFFFFFF then
    match s.select g v with
    | (s, []) => s.noStart g
    | (s, rows) => s.startServing g v rows
  else s.noStart g

end Sys2Proof.Machine
end

