-- ==== Sys2Proof/Machine/CommitOps.lean ====
section
/-! DEFINITION. The commit phase: proposals, token choice, verification, stopping, charging and records (15 R343 to R358),
and the registration of cancels (15 R359 to R363). -/

namespace Sys2Proof.Machine

/-! ### Proposal blocks (R344 to R346) -/

/-- A proposal header (Table 15.2). -/
structure Proposal where
  entry : Nat
  id : Nat
  pos : Nat
  mode : Nat
  nl : Nat
  k : Nat
  kd : Nat
  heads : Nat
  /-- Bytes 16 to 63 are 0. -/
  clean : Bool

/-- The header of a row. -/
def Proposal.ofRow (r : List Byte) : Proposal :=
  ⟨fieldN r 0 4, fieldN r 4 4, fieldN r 8 3, fieldN r 11 1, fieldN r 12 1, fieldN r 13 1, fieldN r 14 1, fieldN r 15 1,
    (List.range 48).all (fun i => fieldN r (16 + i) 1 == 0)⟩

/-- Rows of one input's lists. -/
def Proposal.per (p : Proposal) : Nat := ceilDiv p.k 8 + p.heads

/-- Rows of the block (R345). -/
def Proposal.rows (p : Proposal) : Nat := 1 + p.nl * p.per

/-- The fields that fix the block's length lie in their ranges (R346). -/
def Proposal.readable (p : Proposal) : Bool :=
  decide (1 ≤ p.nl) && decide (p.nl ≤ 5) && decide (1 ≤ p.k) && decide (p.k ≤ 64) && decide (p.heads ≤ 4) &&
    (p.heads == 0 || (decide (1 ≤ p.kd) && decide (p.kd ≤ 8)))

/-- The proposal block at the head of PROP_REGION of logical core 0: its header and rows; none where it cannot be read. -/
def State.proposal (s : State) (g : Nat) : Option (Proposal × List (List Byte)) :=
  match s.physOf 0 with
  | none => none
  | some c =>
    let sp := (s.core c).sp
    let d := sp.circAt (s.group g).propRegion
    if d.count = 0 then none
    else
      let p := Proposal.ofRow ((ringRows d d.head 1).flatMap sp.row)
      if p.readable && decide (p.rows ≤ d.count) then some (p, (ringRows d d.head p.rows).map sp.row) else none

/-- The controller's read of the block: errors are corrected and counted; an uncorrectable row delivers nothing, so that no header can be
read (05 R109, R110; the spec does not say how a step in its commit phase goes on: DEDUCED, log entry 101). -/
def State.readProposal (s : State) (g : Nat) : Option (Proposal × List (List Byte)) × State :=
  match s.physOf 0 with
  | none => (none, s)
  | some c =>
    let sp := (s.core c).sp
    let d := sp.circAt (s.group g).propRegion
    let rows := ringRows d d.head (match s.proposal g with | some (p, _) => p.rows | none => min 1 d.count)
    match rows.find? sp.rowBad with
    | some r => (none, s.spFault c r)
    | none => (s.proposal g, s.updSp c (fun m => m.correct rows))

/-- Releases a block that has been read (R344). -/
def State.releaseBlock (s : State) (g n : Nat) : State :=
  match s.physOf 0 with
  | none => s
  | some c =>
    let q := (s.group g).propRegion
    s.updSp c (fun m =>
      let d := m.circAt q
      { m with circ := Recs.put m.circ q { d with
          head := if d.size = 0 then 0 else (d.head + n) % d.size, count := d.count - n } })

/-- Candidates of a list: (token id, weight). -/
def candidates (bytes : List Byte) (n : Nat) : List (W32 × W32) :=
  (List.range n).map (fun j => (BitVec.ofNat 32 (fieldN bytes (8 * j) 4), BitVec.ofNat 32 (fieldN bytes (8 * j + 4) 4)))

/-- Main list i of a block. -/
def Proposal.main (p : Proposal) (rows : List (List Byte)) (i : Nat) : List (W32 × W32) :=
  candidates ((rows.drop (1 + i * p.per)).take (ceilDiv p.k 8)).flatten p.k

/-- Draft list of head h at input i. -/
def Proposal.draft (p : Proposal) (rows : List (List Byte)) (i h : Nat) : List (W32 × W32) :=
  candidates (rows.getD (1 + i * p.per + ceilDiv p.k 8 + (h - 1)) []) p.kd

/-! ### Choosing a token (R347, R348) -/

/-- The integer weight of a candidate. -/
def weightQ (c : W32 × W32) : Nat :=
  if c.1 = 0xFFFFFFFF then 0
  else match Fmt.fp32.decode c.2.toNat with
    | .nan => 0
    | .inf neg => if neg then 0 else 2 ^ 32 - 1
    | .num neg m e => if neg then 0 else min (roundMag .tz 0 false m (e + 24)).1 (2 ^ 32 - 1)

/-- The least candidate whose running sum exceeds r. -/
def pickBelow (r : Nat) : Nat → List (W32 × W32) → Option W32
  | _, [] => none
  | n, c :: l => if r < n + weightQ c then some c.1 else pickBelow r (n + weightQ c) l

/-- Resolves a list to a token with the draw u. -/
def chooseToken (sampled : Bool) (l : List (W32 × W32)) (u : Nat) : W32 :=
  let first := (l.headD (0, 0)).1
  let sum := l.foldl (fun n c => n + weightQ c) 0
  if !sampled || sum == 0 then first else (pickBelow (u * sum / 2 ^ 32) 0 l).getD first

/-! ### Verification (R349) -/

/-- Tentative tokens: t(0), and a further one for each accepted draft; `pick i` resolves main list i. -/
def verifyFrom (pick : Nat → W32) : Nat → List W32 → List W32
  | i, [] => [pick i]
  | i, d :: ds => if pick i = d then pick i :: verifyFrom pick (i + 1) ds else [pick i]

/-! ### Stopping (R354, R355) -/

/-- A stop sequence of a set. -/
def stopSeq (set : List Byte) (i : Nat) : List W32 :=
  (List.range (fieldN set (32 + 33 * i) 1)).map (fun j => BitVec.ofNat 32 (fieldN set (33 + 33 * i + 4 * j) 4))

/-- The completion code by which a new token stops its request, given the new tokens before it; 0 for none. -/
def stopCode (set : List Byte) (eos : W32) (maxnew count : Nat) (hist : List W32) (t : W32) : Nat :=
  let ids := (List.range 8).map (fun i => BitVec.ofNat 32 (fieldN set (4 * i) 4))
  let all := hist ++ [t]
  let ends (q : List W32) : Bool := !q.isEmpty && decide (q.length ≤ all.length) && all.drop (all.length - q.length) == q
  if t != 0xFFFFFFFF && ids.contains t then 1
  else if (List.range 4).any (fun i => ends (stopSeq set i)) then 2
  else if eos != 0xFFFFFFFF && t == eos then 3
  else if maxnew ≤ count + 1 then 4
  else 0

/-- Applies the stop conditions in position order: the tokens that remain, the history, and the stop code. -/
def stopAt (set : List Byte) (eos : W32) (maxnew : Nat) : Nat → List W32 → List W32 → List W32 × List W32 × Nat
  | _, hist, [] => ([], hist, 0)
  | count, hist, t :: ts =>
    let code := stopCode set eos maxnew count hist t
    let hist' := (hist ++ [t]).drop (hist.length + 1 - 7)
    if code != 0 then ([t], hist', code)
    else
      let (l, h, c) := stopAt set eos maxnew (count + 1) hist' ts
      (t :: l, h, c)

/-! ### Commit (R352) -/

/-- Charges a customer and notes the pause (R339, R355). -/
def State.chargeTokens (s : State) (g cust n : Nat) : State :=
  let k := s.group g
  let b := k.serve.budget cust
  let b' := b.charge (k.window (s.step' g).commitTime) n
  s.updServe g (fun v => { v with
    budgets := Recs.put v.budgets cust b'
    pausedNow := if b'.paused && !b.paused && !v.pausedNow.contains cust then v.pausedNow ++ [cust] else v.pausedNow })

/-- Feeds a committed token to the token digest (R358). -/
def State.feedToken (s : State) (g : Nat) (id : W32) (pos : Nat) (t : W32) : State :=
  let k := s.group g
  if k.tpoint = 0 then s
  else
    let c := digestCoeff64 (digestKey k.salt k.tpoint) (BitVec.ofNat 64 (id.toNat * 2 ^ 32 + pos))
    s.updServe g (fun v => { v with tokH := (v.tokH + c * t.toNat) % digestMod, tokN := v.tokN + 1 })

/-- Writes the records of committed tokens from a position; the first `drafts` of them are accepted drafts. -/
def State.tokenOut (s : State) (g e : Nat) : Nat → Nat → List W32 → State
  | _, _, [] => s
  | pos, drafts, t :: ts =>
    State.tokenOut (((s.reqRecord g e t.toNat pos (if drafts = 0 then 0 else 4))).feedToken g (s.req g e).id pos t) g e
      (pos + 1) (drafts - 1) ts

/-- An invalid proposal: the request commits nothing and ends with BAD_PROPOSAL; in CANCEL_PENDING it is freed at its
boundary (R346, R362). -/
def State.badProposal (s : State) (g e : Nat) : State :=
  if (s.req g e).state == .cancelPending then
    if (s.req g e).ended then s else (s.endRecord g e 9).updReq g e (fun r => { r with ended := true })
  else s.endReq g e 9

/-- Commits the tokens of a valid proposal (R349 to R356). `base` is the position of the first new token. -/
def State.commitTokens (s : State) (g : Nat) (b : BatchRow) (base : Nat) (p : Proposal) (rows : List (List Byte)) : State :=
  let e := b.entry
  let r := s.req g e
  let k := s.group g
  let sampled := p.mode % 2 == 1
  let pick (i : Nat) : W32 :=
    chooseToken sampled (p.main rows i) (requestDraw r.seed 8 0 (base + i)).x0.toNat
  let tent := verifyFrom pick 0 (if b.prefill then [] else r.drafts)
  let a := tent.length - 1
  let (kept, hist, code) := stopAt (Recs.get [] k.serve.stopSets r.stopset) k.eosId r.maxnew r.newCount r.hist tent
  let count := r.newCount + kept.length
  let drafts := if code != 0 then [] else
    (List.range (min r.spec (r.maxnew - count - 1))).map (fun h =>
      chooseToken sampled (p.draft rows a (h + 1)) (requestDraw r.seed 9 (h + 1) (base + a + (h + 1))).x0.toNat)
  let s := s.chargeTokens g r.cust kept.length
  let s := s.tokenOut g e base a kept
  let s := s.updReq g e (fun r => { r with
    pos := base + kept.length, newCount := count, hist := hist, drafts := drafts, lastTok := kept.getLast?.getD r.lastTok
    lastStep := (s.step' g).num.setWidth 32, unrun := if b.prefill then r.unrun.drop b.count else r.unrun
    state := if r.state == .prefill then .decode else r.state })
  let s := s.updStep g (fun x => { x with committed := x.committed + b01 (!kept.isEmpty) })
  if code = 0 then s else s.stopReq g e code

/-- Commits one row of the batch table (R343, R346, R352). -/
def State.commitRow (s : State) (g : Nat) (b : BatchRow) : State :=
  let r := s.req g b.entry
  let live := r.state != .free && r.id == b.id
  let needs := !b.prefill || b.last
  let base := if b.prefill then b.pos + b.count else b.pos
  if (s.step' g).unreadable then (if live then s.badProposal g b.entry else s)
  else if live && !needs then
    s.updReq g b.entry (fun r => { r with
      pos := r.pos + b.count, unrun := r.unrun.drop b.count, lastStep := (s.step' g).num.setWidth 32 })
  else if !needs then s
  else match s.readProposal g with
    | (none, s) =>
      let s := s.updStep g (fun x => { x with unreadable := true })
      if live then s.badProposal g b.entry else s
    | (some (p, rows), s) =>
      let s := s.releaseBlock g p.rows
      let nl := if b.prefill then 1 else 1 + r.drafts.length
      let good := p.entry == b.entry && p.id == b.id.toNat && p.pos == base && p.nl == nl && p.heads == r.spec &&
        decide (p.mode < 2) && p.clean && (p.heads != 0 || p.kd == 0)
      if !live then s
      else if good then s.commitTokens g b base p rows
      else s.badProposal g b.entry

/-- The entries whose PAUSE records close the commit phase: batch-table order first, then entry order (R355). -/
def State.pauseList (s : State) (g : Nat) : List Nat :=
  let v := (s.group g).serve
  let paused (e : Nat) : Bool := let r := v.req e; r.state == .decode && v.pausedNow.contains r.cust
  let first := ((s.step' g).batch.map (·.entry)).filter paused
  first ++ ((v.reqs.map (fun (p : Nat × Req) => p.1)).filter (fun e => paused e && !first.contains e))

/-- One controller cycle of the commit phase: the next row, or after the last one the next PAUSE record; then the phase ends
(R340, R341, R352, R355). -/
def State.commitCycle (s : State) (g : Nat) : State :=
  let r := s.step' g
  match r.batch[r.commitPos]? with
  | some b =>
    let s := (s.commitRow g b).updStep g (fun x => { x with commitPos := x.commitPos + 1 })
    if r.commitPos + 1 < r.batch.length then s
    else
      let l := s.pauseList g
      if l.isEmpty then s.endCommit g else s.updServe g (fun v => { v with pauses := l })
  | none =>
    match (s.group g).serve.pauses with
    | e :: l =>
      let q := s.req g e
      let win := ((s.group g).serve.budget q.cust).win
      let s := if q.state == .decode then s.reqRecord g e win q.pos 2 else s
      let s := s.updServe g (fun v => { v with pauses := l })
      if l.isEmpty then s.endCommit g else s
    | [] => s.endCommit g

/-! ### Cancels (R360, R362) -/

/-- The boundary of an atomic cancel (R362). -/
def State.cancelBoundary (s : State) (g e : Nat) : Boundary :=
  let r := s.step' g
  if r.busy || r.retryDue then
    let ahead := if r.phase == .committing then r.batch.drop r.commitPos else r.batch
    if ahead.any (fun b => b.entry == e && b.id == (s.req g e).id) then .thisCommit else .nextCommit
  else .admission

/-- Registers a cancel of a REQ_ID by a function: the status of Table 15.7. -/
def State.cancelReq (s : State) (g func : Nat) (id : W32) : Nat × State :=
  match (s.group g).serve.find id with
  | none => (if (s.func func).recent.contains id then 1 else 2, s)
  | some (e, r) =>
    if r.func ≠ func then (2, s)
    else if r.state == .spilling || r.state == .reloading then
      (if r.acancel then 3 else 0, s.updReq g e (fun r => { r with cancelAfter := true }))
    else if r.acancel then
      if r.state == .cancelPending then (3, s)
      else
        let b := s.cancelBoundary g e
        (3, s.updReq g e (fun r => { r with state := .cancelPending, boundary := some b }))
    else (0, s.endReq g e 5)

end Sys2Proof.Machine
end

