-- ==== Sys2Proof/Machine/RouteOps.lean ====
section
/-! DEFINITION. Shape records, route slots and the epoch change on a package and on the coordinator; SILENT neighbours and lost packages;
ports going DOWN (11 R266, R277; 12 R287, R298 to R303; 20 R469, R471). -/

namespace Sys2Proof.Machine

/-! ### Ports and their neighbours -/

/-- A LINK event (Table 18.8). -/
def State.linkEvent (s : State) (p cls : Nat) : State :=
  s.raise 0 ⟨0x0030, BitVec.ofNat 16 cls, 0, 0, s.station, BitVec.ofNat 64 (p + 256 * (s.port p).st.code)⟩

/-- Coordinates of the neighbour on a torus port. -/
def State.neighbour (s : State) (p : Nat) : Place :=
  let a := p / 2
  let l := max 1 (axisLen s.shape a)
  let c := coord s.place a
  let c' := if p % 2 = 0 then (c + 1) % l else (c + l - 1) % l
  BitVec.ofNat 20 (s.place.toNat - c * 64 ^ a + c' * 64 ^ a)

/-! ### Shape records (R286, R287) -/

/-- A reserved field of a record is used (Table 12.1). -/
def shapeReserved (r : List Byte) : Bool :=
  let z (o n : Nat) : Bool := fieldN r o n != 0
  let gate (o : Nat) : Bool := decide (2 ^ 19 ≤ fieldN r o 3)
  let side (o : Nat) : Bool := decide (3 < fieldN r o 1) || decide (3 < fieldN r (o + 1) 1) || decide (2 ^ 18 ≤ fieldN r (o + 2) 3) || z (o + 5) 7
  fieldN r 0 2 != 1 || decide (8 ≤ fieldN r 5 1) || decide (16 ≤ fieldN r 6 1) || z 7 1 ||
    (List.range 4).any (fun i => decide (64 ≤ fieldN r (12 + i) 1) || decide (6 ≤ fieldN r (12 + i) 1 % 8)) ||
    (List.range 4).any (fun p => z (26 + 12 * p) 2 || (List.range 3).any (fun i => gate (17 + 12 * p + 3 * i))) ||
    decide (3 < fieldN r 67 1) || decide (1 < fieldN r 68 1) || z 69 3 || side 72 || side 84 || z 96 32

/-- A record that the package refuses (R287). -/
def shapeBad (r : List Byte) : Bool :=
  let l (a : Nat) : Nat := axisLen r a
  let size := l 0 * l 1 * l 2
  let inside (n : Nat) : Bool := decide (n % 64 < l 0) && decide (n / 64 % 64 < l 1) && decide (n / 4096 % 64 < l 2)
  let at_ : Nat := fieldN r 64 1 + 64 * fieldN r 65 1 + 4096 * fieldN r 66 1
  (List.range 3).any (fun a => l a == 0 || decide (64 < l a) || (axisWrap r a && decide (l a ≤ 2))) || decide (20480 < size) ||
    (!(List.range 3).any (axisWrap r) && decide (512 < size)) ||
    (fieldN r 68 1 == 0 && ((List.range 3).any (fun a => decide (l a ≤ fieldN r (64 + a) 1)) || !(inside at_) ||
      !(bitN (fieldN r 6 1) (fieldN r 67 1)))) ||
    shapeReserved r ||
    (List.range 4).any (fun p =>
      let c := fieldN r (16 + 12 * p) 1
      decide (3 < c) || (List.range (min c 3)).any (fun i => !(inside (fieldN r (17 + 12 * p + 3 * i) 3))))

/-- The first 8 bytes of SHA-512 over the common part (R286). -/
def shapeDigest (r : List Byte) : List Byte := sliceB (Config.sha512 (sliceB r 0 64)) 0 8

/-- The places of a record's torus in its pod. -/
def shapePlaces (r : List Byte) : List Place :=
  (List.range (axisLen r 2)).flatMap (fun z => (List.range (axisLen r 1)).flatMap (fun y => (List.range (axisLen r 0)).map (fun x =>
    BitVec.ofNat 20 (x + 64 * y + 4096 * z + 2 ^ 18 * (fieldN r 67 1 % 4)))))

/-- Neighbours of a place in the torus. -/
def neighbourCount (r : List Byte) (p : Place) : Nat :=
  (List.range 3).foldl (fun n a =>
    let l := axisLen r a
    if l ≤ 1 then n
    else if l = 2 then n + 1
    else if axisWrap r a then n + 2
    else n + b01 (decide (0 < coord p a)) + b01 (decide (coord p a + 1 < l))) 0

/-! ### Route slots on a package (R298, R300) -/

/-- Puts a route slot. -/
def State.setRoute (s : State) (i : Nat) (r : RouteSlot) : State := { s with routes := Recs.put s.routes i r }

/-- Some slot is CURRENT. -/
def State.hasRoute (s : State) : Bool := (s.routeSlot 0).st == 2 || (s.routeSlot 1).st == 2

/-- The record in force has changed: it is measured again and retained (19 R433; 22 R505). -/
def State.shapeTaken (s : State) : State :=
  let v := Config.sha512 s.shape
  let s := { s with sec := { s.sec with meas := Recs.upd ⟨[], 0⟩ s.sec.meas 5 (fun m =>
    if m.value = v then m else ⟨v, (m.changes + 1) % 2 ^ 32⟩) } }
  s.updMaint (fun m => { m with dirty := true })

/-- Writes new contents into the slot that is not CURRENT and marks it STAGED: the common part, with this package's own part. -/
def State.stageSlot (s : State) (common : List Byte) (fence : List Place) : State :=
  s.setRoute (1 - s.epochBit) ⟨1, sliceB common 0 64 ++ sliceB (s.shape.drop 64) 0 64, fence.take 64⟩

/-- The fields that FORM sends. -/
def Group.fields (k : Group) : GroupFields :=
  let b (w n : Nat) : BitVec w := BitVec.ofNat w n
  { id := k.id, solver := k.solver, owner := b 4 k.owner, stepLast := k.stepLast, salt := k.salt, entries := b 21 k.entries
    btTid := k.btTid, btRegion := b 4 k.btRegion, propRegion := b 4 k.propRegion, tpoint := b 6 k.tpoint
    inputWin := b 6 k.inputWin, recoveryWin := b 6 k.recoveryWin, winT0 := b 64 k.winT0, winL := b 64 k.winL
    loadSrc := k.loadSrc }

/-- A member that is back, served by a stand-in, is given the group's fields, its member list and FORMED again (20 R471: log entry 99). -/
def State.formAgain (s : State) (g : Nat) : State :=
  let k := s.group g
  ((s.mgt (.formFields g k.fields)).mgt (.formList g k.kvG (k.members.map (fun m => (m.place, m.ws, m.shards))))).mgt (.formed g)

/-- The STAGED slot becomes CURRENT and the former one OLD; a place that has left the fence list is lost no longer (R300, R302),
and the groups led here that it serves rotate their spill keys (19 R449). -/
def State.switchSlot (s : State) : State :=
  let i := 1 - s.epochBit
  let new := s.routeSlot i
  let old := s.routeSlot s.epochBit
  if new.st = 1 then
    let s := (s.setRoute (1 - i) (if old.st = 2 then { old with st := 3 } else old)).setRoute i { new with st := 2 }
    let back := s.net.lost.filter (fun p => old.fence.contains p && !(new.fence.contains p))
    let s := (s.updNet (fun n => { n with
      oldSeen := false, lost := n.lost.filter (fun p => !(back.contains p)) })).shapeTaken
    ((List.range 16).filter (fun g => (s.group g).formed && (s.group g).lead &&
      (s.group g).members.any (fun m => back.contains m.place))).foldl (fun s g => (s.formAgain g).requestRecovery 4 g) s
  else s

/-- The epoch bit of the OLD slot. -/
def State.oldBit (s : State) : Option Bool :=
  if (s.routeSlot 0).st = 3 then some false else if (s.routeSlot 1).st = 3 then some true else none

/-- OLD_COUNT (R301). -/
def State.oldCount (s : State) : Nat :=
  match s.oldBit with
  | none => 0
  | some e =>
    (s.heldCells.filter (fun x => x.cell.epoch == e)).length +
      (s.ports.flatMap (fun (p : Nat × Port) => p.2.buffer.flatMap (fun f => f.cells.filter (fun c => c.2.epoch == e)))).length

/-- The package discards its held cells of some sort; a KV-write context that loses a cell can never complete and goes with all its cells. -/
def State.dropCells (s : State) (p : InCell → Bool) : List InCell × State :=
  let broken (k : KvCtx) : Bool := k.cells.any p
  let gone := (s.mesh ++ s.fabric ++ s.ports.flatMap (fun (q : Nat × Port) => q.2.outq.map (·.2)) ++
    s.cores.flatMap (fun (c : Nat × Core) => c.2.xfer.waiting)).filter p ++
    s.cores.flatMap (fun (c : Nat × Core) => (c.2.xfer.kvctx.filter broken).flatMap (·.cells))
  (gone, { s with
    mesh := s.mesh.filter (fun x => !(p x)), fabric := s.fabric.filter (fun x => !(p x))
    ports := s.ports.map (fun (q : Nat × Port) => (q.1, { q.2 with outq := q.2.outq.filter (fun x => !(p x.2)) }))
    cores := s.cores.map (fun (c : Nat × Core) => (c.1, { c.2 with xfer := { c.2.xfer with
      waiting := c.2.xfer.waiting.filter (fun x => !(p x)), kvctx := c.2.xfer.kvctx.filter (fun k => !broken k) } })) })

/-- PURGE: the OLD cells are discarded and counted as unroutable (R301). -/
def State.purgeOld (s : State) : State :=
  match s.oldBit with
  | none => s
  | some e =>
    let (gone, s) := s.dropCells (fun x => x.cell.epoch == e)
    gone.foldl State.unroute s

/-- RETIRE: the OLD slot becomes EMPTY. -/
def State.retireSlot (s : State) : State :=
  match s.oldBit with
  | some e => s.setRoute (if e then 1 else 0) RouteSlot.empty
  | none => s

/-! ### The coordinator -/

/-- This package is the torus coordinator. -/
def State.coordinating (s : State) : Bool := s.net.coordinator == s.place && !s.spare

/-- Applies a function to the epoch change. -/
def State.updEpoch (s : State) (f : Epoch → Epoch) : State := s.updNet (fun n => { n with epoch := f n.epoch })

/-- The other packages of an epoch change: those of the record's torus that are neither fenced nor lost. -/
def State.epochPeers (s : State) : List Place :=
  (shapePlaces s.net.epoch.shape).filter (fun p =>
    p != s.place && !(s.net.epoch.fence.contains p) && !(s.net.lost.contains p))

/-- Step 1 of Table 12.4. -/
def State.startEpoch (s : State) (shape : List Byte) (fence : List Place) : State :=
  let s := s.updNet (fun n => { n with
    result := 4, epoch := ⟨.staging, shape, fence, [], 0, s.station, 0, false, false⟩ })
  let s := s.updEpoch (fun e => { e with waiting := s.epochPeers })
  (s.mgt (.routeSlot (sliceB shape 0 64) fence)).stageSlot shape fence

/-- A recovery's epoch change that has come to run starts: the record in force, with the lost packages fenced (20 R471). -/
def State.epochDue (s : State) : State :=
  if s.maint.running = 1 ∧ s.maint.byRec ∧ s.net.epoch.phase = .none then
    let r := s.routeSlot s.epochBit
    s.startEpoch r.shape (r.fence ++ s.net.lost.filter (fun p => !(r.fence.contains p)))
  else s

/-! ### Lost packages (20 R469, R471) -/

/-- A package is declared lost: the coordinator fences it; leads stop the steps of its groups; members that lose their lead report it. -/
def State.declareLost (s : State) (p : Place) : State :=
  if s.net.lost.contains p || p == s.place then s
  else
    let s := s.updNet (fun n => { n with lost := n.lost ++ [p] })
    let gs := (List.range 16).filter (fun g => (s.group g).formed && ((s.group g).members.any (fun m => m.place == p)))
    let led := gs.filter (fun g => (s.group g).lead)
    let s := led.foldl (fun s g =>
      (s.logFault 0x0080 11 5 (some g) (if (s.step' g).live then (s.step' g).num else 0) 0xFFFF 0xFFFF 0).stopStep g 0x0080) s
    let s := (gs.filter (fun g => (s.group g).leadAt == p)).foldl (fun s g =>
      s.logFault 0x0081 11 5 (some g) (if (s.step' g).live then (s.step' g).num else 0) 0xFFFF 0xFFFF 0) s
    -- a step that waits only for the lost package's report has its record written (07 R168)
    let s := led.foldl (fun s g =>
      if (s.step' g).phase == .stopping && (s.unreported g).isEmpty then s.writeEnd g else s) s
    if s.coordinating then
      let s := if led.isEmpty then s.logFault 0x0080 11 5 none 0 0xFFFF 0xFFFF 0 else s
      (s.requestRecovery 1 p.toNat).epochDue
    else s

/-- This package hears SILENT reports of a package: it is the coordinator, or leads a group that the package serves. -/
def State.hears (s : State) (p : Place) : Bool :=
  s.coordinating || (List.range 16).any (fun g => (s.group g).formed && (s.group g).lead && (s.group g).members.any (fun m => m.place == p))

/-- A SILENT report: a second neighbour's, or the only neighbour's, declares the package lost. -/
def State.silentReport (s : State) (p by_ : Place) : State :=
  if s.hears p then
    let old := s.net.reports.filter (fun r => r.1 == p && r.2.1 != by_)
    let s := s.updNet (fun n => { n with
      reports := if n.reports.any (fun r => r.1 == p && r.2.1 == by_) then n.reports else n.reports ++ [(p, by_, s.station)] })
    if !old.isEmpty || decide (neighbourCount s.shape p ≤ 1) then s.declareLost p else s
  else s

/-- The package at the other end of a port, by the shape record: a torus neighbour, or the peer of a side port (12 Table 12.1). -/
def State.peer (s : State) (p : Nat) : Option Place :=
  if p < 6 then
    let a := p / 2
    let l := axisLen s.shape a
    let c := coord s.place a
    if l ≤ 1 ∨ (!(axisWrap s.shape a) ∧ (if p % 2 = 0 then l ≤ c + 1 else c = 0)) then none else some (s.neighbour p)
  else
    let o := 72 + 12 * (p - 6)
    if fieldN s.shape o 1 = 0 then none
    else some (BitVec.ofNat 20 (fieldN s.shape (o + 2) 3 % 2 ^ 18 + 2 ^ 18 * (fieldN s.shape (o + 1) 1 % 4)))

/-- A torus port, or a side port that is a pod link. -/
def State.meshPort (s : State) (p : Nat) : Bool := decide (p < 6) || fieldN s.shape (72 + 12 * (p - 6)) 1 == 3

/-- A neighbour is declared SILENT on a port: it is reported to the coordinator and to the leads (R469). -/
def State.declareSilent (s : State) (p : Nat) : State :=
  let s := (s.updPort p (fun k => { k with silent := true })).ctl (.silent p)
  match s.peer p with
  | some q => if s.meshPort p then s.silentReport q s.place else s
  | none => s

/-! ### Ports going DOWN -/

/-- A port goes DOWN: its buffered frames and received but undelivered cells are discarded, its keys erased; one LINK_DOWN
entry covers them (11 R266, R277; 19 R445; 20 R468, R469). -/
def State.portDown (s : State) (p : Nat) : State :=
  let k := s.port p
  let own := k.outq.map (·.2) ++ k.buffer.flatMap (fun f => f.cells.map (fun c => (⟨p, c.1, c.2⟩ : InCell)))
  let wasUp := k.st != .down
  let (gone, s) := (s.updPort p (fun k => { k with outq := [] })).dropCells (fun x => x.port == p)
  let lost := own ++ gone
  let s := s.updPort p (fun k => { k with
    st := .down, miswired := false, key := false, buffer := [], resend := [], outq := [], nakDue := false, episode := false
    retraining := false, retrainFails := 0, replayRun := 0, replayTimes := [], tagRun := 0, realign := false
    txKeys := ⟨none, none⟩, rxKeys := ⟨none, none⟩, rotation := .idle, lanes := 0, txLanes := 0, farLanes := 0
    txBits := 0, txLen := 0, txSyms := 0, txWords := 0, rxWords := [], rxPos := 0 })
  if wasUp then
    let s := (s.logFault 0x0030 6 1 none 0 (BitVec.ofNat 16 (0x8000 + p)) 0xFFFF 0).linkEvent p 2
    let s := lost.foldl (fun s x => s.noteDiscard p none x.cell) s
    if s.meshPort p then s.declareSilent p else s
  else s

end Sys2Proof.Machine
end

