-- ==== Sys2Proof/Machine/SwapOps.lean ====
section
/-! DEFINITION. The retained-settings record, the end of a structural activity (22 R505, R506, R511, R512), the end of a weight swap or
load (17 Table 17.6). -/

namespace Sys2Proof.Machine

/-! ### Retained settings and the end of an activity -/

/-- The retained settings as they stand (22 R505). -/
def State.retainedNow (s : State) : Retained :=
  { shape := s.shape
    ports := (List.range 8).map (fun p =>
      let k := Recs.get Port.reset s.ports p
      (p, ⟨k.enable, k.encrypt, k.retune, k.vcAlloc, k.shares, k.strict⟩))
    power := s.power.set, freq := s.power.freqStep, muteExp := s.pkg.muteExp
    flagExps := (List.range 9).map (fun p => (s.part p).flagExp)
    svnFloor := s.sec.svnFloor, publishers := s.sec.publishers, roots := s.sec.roots }

/-- Writes the retained-settings record (22 R506). -/
def State.saveSettings (s : State) : State := s.updMaint (fun m => { m with retained := some s.retainedNow, dirty := false })

/-- A retained field has changed. -/
def State.retainedChanged (s : State) : State := s.updMaint (fun m => { m with dirty := true })

/-- The structural activity that runs has ended: settings are saved where they changed; a queued recovery starts; else nothing runs, and an
activity that is paused resumes in the next cycle (22 R506, R511, R512, Table 22.7). -/
def State.endActivity (s : State) : State :=
  let s := if s.maint.dirty then s.saveSettings else s
  match s.maint.queue with
  | (c, a) :: l => ((s.updMaint (fun m => { m with queue := l })).startActivity c a true).epochDue
  | [] => s.updMaint (fun m => { m with running := 0, arg := 0, byRec := false, pauseAsked := false })

/-! ### Spill keys (19 R449) -/

/-- A step boundary: once every member has acknowledged the next generation's key it becomes current, the key before the previous one
is erased, and the lead's key retirement ends. -/
def State.spillBoundary (s : State) (g : Nat) : State :=
  let k := s.spillKeys g
  if k.next && k.waiting.isEmpty && s.maint.suspended != some (4, g) then
    let n := (k.gen + 1) % 2 ^ 32
    let s := s.updSpill g (fun k => { k with gen := n, counter := 0, next := false, held := [n, k.gen] })
    if s.maint.running = 4 ∧ s.maint.arg = g then s.endActivity else s
  else s

/-! ### The end of a swap (Table 17.6) -/

/-- A swap or load ends: its descriptor is answered, and the activity ends. -/
def State.endSwap (s : State) (g status : Nat) : State :=
  let w := (s.group g).swap
  let s := match w.sub with
    | some x => s.complete x (complBytes 0x12 status true x.tag (s.group g).id.toNat 0 0 s.station)
    | none => s
  let s := s.updSwap g (fun w => { w with
    phase := .none, sub := none, staged := [], loadedBy := [], lastOldRunning := false, releasedAll := false, released := []
    stalled := none })
  if s.maint.running = 3 ∧ s.maint.arg = g then s.endActivity else s

/-- Every member has loaded: the descriptor is answered SWAPPED and parity groups become STALE (R389, R393). -/
def State.allLoaded (s : State) (g : Nat) : State :=
  let w := (s.group g).swap
  if (s.group g).places.all (fun p => w.loadedBy.contains p) then
    ((s.clearParity g).updGroup g (fun k => { k with serve := { k.serve with gen := some ⟨w.nextGen, w.nextDigest⟩ } })).endSwap g 0
  else s

/-- Every chunk of this package's section is verified after the release of its layers: it reports LOADED; a member ends its
activity, with the new weight digest in force (R389). -/
def State.checkLoaded (s : State) (g : Nat) : State :=
  let k := s.group g
  let w := k.swap
  if w.phase == .loading && !w.chunks.isEmpty && w.chunks.all (·.verified) && !(w.loadedBy.contains s.place) then
    if k.lead then (s.updSwap g (fun w => { w with loadedBy := w.loadedBy ++ [s.place] })).allLoaded g
    else
      (((s.clearParity g).updGroup g (fun k => { k with
        serve := { k.serve with gen := some ⟨w.nextGen, w.nextDigest⟩ } })).endSwap g 0).ctl (.loaded g)
  else s

/-! ### Messages as cells (11 R271) -/

/-- The packages that a CTL message goes to, or the port whose neighbour it is for. -/
def State.ctlWays (s : State) : CtlMsg → List (Nat ⊕ Place)
  | .stepStart g .. | .batchTable g .. | .stop g .. | .advance g .. | .spill g .. | .reload g .. | .releaseAll g => (s.others g).map .inr
  | .finished g .. | .faultReport g .. | .advanceAck g .. | .spillDone g .. | .reloadDone g .. | .staged g .. | .loaded g =>
    [.inr (s.group g).leadAt]
  | .discard d .. => [.inr d]
  | .heartbeat p .. | .sync p | .followUp p .. | .delayReq p | .delayResp p .. => [.inl p]
  | .silent _ => [.inr s.net.coordinator]
  | .switch | .drainQuery | .purge | .retire => s.epochPeers.map .inr
  | .epochAck | .drainAnswer .. => [.inr s.net.coordinator]

/-- Those of an MGT message; a chunk request goes to the package that LOAD_SRC names, whose side port leads to the server (17 R386). -/
def State.mgtWays (s : State) : MgtMsg → List (Nat ⊕ Place)
  | .routeSlot .. => s.epochPeers.map .inr
  | .formFields g _ | .formList g .. | .formed g | .dissolve g | .manifest g _ | .spillKey g _ => (s.others g).map .inr
  | .formAnswer g .. | .spillKeyAck g _ => [.inr (s.group g).leadAt]
  | .chunk g .. => [.inr (BitVec.ofNat 20 (bitsN (s.group g).loadSrc.toNat 26 7))]
  | .rotate p _ | .rotateAck p _ | .retireKey p _ | .retireKeyAck p => [.inl p]
  | .message d _ => [.inr d]

/-- The cell of the n-th message on a channel: one for each destination. Its payload's layout the spec does not give (log entry 97). -/
def messageCell (dest : Place) (vc : BitVec 3) (epoch : Bool) (n : Nat) : Cell :=
  { dest := dest, core := 0, vc := vc, epoch := epoch, cls := 0, tenant := 0, tid := 0, index := 0, last := true, mark := .service
    payload := sliceB (Config.messageBytes vc.toNat n) 0 32 }

/-- Sends a message's cell on its way: to a neighbour by a port that can send, or through the fabric switch. -/
def State.postTo (s : State) (vc : BitVec 3) (n : Nat) (way : Nat ⊕ Place) : State :=
  match way with
  | .inl p => if (s.port p).st == .up then s.queueCell p vc ⟨8, vc, messageCell ((s.peer p).getD 0) vc (s.epochBit == 1) n⟩ else s
  | .inr d => if d = s.place then s else s.forward ⟨8, vc, messageCell d vc (s.epochBit == 1) n⟩

/-- Messages sent since the last cycle leave as cells on CTL and MGT; a batch table's rows as the cells of its transfer (14 R330). -/
def State.post (s : State) : State :=
  let (a, b) := s.out.posted
  let s := ((s.out.ctl.zipIdx).drop a).foldl (fun s m => (s.ctlWays m.1).foldl (fun s w =>
    match m.1, w with
    | .batchTable g tid rows, .inr d =>
      (s.tableCells g d tid rows).foldl (fun s x => s.forward x) s
    | _, w => s.postTo 1 m.2 w) s) s
  let s := ((s.out.mgt.zipIdx).drop b).foldl (fun s m => (s.mgtWays m.1).foldl (fun s w => s.postTo 5 m.2 w) s) s
  { s with out := { s.out with posted := (s.out.ctl.length, s.out.mgt.length) } }

/-- A cycle with nothing commanded, after the report of what the converter has loaded from its streams (17 R386, R389); the messages of the
cycle leave. -/
def State.idle (s : State) : State :=
  let s := { s with pkg := { s.pkg with fresh := [] } }
  ((List.range 16).foldl State.checkLoaded s).cycle.post

end Sys2Proof.Machine
end

