-- ==== Sys2Proof/Machine/StepEvents.lean ====
section
/-! DEFINITION. The events of steps and requests: admission points, step starts, tick 0, page groups, spills and reloads,
reports, commits, cancels (09 R219; 14 R328, R335 to R337, R549; 15 R340, R341, R352, R360; 16 R373; 18 R410). -/

namespace Sys2Proof.Machine

/-! ### Steps that a submission starts (18 R410; 10 R249, R250) -/

/-- A request entry of a step input block (Table 14.1), as the step installs it. -/
def Req.ofEntry (b : List Byte) (f : Nat) (sub : SubRef) : Req :=
  let x (o n : Nat) : Nat := fieldN b o n
  let st := x 6 1 % 16
  let state : ReqState := match st with
    | 2 => .admitted | 3 => .prefill | 4 => .decode | 5 => .idle | _ => .decode
  { Req.empty with
    id := BitVec.ofNat 32 (x 0 4), cust := x 4 2 % 16384, acancel := bitN (x 4 2) 14, hold := bitN (x 4 2) 15, state := state
    spec := x 6 1 / 16 % 8, stopset := x 7 1, seed := BitVec.ofNat 64 (x 8 8), pos := x 16 3, mgen := x 19 1, prompt := x 20 3
    maxnew := x 24 3, func := f, newCount := x 16 3 - x 20 3, sub := sub }

/-- Installs the entries of a block in the lowest FREE entries, with page groups for the step, and gives the rows of its batch
table (DESIGN CHOICE, log entry 33). -/
def State.installReqs (s : State) (g f : Nat) (sub : SubRef) (bs : List (List Byte)) : State × List BatchRow :=
  bs.foldl (fun (x : State × List BatchRow) b =>
    let r := Req.ofEntry b f sub
    let e := (x.1.group g).serve.freeEntry
    let pre := r.state != .decode
    let count := if pre then r.prompt - r.pos else 1
    let s := x.1.updServe g (fun v => { v with
      nextOrder := v.nextOrder + 1, reqs := Recs.put v.reqs e { r with order := v.nextOrder } })
    let ps := ((s.group g).lowestFree (ceilDiv (r.pos + count + r.spec) 64)).getD []
    (s.giveGroups g e ps, if r.state == .idle then x.2 else x.2 ++ [⟨e, r.id, r.pos, pre, count, r.spec, pre⟩])) (s, [])

/-- A STEP submission is answered without a step. -/
def State.refuseStep (s : State) (g : Nat) (x : SubRef) (code : Nat) (step : W64) : State :=
  (s.complete x (complBytes 0x10 code true x.tag (s.group g).id.toNat 0 step s.station)).updServe g
    (fun v => { v with stepq := v.stepq.drop 1 })

/-- The first STEP submission that waits starts its step, is answered, or waits on (10 R231, R249, R250; 17 R392). -/
def State.startQueued (s : State) (g : Nat) : State :=
  let k := s.group g
  match k.serve.stepq with
  | [] => s
  | (x, e, blk) :: _ =>
    let replay := bitN (fieldN e 1 1) 0
    let force := bitN (fieldN e 1 1) 1
    let entry := fieldN e 2 1
    let num : W64 := if replay then BitVec.ofNat 64 (fieldN e 24 8) else k.stepLast + 1
    let nreq := fieldN blk 236 4
    let held := k.serve.reqs.length
    if replay && k.swap.phase != .none then s
    else if k.serve.gen.isNone then s.refuseStep g x 9 0
    else if replay && (sliceB blk 240 64 != sliceB (s.image g).digest 0 64 ||
        sliceB blk 304 64 != sliceB ((k.serve.gen.map (·.digest)).getD []) 0 64) then s.refuseStep g x 6 num
    else if !replay && k.stepLast == 0xFFFFFFFFFFFFFFFF then s.refuseStep g x 5 0
    else if !(s.canStart g) then s
    else if !(s.image g).entries.any (fun (p : Nat × Nat × Voicing) => p.1 == entry) || decide (k.entries < held + nreq) then
      s.refuseStep g x 0xFE 0
    else
      let (s, rows) := s.installReqs g x.func x ((List.range nreq).map (fun i => sliceB blk (368 + 32 * i) 32))
      let s := s.updGroup g (fun k => { k with
        stepLast := if replay then k.stepLast else num
        serve := { k.serve with stepq := k.serve.stepq.drop 1, tokH := 0, tokN := 0, pausedNow := [], pauses := [] } })
      let params : Tab W32 := Tab.setList 0 [] 5 ((List.range 59).map (fun i => BitVec.ofNat 32 (fieldN blk (4 * i) 4)))
      (s.begin g { StepRun.idle with
        num := num, entry := entry
        voicing := if force then (s.image g).voicingFor entry (fieldN e 3 1) else s.nextVoicing g entry
        seed := BitVec.ofNat 64 (fieldN e 16 8), params := params, replay := replay, batch := rows, sub := some x
        serving := !rows.isEmpty, digests := sliceB blk 240 128 }).launch g

/-- The actions of an admission point (14 R549): a serving group with a waiting replay starts it in place of a selection; a
solver group starts its next step. -/
def State.point (s : State) (g : Nat) : State :=
  if (s.group g).solver then ((s.liveIn g).swapPoint g).startQueued g
  else if (s.group g).serve.stepq.isEmpty then s.servePoint g
  else
    let s := ((((s.liveIn g).admissionBoundary g).swapPoint g).rollBudgets g).noGeneration g
    ((s.retryReloads g).admission g).startQueued g

/-- A core of the group's partition that is due a drone visit within 10 s (20 R461). -/
def State.droneDue (s : State) (g : Nat) : Bool :=
  (s.coresOf (s.group g).owner).any (fun c => decide ((s.core c).det.lastVisit + 50000000000 ≤ s.station)) &&
    s.maint.running == 0 && s.maint.suspended.isNone

/-- ADMISSION_POINT (14 R549): nothing while a step of the group runs or is to be retried, and an inserted drone slot passes
first (20 R461). -/
def execAdmissionPoint (slot : Slot) (s : State) : Host.Outcome State Fault Refusal :=
  let g := slot.val
  let s := if (s.group g).formed && (s.group g).lead && !(s.step' g).busy then s.spillBoundary g else s
  let k := s.group g
  if k.formed && k.lead && !(s.step' g).busy && !(s.step' g).retryDue && k.saved.isNone && k.serve.recover.isEmpty &&
      s.maint.running != 6 && !s.passThrough then
    if s.droneDue g && !k.droneSlot then .next (s.updGroup g (fun k => { k with droneSlot := true }))
    else .next (((s.updGroup g (fun k => { k with droneSlot := false })).point g).checkLoaded g)
  else .next s

/-- STEP_START_RECEIVED (09 R219): a member of the group prepares to begin the step. -/
def execStepStartReceived (slot : Slot) (num : W64) (entry : BitVec 6) (voicing : BitVec 2) (seed : W64) (params : List W32)
    (replay lastOld : Bool) (s : State) : Host.Outcome State Fault Refusal :=
  let g := slot.val
  let k := s.group g
  if k.formed && !k.lead && !(s.step' g).onCores && !s.passThrough then
    let s := s.spillBoundary g
    let retry := (s.step' g).num == num && (s.step' g).phase == .ended && !replay
    let s := s.updSwap g (fun w => { w with
      lastOldRunning := lastOld
      phase := if w.phase == .staging && w.lastOldRunning && !lastOld then .loading else w.phase })
    .next (s.begin g { StepRun.idle with
      num := num, entry := entry.toNat, voicing := voicing.toNat, seed := seed, params := Tab.setList 0 [] 5 (params.take 59)
      replay := replay, retry := retry })
  else .next s

/-! ### Tick 0 -/

/-- The completion of a DIR_UPDATE (Table 18.5). -/
def State.answerDir (s : State) (j : DirJob) : State :=
  s.complete j.sub (leBytes 1 0x13 ++ [0, 1, 0] ++ leBytes 4 j.sub.tag.toNat ++ List.replicate 8 0 ++
    (List.range 6).flatMap (fun i => leBytes 2 (Tab.get 0 j.counts i)) ++ List.replicate 4 0)

/-- Applies host directory entries in order, n at most, of descriptors fetched before a step start (16 R371, R373). -/
def State.applyHostDir (start : Nat) : Nat → State → State
  | 0, s => s
  | n + 1, s =>
    match s.dir.host with
    | [] => s
    | j :: l =>
      if start < j.seen then s
      else match j.entries with
      | [] => State.applyHostDir start n (({ s with dir := { s.dir with host := l } }).answerDir j)
      | e :: es =>
        let (o, s) := s.dirUpdate j.del e
        let j := { j with entries := es, counts := Tab.upd 0 j.counts o.pos (· + 1) }
        if es.isEmpty then State.applyHostDir start n (({ s with dir := { s.dir with host := l } }).answerDir j)
        else State.applyHostDir start n { s with dir := { s.dir with host := j :: l } }

/-- TICK_ZERO (09 R210, R219; 10 R252; 16 R373, R376; 17 R389): the cores have decoded for 64 cycles, every item due before tick 16 has
arrived 8 cycles ago, every chunk of a new generation is verified, and the step begins. -/
def execTickZero (slot : Slot) (s : State) : Host.Outcome State Fault Refusal :=
  let g := slot.val
  let r := s.step' g
  let w := (s.group g).swap
  let chunksIn := w.phase != .loading || w.chunks.all (·.verified)
  let dirIn := s.dir.ready || !(s.image g).words.any (fun x => x.toNat % 256 == 0x6C)
  let decoded : Bool := match r.decodeAt with | some d => decide (d + 64 ≤ s.now) | none => false
  let early : Bool := match r.readyAt with | some k => decide (k + 8 ≤ s.now) | none => false
  if r.phase == .starting && decoded && early && chunksIn && dirIn && !s.passThrough then
    let cs := s.coresOf (s.group g).owner
    let s := State.applyHostDir r.startCycle s.dir.limit s.finishMove
    let s0 := s.clk.tick
    let s := cs.foldl (fun s c => s.updCtl c (fun k => { k with s0 := s0, preStart := false })) s
    let s := { s with hazards := [], trace := [] }
    let s := s.updStep g (fun r => { r with phase := .running, s0 := s0, held := s.clk.heldTotal })
    .next (((cs.foldl (fun s c => s.retryWaiting c) s).checkLoaded g).checkFinished g).pumpAll
  else .next s

/-! ### Page groups (14 R328) -/

/-- ADVANCE: a member advances a freed group's generation and acknowledges. -/
def execAdvance (slot : Slot) (group : BitVec 18) (s : State) : Host.Outcome State Fault Refusal :=
  let k := s.group slot.val
  if k.formed && !k.lead then .next ((s.advanceGen slot.val group.toNat).ctl (.advanceAck slot.val group.toNat)) else .next s

/-- ADVANCE_ACK: after every acknowledgement the group joins the free list. -/
def execAdvanceAck (slot : Slot) (place : Place) (group : BitVec 18) (s : State) : Host.Outcome State Fault Refusal :=
  let p := group.toNat
  .next (s.updServe slot.val (fun v =>
    match v.freeing.find? (fun (x : Nat × List Place) => x.1 == p) with
    | none => v
    | some x =>
      let rest := x.2.filter (· != place)
      let others := v.freeing.filter (fun (y : Nat × List Place) => y.1 != p)
      if rest.isEmpty then { v with freeing := others, taken := v.taken.erase p } else { v with freeing := others ++ [(p, rest)] }))

/-! ### Spill and reload (14 R335 to R337; 19 R448 to R450) -/

/-- The pages of page groups on this package, in record order: position, logical core, shard, byte addresses of the rows. -/
def State.spillPages (s : State) (g : Nat) (groups : List Nat) : List (Nat × Nat × Nat × Nat × List Nat) :=
  let k := s.group g
  (groups.zipIdx).flatMap (fun p => (s.enabled.zipIdx).flatMap (fun c =>
    let sc := Tab.get 0 k.shards c.2
    (List.range sc).map (fun sh => (p.2, c.1, c.2, sh,
      (List.range (64 * k.kvWs)).map (pageRow (s.core c.1).ws k.kvWs (p.1 * sc + sh) 0)))))

/-- Writes this package's records of a spill (Table 14.5). -/
def State.writeSpill (s : State) (g : Nat) (id : W32) (groups : List Nat) : State :=
  let gen := s.spillGen g
  let salt := s.memberIndex g
  (s.spillPages g groups).foldl (fun s p =>
    let (n, c, l, sh, rows) := p
    let data := rows.flatMap (fun a => (s.core c).ws.mem.read a 64)
    let keys := Recs.get SpillKeys.reset s.sec.spill g
    let aad := leBytes 4 id.toNat ++ leBytes 4 n ++ leBytes 2 l ++ leBytes 1 sh ++ leBytes 1 (gen % 4)
    let (ct, tag) := Config.gcmSeal g gen salt keys.counter aad data
    let rec_ := aad ++ leBytes 8 keys.counter ++ leBytes 4 data.length ++ List.replicate 24 0 ++ sliceB tag 0 16 ++
      sliceB ct 0 data.length
    let s := s.updSec (fun x => { x with spill := Recs.put x.spill g { keys with counter := keys.counter + 1 } })
    { s with out := { s.out with spills := s.out.spills ++ [rec_] } }) s

/-- A spill is complete on every member: the request becomes SPILLED and its page groups are freed; what waited for it follows
(14 R324, R335; 15 R360, R362). -/
def State.spillDone (s : State) (g e : Nat) : State :=
  let r := s.req g e
  let s := match r.waitSub with
    | some x => if r.quiet then s else s.complete x (complBytes 4 0 true x.tag r.id.toNat 0 0 s.station)
    | none => s
  let s := (s.freeGroups g r.pages).updReq g e (fun r => { r with
    state := .spilled, list := BitVec.ofNat 32 r.spillSet, pages := [], blocks := [], waitSub := none })
  if r.cancelAfter then
    if r.acancel then s.updReq g e (fun r => { r with state := .cancelPending, boundary := some .admission })
    else s.endReq g e 5
  else if (s.group g).serve.conts.any (fun c => c.2.1 == r.id) then s.startReload g e none
  else s

/-- SPILL_RECORDS_WRITTEN (14 R335): this package writes its records, or a member reports that it has; `full`: the member's spill
counter has reached 2^40, and the keys are rotated (19 R449). -/
def execSpillRecordsWritten (slot : Slot) (place : Place) (id : W32) (groups : List (BitVec 18)) (oldest newest : W32)
    (full : Bool) (s : State) : Host.Outcome State Fault Refusal :=
  let g := slot.val
  let k := s.group g
  let own := place == s.place
  let worn (s : State) : Bool := decide (2 ^ 40 ≤ (s.spillKeys g).counter)
  if !k.formed then .next s
  else if !k.lead then
    if own then
      let s := s.writeSpill g id (groups.map (·.toNat))
      .next (s.ctl (.spillDone g id (s.spillGen g, s.spillGen g) (worn s)))
    else .next s
  else match k.serve.find id with
    | none => .next s
    | some (e, r) =>
      if r.state == .spilling && r.waitOn.contains place then
        let gens := if own then (s.spillGen g, s.spillGen g) else (oldest.toNat, newest.toNat)
        let s := if own then s.writeSpill g id r.pages else s
        let s := if (if own then worn s else full) then s.requestRecovery 4 g else s
        let s := s.updReq g e (fun r => { r with
          waitOn := r.waitOn.filter (· != place)
          spillGens := some (match r.spillGens with | some (a, b) => (min a gens.1, max b gens.2) | none => gens) })
        .next (if (s.req g e).waitOn.isEmpty then s.spillDone g e else s)
      else .next s

/-- Restores one page from its record: 0, or the completion code of its failure (14 R337). -/
def State.restorePage (s : State) (g : Nat) (id : W32) (p : Nat × Nat × Nat × Nat × List Nat) (b : List Byte) : Nat × State :=
  let (n, c, l, sh, rows) := p
  let gen := s.spillGen g
  let len := 64 * rows.length
  let tag := fieldN b 11 1
  if fieldN b 0 4 ≠ id.toNat ∨ fieldN b 4 4 ≠ n ∨ fieldN b 8 2 ≠ l ∨ fieldN b 10 1 ≠ sh ∨ 4 ≤ tag ∨ fieldN b 20 4 ≠ len ∨
      b.length ≠ 64 + len then (8, s)
  else
    let names : Option Nat := if tag = gen % 4 then some gen else if 0 < gen ∧ tag = (gen - 1) % 4 then some (gen - 1) else none
    match names with
    | none => (7, s)
    | some k =>
      match Config.gcmOpen g k (s.memberIndex g) (fieldN b 12 8) (sliceB b 0 12) (b.drop 64) (sliceB b 48 16) with
      | none => (8, s)
      | some d => (0, s.updWs c (fun w => w.writeRows ((rows.zipIdx).map (fun r => (r.1, sliceB d (64 * r.2) 64)))))

/-- Restores the pages of page groups from their records in order; stops at the first that fails. -/
def State.restorePages (s : State) (g : Nat) (id : W32) :
    List (Nat × Nat × Nat × Nat × List Nat) → List (List Byte) → Nat × State
  | [], _ => (0, s)
  | _ :: _, [] => (8, s)
  | p :: ps, b :: bs =>
    match s.restorePage g id p b with
    | (0, s) => State.restorePages s g id ps bs
    | (n, s) => (n, s)

/-- A reload has ended on every member, or failed (14 R324, R337; 15 R360, R362). -/
def State.reloadDone (s : State) (g e code : Nat) : State :=
  let r := s.req g e
  let status := if code = 0 then 0 else 1
  let s := match r.waitSub with
    | some x => if r.quiet then s else s.complete x (complBytes 5 status true x.tag r.id.toNat 0 0 s.station)
    | none => s
  let s := s.updReq g e (fun r => { r with waitSub := none, waitOn := [] })
  let conts := (s.group g).serve.conts.filter (fun c => c.2.1 == r.id)
  let s := s.updServe g (fun v => { v with conts := v.conts.filter (fun c => c.2.1 != r.id) })
  if code ≠ 0 then s.endReq g e code
  else if r.cancelAfter then
    if r.acancel then s.updReq g e (fun r => { r with state := .cancelPending, boundary := some .admission })
    else s.endReq g e 5
  else if conts.isEmpty then s.updReq g e (fun r => { r with state := .idle })
  else s.updReq g e (fun r => { r with state := .decode, unrun := conts.flatMap (fun c => c.2.2) })

/-- RELOAD_COMPLETE (14 R337): this package restores its pages from the records read, or a member reports its outcome. -/
def execReloadComplete (slot : Slot) (place : Place) (id : W32) (groups : List (BitVec 18)) (records : List (List Byte))
    (status : Byte) (s : State) : Host.Outcome State Fault Refusal :=
  let g := slot.val
  let k := s.group g
  let own := place == s.place
  if !k.formed then .next s
  else if !k.lead then
    if own then
      let (code, s) := s.restorePages g id (s.spillPages g (groups.map (·.toNat))) records
      .next (s.ctl (.reloadDone g id code))
    else .next s
  else match k.serve.find id with
    | none => .next s
    | some (e, r) =>
      if r.state == .reloading && r.waitOn.contains place then
        let (code, s) := if own then s.restorePages g id (s.spillPages g r.pages) records else (status.toNat, s)
        let s := s.updReq g e (fun r => { r with waitOn := r.waitOn.filter (· != place) })
        .next (if code ≠ 0 ∨ (s.req g e).waitOn.isEmpty then s.reloadDone g e code else s)
      else .next s

/-! ### Reports, commits, cancels -/

/-- STEP_FINISHED_REPORT (15 R341; 21 R486). -/
def execStepFinishedReport (slot : Slot) (place : Place) (step : W64) (budget : BitVec 3) (report : MemberReport) (s : State) :
    Host.Outcome State Fault Refusal :=
  let g := slot.val
  if (s.step' g).num == step && place != s.place then .next (s.memberReported g place report budget.toNat) else .next s

/-- REQUEST_COMMIT (15 R340, R352): one commit action in a controller cycle in which no cancel descriptor waits. -/
def execRequestCommit (slot : Slot) (s : State) : Host.Outcome State Fault Refusal :=
  let g := slot.val
  if (s.step' g).phase == .committing && (s.group g).serve.cancels.isEmpty then .next (s.commitCycle g) else .next s

/-- CANCEL_REGISTER (15 R340, R360 to R362): the first waiting cancel descriptor is registered and answered. -/
def execCancelRegister (slot : Slot) (s : State) : Host.Outcome State Fault Refusal :=
  let g := slot.val
  match (s.group g).serve.cancels with
  | (x, id) :: l =>
    let s := s.updServe g (fun v => { v with cancels := l })
    let (st, s) := s.cancelReq g x.func id
    .next (s.complete x (complBytes 2 st true x.tag id.toNat 0 0 s.station))
  | [] => .next s

end Sys2Proof.Machine
end

