-- ==== Sys2Proof/Machine/SecOps.lean ====
section
/-! DEFINITION. The soundpost's operations: measurements (19 R433), mailbox replies (18 R423, R424; 19 R436), boot (19 R426 to R430),
the retained-settings record (22 R505, R506), the end of an activity (22 R511, R512), Function Level Reset (18 R398), the zeroing of a
partition (19 R444). -/

namespace Sys2Proof.Machine

/-! ### Measurements -/

/-- Partitions locked in confidential mode. -/
def State.anyLocked (s : State) : Bool := (List.range 9).any (fun p => (s.part p).conf)

/-- Measurement 0x06. -/
def State.secState (s : State) : List Byte :=
  Config.securityState ((List.range 9).map (fun p => (s.part p).conf)) s.dbg.en
    ((List.range 9).map (fun p => (s.part p).fixedStep)) ((List.range 8).map (fun p => (Recs.get Port.reset s.ports p).encrypt))
    s.sec.svnFloor

/-- The value that a measurement of the boot takes (Table 19.2). -/
def State.measureNow (s : State) (i : Nat) : List Byte :=
  match i with
  | 1 => Config.romVersion
  | 2 => s.sec.running.digest ++ leBytes 4 s.sec.running.svn ++ leBytes 4 s.sec.running.version
  | 3 => Config.sha512 (Config.gradeRecord s.maint.f272)
  | 4 => Config.sha512 (Config.capoMap s.maint.laneFaults s.maint.factorySubs s.maint.retired s.maint.subs)
  | 5 => Config.sha512 s.shape
  | 6 => s.secState
  | _ => s.sec.publishers.flatMap (fun (k : Nat × List Byte) => Config.sha512 k.2) ++
      s.sec.roots.flatMap (fun (k : Nat × List Byte) => Config.sha512 k.2)

/-- A measurement takes a value; its change count rises when the value changes (R433). -/
def State.setMeasure (s : State) (i : Nat) (v : List Byte) : State :=
  s.updSec (fun x => { x with meas := Recs.upd ⟨[], 0⟩ x.meas i (fun m =>
    if m.value = v then m else ⟨v, (m.changes + 1) % 2 ^ 32⟩) })

/-- Takes one of the measurements 1 to 7 again. -/
def State.remeasure (s : State) (i : Nat) : State := s.setMeasure i (s.measureNow i)

/-- The measurements of the boot: each value with change count 0 (R426, R433). -/
def State.bootMeasures (s : State) : State :=
  (List.range 7).foldl (fun s i =>
    s.updSec (fun x => { x with meas := Recs.put x.meas (i + 1) ⟨s.measureNow (i + 1), 0⟩ })) s

/-! ### Security events -/

/-- A SECURITY event at PF0 and at function p. -/
def State.securityEvent (s : State) (p code : Nat) : State := s.security p code

/-- A SECURITY event that is owed until PF0's event ring is enabled (Table 19.7). -/
def State.oweSecurity (s : State) (code : Nat) : State :=
  if ((s.func 0).ring 192).en then s.security 0 code else s.updSec (fun x => { x with owed := x.owed ++ [code] })

/-- Owed events are raised once PF0's event ring is enabled. -/
def State.payOwed (s : State) : State :=
  if ((s.func 0).ring 192).en then
    s.sec.owed.foldl (fun s c => s.security 0 c) (s.updSec (fun x => { x with owed := [] }))
  else s

/-! ### Mailboxes -/

/-- Sets bits of DB_HOST; an unmasked bit that goes from 0 to 1 sends the doorbell vector (18 R424). -/
def State.ringHost (s : State) (f : Nat) (bits : W32) : State :=
  let x := s.func f
  let new := bits &&& ~~~x.dbHost
  let s := (s.updFunc f (fun x => { x with dbHost := x.dbHost ||| bits })).touch (bar2Key f 0x10) bits.toNat
  if new &&& ~~~x.dbMask != 0 then s.msix f x.dbVector else s

/-- The reply to a message of Table 19.3 or Table 22.4 (19 R436): it waits for the inbound mailbox, or goes out on I3C. -/
def State.reply (s : State) (who : Asker) (type status : Nat) (seq : W32) (payload : List Byte) : State :=
  let bs := leBytes 2 (type + 0x8000) ++ [0] ++ leBytes 1 status ++ leBytes 4 seq.toNat ++ payload
  match who with
  | .func f => s.updFunc f.val (fun x => { x with mbiWait := x.mbiWait ++ [bs] })
  | .i3c => { s with out := { s.out with i3c := s.out.i3c ++ [bs] } }

/-- Whether the requester may give PF0's messages (19 Table 19.3; 22 R509). -/
def askerPf0 : Asker → Bool
  | .func f => f.val == 0
  | .i3c => true

/-! ### Boot (19 R426 to R430) -/

/-- The image that bytes in the tailpiece make (Table 19.1), `total` bytes of them. -/
def State.imageOf (s : State) (m : Mem) (total : Nat) : FwImage :=
  let h := m.read 0 64
  let len := fieldN h 12 4
  let signed := m.read 0 (64 + len)
  let good := fieldN h 0 4 == 0x57504E46 && decide (len ≤ 32 * 2 ^ 20 - 196) && (h.drop 16).all (· == 0) &&
    decide (s.sec.svnFloor ≤ fieldN h 4 4) && decide (196 + len ≤ total) &&
    Config.verifies [] signed (m.read (64 + len) 132)
  ⟨fieldN h 4 4, fieldN h 8 4, Config.sha512 (m.read 0 (196 + len)), good⟩

/-- The stored image verifies and may run: not below the SVN floor. -/
def Sec.bootable (x : Sec) : Bool := x.stored.verifies && decide (x.svnFloor ≤ x.stored.svn)

/-- The soundpost runs the stored image, raises the SVN floor and records the measurements (R426, R428). -/
def State.runStored (s : State) : State :=
  (s.updSec (fun x => { x with running := x.stored, svnFloor := max x.svnFloor x.stored.svn, recovery := false })).bootMeasures

/-- A record of Table 1.4 fails verification: its entry and, owed, its SECURITY event (01 R15). The spec gives the entry's reason, CLASS and
DETAIL; OUTCOME 0, UNIT 0xFFFF and SUB 0xFFFF are the model's (DESIGN CHOICE, log entry 93). -/
def State.recordFailed (s : State) (r : Nat) : State := (s.logFault 0x00D0 10 0 none 0 0xFFFF 0xFFFF r).oweSecurity 6

/-- The soundpost boots: it runs the stored image, raises the SVN floor and records the measurements, or waits for an image, which holds the
arbiter as START_UP (R426, R428, R429; 01 R17). In a wait that a soundpost reset brings in running operation every domain keeps its power,
since such a reset has the soundpost alone for its scope (22 R500; DEDUCED, log entry 93). -/
def State.bootSoundpost (s : State) : State :=
  let s := s.updSec (fun x => { x with fwLen := none, sessions := [], identity := !s.maint.badRecords.contains 2 })
  if s.sec.bootable && s.maint.bootMode != 2 then s.runStored
  else (s.updSec (fun x => { x with recovery := true })).updMaint (fun m => { m with running := 0x0A })

/-! ### Function Level Reset (18 R398) -/

/-- Cancels the requests of a function in one slot, without END records or completions. -/
def State.cancelAll (s : State) (f g : Nat) : State :=
  let s := s.updServe g (fun v => { v with
    news := v.news.filter (fun n => n.sub.func != f)
    cancels := v.cancels.filter (fun c => c.1.func != f)
    conts := v.conts.filter (fun c => c.1.func != f)
    stepq := v.stepq.filter (fun c => c.1.func != f) })
  (s.group g).serve.reqs.foldl (fun s (p : Nat × Req) =>
    if p.2.func ≠ f ∨ p.2.state = .free then s
    else
      let s := s.updReq g p.1 (fun r => { r with quiet := true, acancel := false, waitSub := none })
      if p.2.state == .spilling || p.2.state == .reloading then s.updReq g p.1 (fun r => { r with cancelAfter := true })
      else s.endReq g p.1 5) s

/-- A Function Level Reset: fetching stops, requests are cancelled, the ring set-up, host windows and mailboxes are cleared, and
solver steps of its groups end with STEP_ERROR. -/
def State.functionReset (s : State) (f : Nat) : State :=
  let s := (List.range 16).foldl (fun s g =>
    let s := if (s.group g).formed && (s.group g).solver && (s.group g).owner == f && (s.step' g).live then
        s.abortStep g .stepError else s
    s.cancelAll f g) s
  s.updFunc f (fun x => { Func.reset with
    enabled := x.enabled, evBuf := x.evBuf, evLost := x.evLost, recWait := x.recWait, recent := x.recent
    dbVector := x.dbVector, dbHost := x.dbHost, dbMask := x.dbMask, dbSp := x.dbSp })

/-! ### Zeroing a partition (19 R444) -/

/-- Zeroes the weight-store regions of a core. -/
def WStore.zeroRegions (w : WStore) : WStore :=
  let in_ (b : Nat) : Bool := (w.regionOf b).isSome
  { w with
    mem := w.mem.filter (fun (p : Nat × Byte) => !in_ (p.1 / 4096))
    records := w.records.filter (fun (p : Nat × BlockRec) => !in_ p.1)
    errs := w.errs.filter (fun e => !in_ (e.1 / 512))
    recErrs := w.recErrs.filter (fun e => !in_ (e.1 / 33))
    bad := w.bad.filter (fun b => !in_ b) }

/-- The zeroing: program state, regions and scratchpads, page groups, spill keys. -/
def State.zeroPartition (s : State) (p : Nat) : State :=
  let cs := s.coresOf p
  let gs := (List.range 16).filter (fun g => (s.group g).formed && (s.group g).owner == p)
  let s := gs.foldl (fun s g => if (s.step' g).live then s.abortStep g .stepError else s) s
  let s := cs.foldl (fun s c => s.updWs c WStore.zeroRegions) (s.resetCores cs)
  let s := gs.foldl (fun s g => (s.group g).serve.reqs.foldl (fun s (q : Nat × Req) =>
    s.freeReq g q.1) s) s
  s.updSec (fun x => { x with spill := x.spill.filter (fun (k : Nat × SpillKeys) => !gs.contains k.1) })

/-- Asks for a zeroing: it runs as the activity "partition zeroing", after any other that runs. `arg`: the partition, 16 more where
the TDI is to return to CONFIG_UNLOCKED after it. -/
def State.askZeroing (s : State) (arg : Nat) : State :=
  if s.maint.running = 0 ∧ s.maint.queue.isEmpty ∧ s.maint.suspended.isNone then s.startActivity 8 arg true
  else s.updMaint (fun m => { m with queue := m.queue ++ [(8, arg)] })

/-- The soundpost answers an SPDM, TDISP or IDE_KM request. -/
def State.spdm (s : State) (r : Requester) (a : SpdmReply) : State := { s with out := { s.out with spdm := s.out.spdm ++ [(r, a)] } }

/-- The zeroing that runs is complete: after a STOP_INTERFACE_REQUEST the CONF bit clears and the response goes out. -/
def State.zeroingDone (s : State) (arg : Nat) : State :=
  let p := arg % 16
  let s := s.zeroPartition p
  if 16 ≤ arg then
    (({ s with parts := Recs.put s.parts p { s.part p with tdisp := 0, conf := false } }).remeasure 6).spdm
      (.func (Fin.ofNat 9 p)) (.stopped p)
  else s

end Sys2Proof.Machine
end

