-- ==== Sys2Proof/Machine/ImageOps.lean ====
section
/-! DEFINITION. The loader of program images: relocation, the static checks in their order, installation (09 R222 to R228;
04 R76, R77; 05 R100, R101; 06 R120; 07 R155, R157, R158, R165; 08 R172; 09 R218). -/

namespace Sys2Proof.Machine

/-! ### The image as a value -/

/-- A region descriptor (04 Table 4.3). -/
def Region.ofBits (w : W64) : Region :=
  let n := w.toNat
  ⟨bitsN n 11 0, bitsN n 27 16, bitsN n 34 32, bitN n 35, bitsN n 44 36⟩

/-- A circular region as the loader sets it (05 R100). -/
def Circ.ofBits (w : BitVec 128) : Circ :=
  let n := w.toNat
  ⟨bitsN n 12 0, bitsN n 28 16, 0, 0, BitVec.ofNat 6 (bitsN n 85 80), bitN n 86, false, none⟩

/-- A word whose results may vary (08 Table 8.2, R202). -/
def varyWord : Instr → Bool
  | .spfill _ _ _ _ _ psrc _ _ => 1 ≤ psrc.toNat && psrc.toNat ≤ 5
  | .sendacc _ _ _ _ enc _ _ => enc.toNat == 2
  | .recvFastAdd .. => true
  | _ => false

/-- The words of a file: 8 bytes each, little-endian, at consecutive 8-byte offsets of the words section (08 R170, R5). -/
def imageWords (f : ImageFile) : List W64 :=
  (List.range f.nwords).map (fun i => BitVec.ofNat 64 (fieldN f.raw (f.offsets.getD 0 0 + 8 * i) 8))

/-- The header is well formed, and the words section lies in the file (R222, step 2). -/
def imageSound (f : ImageFile) : Bool := f.headerOk && decide (f.offsets.getD 0 0 + 8 * f.nwords ≤ f.raw.length)

/-- The sections of a file as the loader keeps them. -/
def Image.ofFile (f : ImageFile) : Image :=
  { loaded := true, nmin := f.nmin, nmax := f.nmax, words := imageWords f
    entries := f.entries.flatMap (fun (e : Nat × List (Nat × Nat × Nat × Nat)) =>
      e.2.zipIdx.map (fun (v : (Nat × Nat × Nat × Nat) × Nat) =>
        (e.1, v.2, (⟨v.1.1, v.1.2.1, v.1.2.2.1, v.1.2.2.2⟩ : Voicing))))
    starts := f.starts, consts := f.consts, progs := f.progs.map (fun (p : List W32 × List W32) => ⟨p.1, p.2⟩)
    regionPlan := f.regions.map (fun (p : Nat × Nat × List W64) => (p.1, p.2.1, p.2.2.map Region.ofBits))
    circs := f.circs.map (fun (p : Nat × List (BitVec 128)) => (p.1, p.2.map Circ.ofBits))
    flags := f.flags, relocs := f.relocs, offsets := f.offsets, digest := Config.sha512 f.raw
    vary := (imageWords f).any (fun w => match decodeZvis 0 w with | some i => varyWord i | none => false) }

/-- The lowest offset of a list; none where it is empty. -/
def lowest (l : List Nat) : Option Nat := match l with | [] => none | x :: l => some (l.foldl min x)

/-- The byte offset of entry i of section n, of entries of `size` bytes. -/
def Image.at (m : Image) (n i size : Nat) : Nat := m.offsets.getD n 0 + size * i

/-! ### Relocation (R225, R226) -/

/-- Fields of a relocation record (Table 9.7). -/
structure Rel where
  target : Nat
  pool : Bool
  pos : Nat
  width : Nat
  kind : Nat
  param : Int

/-- Reads a record. -/
def Rel.ofBits (w : W64) : Rel :=
  let n := w.toNat
  ⟨bitsN n 23 0, bitN n 24, bitsN n 30 25, bitsN n 36 31 + 1, bitsN n 39 37, (w.extractLsb' 40 24).toInt⟩

/-- Whether a raw word is a RECV of form 4. -/
def isOnDie (w : W64) : Bool := match rawZvis 0 w with | some (.recvOnDieRead ..) => true | _ => false

/-- A record that fails the load. `members`: the group's members. -/
def Image.relocBad (m : Image) (members : Nat) (w : W64) : Bool :=
  let r := Rel.ofBits w
  if r.kind = 4 then
    !(isOnDie (m.words.getD r.target 0)) || decide (m.words.length ≤ r.target) || r.pool || r.pos != 0 || r.width != 1 ||
      decide (r.param < 0)
  else
    decide (5 ≤ r.kind) || decide ((if r.pool then m.consts.length else m.words.length) ≤ r.target) ||
      decide ((if r.pool then 32 else 64) < r.pos + r.width) ||
      (r.kind == 0 && (decide (r.param < 0) || decide (8 ≤ r.param))) ||
      (r.kind == 3 && (decide (r.param < 0) || decide ((members : Int) ≤ r.param)))

/-- The RECVs of form 4 without exactly one record of kind 4. -/
def Image.onDieUnbound (m : Image) : List Nat :=
  (List.range m.words.length).filter (fun o => isOnDie (m.words.getD o 0) &&
    (m.relocs.filter (fun w => (Rel.ofBits w).kind == 4 && (Rel.ofBits w).target == o)).length != 1)

/-- The region plan of a core for N. -/
def Image.plan (m : Image) (n l : Nat) : List Region :=
  match m.regionPlan.find? (fun (p : Nat × Nat × List Region) => p.1 == n && p.2.1 == l) with | some p => p.2.2 | none => []

/-- The value that a record writes on a core with logical number l (R225). -/
def State.relocValue (s : State) (m : Image) (n l : Nat) (members : List Member) (r : Rel) (old : Nat) : Nat :=
  let wrap (v : Int) : Nat := (v % (2 ^ r.width : Nat)).toNat
  match r.kind with
  | 0 => (old + ((m.plan n l).getD r.param.toNat Region.unused).first) % 2 ^ r.width
  | 1 => wrap ((n : Int) + r.param)
  | 2 => wrap (((l : Int) + r.param) % (max 1 n : Nat))
  | 3 => (mkDest 0 ((members[r.param.toNat]?.map (·.place)).getD s.place) false).toNat % 2 ^ r.width
  | _ => old

/-- Patches the field of a number. -/
def patchField (v : Nat) (r : Rel) (f : Nat → Nat) : Nat :=
  let old := v / 2 ^ r.pos % 2 ^ r.width
  v - old * 2 ^ r.pos + f old * 2 ^ r.pos

/-- The words and constants of a core, relocated for N. -/
def State.relocate (s : State) (m : Image) (n l : Nat) (members : List Member) : List W64 × List W32 :=
  m.relocs.foldl (fun (p : List W64 × List W32) w =>
    let r := Rel.ofBits w
    let f := s.relocValue m n l members r
    if r.kind = 4 then p
    else if r.pool then (p.1, p.2.modify r.target (fun x => BitVec.ofNat 32 (patchField x.toNat r f)))
    else (p.1.modify r.target (fun x => BitVec.ofNat 64 (patchField x.toNat r f)), p.2)) (m.words, m.consts)

/-! ### Programs -/

/-- A decoded word with its offset. -/
abbrev Prog := List (Nat × Instr)

/-- The words from a start offset, as a core decodes them; words that decode to nothing have been rejected before. -/
def progFrom (l : List (Nat × Option Instr)) (start : Nat) : Prog :=
  (l.drop start).filterMap (fun (p : Nat × Option Instr) => p.2.map (fun i => (p.1, i)))

/-- Loop structure and HALT of the words from a start offset (07 R157, R158): the code of a failure and its offset. `open_`: offsets
of the LOOPs entered. -/
def progShape (start : Nat) : Prog → List Nat → Option (Nat × Nat)
  | [], [] => some (5, start)
  | [], o :: l => some (4, l.foldl min o)
  | (o, i) :: l, open_ =>
    match i with
    | .loop .. => if 4 ≤ open_.length then some (4, o) else progShape start l (o :: open_)
    | .endloop .. => match open_ with | [] => some (4, o) | _ :: r => progShape start l r
    | .halt .. => if open_.isEmpty then none else some (4, o)
    | _ => progShape start l open_

/-- The words up to the HALT outside every loop, with it. -/
def toHalt : Prog → Nat → Prog
  | [], _ => []
  | (o, i) :: l, d =>
    match i with
    | .loop .. => (o, i) :: toHalt l (d + 1)
    | .endloop .. => (o, i) :: toHalt l (d - 1)
    | .halt .. => if d = 0 then [(o, i)] else (o, i) :: toHalt l d
    | _ => (o, i) :: toHalt l d

/-- The body of a loop with its ENDLOOP, and the words after it. -/
def splitLoop : Prog → Nat → Prog × Prog
  | [], _ => ([], [])
  | (o, i) :: l, d =>
    match i with
    | .loop .. => let (b, r) := splitLoop l (d + 1); ((o, i) :: b, r)
    | .endloop .. => if d = 0 then ([(o, i)], l) else let (b, r) := splitLoop l (d - 1); ((o, i) :: b, r)
    | _ => let (b, r) := splitLoop l d; ((o, i) :: b, r)

/-- n times a function. -/
def times {α : Type} (f : α → α) : Nat → α → α
  | 0, x => x
  | n + 1, x => times f n (f x)

/-- Every state that some number of passes reaches, no pass among them: 64 rounds close both uses (07 R155; 09 R218). -/
def closure {σ : Type} [BEq σ] (f : List σ → List σ) (l : List σ) : List σ :=
  times (fun m => (m ++ f m).eraseDups) 64 l

/-- Carries a set of states along every path that the loops of a program allow (07 R155): an immediate count is taken as it is,
after 64 passes the states repeat; a count from a register may be any. -/
def walkPaths {σ : Type} [BEq σ] (f : Nat → Instr → σ → σ) : Nat → Prog → List σ → List σ
  | 0, _, l => l
  | _ + 1, [], l => l
  | n + 1, (o, i) :: p, l =>
    let l := (l.map (f o i)).eraseDups
    match i with
    | .loop _ _ src count =>
      let (body, rest) := splitLoop p 0
      let pass := walkPaths f n body
      walkPaths f n rest (if src then closure pass l else times pass (min count.toNat 64) l)
    | _ => walkPaths f n p l

/-! ### QUEUE_DENSITY (07 R155) -/

/-- The ages in ticks, below 16, of the last entries of a queue, youngest first, and the offset at which 33 entries first fell into
fewer than 16 ticks. -/
abbrev Dense := List Nat × Option Nat

/-- One word on a queue. -/
def denseStep (e : Engine) (o : Nat) (i : Instr) (d : Dense) : Dense :=
  let ages := (d.1.map (· + (wordDelta i).toNat)).filter (· < 16)
  if engineOf i = some e then
    let ages := 0 :: ages
    if 33 ≤ ages.length then (ages.take 32, some (match d.2 with | some x => min x o | none => o)) else (ages, d.2)
  else (ages, d.2)

/-- Offsets at which some path of a program breaks the rule. -/
def denseFails (p : Prog) : List Nat :=
  [Engine.lane, .vector, .move].flatMap (fun e =>
    (walkPaths (denseStep e) (2 * p.length + 2) p [(([], none) : Dense)]).filterMap (·.2))

/-! ### TID_UNCLOSED (09 R218) -/

/-- The offset of the word that opened a transfer id, while it is open. -/
def tidStep (t : BitVec 12) (o : Nat) (i : Instr) (d : Option Nat) : Option Nat :=
  if opensTid i = some t then some o
  else match i with
    | .expect _ _ u => if u = t then none else d
    | _ => d

/-- Words that open a transfer id which some path leaves open at HALT. -/
def tidFails (p : Prog) : List Nat :=
  ((p.filterMap (fun (w : Nat × Instr) => opensTid w.2)).eraseDups).flatMap (fun t =>
    (walkPaths (tidStep t) (2 * p.length + 2) p [(none : Option Nat)]).filterMap id)

/-! ### Flags (07 R165) -/

/-- The flag that a word of its own core raises. -/
def raisesOwn : Instr → Option (BitVec 6)
  | .setf _ _ f v => if v = 0 then none else some f
  | .incf _ _ f => some f
  | _ => none

/-- The flag that a SIGNAL raises, on a core that a register names. -/
def raisesAny : Instr → Option (BitVec 6)
  | .signal _ _ f _ => some f
  | _ => none

/-- The flag of a WAITF. -/
def waitsFor : Instr → Option (BitVec 6) | .waitf _ _ f _ => some f | _ => none

/-- A word of a core's program: core, offset, instruction. -/
abbrev CoreWord := Nat × Nat × Instr

/-- A flag is raised without a word: a nonzero initial value, or a circular region (R165). -/
def Image.raisedFree (m : Image) (f : BitVec 6) : Bool :=
  (m.flags.getD f.toNat 0) != 0 || m.circs.any (fun (p : Nat × List Circ) => p.2.any (fun c => c.size != 0 && c.flagen && c.flag == f))

/-- WAITFs on flags that nothing can raise. -/
def Image.neverSet (m : Image) (ws : List CoreWord) : List Nat :=
  ws.filterMap (fun (w : CoreWord) => match waitsFor w.2.2 with
    | some f =>
      if m.raisedFree f || ws.any (fun (v : CoreWord) => raisesOwn v.2.2 == some f || raisesAny v.2.2 == some f) then none
      else some w.2.1
    | none => none)

/-- The only word that could satisfy a wait (R165): a SETF or INCF on its core, or a SIGNAL of any core. -/
def Image.onlyRaiser (m : Image) (ws : List CoreWord) (c : Nat) (f : BitVec 6) : Option CoreWord :=
  match ws.filter (fun (v : CoreWord) => (v.1 == c && raisesOwn v.2.2 == some f) || raisesAny v.2.2 == some f) with
  | [v] => if m.raisedFree f then none else some v
  | _ => none

/-- The waits that a wait leads to: those that stand before its only raiser on that word's core. -/
def Image.waitEdges (m : Image) (ws : List CoreWord) (w : CoreWord) : List CoreWord :=
  match waitsFor w.2.2 with
  | none => []
  | some f =>
    match m.onlyRaiser ws w.1 f with
    | some v => ws.filter (fun (u : CoreWord) => u.1 == v.1 && decide (u.2.1 < v.2.1) && (waitsFor u.2.2).isSome)
    | none => []

/-- Waits of one entry point that lie on a cycle. -/
def Image.flagCycles (m : Image) (ws : List CoreWord) : List Nat :=
  let waits := ws.filter (fun (w : CoreWord) => (waitsFor w.2.2).isSome)
  (waits.filter (fun w =>
    (times (fun l => (l ++ l.flatMap (m.waitEdges ws)).eraseDups) waits.length (m.waitEdges ws w)).contains w)).map (·.2.1)

/-! ### Region plan, circular regions, element programs (04 R77; 05 R101; 06 R120; 09 R228) -/

/-- Two runs overlap. -/
def runsMeet (a n b k : Nat) : Bool := n != 0 && k != 0 && decide (a < b + k) && decide (b < a + n)

/-- Indexes of the used descriptors of a list that overlap another or run past `top`. -/
def runFails (top : Nat) (l : List (Nat × Nat)) : List Nat :=
  (List.range l.length).filter (fun i =>
    let (a, n) := l.getD i (0, 0)
    n != 0 && (decide (top < a + n) || (List.range i).any (fun j => let (b, k) := l.getD j (0, 0); runsMeet a n b k)))

/-- Descriptors of a core's plan as they are installed: request and budget tables only on the lead (R77). -/
def planFor (lead : Bool) (l : List Region) : List Region :=
  l.map (fun r => if !lead && (r.kind == 4 || r.kind == 5) then { r with count := 0 } else r)

/-- Failures of the region plan of the core with logical number l, by descriptor (R77). -/
def State.planFails (s : State) (m : Image) (n l : Nat) (lead solver : Bool) : List Nat :=
  let all := m.plan n l
  let used := planFor lead all
  let c := s.physOf l
  runFails 3072 (used.map (fun r => (r.first, r.count))) ++
  (List.range all.length).filter (fun i =>
    let r := all.getD i Region.unused
    let u := used.getD i Region.unused
    let table := r.kind == 4 || r.kind == 5
    r.count != 0 && (decide (6 ≤ r.kind) || (solver && table) ||
      (table && u.count != 0 &&
        (!s.isEnabled r.partner || some r.partner == c ||
          !((m.plan n (s.logical r.partner)).any (fun q =>
            q.kind == r.kind && q.count == r.count && q.mirror != r.mirror && some q.partner == c))))))

/-- The bucket count of an image's plan that is not a power of two from 64 to 4,194,304 (16 R365). -/
def Image.dirBad (m : Image) (n : Nat) : Bool :=
  let b := (List.range n).foldl (fun a l =>
    (m.plan n l).foldl (fun a r => if r.kind = 3 then a + r.count else a) a) 0
  b != 0 && !((List.range 17).any (fun i => b == 2 ^ i))

/-- A reserved or ill-formed micro-operation (06 R120, Table 6.4). -/
def uopBad (w : W32) : Bool :=
  let n := w.toNat
  let op := bitsN n 5 0
  let rm := bitsN n 24 22
  decide (0x20 ≤ op) || decide (4 < rm) || (rm == 4 && !(op == 0x1C && bitN n 25)) || decide (10 ≤ bitsN n 21 18) ||
    bitsN n 31 27 != 0

/-- Element programs of an image that fail. -/
def Image.progFails (m : Image) : List Nat :=
  (List.range m.progs.length).filter (fun i =>
    let p := m.progs.getD i ⟨[], []⟩
    decide (16 ≤ i) || p.ops.isEmpty || decide (32 < p.ops.length) || p.ops.any uopBad)

/-- VPROG words that name a program which the image does not hold. -/
def Image.vprogFails (m : Image) (ws : List CoreWord) : List Nat :=
  ws.filterMap (fun (w : CoreWord) => match w.2.2 with
    | .vprog _ _ o => if m.progs.length ≤ o.p.toNat then some w.2.1 else none
    | _ => none)

/-- The circular region that a word commits to at its tail: from a transfer's completion, or at a scheduled tick (05 R103). -/
def tailOf (a : Sr) : Option (BitVec 4) := if a.mode = 3 then some a.reg else none
/-- Commits of transfers. -/
def commitsArrival : Instr → Option (BitVec 4)
  | .recvData _ _ _ sp | .recvFastAdd _ _ _ sp | .recvXor _ _ _ sp | .hostrd _ _ _ _ sp _ _ => tailOf sp
  | _ => none
/-- Commits of scheduled tail-relative operands. -/
def commitsScheduled : Instr → Option (BitVec 4)
  | .vst _ _ r _ _ cmt => if cmt = 0 then none else tailOf r
  | .spfill _ _ r _ _ _ _ cmt => if cmt = 0 then none else tailOf r
  | .wsrd _ _ _ _ _ sp | .kvrd _ _ _ _ sp => tailOf sp
  | _ => none

/-- Words that commit to a region of their core which both kinds of commit reach (R228). -/
def mixedFails (ws : List CoreWord) : List Nat :=
  ws.filterMap (fun (w : CoreWord) =>
    let other (f : Instr → Option (BitVec 4)) (r : BitVec 4) : Bool :=
      ws.any (fun (v : CoreWord) => v.1 == w.1 && f v.2.2 == some r)
    match commitsArrival w.2.2, commitsScheduled w.2.2 with
    | some r, _ => if other commitsScheduled r then some w.2.1 else none
    | _, some r => if other commitsArrival r then some w.2.1 else none
    | _, _ => none)

/-- RECVs of form 4 whose landing latency exceeds their allowance (R227). -/
def State.lambdaFails (s : State) (m : Image) (ws : List CoreWord) : List Nat :=
  ws.filterMap (fun (w : CoreWord) => match w.2.2 with
    | .recvOnDieRead _ _ sc _ _ =>
      match s.physOf sc.toNat, s.physOf w.1 with
      | some a, some b =>
        let allow := match m.relocs.find? (fun r => (Rel.ofBits r).kind == 4 && (Rel.ofBits r).target == w.2.1) with
          | some r => (Rel.ofBits r).param | none => 0
        if allow < ((3 + 2 + meshHops a b + 6 * meshCrossings a b : Nat) : Int) then some w.2.1 else none
      | _, _ => none
    | _ => none)

/-! ### The load -/

/-- The start offset of a core for an entry's voicing; none where the start table gives none. -/
def Image.startOf (m : Image) (v : Voicing) (n l : Nat) : Option Nat :=
  (m.starts.find? (fun (p : Nat × Nat × Nat × Nat) => p.1 == v.start && p.2.1 == n && p.2.2.1 == l)).map (·.2.2.2)

/-- Format of header, sections and records: byte offsets of what fails (R222, step 2; R224, R225). -/
def Image.formatFails (m : Image) (headerOk : Bool) (members : Nat) : List Nat :=
  (if !headerOk || m.nmin = 0 || m.nmax < m.nmin || 288 < m.nmax then [0] else []) ++
  (if 2 ^ 24 < m.words.length then [m.at 0 0 8] else []) ++
  (if m.entries.any (fun (e : Nat × Nat × Voicing) => decide (64 ≤ e.1)) then [m.at 1 0 1] else []) ++
  (if 4096 < m.consts.length then [m.at 3 0 4] else []) ++ (if 16 < m.progs.length then [m.at 4 0 1] else []) ++
  (if m.flags.length ≠ 64 then [m.at 7 0 1] else []) ++
  ((List.range m.relocs.length).filter (fun i => m.relocBad members (m.relocs.getD i 0))).map (fun i => m.at 8 i 8) ++
  m.onDieUnbound.map (fun o => m.at 0 o 8)

/-- Voicings (R220, Table 9.8): offsets of entries with more than four, of start offsets outside the words. -/
def Image.voicingFails (m : Image) (differ : Bool) : List Nat :=
  (if differ then [m.at 1 0 1] else []) ++
  ((List.range m.entries.length).filter (fun i =>
    match m.entries[i]? with
    | some e => decide (4 ≤ e.2.1) || (List.range (m.nmax + 1 - m.nmin)).any (fun k =>
        (List.range (m.nmin + k)).any (fun l => match m.startOf e.2.2 (m.nmin + k) l with
          | some o => decide (m.words.length ≤ o)
          | none => true))
    | none => false)).map (fun i => m.at 1 i 12)

/-- The first check that fails, with the offset that it reports; none where the load succeeds (R222, R228). `slot`: the formed slot
that GROUP names. -/
def State.checkImage (s : State) (m : Image) (slot : Option Nat) (headerOk differ : Bool) : Option (Nat × Nat) :=
  let n := s.n
  let k : Group := match slot with | some g => s.group g | none => Group.reset
  let cores := List.range n
  let code (l : Nat) : List (Nat × Option Instr) :=
    let ws := (s.relocate m n l k.members).1
    let c : CoreId := Fin.ofNat 288 ((s.physOf l).getD 0)
    ws.zipIdx.map (fun (w : W64 × Nat) =>
      (w.2, (decodeZvis c w.1).bind (fun i => if wordOk n l i then some i else none)))
  let codes := cores.map (fun l => (l, code l))
  let words : List CoreWord := codes.flatMap (fun p =>
    p.2.filterMap (fun (w : Nat × Option Instr) => w.2.map (fun i => (p.1, w.1, i))))
  let progs (e : Nat × Nat × Voicing) : List (Nat × Nat × Prog) := codes.filterMap (fun p =>
    (m.startOf e.2.2 n p.1).map (fun o => (p.1, o, progFrom p.2 o)))
  let shapes := m.entries.flatMap (fun e => (progs e).filterMap (fun p => progShape p.2.1 p.2.2 []))
  let run := m.entries.map (fun e => (progs e).map (fun p => (p.1, toHalt p.2.2 0)))
  let perProg (f : Prog → List Nat) : List Nat := run.flatMap (fun ps => ps.flatMap (fun p => f p.2))
  let byCore (ps : List (Nat × Prog)) : List CoreWord := ps.flatMap (fun p => p.2.map (fun w => (p.1, w)))
  let circOf (l : Nat) : List Circ := match m.circs.find? (fun (p : Nat × List Circ) => p.1 == l) with | some p => p.2 | none => []
  let checks : List (Nat × (Unit → List Nat)) := [
    (0x01, fun _ => m.formatFails headerOk k.members.length),
    (0x0E, fun _ => m.voicingFails differ),
    (0x02, fun _ => if m.nmin ≤ n ∧ n ≤ m.nmax then [] else [0]),
    (0x03, fun _ => codes.flatMap (fun p => (p.2.filter (fun (w : Nat × Option Instr) => w.2.isNone)).map (·.1))),
    (0x04, fun _ => (shapes.filter (·.1 == 4)).map (·.2)),
    (0x05, fun _ => (shapes.filter (·.1 == 5)).map (·.2)),
    (0x0A, fun _ => match m.progFails with | [] => m.vprogFails words | l => l.map (fun i => m.at 4 i 160)),
    (0x09, fun _ => match slot with
      | none => [m.at 5 0 8]
      | some _ => (if m.dirBad n then [m.at 5 0 8] else []) ++ cores.flatMap (fun l => (s.planFails m n l k.lead k.solver).map (fun i => m.at 5 (8 * l + i) 8)) ++
          cores.flatMap (fun l => (runFails 6144 ((circOf l).map (fun c => (c.base, c.size)))).map (fun i => m.at 6 (16 * l + i) 16))),
    (0x0D, fun _ => mixedFails words),
    (0x0C, fun _ => perProg tidFails),
    (0x07, fun _ => m.neverSet words),
    (0x08, fun _ => run.flatMap (fun ps => m.flagCycles (byCore ps))),
    (0x06, fun _ => perProg denseFails),
    (0x0B, fun _ => s.lambdaFails m words)]
  checks.findSome? (fun c => (lowest (c.2 ())).map (fun o => (c.1, o)))

/-- A load has changed which blocks form the bucket array: every entry becomes invalid, READY is cleared, and DIR_REFETCH is raised
for the whole array (16 R376). -/
def State.dirInvalid (s : State) : State :=
  let s := s.dirBlocks.foldl (fun s p => s.updWs p.1 (fun w => w.write (4096 * p.2) (List.replicate 4096 0))) s
  ({ s with dir := { s.dir with ready := false } }.touch 0x1024 1).dirRefetch 0 s.dirNb

/-- Blocks in linear layout have Scheme 0 and unused scale bytes (04 R75): the records of the blocks that no weights region holds. -/
def WStore.linearRecords (w : WStore) : WStore :=
  w.records.foldl (fun w p =>
    if w.kindOf p.1 == 1 || (!p.2.square && p.2.scales.isEmpty) then w
    else
      let w := { w with records := Recs.put w.records p.1 { p.2 with square := false, scales := [] } }
      { w with records := Recs.put w.records p.1 { w.record p.1 with crc := w.crcOf p.1 } }) w

/-- Installs an image on every enabled core (R222, steps 7 and 8; 04 R75; 16 R376). A block whose kind the new map changes keeps its
program-visible bytes: the spec says nothing of them, and this is the model's choice (log entry 93). -/
def State.installImage (s : State) (m : Image) (g : Nat) : State :=
  let k := s.group g
  let n := s.n
  let before := s.dirBlocks
  let s := (List.range n).foldl (fun s l =>
    match s.physOf l with
    | none => s
    | some c =>
      let circ := match m.circs.find? (fun (p : Nat × List Circ) => p.1 == l) with | some p => p.2 | none => []
      let consts := (s.relocate m n l k.members).2
      s.updCore c (fun x => { x with
        ws := ({ x.ws with
          regions := (planFor k.lead (m.plan n l)).zipIdx.map (fun (r : Region × Nat) => (r.2, r.1)) } : WStore).linearRecords
        sp := { x.sp with circ := circ.zipIdx.map (fun (r : Circ × Nat) => (r.2, r.1)) }
        vec := { x.vec with progs := m.progs.zipIdx.map (fun (p : EProg × Nat) => (p.2, p.1)), consts := Tab.setList 0 [] 0 consts } })) s
  let s := if s.dirBlocks = before then s else s.dirInvalid
  ({ s with images := Recs.put s.images g m }).resetCores s.enabled

/-- Whether some core of an image's plan holds a region of kind weights (17 R392). -/
def Image.weighted (m : Image) (n : Nat) : Bool :=
  (List.range n).any (fun l => (m.plan n l).any (fun r => r.count != 0 && r.kind == 1))

/-- Loads an image for a slot: the status and offset of the completion, and the state (R222, R228; 17 R392; 19 Table 19.2). The
measurement is recorded first, whatever the checks find (log entry 40). -/
def State.loadImage (s : State) (m : Image) (slot : Option Nat) (headerOk differ : Bool) : Nat × Nat × State :=
  let s := match slot with | some g => s.setMeasure (0x10 + (s.group g).owner) m.digest | none => s
  match s.checkImage m slot headerOk differ, slot with
  | some (code, o), _ => (code, o, s)
  | none, none => (9, m.at 5 0 8, s)
  | none, some g =>
    let same := (s.image g).loaded && (s.image g).digest == m.digest
    let s := s.installImage m g
    let s := if !(m.weighted s.n) then s.updServe g (fun v => { v with gen := some ⟨0, List.replicate 64 0⟩ })
      else if same then s else s.updServe g (fun v => { v with gen := none })
    (0, 0, s)

end Sys2Proof.Machine
end

