-- ==== Sys2Proof/Machine/LoadEvents.lean ====
section
/-! DEFINITION. Weight packages: manifest and section checks, swaps and full loads, chunks, parity (17 R377 to R395). -/

namespace Sys2Proof.Machine

/-! ### Manifest and member section (Tables 17.1 to 17.4) -/

/-- MEMBERS of a manifest. -/
def manifestMembers (m : List Byte) : Nat := fieldN m 12 4

/-- The first failure among checks 1 to 6 of R381 by its status of Table 17.7; 0 where they pass. `others`: image digest and enabled
count of the other members; `swap`: it is no full load. -/
def State.manifestFail (s : State) (g : Nat) (m : List Byte) (others : List (List Byte × Nat)) (swap : Bool) : Nat :=
  let k := s.group g
  let len := 256 + 80 * manifestMembers m
  let zero (o n : Nat) : Bool := fieldN m o n == 0
  let key := s.sec.publishers.find? (fun (p : Nat × List Byte) => sliceB (Config.sha512 p.2) 0 8 == sliceB m 88 8)
  if fieldN m 0 4 ≠ 0x4B504D4C ∨ fieldN m 4 2 ≠ 1 ∨ !(zero 6 2 && zero 22 2 && zero 96 160) ∨ m.length ≠ len + 132 then 1
  else match key with
    | none => 2
    | some p =>
      if !(Config.verifies p.2 (m.take len) (m.drop len)) then 3
      else if ((s.image g).digest :: others.map (·.1)).any (fun d => sliceB d 0 64 != sliceB m 24 64) then 4
      else if manifestMembers m ≠ k.members.length ∨
          (s.n :: others.map (·.2)).any (fun n => decide (n < fieldN m 16 2) || decide (fieldN m 18 2 < n)) then 5
      else if swap && k.serve.gen.map (·.num.toNat % 256) == some (fieldN m 8 1) then 6
      else 0

/-- A chunk entry with its placement (Tables 17.3, 17.4), resolved for the enabled count: none where it breaks R380 or R383. -/
def State.chunkOf (s : State) (sec : List Byte) (tab layers : Nat) (i : Nat) : Option Chunk :=
  let e := sliceB sec (64 + 160 * i) 160
  let f (o n : Nat) : Nat := fieldN e o n
  let conv := f 3 1
  let formed := bitN conv 6
  let dfmt := conv % 16
  let rb := f 12 2
  let cb := f 14 2
  let p := fieldN sec (tab + 8 * f 16 4) 8
  let nb := rb * cb
  let (no, ni) := tileOf ((Fmt.ofCode dfmt).getD .bf16)
  let region := match s.physOf (bitsN p 8 0) with
    | some c => (s.core c).ws.region (bitsN p 11 9)
    | none => Region.unused
  let off := bitsN p 23 12
  let rawOk := if formed then f 8 4 == 4356 * nb && cb == 1 && conv % 64 == 0 else f 8 4 == 2 * (rb * no) * (cb * ni)
  if layers ≤ f 0 2 ∨ 1 < f 2 1 ∨ 6 < dfmt ∨ bitN conv 7 ∨ f 4 4 = 0 ∨ 4194304 < f 4 4 ∨ f 8 4 = 0 ∨ 4194304 < f 8 4 ∨
      fieldN sec 4 4 ≤ f 16 4 ∨ f 156 4 ≠ 0 ∨ nb = 0 ∨ 3072 < nb ∨ !rawOk ∨ (bitN conv 4 ∧ dfmt = 6) ∨ bitsN p 63 24 ≠ 0 ∨
      region.kind ≠ 1 ∨ region.count < off + nb then none
  else some
    { layer := f 0 2, enc := f 2 1, dfmt := dfmt, square := bitN conv 4, transpose := bitN conv 5, formed := formed
      encLen := f 4 4, rawLen := f 8 4, rb := rb, cb := cb, core := bitsN p 8 0, first := region.first + off
      fileOff := f 20 8, srcHash := sliceB e 28 64, placedHash := sliceB e 92 64, attempts := 0, verified := false
      held := none, stream := 0 }

/-- The chunks of a member section for the enabled count n; none where an entry or a placement fails (R379, R380, R383). -/
def State.sectionChunks (s : State) (sec : List Byte) (nmin layers : Nat) : Option (List Chunk) :=
  let count := fieldN sec 0 4
  let tab := 64 + 160 * count + 8 * fieldN sec 4 4 * (s.n - nmin)
  let ks := (List.range count).map (s.chunkOf sec tab layers)
  let all := ks.filterMap id
  let apart := (List.range all.length).all (fun i => (List.range i).all (fun j =>
    match all[i]?, all[j]? with
    | some a, some b => a.core != b.core || !(runsMeet a.first a.blocks b.first b.blocks)
    | _, _ => true))
  let weights := (List.range s.n).foldl (fun n l => match s.physOf l with
    | some c => n + ((s.core c).ws.area 1).length
    | none => n) 0
  let covered := all.foldl (fun n k => n + k.blocks) 0
  if count == 0 || decide (1048576 < count) || ks.any (·.isNone) || !apart || covered != weights then none else some all

/-! ### The swap (Table 17.6) -/

/-- SWAP: a descriptor of PF0 starts a swap or full load on the lead (R381, R389, R392). `manifest`: header, section table and signature
as read; `others`: image digest and enabled count of each other member. -/
def execSwap (func : FuncId) (manifest : List Byte) (others : List (List Byte × Nat)) (s : State) :
    Host.Outcome State Fault Refusal :=
  match s.front func.val 0x12 with
  | none => .next s
  | some x =>
    let f := func.val
    let s0 := s.popSub f
    let policy := fieldN x.bytes 1 1
    let limit := fieldN x.bytes 12 4
    let len := fieldN x.bytes 56 8
    match (List.range 16).find? (fun g => (s.group g).formed && (s.group g).id == x.id && (s.group g).lead) with
    | none => .next (s0.answer f x (if f = 0 then 0xFE else 0xFD) 0 0)
    | some g =>
      let k := s.group g
      let fromHost := k.loadSrc.toNat % 2 == 0
      if f ≠ 0 then .next (s0.answer f x 0xFD 0 0)
      else if 2 < policy ∨ (policy = 0 ∧ limit = 0) ∨ (policy = 2 ∧ k.serve.gen.isSome) ∨ (fromHost ∧ len = 0) ∨
          !(x.reservedZero [(1, 1), (8, 8), (40, 1), (48, 16)]) ∨
          !(s.rangeOk f x (if fromHost then len else manifest.length)) then .next (s0.answer f x 0xFE 0 0)
      else if s.maintBusy then .next (s0.answer f x 8 0 0)
      else
        let code := s.manifestFail g manifest others (policy != 2)
        if code ≠ 0 then .next (s0.answer f x code 0 0)
        else
          let digest := Config.sha512 manifest
          let s := (s0.setMeasure (0x20 + k.owner) digest).startActivity 3 g false
          let s := s.updSwap g (fun w => { w with
            phase := .staging, policy := policy, limit := limit, nextGen := BitVec.ofNat 32 (fieldN manifest 8 4)
            nextDigest := digest, sub := some (x.ref f), staged := [], loadedBy := [], lastOldRunning := false
            releasedAll := false, released := [], stalled := none })
          .next (if (s.others g).isEmpty then s else s.mgt (.manifest g manifest))

/-- Every member has staged: the swap point is fixed, or a full load releases every layer (R389, R390, R392). -/
def State.allStaged (s : State) (g : Nat) : State :=
  if (s.group g).places.all (fun p => (s.group g).swap.staged.contains p) then
    if (s.group g).swap.policy = 2 then
      let s := s.updSwap g (fun w => { w with phase := .loading })
      let s := if (s.others g).isEmpty then s else s.ctl (.releaseAll g)
      (s.releaseEvery g).checkLoaded g
    else s.updSwap g (fun w => { w with phase := .fixed })
  else s

/-- SWAP_STAGE: this package, a member, receives manifest and section, makes check 8, prefetches and acknowledges (R381, R388, R389);
another structural activity answers BUSY. -/
def execSwapStage (slot : Slot) (manifest section_ : List Byte) (s : State) : Host.Outcome State Fault Refusal :=
  let g := slot.val
  let k := s.group g
  let again := s.maint.running == 3 && s.maint.arg == g
  let entry := sliceB manifest (256 + 80 * s.memberIndex g) 80
  let ready := if k.lead then k.swap.phase == .staging && Config.sha512 manifest == k.swap.nextDigest else true
  if !k.formed || !ready || s.passThrough then .next s
  else if !k.lead && !again && (s.maintBusy) then .next (s.ctl (.staged g 8))
  else
    let good := if section_.length = fieldN entry 8 8 ∧ Config.sha512 section_ = sliceB entry 16 64 then
        s.sectionChunks section_ (fieldN manifest 16 2) (fieldN manifest 20 2)
      else none
    match good with
    | none => .next (if k.lead then s.endSwap g 7 else s.ctl (.staged g 7))
    | some ks =>
      let s := if k.lead || again then s else s.startActivity 3 g false
      let s := s.updSwap g (fun w => { w with
        phase := .staging, chunks := ks, inbox := [], section_ := section_, nmin := fieldN manifest 16 2
        nextGen := BitVec.ofNat 32 (fieldN manifest 8 4), nextDigest := Config.sha512 manifest, releasedAll := false
        released := [], stalled := none, lastOldRunning := false })
      let s := s.fetchChunks g
      if k.lead then .next ((s.updSwap g (fun w => { w with staged := w.staged ++ [s.place] })).allStaged g)
      else .next ((s.setMeasure (0x20 + k.owner) (Config.sha512 manifest)).ctl (.staged g 0))

/-- STAGED: the lead takes a member's acknowledgement, or its BUSY or PLACEMENT, which ends the swap (R389, Table 17.7). -/
def execStaged (slot : Slot) (place : Place) (status : Byte) (s : State) : Host.Outcome State Fault Refusal :=
  let g := slot.val
  let w := (s.group g).swap
  if (s.group g).lead && w.phase == .staging && (s.others g).contains place then
    if status ≠ 0 then .next (s.endSwap g status.toNat)
    else if w.staged.contains place then .next s
    else .next ((s.updSwap g (fun w => { w with staged := w.staged ++ [place] })).allStaged g)
  else .next s

/-- RELEASE_ALL on a member (R391). -/
def execReleaseAll (slot : Slot) (s : State) : Host.Outcome State Fault Refusal :=
  let g := slot.val
  if !(s.group g).lead && (s.group g).swap.phase == .staging then
    .next (((s.updSwap g (fun w => { w with phase := .loading })).releaseEvery g).checkLoaded g)
  else .next s

/-- LOADED: the lead takes a member's report. -/
def execLoaded (slot : Slot) (place : Place) (s : State) : Host.Outcome State Fault Refusal :=
  let g := slot.val
  let w := (s.group g).swap
  if (s.group g).lead && w.phase == .loading && (s.others g).contains place && !(w.loadedBy.contains place) then
    .next ((s.updSwap g (fun w => { w with loadedBy := w.loadedBy ++ [place] })).allLoaded g)
  else .next s

/-! ### Chunks -/

/-- CHUNK_RECEIVED: the bytes of a requested chunk, or of a stalled one that the host supplies: checked, and written unless its layer
is still to be released (R382, R388). -/
def execChunkReceived (slot : Slot) (chunk : W32) (stream : BitVec 6) (data : List Byte) (s : State) :
    Host.Outcome State Fault Refusal :=
  let g := slot.val
  let i := chunk.toNat
  match (s.group g).swap.chunk i with
  | none => .next s
  | some k =>
    if k.attempts = 0 ∨ k.verified ∨ k.held.isSome then .next s
    else
      let s := s.updSwap g (fun w => { w with stalled := if (w.stalled.map (·.1)) == some i then none else w.stalled })
      let st := stream.toNat
      let free := data.length = k.encLen ∧ Config.sha512 data = k.srcHash ∧ s.chunkFree g k
      let s := s.chunkArrived g i st k data
      .next (if free then s.checkLoaded g else s)

/-- CHUNK_TIMEOUT: 10 ms without progress on a requested chunk fail it with LENGTH (Table 17.5). -/
def execChunkTimeout (slot : Slot) (chunk : W32) (stream : BitVec 6) (s : State) : Host.Outcome State Fault Refusal :=
  let g := slot.val
  match (s.group g).swap.chunk chunk.toNat with
  | none => .next s
  | some k =>
    if k.attempts = 0 ∨ k.verified ∨ k.held.isSome ∨ ((s.group g).swap.stalled.map (·.1)) = some chunk.toNat then .next s
    else .next (s.chunkFailed g chunk.toNat 1 stream.toNat)

/-! ### Abandoning, parity -/

/-- Abandons the swap or load of a slot that has stalled; the write is refused where none has (R395; 24 Table 24.3). -/
def State.abandon (s : State) (g : Nat) : State :=
  if (s.group g).swap.stalled.isNone then s.refuse 0x1008
  else (s.updServe g (fun v => { v with gen := none })).endSwap g 9

/-- ABANDON: MAINT_CMD. -/
def execAbandon (slot : Slot) (s : State) : Host.Outcome State Fault Refusal :=
  .next (if s.passThrough then s else s.abandon slot.val)

/-- PARITY_VALID: PF0 sets VALID of a slot (R393; 24 Table 24.12). -/
def execParityValid (slot : Slot) (s : State) : Host.Outcome State Fault Refusal :=
  .next (if s.passThrough then s else (s.updGroup slot.val (fun k => { k with parity := true })).touch (parityAt slot.val) 1)

end Sys2Proof.Machine
end

