-- ==== Sys2Proof/Machine/RouteEvents.lean ====
section
/-! DEFINITION. The commands of route tables: INSTALL, EPOCH, and the steps of an epoch change (12 R298 to R303; 24 R536). -/

namespace Sys2Proof.Machine

/-- BAR0 offset of ROUTE_CMD. -/
def routeCmdAt : Nat := 0x20180

/-- The staged fence list: valid entries, in this pod (24 Table 24.7). -/
def State.stagedFence (s : State) : List Place :=
  (List.range 64).filterMap (fun i =>
    let v := Tab.get 0 s.net.fenceStage i
    if bitN v 31 then some (BitVec.ofNat 20 (v % 2 ^ 18 + 2 ^ 18 * (fieldN s.net.shapeStage 67 1 % 4))) else none)

/-- ROUTE_INSTALL: the staged contents become slot 0, CURRENT; refused while a CURRENT record has ROLE 0, or for a record that R287
refuses (R536). -/
def execRouteInstall (s : State) : Host.Outcome State Fault Refusal :=
  if shapeBad s.net.shapeStage || (s.hasRoute && !s.spare) then
    .next ((s.updNet (fun n => { n with result := 2 })).refuse routeCmdAt)
  else
    let s := if (s.routeSlot 1).st = 2 then s.setRoute 1 RouteSlot.empty else s
    .next (((s.setRoute 0 ⟨2, sliceB s.net.shapeStage 0 128, s.stagedFence⟩).updNet (fun n => { n with result := 1 })).shapeTaken)

/-- The epoch change has ended. -/
def State.finishEpoch (s : State) : State :=
  let s := (s.retireSlot.ctl .retire).updNet (fun n => { n with result := 1, epoch := Epoch.idle })
  if s.maint.running = 1 then s.endActivity else s

/-- The step of Table 12.4 that follows once no acknowledgement is missing; alone, the coordinator goes through all of them. -/
def State.nextEpoch : Nat → State → State
  | 0, s => s
  | n + 1, s =>
    if s.net.epoch.waiting.isEmpty then
      match s.net.epoch.phase with
      | .staging =>
        let s := (s.ctl .switch).switchSlot
        State.nextEpoch n (s.updEpoch (fun e => { e with
          phase := .switching, waiting := s.epochPeers, repeats := 0, since := s.station }))
      | .switching =>
        let s := s.updEpoch (fun e => { e with phase := .draining, repeats := 0, waves := 0 })
        if s.epochPeers.isEmpty then s else s.ctl .drainQuery
      | .purging => s.finishEpoch
      | _ => s
    else s

/-- ROUTE_EPOCH: starts an epoch change with the staged contents, on the coordinator only (R300, R536); BUSY by 22 R512. -/
def execRouteEpoch (s : State) : Host.Outcome State Fault Refusal :=
  if shapeBad s.net.shapeStage || !s.coordinating then
    .next ((s.updNet (fun n => { n with result := 2 })).refuse routeCmdAt)
  else if s.maintBusy then .next (s.updNet (fun n => { n with result := 3 }))
  else
    .next (State.nextEpoch 3 ((s.startActivity 1 0 false).startEpoch (sliceB s.net.shapeStage 0 128) s.stagedFence))

/-- EPOCH_STAGE: a package takes the new contents into its non-current slot and acknowledges. -/
def execEpochStage (common : List Byte) (fence : List Place) (s : State) : Host.Outcome State Fault Refusal :=
  if s.coordinating then .next s else .next ((s.stageSlot common fence).ctl .epochAck)

/-- EPOCH_ACK: the coordinator takes an acknowledgement of the present step, or of PURGE. -/
def execEpochAck (place : Place) (s : State) : Host.Outcome State Fault Refusal :=
  match s.net.epoch.phase with
  | .none | .draining => .next s
  | _ => .next (State.nextEpoch 3 (s.updEpoch (fun e => { e with waiting := e.waiting.filter (· != place) })))

/-- EPOCH_ACK_TIMEOUT: 10 ms without an acknowledgement: the message is repeated, three times; then the packages that are missing are
reported lost, and a later epoch change fences them (R300). -/
def execEpochAckTimeout (s : State) : Host.Outcome State Fault Refusal :=
  let e := s.net.epoch
  match e.phase with
  | .none | .draining => .next s
  | ph =>
    if e.waiting.isEmpty then .next (State.nextEpoch 3 s)
    else if e.repeats < 3 then
      let s := s.updEpoch (fun e => { e with repeats := e.repeats + 1 })
      .next (match ph with
        | .staging => s.mgt (.routeSlot (sliceB e.shape 0 64) e.fence)
        | .switching => s.ctl .switch
        | _ => s.ctl .purge)
    else
      let s := e.waiting.foldl State.declareLost s
      .next (State.nextEpoch 3 (s.updEpoch (fun e => { e with waiting := [] })))

/-- SWITCH on a package. -/
def execSwitch (s : State) : Host.Outcome State Fault Refusal :=
  if s.coordinating then .next s else .next (s.switchSlot.ctl .epochAck)

/-- DRAIN_QUERY on a package: OLD_COUNT and OLD_SEEN, which is then cleared (R301). -/
def execDrainQuery (s : State) : Host.Outcome State Fault Refusal :=
  if s.coordinating then .next s
  else .next ((s.ctl (.drainAnswer s.oldCount s.net.oldSeen)).updNet (fun n => { n with oldSeen := false }))

/-- DRAIN_WAVE: the coordinator judges a wave by the answers it has had, with its own, and retires the old slot after the second wave of
R301, or sends the next query. `answers`: place, OLD_COUNT, OLD_SEEN. -/
def execDrainWave (answers : List (Place × W32 × Bool)) (s : State) : Host.Outcome State Fault Refusal :=
  let e := s.net.epoch
  if e.phase ≠ .draining then .next s
  else
    let all := s.epochPeers.all (fun p => answers.any (fun a => a.1 == p))
    let count := s.oldCount + answers.foldl (fun n a => n + a.2.1.toNat) 0
    let seen := s.net.oldSeen || answers.any (fun a => a.2.2)
    let s := s.updNet (fun n => { n with oldSeen := false })
    let empty := all && count == 0
    if empty && decide (1 ≤ e.waves) && !seen then .next s.finishEpoch
    else .next ((s.updEpoch (fun e => { e with waves := if empty then 1 else 0 })).ctl .drainQuery)

/-- PURGE: 100 ms after SWITCH the coordinator sends it, and it discards its own OLD cells; a package that receives it discards its own
and answers (R301). -/
def execPurge (s : State) : Host.Outcome State Fault Refusal :=
  if s.coordinating then
    if s.net.epoch.phase = .draining then
      let s := (s.ctl .purge).purgeOld
      .next (State.nextEpoch 3 (s.updEpoch (fun e => { e with phase := .purging, waiting := s.epochPeers, repeats := 0 })))
    else .next s
  else .next (s.purgeOld.ctl .epochAck)

/-- RETIRE on a package. -/
def execRetire (s : State) : Host.Outcome State Fault Refusal :=
  if s.coordinating then .next s else .next s.retireSlot

end Sys2Proof.Machine
end

