-- ==== Sys2Proof/Machine/FaultEvents.lean ====
section
/-! DEFINITION. Detected faults and their recovery: mesh, clock, supply, firmware watchdog, STOP and retry, discards, heartbeats, lost
packages, core retirement, recovery prefill (20 R463 to R473; 22 R507). -/

namespace Sys2Proof.Machine

/-! ### Mesh, clock, supply, firmware -/

/-- MESH_CRC: a flit for a core fails its check and is not delivered (`lost`: its place among the cells on the way to that core, where it
belongs to one); the third fault within one hour enters pass-through mode (R463). -/
def execMeshCrc (core : CoreId) (lost : Option (BitVec 16)) (s : State) : Host.Outcome State Fault Refusal :=
  let c := core.val
  if s.isEnabled c && !s.passThrough then
    let mine := s.mesh.filter (fun x => s.physOf x.cell.core.toNat == some c)
    let s : State := match lost.bind (fun n => mine[n.toNat]?) with
      | some x => { s with mesh := s.mesh.erase x }
      | none => s
    let recent := s.meshFaults.filter (fun t => s.station < t + 3600000000000)
    let third := decide (2 ≤ recent.length)
    let s := ({ s with meshFaults := recent ++ [s.station] }).coreFault c 0x0020 5 (if third then 4 else 1) 0xFFFF 0
    .next (if third then s.enterPassThrough 0x0020 else s)
  else .next s

/-- CLOCK_LOCK_LOSS: the package holds as under 09 R214 until relock (R464). -/
def execClockLockLoss (course : Fin 8) (s : State) : Host.Outcome State Fault Refusal :=
  if s.passThrough then .next s
  else
    let g := s.liveSlots.head?
    let s := s.logFault 0x0050 8 0 g (match g with | some g => (s.step' g).num | none => 0) 0xFFFF
      (BitVec.ofNat 16 course.val) 0
    .next ((s.updClk (fun k => { k with locked := k.locked.set course.val false, lockLosses := k.lockLosses + 1 })).addHold .lockLoss)

/-- The courses are resynchronised: every PLL locked, no hold for lock (R464). -/
def State.resync (s : State) : State :=
  if s.clk.refclk then
    ((s.updClk (fun k => { k with locked := List.replicate 8 true })).dropHold .frequency).dropHold .lockLoss
  else s

/-- RELOCK_TIMEOUT: relock takes longer than 2 µs: the running step is stopped, the courses resynchronised, the step retried; the second
such fault within 10 minutes enters pass-through mode (R464). -/
def execRelockTimeout (s : State) : Host.Outcome State Fault Refusal :=
  if !s.passThrough && (s.clk.holds.contains .lockLoss || s.clk.holds.contains .frequency) then
    .next (s.clockFault 0x0050 0xFFFF 0).resync
  else .next s

/-- TICK_DIVERGE: the eight counter copies disagree (R464). -/
def execTickDiverge (s : State) : Host.Outcome State Fault Refusal :=
  if s.passThrough then .next s
  else .next ((s.clockFault 0x0051 0xFFFF 0).updClk (fun k => { k with diverges := k.diverges + 1 })).resync

/-- SUPPLY_FAULT: a rail monitor finds the core or memory rail, or a converter stage, outside its limits (R465; 01 R14). -/
def execSupplyFault (s : State) : Host.Outcome State Fault Refusal :=
  if s.passThrough && !s.power.railMemory && !s.power.railCore then .next s
  else .next ((s.supplyFault 0xFFFF 0).updPower (fun p => { p with railFault := true }))

/-! ### STOP, retry, discards -/

/-- STOP on a member: the step ends, program state is reset; a replay stop keeps it (R468; 10 R252). What its cores add to the step record
goes to the lead (07 R168). -/
def execStop (slot : Slot) (step : W64) (status : Byte) (s : State) : Host.Outcome State Fault Refusal :=
  let g := slot.val
  let k := s.group g
  if k.formed && !k.lead && (s.step' g).live && (s.step' g).num == step then
    let m := s.endReport g
    let s := if status = 7 then (s.closeStep g .replayStopped true).addHold .replayStop
      else s.endStep g (StepStatus.ofCode status.toNat) true
    .next (s.ctl (.finished g step s.budgetNow { m with status := status.toNat }))
  else .next s

/-- Recovery of the faults of a slot has completed: no recovery activity runs or waits, no member is lost, no core waits for a visit,
an arbitration or a block (R468, R462). -/
def State.recovered (s : State) (g : Nat) : Bool :=
  !(s.maint.byRec && s.maint.running != 0) && s.maint.queue.isEmpty && s.clk.holds.all (fun h => h != .lockLoss && h != .frequency) &&
    (s.group g).members.all (fun m => !(s.net.lost.contains m.place)) &&
    (s.coresOf (s.group g).owner).all (fun c =>
      !(s.core c).det.visitAsked && (s.core c).det.arbOpen.isNone && (s.core c).ws.bad.isEmpty)

/-- The next replay step of recovery prefill: part of the first request's positions, under the number of the step that is to be retried
(R472). -/
def State.recoverStep (s : State) (g e : Nat) (tokens : List W32) (done : Nat) : State :=
  let k := s.group g
  let run := s.step' g
  let v := s.nextVoicing g k.serveEntry
  let (_, ptok, _, _) := k.voices.getD v (1, 0, 0, 0)
  let n := min (tokens.length - done) (max 1 ptok)
  let r := s.req g e
  let s := s.updGroup g (fun k => { k with saved := if run.retryDue then some run else k.saved })
  let s := s.updServe g (fun w => { w with recover := (e, tokens, done, n) :: w.recover.drop 1 })
  (s.begin g { StepRun.idle with
    num := run.num, entry := k.serveEntry, voicing := v, seed := run.seed, params := run.params, replay := true
    batch := [⟨e, r.id, done, true, n, 0, false⟩], input := (tokens.drop done).take n }).launch g

/-- STEP_RETRY: after the recovery, the lead runs the replay steps of recovery prefill that are due, then retries the stopped step under
its number (R468, R472); a LAST_OLD step any of whose layers has been released is not retried, and its requests end with MODEL_RESTART
(17 R391). `released`: a member besides this package has released a layer. -/
def execStepRetry (slot : Slot) (released : Bool) (s : State) : Host.Outcome State Fault Refusal :=
  let g := slot.val
  let k := s.group g
  let run := s.step' g
  if k.formed && k.lead && !run.busy && s.recovered g && !s.passThrough && (run.retryDue || k.saved.isSome || !k.serve.recover.isEmpty)
  then
    let s : State := match k.serve.recover with
      | (e, t, d, n) :: l =>
        let d := if n != 0 && run.status == .completed && run.replay then d + n else d
        s.updServe g (fun w => { w with recover := if t.length ≤ d then l else (e, t, d, 0) :: l })
      | [] => s
    match (s.group g).serve.recover with
    | (e, t, d, _) :: _ => .next (s.recoverStep g e t d)
    | [] =>
      let run : StepRun := k.saved.getD run
      let s := s.updGroup g (fun k => { k with saved := none })
      if !run.retryDue then .next s
      else if k.swap.lastOldRunning && (released || !k.swap.released.isEmpty) then
        let s := s.updStep g (fun _ => { run with retryDue := false })
        let s := run.batch.foldl (fun s b =>
          let r := s.req g b.entry
          if r.state != .free && r.id == b.id then s.endReq g b.entry 0x0C else s) s
        .next (s.answerStep g .stepError 0)
      else .next ((s.begin g { run with
          retry := true, retryDue := false, reports := [], gath := noReport, commitPos := 0, committed := 0, unreadable := false
          ticks := 0, status := .completed, decodeAt := none, readyAt := none, stopDue := false, final := true }).launch g)
  else .next s

/-- DISCARD: a notice for a transfer to a core of this package (R468). -/
def execDiscard (core : BitVec 9) (tid : BitVec 12) (s : State) : Host.Outcome State Fault Refusal :=
  .next (if s.passThrough then s else s.discardHere core.toNat tid.toNat)

/-! ### Heartbeats and lost packages (R469, R471) -/

/-- The compute state that a heartbeat carries. -/
def State.computeState (s : State) : Nat := if s.passThrough then 1 else if s.maint.running = 6 then 2 else 0

/-- The highest step number of the package. -/
def State.highestStep (s : State) : W64 :=
  (List.range 16).foldl (fun m g => if m.toNat < (s.step' g).highest.toNat then (s.step' g).highest else m) 0

/-- HEARTBEAT_SEND: one heartbeat on each UP torus and pod port. -/
def execHeartbeatSend (s : State) : Host.Outcome State Fault Refusal :=
  .next ((List.range 8).foldl (fun s p =>
    if (s.port p).st == .up && s.meshPort p then s.ctl (.heartbeat p s.place s.computeState s.highestStep) else s) s)

/-- HEARTBEAT: a neighbour's heartbeat; compute state 1 is reported as SILENT is. -/
def execHeartbeat (port : PortId) (compute : BitVec 2) (s : State) : Host.Outcome State Fault Refusal :=
  let p := port.val
  let s := s.updPort p (fun k => { k with heard := s.station, silent := false })
  .next (if compute = 1 then s.declareSilent p else s)

/-- SILENT: 300 µs without a heartbeat on a torus or pod port. -/
def execSilent (port : PortId) (s : State) : Host.Outcome State Fault Refusal :=
  let p := port.val
  .next (if (s.port p).st == .up && !(s.port p).silent && s.meshPort p then s.declareSilent p else s)

/-- Recovery prefill follows for the groups of a package that has just been declared lost. -/
def State.recoverLost (s : State) (before : List Place) (p : Place) (journal : List JournalRec) : State :=
  if s.net.lost.contains p && !(before.contains p) then
    s.putRecover (fun g _ => (s.group g).members.any (fun m => m.place == p)) journal
  else s

/-- SILENT_REPORT: at the coordinator or at a lead, a report of a silent package by one of its neighbours. -/
def execSilentReport (silent reporter : Place) (journal : List JournalRec) (s : State) : Host.Outcome State Fault Refusal :=
  .next ((s.silentReport silent reporter).recoverLost s.net.lost silent journal)

/-- PACKAGE_LOST: 100 µs after a first report no neighbour has received a heartbeat. -/
def execPackageLost (place : Place) (journal : List JournalRec) (s : State) : Host.Outcome State Fault Refusal :=
  if s.hears place && s.net.reports.any (fun r => r.1 == place) then
    .next ((s.declareLost place).recoverLost s.net.lost place journal)
  else .next s

/-! ### Core retirement (R470; 01 R16) -/

/-- Adds a core to the field section: it is disabled, its queues, tables and results in flight with it (01 R2, R12; 05 R110), and reported;
past 32 cores the package is due for replacement (01 R16). The manual gives no CLASS for the two reasons: an open value of Table 20.1's
classes. OUTCOME 3 and the core as UNIT, at every retirement past 32, are the model's (DESIGN CHOICE, log entry 93). -/
def State.retireCore (s : State) (c : Nat) : State :=
  let s := s.resetCores [c]
  let s := { s with enabled := s.enabled.erase c, cores := s.cores.filter (fun p => p.1 != c), kdq := s.kdq.filter (fun j => j.core != c) }
  let s := s.updMaint (fun m => { m with retired := m.retired ++ [c] })
  let (x, s) := s.takeFree 8
  let cls := 1 + x.toNat % 12
  let s := s.logFault 0x00B0 cls 3 none 0 (BitVec.ofNat 16 c) 0xFFFF 0
  let s := if 32 < s.maint.retired.length then s.logFault 0x00B1 cls 3 none 0 (BitVec.ofNat 16 c) 0xFFFF 0 else s
  s.remeasure 4

/-- A swap that a retirement has met ends as an activity with INTERRUPTED; the swap itself goes on (17 R389, Table 17.7). -/
def State.interruptSwap (s : State) (g : Nat) : State :=
  if s.maint.suspended = some (3, g) then
    (s.raise 0 ⟨0x0022, 0, 0, 0, s.station, BitVec.ofNat 64 (s.memberIndex g)⟩).updMaint (fun m => { m with suspended := none })
  else s

/-- The member section of a slot is loaded again, as a fresh load, for the present enabled count; one that the count does not fit leaves no
generation in force, and abandons a swap (17 R389, R395; R470). -/
def State.reloadWeights (s : State) (g : Nat) : State :=
  let w := (s.group g).swap
  let s := s.interruptSwap g
  if w.section_.isEmpty then s
  else match (if s.n < w.nmin then none else s.sectionChunks w.section_ w.nmin 4096) with
    | some ks => ((s.clearParity g).updSwap g (fun w => { w with
        chunks := ks, stalled := none, inbox := []
        phase := if w.phase == .none then w.phase else .loading, releasedAll := w.releasedAll || w.phase != .none })).fetchChunks g
    | none =>
      let s := s.updServe g (fun v => { v with gen := none })
      if w.phase == .none then s else s.endSwap g 5

/-- CORE_RETIREMENT_AND_RELOAD: the activity's work, once it runs: the core is retired, images and weights reloaded for N − 1, the directory
refetched, recovery prefill put down; an image whose range N − 1 leaves, or that fails its checks, means pass-through mode (R470; 09 R226;
16 R376; 17 R393). The activity ends once every chunk has been verified. -/
def execCoreRetirementAndReload (core : CoreId) (journal : List JournalRec) (s : State) : Host.Outcome State Fault Refusal :=
  let c := core.val
  if s.maint.running = 6 ∧ s.maint.arg = c ∧ s.isEnabled c then
    let s := (s.stopAll 0x00B0).retireCore c
    let slots := (List.range 16).filter (fun g => (s.image g).loaded)
    if slots.any (fun g => (s.checkImage (s.image g) (some g) true false).isSome) then .next (s.enterPassThrough 0x00B0)
    else
      let s := slots.foldl (fun s g => (s.installImage (s.image g) g).reloadWeights g) s
      .next (s.putRecover (fun g _ => slots.contains g) journal)
  else .next s

end Sys2Proof.Machine
end

