-- ==== Sys2Proof/Machine/LinkCode.lean ====
section
/-! DEFINITION. What a link carries bit for bit: cells and frames as bytes, CRC-32, encryption, the coded stream and its lanes (11 R258 to
R260, R268, R281). -/

namespace Sys2Proof.Machine

/-! ### Cells (Table 11.8) -/

/-- The header of a cell that travels on channel `chan`. -/
def cellHeader (chan : BitVec 3) (x : Cell) : Nat :=
  x.dest.toNat + 2 ^ 20 * x.core.toNat + 2 ^ 29 * chan.toNat + 2 ^ 32 * b01 x.epoch + 2 ^ 33 * x.cls.toNat + 2 ^ 37 * x.tenant.toNat +
    2 ^ 40 * x.tid.toNat + 2 ^ 52 * x.index.toNat + 2 ^ 63 * b01 x.last

/-- The 40 bytes of a cell: header little-endian, then the payload (R268). -/
def cellBytes (chan : BitVec 3) (x : Cell) : List Byte := leBytes 8 (cellHeader chan x) ++ sliceB x.payload 0 32

/-- A cell's bytes read, with the channel that its header names. `own` and `mark`: what the header has no bits for (log entry 97); off the
escape channels a cell's own channel is the one that it travels on. -/
def cellOf (bs : List Byte) (own : BitVec 3) (mark : CellMark) : BitVec 3 × Cell :=
  let h := fieldN bs 0 8
  let chan := BitVec.ofNat 3 (bitsN h 31 29)
  (chan,
    { dest := BitVec.ofNat 20 (bitsN h 19 0), core := BitVec.ofNat 9 (bitsN h 28 20), vc := if chan = 4 ∨ chan = 7 then own else chan
      epoch := bitN h 32, cls := BitVec.ofNat 4 (bitsN h 36 33), tenant := BitVec.ofNat 3 (bitsN h 39 37)
      tid := BitVec.ofNat 12 (bitsN h 51 40), index := BitVec.ofNat 11 (bitsN h 62 52), last := bitN h 63, mark := mark
      payload := sliceB bs 8 32 })

/-- The body of a data frame in clear: its cells, the other slots zero (R261). -/
def bodyOf (cells : List (BitVec 3 × Cell)) : List Byte := sliceB (cells.flatMap (fun c => cellBytes c.1 c.2)) 0 480

/-- The valid cells of a body in slot order. -/
def bodyCells (body : List Byte) (count : Nat) (marks : List (BitVec 3 × CellMark)) : List (BitVec 3 × Cell) :=
  (List.range count).map (fun i =>
    let m := marks.getD i (0, .none)
    cellOf (sliceB body (40 * i) 40) m.1 m.2)

/-! ### Frames (Table 11.5) -/

/-- One bit of CRC-32 of IEEE 802.3, reflected polynomial 0xEDB88320. -/
def ethBit : Nat → Nat → Nat
  | 0, c => c
  | n + 1, c => ethBit n (if c % 2 = 1 then Nat.xor (c / 2) 0xEDB88320 else c / 2)

/-- The register advanced over bytes. -/
def ethBytes : Nat → List Byte → Nat
  | c, [] => c
  | c, b :: bs => ethBytes (ethBit 8 (Nat.xor c b.toNat)) bs

/-- CRC-32 of IEEE 802.3 of a byte string. -/
def crc32 (bs : List Byte) : Nat := Nat.xor (ethBytes 0xFFFFFFFF bs) 0xFFFFFFFF

/-- CTRL. -/
def frameCtrl (f : Frame) : Nat := f.type.toNat + 4 * b01 f.nak + 8 * b01 f.enc + 16 * b01 f.key

/-- Bytes 0 to 507. -/
def frameHead (f : Frame) : List Byte :=
  leBytes 2 f.seq.toNat ++ leBytes 2 f.ack.toNat ++ [f.off] ++ leBytes 1 (frameCtrl f) ++ leBytes 1 f.count ++ [0] ++ leBytes 2 f.lanes.toNat ++
    [0, 0] ++ sliceB f.body 0 480 ++ sliceB f.tag 0 16

/-- The 512 bytes of a frame, its CRC computed anew (R260, R265). -/
def frameBytes (f : Frame) : List Byte := frameHead f ++ leBytes 4 (crc32 (frameHead f))

/-- The CRC of 512 bytes is good. -/
def frameCrcGood (bs : List Byte) : Bool := fieldN bs 508 4 == crc32 (bs.take 508)

/-- A frame's bytes read; its cells are read once its body is in clear. -/
def frameOf (bs : List Byte) : Frame :=
  let c := fieldN bs 5 1
  { seq := BitVec.ofNat 16 (fieldN bs 0 2), ack := BitVec.ofNat 16 (fieldN bs 2 2), off := BitVec.ofNat 8 (fieldN bs 4 1)
    type := BitVec.ofNat 2 c, nak := bitN c 2, enc := bitN c 3, key := bitN c 4, count := fieldN bs 6 1, cells := []
    lanes := BitVec.ofNat 16 (fieldN bs 8 2), reserved := bitsN c 7 5 != 0 || fieldN bs 7 1 != 0 || fieldN bs 10 2 != 0
    body := sliceB bs 12 480, tag := sliceB bs 492 16 }

/-! ### Encryption (R281; 19 R445) -/

/-- This end is the requester of a port's link session: X+, Y+, Z+; on a side port to a server the package; on a pod link the lower pod
(19 R445). `kind`, `far`: KIND and peer pod of the side port; `pod`: this package's. -/
def linkRequester (p kind far pod : Nat) : Bool :=
  if p < 6 then p % 2 == 0 else kind != 3 || decide (pod < far)

/-- A direction: 0 from requester to responder. -/
def linkDir (requester transmit : Bool) : Nat := if requester == transmit then 0 else 1

/-- The nonce: the slot's salt, bytes 32 to 35 of the derived string, then the 64-bit frame counter. -/
def linkNonce (material : List Byte) (counter : Nat) : List Byte := sliceB material 32 4 ++ leBytes 8 counter

/-- The additional authenticated data: the three bytes SEQ and CELLS. -/
def linkAad (f : Frame) : List Byte := leBytes 2 f.seq.toNat ++ leBytes 1 f.count

/-- A data frame encrypted under the key of a slot (R281). -/
def sealFrame (f : Frame) (p d : Nat) (k : LinkKey) (counter : Nat) : Frame :=
  let m := Config.linkKey p k.session d k.index
  let r := Config.linkSeal (sliceB m 0 32) (linkNonce m counter) (linkAad f) f.body
  { f with body := r.1, tag := r.2 }

/-- The body of a received data frame in clear; none where its tag fails (R281 to R283). -/
def openFrame (f : Frame) (p d : Nat) (k : LinkKey) (counter : Nat) : Option (List Byte) :=
  let m := Config.linkKey p k.session d k.index
  Config.linkOpen (sliceB m 0 32) (linkNonce m counter) (linkAad f) f.body f.tag

/-- The slot that a frame's KEY names. -/
def KeySlots.slot (k : KeySlots) (key : Bool) : Option LinkKey := if key then k.s1 else k.s0

/-! ### RS(544,514) over GF(2^10) (R258, R259; IEEE 802.3: log entry 98) -/

/-- Multiplication by x modulo x^10 + x^3 + 1. -/
def gfDouble (a : Nat) : Nat := if a < 512 then 2 * a else Nat.xor (2 * a) 0x409

/-- a·b: the low n bits of b, and `acc`. -/
def gfMulAux : Nat → Nat → Nat → Nat → Nat
  | 0, _, _, acc => acc
  | n + 1, a, b, acc => gfMulAux n (gfDouble a) (b / 2) (if b % 2 = 1 then Nat.xor acc a else acc)

/-- The product of two symbols. -/
def gfMul (a b : Nat) : Nat := if a = 0 ∨ b = 0 then 0 else gfMulAux 10 a b 0

/-- a^n, with n below 1,024. -/
def gfPowAux : Nat → Nat → Nat → Nat
  | 0, _, _ => 1
  | k + 1, a, n => gfMul (if n % 2 = 1 then a else 1) (gfPowAux k (gfMul a a) (n / 2))
/-- a^n. -/
def gfPow (a n : Nat) : Nat := gfPowAux 10 a (n % 1023)

/-- 1/a. -/
def gfInv (a : Nat) : Nat := gfPow a 1022

/-- Adds lists of symbols, the shorter one extended with zeros. -/
def gfAdd : List Nat → List Nat → List Nat
  | [], l => l
  | l, [] => l
  | a :: as, b :: bs => Nat.xor a b :: gfAdd as bs

/-- Multiplies a polynomial, coefficient of x^0 first. -/
def gfScale (c : Nat) (l : List Nat) : List Nat := l.map (gfMul c)

/-- Value of a polynomial. -/
def gfEval (l : List Nat) (x : Nat) : Nat := l.foldr (fun c v => Nat.xor c (gfMul x v)) 0

/-- The generator's product of (x − α^j), j from 0 to n − 1, with α = x; coefficient of x^0 first. -/
def rsGenerator : Nat → List Nat
  | 0 => [1]
  | n + 1 =>
    let g := rsGenerator n
    gfAdd (0 :: g) (gfScale (gfPow 2 n) g)

/-- The remainder's register after symbols, highest power first: 30 symbols, highest power first. -/
def rsDivide (g : List Nat) : List Nat → List Nat → List Nat
  | [], reg => reg
  | m :: ms, reg =>
    let fb := Nat.xor m (reg.headD 0)
    rsDivide g ms (gfAdd (reg.drop 1 ++ [0]) (gfScale fb g))

/-- The codeword of a message of 514 symbols: the message, then its 30 parity symbols. -/
def rsEncode (msg : List Nat) : List Nat :=
  msg ++ rsDivide (((rsGenerator 30).take 30).reverse) msg (List.replicate 30 0)

/-- The 30 syndromes of a received word, its first symbol the coefficient of x^543. -/
def rsSyndromes (w : List Nat) : List Nat := (List.range 30).map (fun j => gfEval w.reverse (gfPow 2 j))

/-- The state of Berlekamp and Massey's search: the locator, the one before its last change, its length, the shift, that change's
discrepancy. -/
structure RsSearch where
  loc : List Nat
  old : List Nat
  len : Nat
  shift : Nat
  disc : Nat

/-- One syndrome: `back` holds the syndromes so far, the newest first. -/
def RsSearch.next (r : RsSearch) (n : Nat) (back : List Nat) : RsSearch :=
  let d := ((r.loc.zip back).map (fun p => gfMul p.1 p.2)).foldl Nat.xor 0
  if d = 0 then { r with shift := r.shift + 1 }
  else
    let loc := gfAdd r.loc (List.replicate r.shift 0 ++ gfScale (gfMul d (gfInv r.disc)) r.old)
    if 2 * r.len ≤ n then ⟨loc, r.loc, n + 1 - r.len, 1, d⟩ else { r with loc := loc, shift := r.shift + 1 }

/-- The search over the syndromes. -/
def rsLocator : List Nat → Nat → List Nat → RsSearch → RsSearch
  | [], _, _, r => r
  | s :: ss, n, back, r => rsLocator ss (n + 1) (s :: back) (r.next n (s :: back))

/-- A received word corrected: the word and the number of symbols corrected, at most 15; none where it is uncorrectable (R259). -/
def rsDecode (w : List Nat) : Option (List Nat × Nat) :=
  let syn := rsSyndromes w
  if syn.all (· == 0) then some (w, 0)
  else
    let r := rsLocator syn 0 [] ⟨[1], [1], 0, 1, 1⟩
    let at_ := (List.range 544).filter (fun i => gfEval r.loc (gfPow 2 (1023 - i)) == 0)
    if 15 < r.len ∨ at_.length ≠ r.len then none
    else
      let omega := (List.range 30).map (fun i => ((List.range (i + 1)).map (fun j =>
        gfMul (syn.getD j 0) (r.loc.getD (i - j) 0))).foldl Nat.xor 0)
      let deriv := r.loc.zipIdx.map (fun p => if p.2 % 2 = 1 then p.1 else 0)
      let fixed := at_.foldl (fun (w : List Nat) i =>
        let x := gfPow 2 i
        let y := gfPow 2 (1023 - i)
        let e := gfMul (gfMul x (gfEval omega y)) (gfInv (gfMul x (gfEval deriv y)))
        w.modify (543 - i) (fun v => Nat.xor v e)) w
      if (rsSyndromes fixed).all (· == 0) then some (fixed, at_.length) else none

/-! ### The stream (R258) -/

/-- The 514 symbols of a message of 5,140 bits. -/
def symbolsOf : Nat → Nat → List Nat
  | 0, _ => []
  | n + 1, v => v % 1024 :: symbolsOf n (v / 1024)

/-- The number whose base-1,024 digits are the symbols. -/
def bitsOfSymbols (l : List Nat) : Nat := l.foldr (fun x v => x + 1024 * v) 0

/-- Lanes set, rising. -/
def lanesOf (l : BitVec 16) : List Nat := (List.range 16).filter (fun i => l.getLsbD i)

/-- The symbols of a codeword on each active lane: symbol k of the stream goes to active lane k mod a. `k0`: the number of the codeword's
first symbol. -/
def onLanes (k0 : Nat) (lanes : List Nat) (w : List Nat) : List (Nat × List Nat) :=
  lanes.zipIdx.map (fun l =>
    (l.1, (w.zipIdx.filter (fun x => (k0 + x.2) % lanes.length == l.2)).map (·.1)))

/-- The alignment marker of a lane as 12 symbols. The spec gives no pattern: it is open. -/
def markerOf (lane : Nat) : List Nat := symbolsOf 12 (Config.alignMarker lane).toNat

/-- Frame bytes enter the stream; a message that is full leaves as a codeword on the active lanes, and every 16,384 codewords a marker
on each. Answers the symbols sent, by lane. -/
def Port.push (k : Port) (bs : List Byte) : Port × List (Nat × List Nat) :=
  let v := k.txBits + 2 ^ k.txLen * leNat bs
  let n := k.txLen + 8 * bs.length
  if n < 5140 then ({ k with txBits := v, txLen := n }, [])
  else
    let w := rsEncode (symbolsOf 514 v)
    let lanes := lanesOf k.txLanes
    let due := k.txWords + 1 == 16384
    ({ k with
        txBits := v / 2 ^ 5140, txLen := n - 5140, txSyms := k.txSyms + 544, txWords := if due then 0 else k.txWords + 1 },
      onLanes k.txSyms lanes w ++ (if due then lanes.map (fun l => (l, markerOf l)) else []))

/-- Received codewords enter the stream: symbols corrected, codewords uncorrectable. -/
def Port.pull (k : Port) (ws : List (List (BitVec 10))) : Port × Nat × Nat :=
  ws.foldl (fun (x : Port × Nat × Nat) w =>
    let l := w.map (·.toNat)
    match rsDecode l with
    | some (d, n) => ({ x.1 with rxWords := x.1.rxWords ++ [(bitsOfSymbols (d.take 514), true)] }, x.2.1 + n, x.2.2)
    | none => ({ x.1 with rxWords := x.1.rxWords ++ [(bitsOfSymbols (l.take 514), false)] }, x.2.1, x.2.2 + 1)) (k, 0, 0)

/-- The next frame of the stream, where its 4,096 bits are there: its bytes, and whether every codeword that has a bit of it was
correctable (R259). -/
def Port.nextFrame (k : Port) : Option ((List Byte × Bool) × Port) :=
  if 5140 * k.rxWords.length < k.rxPos + 4096 then none
  else
    let v := bitsN (k.rxWords.foldr (fun w n => w.1 + 2 ^ 5140 * n) 0) (k.rxPos + 4095) k.rxPos
    let good := (k.rxWords.zipIdx).all (fun w => w.1.2 || decide (k.rxPos + 4096 ≤ 5140 * w.2))
    let e := k.rxPos + 4096
    some ((leBytes 512 v, good), { k with rxWords := k.rxWords.drop (e / 5140), rxPos := e % 5140 })

end Sys2Proof.Machine
end

