-- ==== Sys2Proof/Machine/StoreEvents.lean ====
section
/-! DEFINITION. The scrubber, the restoration of blocks, spare rows, arbitration and drone tests (04 R84 to R89; 17 R394;
20 R458 to R462). -/

namespace Sys2Proof.Machine

/-- Background activities pause while a structural activity runs or is paused (22 R511). -/
def State.backgroundPaused (s : State) : Bool := s.maint.running != 0 || s.maint.suspended.isSome

/-! ### Scrubbing -/

/-- Bank rows of a block (64 × block + bank) in which single-bit errors are corrected. -/
def WStore.singleRows (w : WStore) (b : Nat) : List Nat :=
  ((w.errs.filter (fun e => e.2 == .single && e.1 / 512 == b)).map (fun e => e.1 / 8)).eraseDups

/-- Puts an upset of word n: a single-bit error in a word that has one already is a double-bit error (R81). -/
def upsetWord (l : List (Nat × WordErr)) (n : Nat) (double : Bool) : List (Nat × WordErr) :=
  l.filter (·.1 != n) ++ [(n, if double || l.any (·.1 == n) then .double else .single)]

/-- What a visit finds latent: upsets of the block's words, 0 to 511 by bank and word in its row, and of its record's words, 512 to 544,
each single-bit or double-bit (R81). -/
def WStore.upset (w : WStore) (b : Nat) (flips : List (Fin 545 × Bool)) : WStore :=
  flips.foldl (fun w f =>
    if f.1.val < 512 then { w with errs := upsetWord w.errs (512 * b + f.1.val) f.2 }
    else { w with recErrs := upsetWord w.recErrs (33 * b + (f.1.val - 512)) f.2 }) w

/-- The write-back of a visit: every word corrected carries a good code again, but in the bank rows that another write has reached
meanwhile, whose write-back is dropped (R84). -/
def WStore.writeBack (w : WStore) (b : Nat) (raced : List Nat) : WStore :=
  { w with
    errs := w.errs.filter (fun e => !(e.2 == .single && e.1 / 512 == b && !raced.contains (e.1 % 512 / 8)))
    recErrs := w.recErrs.filter (fun e => !(e.2 == .single && e.1 / 33 == b)) }

/-- One visit of the scrubber (R84, R86, R89). `raced`: the banks of the block whose row another write reaches between the visit's read
and its write-back. -/
def State.scrub (s : State) (c : Nat) (flips : List (Fin 545 × Bool)) (raced : List (BitVec 6)) : State :=
  let b := (s.core c).ws.scrubNext
  let known := (s.core c).ws.bad.contains b
  let s := s.updWs c (fun w => w.upset b flips)
  let rows := (s.core c).ws.singleRows b
  let s := s.updWs c (fun w => { (w.correct b).writeBack b (raced.map (·.toNat)) with
    scrubNext := (b + 1) % wsBlocks
    scrubRows := (w.scrubRows.filter (fun r => r / 64 != b)) ++ rows
    spareDue := w.spareDue ++ rows.filter (fun r => w.scrubRows.contains r && !w.spareDue.contains r) })
  let w := (s.core c).ws
  if known then s
  else if w.blockBad b || w.crcOf b != (w.record b).crc then
    let both := s.bothBad c b
    (s.logFault 0x0011 2 (if both then 2 else 0) none 0 (BitVec.ofNat 16 c) 0xFFFF b).startRestore c b
  else s

/-- SCRUB_VISIT (R84). -/
def execScrubVisit (core : CoreId) (finds : ScrubFinds) (s : State) : Host.Outcome State Fault Refusal :=
  if s.isEnabled core.val && !s.passThrough && !s.backgroundPaused then .next (s.scrub core.val finds.flips finds.raced) else .next s

/-- SCRUB_FORCED_ACCESS (R85): the visit costs one held tick. -/
def execScrubForcedAccess (core : CoreId) (finds : ScrubFinds) (s : State) : Host.Outcome State Fault Refusal :=
  if s.isEnabled core.val && !s.passThrough && !s.backgroundPaused then
    .next ((s.updClk (fun k => { k with conflicts := k.conflicts ++ [(k.tick, 1)] })).scrub core.val finds.flips finds.raced)
  else .next s

/-! ### Restoration -/

/-- The page group that a block of a core's KV area belongs to (14 R326). -/
def State.groupOfBlock (s : State) (c b : Nat) : Option (Nat × Nat) :=
  match s.kvLayout c, ((s.core c).ws.kvArea).findIdx? (· == b) with
  | some y, some i =>
    let sc := Tab.get 0 y.shards (s.logical c)
    if sc = 0 ∨ y.ws = 0 then none else some (y.slot, i / y.ws / sc)
  | _, _ => none

/-- The generation of a page group advances on every page of the group: here, and at the other members (14 R327). -/
def State.advanceEverywhere (s : State) (g p : Nat) : State := (s.advanceGen g p).ctl (.advance g p)

/-- BLOCK_RESTORATION (R86, R87, Table 4.6; 17 R394): `data.bytes` holds the formed block that the parity rebuild or the host's
rewrite gives. A KV page holds zeros afterwards, since nothing rebuilds its bits (DESIGN CHOICE, log entry 93); its group's generation
advances, and the requests whose page lists hold the group are replayed. -/
def execBlockRestoration (core : CoreId) (block : Fin 3072) (data : RestoreData) (s : State) : Host.Outcome State Fault Refusal :=
  let c := core.val
  let b := block.val
  let zeros := (s.updWs c (fun w => w.write (4096 * b) (List.replicate 4096 0))).restored c b
  if !((s.core c).ws.bad.contains b) then .next s
  else match (s.core c).ws.kindOf b with
  | 1 =>
    match s.genSlotOf c with
    | none => .next zeros
    | some g =>
      match s.chunkAt g c b with
      | none => .next zeros
      | some i =>
        if (s.group g).parity then
          let s' := (s.updWs c (fun w => w.writeFormed b data.bytes)).restored c b
          match (s.group g).swap.chunk i with
          | some k =>
            if Config.sha512 (s'.formedBytes k) = k.placedHash then .next s' else .next (s.refetchChunk g i)
          | none => .next s'
        else .next s
  | 2 =>
    match s.groupOfBlock c b with
    | some (g, p) => .next ((zeros.advanceEverywhere g p).putRecover (fun h r => h == g && r.pages.contains p) data.journal)
    | none => .next zeros
  | 3 =>
    .next ((s.updWs c (fun w => w.write (4096 * b) (sliceB data.bytes 0 4096))).restored c b)
  | 4 | 5 =>
    if s.bothBad c b then .next s
    else match s.partnerBlock c b with
      | some (d, q) => .next ((s.updWs c (fun w => w.write (4096 * b) ((s.core d).ws.block q))).restored c b)
      | none => .next s
  | _ => .next zeros

/-- SPARE_ROW_SUBSTITUTION (R88, R89): the lowest spare row of the bank takes the row, and the substitution is recorded;
with no spare row free the core is retired. -/
def execSpareRowSubstitution (core : CoreId) (bank : BitVec 6) (row : Fin 3072) (s : State) :
    Host.Outcome State Fault Refusal :=
  let c := core.val
  let w := (s.core c).ws
  let key := 64 * row.val + bank.toNat
  if !(w.spareDue.contains key) || w.blockBad row.val then .next s
  else
    let n := Tab.get 0 w.sparesUsed bank.toNat
    if n < 64 then
      let s := s.updWs c (fun w => { w with
        sparesUsed := Tab.set 0 w.sparesUsed bank.toNat (n + 1)
        spares := (w.spares.filter (fun x => !(x.bank == bank.toNat && x.row == row.val))) ++ [⟨bank.toNat, row.val, n⟩]
        spareDue := w.spareDue.filter (· != key) })
      let s := s.updMaint (fun m => { m with pendingSubs := m.pendingSubs ++ [(c, bank.toNat, row.val, n)] })
      .next (s.logFault 0x0013 2 0 none 0 (BitVec.ofNat 16 c) (BitVec.ofNat 16 bank.toNat) row.val)
    else .next ((s.updWs c (fun w => { w with spareDue := w.spareDue.filter (· != key) })).askRetire c)

/-! ### Arbitration -/

/-- The alternate core of a core (R459). -/
def State.alternate (s : State) (c : Nat) : Option Nat :=
  let next (l : List Nat) : Option Nat :=
    match l.find? (c < ·) with | some d => some d | none => l.head?
  let near := s.enabled.filter (fun d => courseOf d == courseOf c && d != c)
  match next near with
  | some d => some d
  | none => next (s.enabled.filter (· != c))

/-- The first row of Table 20.2 that applies, counted from 1: V0 with its predicted residues, V1, V2. -/
def arbitrationRow (written : Bool) (v0 v1 v2 : List Int) (rho : List Nat) : Nat :=
  if written then 1
  else if v2 = v0 then 2
  else if v2.map residue = rho then (if v1 = v2 then 3 else 4)
  else 5

/-- The residue registers of index k stand at their values again: V0 stands (Table 20.2, row 2). -/
def Lane.trustValues (l : Lane) (k : Nat) : Lane :=
  (List.range 64).foldl (fun l j => l.setAcc k j (l.accAt k j) (residue (l.accAt k j).i.toInt)) l

/-- ARBITRATION_OUTCOME (R458): `v1` and `v2` are the string sums that the core and its alternate recompute, 64 for each
accumulator index that the bow adds into. -/
def execArbitrationOutcome (core : CoreId) (v1 v2 : List Int) (s : State) : Host.Outcome State Fault Refusal :=
  let c := core.val
  match (s.core c).det.arbOpen with
  | none => .next s
  | some t =>
    let l := (s.core c).lane
    let js := l.journal.filter (fun j => j.tick == t)
    let written := js.any (fun j => Tab.get 0 (s.core c).ws.writes j.set.block != j.writes)
    let row := arbitrationRow written (js.flatMap (·.sums)) v1 v2 (js.flatMap (·.residues))
    let alt := s.alternate c
    let sub : BitVec 16 := match alt with | some d => BitVec.ofNat 16 d | none => 0xFFFF
    let s := (s.updDet c (fun d => { d with arbOpen := none })).dropHold (.arbitration c)
    let resume (s : State) : State := match s.slotOf c with | some g => (s.checkFinished g).pumpAll | none => s.pumpAll
    let fault (s : State) (outcome : Nat) : State := s.coreFault c 0x0001 1 outcome sub row
    let recent := (s.core c).det.transients.any (fun t => s.station < t + 600000000000)
    match row with
    | 1 => .next (resume ((fault s (if recent then 3 else 1)).transient c))
    | 2 =>
      let n := (s.core c).det.checkerFaults + 1
      let s := s.updDet c (fun d => { d with checkerFaults := n })
      if 4 ≤ n then .next (resume ((fault s 3).askRetire c))
      else
        let s := js.foldl (fun s j => s.updLane c (fun l => l.trustValues j.k)) s
        let live := (s.stepOf c).onCores
        let s := s.logFault 0x0001 1 3 (if live then s.slotOf c else none) (if live then (s.stepOf c).num else 0)
          (BitVec.ofNat 16 c) sub row
        .next (resume (if live then s.updDet c (fun d => { d with retireAtEnd := true }) else s.askRetire c))
    | 3 => .next (resume ((fault s (if recent then 3 else 1)).transient c))
    | 4 => .next (resume ((fault s 3).askRetire c))
    | _ =>
      let s := (fault s 6).askRetire c
      .next (resume (match alt with | some d => s.askRetire d | none => s))

/-! ### Drone tests -/

/-- The reference of a sample: the string sums that the operands give at the window (R461). -/
def Journal.reference (j : Journal) : List Int :=
  let terms := ((bowUpdates j.op j.set).find? (fun u => u.1 == j.k)).map (·.2)
  (List.range 64).map (fun n => (termsAt j.window ((terms.getD []).getD n [])).1)

/-- DRONE_SAMPLE_MISMATCH of a sample: the entry names the step of the sample, and the core is retired (R461). -/
def State.sampleBad (s : State) (c : Nat) (x : Sample) : State :=
  (s.logFault 0x0091 12 3 (s.slotOf c) x.step (BitVec.ofNat 16 c) 0xFFFF x.entry.tick).askRetire c

/-- SAMPLE_REFERENCE_CHECK (R461): the oldest sample without a reference is computed and compared with V0. -/
def execSampleReferenceCheck (core : CoreId) (s : State) : Host.Outcome State Fault Refusal :=
  let c := core.val
  match (s.core c).lane.samples.find? (fun x => !x.checked) with
  | none => .next s
  | some x =>
    let i := ((s.core c).lane.samples.findIdx? (fun y => !y.checked)).getD 0
    let s := s.updLane c (fun l => { l with samples := l.samples.modify i (fun y => { y with checked := true }) })
    .next (if x.entry.reference = x.entry.sums then s else s.sampleBad c x)

/-- A visit of 4,096 ticks fits: no step runs on the core, or an idle slot is long enough (R460, R461). -/
def State.idleFor (s : State) (c : Nat) : Bool :=
  !(s.stepOf c).onCores || s.clk.tick + 4096 ≤ (s.core c).det.idleUntil

/-- DRONE_VISIT (R461, R462): the known-answer vectors pass or not, and the checked samples whose replay differs from the
reference. A passing visit releases the checked samples. -/
def execDroneVisit (core : CoreId) (vectors : Bool) (finds : DroneFinds) (s : State) : Host.Outcome State Fault Refusal :=
  let c := core.val
  if !(s.isEnabled c) || s.passThrough || (s.backgroundPaused && !(s.core c).det.visitAsked) || !(s.idleFor c) then .next s
  else
    let wrong := finds.differ.filterMap (fun i => ((s.core c).lane.samples[i.val]?).filter (·.checked))
    let s := s.updSp c (fun m => m.upset (finds.upsets.map (fun u => (u.1.val, u.2.1, u.2.2))))
    if vectors && wrong.isEmpty then
      .next (((s.updDet c (fun d => { d with lastVisit := s.station, visitAsked := false })).updSp c
        (fun m => { m with unc := 0 })).updLane c (fun l => { l with samples := l.samples.filter (fun x => !x.checked) }))
    else
      let live := (s.stepOf c).onCores
      let s := s.updDet c (fun d => { d with visitAsked := false })
      let s := if vectors then s
        else (s.logFault 0x0090 12 3 (if live then s.slotOf c else none) (if live then (s.stepOf c).num else 0)
          (BitVec.ofNat 16 c) 0xFFFF 0).askRetire c
      .next (wrong.foldl (fun s x => s.sampleBad c x) s)

end Sys2Proof.Machine
end

