-- ==== Sys2Proof/Machine/LinkEvents.lean ====
section
/-! DEFINITION. The commands of the optical ports: frames, replay, lanes, bring-up, retune, link keys (11 R260 to R283; 12 R304, R305;
19 R445 to R447; 23 R522). -/

namespace Sys2Proof.Machine

/-! ### Counters and states -/

/-- Counts of a port's receive direction by their place in Table 24.6. -/
def State.rxCount (s : State) (p i n : Nat) : State := s.updPort p (fun k => { k with rxCount := Tab.upd 0 k.rxCount i (· + n) })
/-- Counts of the transmit direction. -/
def State.txCount (s : State) (p i n : Nat) : State := s.updPort p (fun k => { k with txCount := Tab.upd 0 k.txCount i (· + n) })

/-- Set lanes. -/
def laneCount (l : BitVec 16) : Nat := ((List.range 16).filter (fun i => l.getLsbD i)).length

/-- The active lane set: the lowest-numbered lanes, the largest multiple of 4 of those accepted (R276). -/
def activeLanes (l : BitVec 16) : BitVec 16 :=
  BitVec.ofNat 16 ((((List.range 16).filter (fun i => l.getLsbD i)).take (laneCount l / 4 * 4)).foldl (fun n i => n + 2 ^ i) 0)

/-- Laser of an optical die. -/
def State.laser (s : State) (k : Nat) : Laser := Recs.get Laser.reset s.lasers k
/-- Applies a function to a laser. -/
def State.updLaser (s : State) (k : Nat) (f : Laser → Laser) : State := { s with lasers := Recs.put s.lasers k (f (s.laser k)) }

/-- LASER_EN of a die: high while the fabric island is powered and one of its ports is enabled (R277; 23 R522). -/
def State.laserEnable (s : State) (k : Nat) : State :=
  let en := s.power.railFabric && ((s.port (2 * k)).enable || (s.port (2 * k + 1)).enable)
  s.updLaser k (fun l => if en then { l with en := true } else Laser.reset)

/-- A DOWN port that is enabled, in use and lit enters LIGHT with the encryption policy as it then stands (R277; 12 R285; 24 R535). -/
def State.bringUp (s : State) (p : Nat) : State :=
  if (s.port p).st == .down && (s.port p).enable && (s.laser (p / 2)).good && (s.peer p).isSome then
    s.updPort p (fun k => { k with st := .light, policy := k.encrypt })
  else s

/-- A port enters UP afresh: SEQ, E and the frame counters are 0 (R279). Cells of frames sent in LIMITED that no ACK has covered wait to be
sent again, ahead of the others: the spec lets SEQ restart and does not say what becomes of them (log entry 97). -/
def State.enterUp (s : State) (p : Nat) : State :=
  (s.updPort p (fun k => { k with
    st := .up, miswired := false, seq := 0, frames := 0, rxFrames := 0, expect := 0, buffer := [], resend := [], episode := false
    nakDue := false, replayRun := 0, replayTimes := [], tagRun := 0, heard := s.station, silent := false, farOff := 0
    offSince := [], starve := [], credits := [], retraining := false, retrainFails := 0
    outq := k.buffer.flatMap (fun f => f.cells.map (fun c => (c.1, (⟨8, c.1, c.2⟩ : InCell)))) ++ k.outq })).linkEvent p 0

/-- Both directions of a port train: the streams start afresh on all 16 lanes (R258, R277; log entry 98). -/
def Port.train (k : Port) : Port :=
  { k with
    st := .train, realign := false, farLanes := 0xFFFF, txLanes := 0xFFFF, txBits := 0, txLen := 0, txSyms := 0, txWords := 0
    rxWords := [], rxPos := 0 }

/-- A port goes into retraining: E, the buffer and the keys are kept (R266). -/
def State.retrain (s : State) (p : Nat) : State :=
  ((s.updPort p (fun k => { k.train with retraining := true, replayRun := 0, replayTimes := [], resend := [] })).rxCount
    p 5 1).txCount p 5 1

/-- A replay from the oldest buffered frame; too many of them send the port into retraining (R265, R266). -/
def State.replay (s : State) (p : Nat) : State :=
  let s := s.updPort p (fun k => { k with
    resend := k.buffer, replayAt := (k.buffer.head?.map (·.seq)).getD k.seq, replayRun := k.replayRun + 1
    replayTimes := k.replayTimes.filter (fun t => s.station < t + 1000000) ++ [s.station] })
  let s := s.txCount p 4 1
  if 8 ≤ (s.port p).replayRun ∨ 64 ≤ (s.port p).replayTimes.length then s.retrain p else s

/-- The port ends with a failed key session (19 R447). -/
def State.sessionDown (s : State) (p : Nat) : State := (s.portDown p).securityEvent 0 2

/-- Once ACK covers every frame sent under the old key, RETIRE_KEY is sent (19 R446). -/
def State.retireDue (s : State) (p : Nat) : State :=
  let k := s.port p
  if k.rotation == .switched && k.buffer.all (fun f => !f.enc || f.key == k.key) then
    (s.updPort p (fun k => { k with
      rotation := .retiring, txKeys := if k.key then { k.txKeys with s0 := none } else { k.txKeys with s1 := none } })).mgt
      (.retireKey p (k.rotIndex - 1))
  else s

/-! ### Frames -/

/-- Acts on ACK, OFF, NAK and LANES of a frame whose CRC is good, in every state that receives frames (R263 to R266, R272, R276). A new
active lane set starts the count of the stream's symbols afresh (log entry 98). -/
def State.frameFields (s : State) (p : Nat) (f : Frame) : State :=
  let k := s.port p
  let s := match k.buffer.findIdx? (fun b => b.seq == f.ack) with
    | some i =>
      let gone := k.buffer.take (i + 1)
      s.updPort p (fun k => { k with
        buffer := k.buffer.drop (i + 1), resend := k.resend.filter (fun r => gone.all (fun b => b.seq != r.seq)), replayRun := 0 })
    | none => s
  let s := s.retireDue p
  let turned (v : Nat) (k : Port) : Port :=
    let was := k.farOff.getLsbD v
    let now_ := f.off.getLsbD v
    if now_ && !was then { k with offSince := Tab.set 0 k.offSince v (s.station + 1) }
    else if was && !now_ then { k with
      offTime := Tab.upd 0 k.offTime v (· + (s.station + 1 - Tab.get 0 k.offSince v)), offSince := Tab.set 0 k.offSince v 0 }
    else k
  let s := s.updPort p (fun k => { (List.range 8).foldl (fun k v => turned v k) k with farOff := f.off })
  let k := s.port p
  let s := if f.nak && !k.buffer.isEmpty && !(!k.resend.isEmpty && k.replayAt == f.ack + 1) then s.replay p else s
  if f.lanes != (s.port p).farLanes then
    let new := activeLanes f.lanes
    let live := (s.port p).st == .up || (s.port p).st == .limited
    let s := s.updPort p (fun k => { k with farLanes := f.lanes })
    if laneCount f.lanes < 4 then s.portDown p
    else if new != (s.port p).txLanes then
      let s := s.updPort p (fun k => { k with txLanes := new, txSyms := 0, realign := live })
      if live then s.txCount p 6 1 else s
    else s
  else s

/-- Starts a discard episode: NAK goes out in the next frame (R264). -/
def State.startEpisode (s : State) (p : Nat) : State :=
  if (s.port p).episode then s else (s.updPort p (fun k => { k with episode := true, nakDue := true })).rxCount p 4 1

/-- A frame that the receiver discards by R261. -/
def frameBad (f : Frame) : Bool :=
  f.type == 3 || decide (12 < f.count) || (f.type == 0 && f.count == 0) || f.reserved

/-- This end is the requester of the port's link session (19 R445). -/
def State.requester (s : State) (p : Nat) : Bool :=
  linkRequester p (fieldN s.shape (72 + 12 * (p - 6)) 1) (fieldN s.shape (73 + 12 * (p - 6)) 1) (podOf s.place)

/-- The frame counter of a received frame: that of E, moved by the distance of SEQ from it (R281). -/
def Port.counterOf (k : Port) (seq : BitVec 16) : Nat :=
  let d := (seq - k.expect).toNat
  if d < 2 ^ 15 then k.rxFrames + d else k.rxFrames + d - 2 ^ 16

/-- The body of a received data frame in clear; none where its tag fails, or the slot that KEY names holds no key. -/
def State.bodyIn (s : State) (p : Nat) (f : Frame) : Option (List Byte) :=
  if f.enc then
    match (s.port p).rxKeys.slot f.key with
    | some lk => openFrame f p (linkDir (s.requester p) false) lk ((s.port p).counterOf f.seq)
    | none => none
  else some f.body

/-- The cells of an accepted data frame are released to the fabric switch in slot order (R267; 12 R301). In LIMITED only MGT is in use. -/
def State.releaseCells (s : State) (p : Nat) (limited : Bool) (cells : List (BitVec 3 × Cell)) : State :=
  (cells.foldl (fun s c =>
    let s := if s.oldBit == some c.2.epoch then s.updNet (fun n => { n with oldSeen := true }) else s
    if limited && c.1 != 5 then s else s.forward ⟨p, c.1, c.2⟩) s).pumpFabric

/-- A data frame whose CRC is good, after its ACK, OFF, NAK and LANES (R261, R263, R281, R283). -/
def State.dataFrame (s : State) (p : Nat) (f : Frame) (marks : List (BitVec 3 × CellMark)) : State :=
  let k := s.port p
  let body := s.bodyIn p f
  let s := if body.isNone then (s.rxCount p 3 1).updPort p (fun k => { k with tagRun := k.tagRun + 1 })
    else s.updPort p (fun k => { k with tagRun := 0 })
  if 16 ≤ (s.port p).tagRun then (s.portDown p).securityEvent 0 1
  else match (if frameBad f || f.enc != (k.policy && k.st == .up) then none else body) with
    | none => s.startEpisode p
    | some b =>
      if f.seq = k.expect then
        (s.updPort p (fun k => { k with expect := k.expect + 1, rxFrames := k.rxFrames + 1, episode := false })).releaseCells p
          (k.st == .limited) (bodyCells b f.count marks)
      else
        let d := (k.expect - f.seq).toNat
        if 1 ≤ d ∧ d ≤ 256 then s else s.startEpisode p

/-- A frame of the stream (R259, R261, R263). `good`: every codeword that has a bit of it was correctable. -/
def State.takeFrame (s : State) (p : Nat) (bs : List Byte) (good : Bool) (marks : List (BitVec 3 × CellMark)) : State :=
  let live (k : Port) : Bool := k.st == .up || k.st == .limited
  let s := if frameCrcGood bs then s else s.rxCount p 2 1
  if !good || !frameCrcGood bs then if live (s.port p) then s.startEpisode p else s
  else
    let s := s.frameFields p (frameOf bs)
    if !(live (s.port p)) then s
    else if (frameOf bs).type = 0 then s.dataFrame p (frameOf bs) marks
    else if frameBad (frameOf bs) then s.startEpisode p
    else s.pumpFabric

/-- FRAME_RECEIVED: the codewords of the lanes, deskewed, that complete with the frame's last bit are decoded, and the next frame of the
stream is taken (R258, R259, R263). `chans` and `marks`: for each slot what its cell's header has no bits for (log entry 97). -/
def execFrameReceived (port : PortId) (words : List (List (BitVec 10))) (chans : List (BitVec 3)) (marks : List CellMark) (s : State) :
    Host.Outcome State Fault Refusal :=
  let p := port.val
  let st := (s.port p).st
  if st == .down || st == .light || st == .train then .next s
  else
    let r := (s.port p).pull words
    let s := ((s.updPort p (fun _ => r.1)).rxCount p 0 r.2.1).rxCount p 1 r.2.2
    match (s.port p).nextFrame with
    | none => .next s
    | some (f, k) => .next ((s.updPort p (fun _ => k)).takeFrame p f.1 f.2 (chans.zip marks))

/-- The priority order of channels (R272): CTL, SCH, RSP, ESC-high, ESC-low, REQ, MGT, BLK. -/
def channelOrder : List (BitVec 3) := [1, 0, 3, 7, 4, 2, 5, 6]

/-- The tenant whose head cell a channel gives next (12 R305), among the tenants with a waiting cell. -/
def Port.tenantNext (k : Port) (tenants : List Nat) : Option Nat :=
  let best (l : List Nat) : Option Nat := l.foldl (fun m t => match m with
    | none => some t
    | some u => if Tab.get 0 k.credits u < Tab.get 0 k.credits t ||
        (Tab.get 0 k.credits u == Tab.get 0 k.credits t && decide (t < u)) then some t else some u) none
  match best (tenants.filter (fun t => decide (256 ≤ Tab.get 0 k.credits t))) with
  | some t => some t
  | none => best (tenants.filter (fun t => !(k.strict.getD t false)))

/-- Takes a cell of a list of sendable ones by the tenants' credits (12 R305). -/
def Port.takeShared (k : Port) (l : List (BitVec 3 × InCell)) : Option ((BitVec 3 × InCell) × Port) :=
  match k.tenantNext ((l.map (fun q => q.2.cell.tenant.toNat)).eraseDups) with
  | none => none
  | some t =>
    (l.find? (fun q => q.2.cell.tenant.toNat == t)).map (fun q =>
      (q, { k with outq := k.outq.erase q, credits := Tab.upd 0 k.credits t (· - 256) }))

/-- Takes the next sendable cell of a channel. On the escape, replies go ahead of requests (12 R295), and cells of CTL and MGT, which use no
credit, next; where the escape's cells of other channels stand the spec does not say (log entry 97). -/
def Port.takeCell (k : Port) (v : BitVec 3) : Option ((BitVec 3 × InCell) × Port) :=
  let mine := k.outq.filter (fun q => q.1 == v)
  let free := mine.filter (fun q => q.2.cell.vc == 1 || q.2.cell.vc == 5)
  if k.farOff.getLsbD v.toNat then none
  else match k.takeShared (mine.filter (fun q => (v == 4 || v == 7) && q.2.cell.vc == 3)) with
    | some x => some x
    | none => match free with
      | q :: _ => some (q, { k with outq := k.outq.erase q })
      | [] => k.takeShared mine

/-- Fills slots from a list of channels in order. -/
def fillSlots : Nat → List (BitVec 3) → Port → List (BitVec 3 × Cell) → List (BitVec 3 × Cell) × Port
  | 0, _, k, out => (out, k)
  | _, [], k, out => (out, k)
  | n + 1, v :: vs, k, out =>
    if 12 ≤ out.length then (out, k)
    else match k.takeCell v with
      | some (q, k) => fillSlots n (v :: vs) k (out ++ [(q.1, q.2.cell)])
      | none => fillSlots n vs k out

/-- A channel that has gone 4,096 frames with a sendable cell and no slot. -/
def Port.starved (k : Port) : List (BitVec 3) := channelOrder.filter (fun v => decide (4096 ≤ Tab.get 0 k.starve v.toNat))

/-- Another frame has gone by: channels of `won` have won a slot in it, the others with a sendable cell have not (R272). -/
def Port.passFrame (k : Port) (won : List (BitVec 3)) : Port :=
  { k with starve := channelOrder.foldl (fun t v =>
      if won.contains v || (k.takeCell v).isNone then Tab.set 0 t v.toNat 0 else Tab.upd 0 t v.toNat (· + 1)) k.starve }

/-- A frame leaves: its bytes enter the coded stream (R258). -/
def State.sendFrame (s : State) (p : Nat) (f : Frame) : State :=
  let (k, sent) := (s.port p).push (frameBytes f)
  let s := s.updPort p (fun _ => k)
  { s with out := { s.out with
    frames := s.out.frames ++ [(p, f)], lanes := s.out.lanes ++ sent.map (fun l => (p, l.1, l.2)) } }

/-- What this end announces (R278). -/
def State.helloBody (s : State) (p : Nat) : List Byte :=
  Config.helloBody s.place.toNat p (shapeDigest s.shape) (s.epochBit == 1) (s.port p).policy

/-- A frame without cells as this end assembles it: ACK, OFF, NAK and LANES are fresh (R262, R264). -/
def State.blankFrame (s : State) (p : Nat) (type : BitVec 2) (body : List Byte) : Frame :=
  let k := s.port p
  { seq := k.seq, ack := k.expect - 1, off := k.ownOff, type := type, nak := k.nakDue, enc := false, key := false, count := 0, cells := []
    lanes := k.lanes, reserved := false, body := sliceB body 0 480, tag := List.replicate 16 0 }

/-- A data frame of cells: ENC is the policy in UP, encrypted under the slot in use (R261, R281). -/
def State.sealedFrame (s : State) (p : Nat) (cells : List (BitVec 3 × Cell)) : Frame :=
  let k := s.port p
  let enc := k.policy && k.st == .up
  let f := { s.blankFrame p 0 (bodyOf cells) with enc := enc, key := enc && k.key, count := cells.length, cells := cells }
  match enc, k.txKeys.slot k.key with
  | true, some lk => sealFrame f p (linkDir (s.requester p) true) lk k.frames
  | _, _ => f

/-- FRAME_TRANSMIT: the next frame: a resent frame, a data frame where a cell is ready and sendable, an idle frame otherwise; in ALIGN and
HELLO, and while a new lane set is aligned, a link-control frame; in LIGHT and TRAIN the training pattern on every lane (Table 11.11; R261,
R262, R264, R265, R272 to R276, R281; 12 R305). -/
def execFrameTransmit (port : PortId) (s : State) : Host.Outcome State Fault Refusal :=
  let p := port.val
  let k := s.port p
  if k.st == .down then .next s
  else if k.st == .light || k.st == .train then
    .next { s with out := { s.out with lanes := s.out.lanes ++ (List.range 16).map (fun l => (p, l, Config.trainingPattern l)) } }
  else
    let off := s.offBits p
    let s := s.updPort p (fun k => { k with
      ownOff := off
      credits := (List.range 8).foldl (fun c t => Tab.upd 0 c t (fun n => min (192 * 256) (n + 12 * k.shares.getD t 0))) k.credits })
    let spent (s : State) (won : List (BitVec 3)) : State := s.updPort p (fun k => { k.passFrame won with nakDue := false })
    let blank (type : BitVec 2) (body : List Byte) : Frame := s.blankFrame p type body
    let k := s.port p
    if k.st == .align || k.st == .hello || k.realign then
      .next ((spent s []).sendFrame p (blank 2 (if k.st == .hello then s.helloBody p else Config.trainingBody)))
    else match k.resend with
      | f :: l =>
        let b := blank 1 []
        .next ((spent (s.updPort p (fun k => { k with resend := l })) []).sendFrame p
          { f with ack := b.ack, off := b.off, nak := b.nak, lanes := b.lanes })
      | [] =>
        if 256 ≤ k.buffer.length then .next ((spent s []).sendFrame p (blank 1 []))
        else
          let chans := if k.st == .limited then [5] else channelOrder
          let first := match (k.starved.filter chans.contains).head? with
            | some v => k.takeCell v
            | none => none
          let (out, k') := match first with
            | some (q, k) => fillSlots 20 chans k [(q.1, q.2.cell)]
            | none => fillSlots 20 chans k []
          if out.isEmpty then .next ((spent s []).sendFrame p (blank 1 []))
          else
            let f := s.sealedFrame p out
            let s := s.updPort p (fun _ => { k' with
              seq := k.seq + 1, frames := k.frames + 1, keyFrames := k.keyFrames + b01 f.enc, buffer := k.buffer ++ [f] })
            let s := (spent s (out.map (·.1))).sendFrame p f
            .next (if 2 ^ 43 ≤ (s.port p).keyFrames then s.sessionDown p else s.pumpFabric)

/-- REPLAY_TIMEOUT: 2 µs without an advance of ACK while frames are outstanding (R265). -/
def execReplayTimeout (port : PortId) (s : State) : Host.Outcome State Fault Refusal :=
  let p := port.val
  .next (if ((s.port p).st == .up || (s.port p).st == .limited) && !(s.port p).buffer.isEmpty && (s.port p).resend.isEmpty then s.replay p else s)

/-! ### Lanes, lasers, bring-up -/

/-- LANE_DROP (R275, R276). -/
def execLaneDrop (port : PortId) (lane : Fin 16) (s : State) : Host.Outcome State Fault Refusal :=
  let p := port.val
  if (s.port p).st != .down && (s.port p).lanes.getLsbD lane.val then
    let s := (s.updPort p (fun k => { k with lanes := k.lanes &&& ~~~(BitVec.ofNat 16 (2 ^ lane.val)) })).rxCount p 6 1
    .next (if laneCount (s.port p).lanes < 4 then s.portDown p else s)
  else .next s

/-- LASER_FAULT: acts on a laser that has been enabled for 1 ms: both ports of its die go DOWN (01 R13; 23 R522). Where both are DOWN
already, the LINK event names port 2k of die k (DESIGN CHOICE, log entry 93). -/
def execLaserFault (die : Fin 4) (s : State) : Host.Outcome State Fault Refusal :=
  let k := die.val
  let l := s.laser k
  if l.en && l.good then
    let up := (s.port (2 * k)).st != .down || (s.port (2 * k + 1)).st != .down
    let s := s.updLaser k (fun l => { l with fault := true, good := false })
    let s := (s.portDown (2 * k)).portDown (2 * k + 1)
    .next (if up then s else s.linkEvent (2 * k) 2)
  else .next s

/-- LASER_INPUT_GOOD: LASER_EN and LASER_FAULT# have been high together for 1 ms (23 R522). -/
def execLaserInputGood (die : Fin 4) (s : State) : Host.Outcome State Fault Refusal :=
  let k := die.val
  if (s.laser k).en then
    .next (((s.updLaser k (fun l => { l with fault := false, good := true })).bringUp (2 * k)).bringUp (2 * k + 1))
  else .next s

/-- A write of ENABLE (R277; 24 R535). -/
def State.portEnable (s : State) (p : Nat) (on : Bool) : State :=
  let s := (s.updPort p (fun k => { k with enable := on })).laserEnable (p / 2)
  if on then s.bringUp p else s.portDown p

/-- PORT_ENABLE. -/
def execPortEnable (port : PortId) (on : Bool) (s : State) : Host.Outcome State Fault Refusal :=
  .next ((s.portEnable port.val on).updMaint (fun m => { m with dirty := true }))

/-- SIGNAL_PRESENT: signal on at least 4 lanes ends LIGHT (Table 11.11). -/
def execSignalPresent (port : PortId) (lanes : BitVec 16) (s : State) : Host.Outcome State Fault Refusal :=
  let p := port.val
  .next (if (s.port p).st == .light && decide (4 ≤ laneCount lanes) then
    s.updPort p (fun k => { k.train with lanes := lanes }) else s)

/-- EQUALISATION_CONVERGED: every lane with signal has converged; a retraining brings back the lanes that pass it (Table 11.11, R275). -/
def execEqualisationConverged (port : PortId) (lanes : BitVec 16) (s : State) : Host.Outcome State Fault Refusal :=
  let p := port.val
  if (s.port p).st == .train then
    let l := if (s.port p).retraining then (s.port p).lanes ||| lanes else (s.port p).lanes &&& lanes
    let s := s.updPort p (fun k => { k with st := .align, lanes := l })
    .next (if laneCount l < 4 then s.portDown p else s)
  else .next s

/-- ALIGNMENT_LOCK: deskew, codeword lock and CRC pass on 64 frames, or the receiver's report of lock on a new lane set, after which the
transmitter resumes with replay (Table 11.11, R276). -/
def execAlignmentLock (port : PortId) (s : State) : Host.Outcome State Fault Refusal :=
  let p := port.val
  let k := s.port p
  if k.st == .align then .next (s.updPort p (fun k => { k with st := .hello }))
  else if (k.st == .up || k.st == .limited) && k.realign then
    .next (s.updPort p (fun k => { k with
      realign := false, resend := k.buffer, replayAt := (k.buffer.head?.map (·.seq)).getD k.seq }))
  else .next s

/-- A hello record passes R278; while a slot is STAGED its record's digest passes too (12 R300). -/
def State.helloOk (s : State) (p : Nat) (h : HelloRec) : Bool :=
  let digests := shapeDigest s.shape ::
    ((List.range 2).filter (fun i => (s.routeSlot i).st == 1)).map (fun i => shapeDigest (s.routeSlot i).shape)
  s.peer p == some h.place && digests.contains (sliceB h.digest 0 8) && h.encrypt == (s.port p).policy

/-- HELLO: the port moves on where both ends agree (R278; Table 11.11): to UP, with replay going on, after a retraining that needs no new
keys; to LIMITED where the policy is on and no keys are held; to UP afresh otherwise (R266, R279). -/
def execHello (port : PortId) (rec_ : HelloRec) (s : State) : Host.Outcome State Fault Refusal :=
  let p := port.val
  let k := s.port p
  if k.st != .hello then .next s
  else if !(s.helloOk p rec_) then .next ((s.updPort p (fun k => { k with miswired := true })).linkEvent p 2)
  else
    let s := s.updPort p (fun k => { k with miswired := false })
    let again (k : Port) (st : PState) : Port :=
      { k with st := st, retraining := false, retrainFails := 0, resend := k.buffer, replayAt := (k.buffer.head?.map (·.seq)).getD k.seq }
    if k.policy && (k.txKeys.slot k.key).isNone then
      .next (s.updPort p (fun k => if k.retraining then again k .limited else { k with st := .limited }))
    else if k.retraining then .next ((s.updPort p (fun k => again k .up)).linkEvent p 0)
    else .next (s.enterUp p)

/-- Link keys of index 0 of a new session are installed in slot 0 of both directions (19 R445): LIMITED ends. -/
def State.linkKeys (s : State) (p : Nat) : State :=
  if (s.port p).st == .limited then
    (s.updPort p (fun k =>
      let lk : LinkKey := ⟨k.session + 1, 0⟩
      { k with
        session := k.session + 1, txKeys := ⟨some lk, none⟩, rxKeys := ⟨some lk, none⟩, key := false, rotIndex := 0, keyFrames := 0
        rotation := .idle, sessionFails := 0 })).enterUp p
  else s

/-- PORT_STATE_TIMEOUT: a state is not completed within its bound: the port returns to LIGHT and reports it; the third failed retraining in
a row takes it DOWN (R266, R277). A MISWIRED port stays in HELLO (R278). A DOWN port that may leave that state does. -/
def execPortStateTimeout (port : PortId) (s : State) : Host.Outcome State Fault Refusal :=
  let p := port.val
  let k := s.port p
  match k.st with
  | .down => .next (s.bringUp p)
  | .light | .up => .next s
  | _ =>
    if k.st == .hello && k.miswired then .next s
    else if k.retraining && decide (2 ≤ k.retrainFails) then .next (s.portDown p)
    else .next ((s.updPort p (fun k => { k with
      st := .light, miswired := false, policy := k.encrypt, realign := false
      retraining := k.retraining && k.encrypt == k.policy, retrainFails := if k.retraining then k.retrainFails + 1 else 0 })).linkEvent p 2)

/-- RETUNE: link-control frames with the pattern; lanes that pass training come back; a background activity (R275, R280). -/
def execRetune (port : PortId) (lanes : BitVec 16) (s : State) : Host.Outcome State Fault Refusal :=
  let p := port.val
  let k := s.port p
  if k.st == .up && !s.backgroundPaused then
    let s := s.updPort p (fun k => { k with lanes := k.lanes ||| lanes })
    .next ((s.updPort p (fun k => { k with nakDue := false })).sendFrame p (s.blankFrame p 2 Config.retuneBody))
  else .next s

/-! ### Link keys (19 R446, R447) -/

/-- LINK_KEY_ROTATION: the interval or the frame count of a direction expires and ROTATE is sent; or the receiver's answer to it arrives
(`busy`): the sender installs the key and switches KEY, or waits 1 ms. -/
def execLinkKeyRotation (port : PortId) (busy : Option Bool) (s : State) : Host.Outcome State Fault Refusal :=
  let p := port.val
  let k := s.port p
  if k.st != .up || !k.policy then .next s
  else match busy, k.rotation with
    | none, .idle => .next ((s.updPort p (fun k => { k with rotation := .asked })).mgt (.rotate p (k.rotIndex + 1)))
    | some true, .asked => .next (s.updPort p (fun k => { k with rotation := .busy }))
    | some false, .asked =>
      let n := k.rotIndex + 1
      .next ((s.updPort p (fun k => { k with
        rotation := .switched, key := !k.key, rotIndex := n, keyFrames := 0
        txKeys := if k.key then { k.txKeys with s0 := some ⟨k.session, n⟩ } else { k.txKeys with s1 := some ⟨k.session, n⟩ } })).retireDue p)
    | _, _ => .next s

/-- ROTATE_RETRY: 1 ms after BUSY. -/
def execRotateRetry (port : PortId) (s : State) : Host.Outcome State Fault Refusal :=
  let p := port.val
  if (s.port p).rotation == .busy then
    .next ((s.updPort p (fun k => { k with rotation := .asked })).mgt (.rotate p ((s.port p).rotIndex + 1)))
  else .next s

/-- ROTATE at the receiver: the key of the index goes into the idle slot, or BUSY while that slot still holds a key. -/
def execRotate (port : PortId) (index : W32) (s : State) : Host.Outcome State Fault Refusal :=
  let p := port.val
  let x := s.port p
  let k := x.rxKeys
  if (s.port p).st != .up || !(s.port p).policy then .next s
  else if k.s0.isSome && k.s1.isSome then .next (s.mgt (.rotateAck p true))
  else
    let k := if k.s0.isNone then { k with s0 := some ⟨x.session, index.toNat⟩ } else { k with s1 := some ⟨x.session, index.toNat⟩ }
    .next ((s.updPort p (fun y => { y with rxKeys := k })).mgt (.rotateAck p false))

/-- RETIRE_KEY: the receiver erases the old slot and acknowledges; `acked`: the sender takes the acknowledgement, and its rotation has
completed. -/
def execRetireKey (port : PortId) (acked : Bool) (s : State) : Host.Outcome State Fault Refusal :=
  let p := port.val
  let k := s.port p
  if acked then
    .next (if k.rotation == .retiring then s.updPort p (fun k => { k with rotation := .idle, sessionFails := 0 }) else s)
  else match k.rxKeys.s0, k.rxKeys.s1 with
    | some a, some b =>
      let keys : KeySlots := if a.session < b.session ∨ (a.session = b.session ∧ a.index < b.index) then ⟨none, some b⟩ else ⟨some a, none⟩
      .next ((s.updPort p (fun k => { k with rxKeys := keys })).mgt (.retireKeyAck p))
    | _, _ => .next s

/-- A new session of a port in UP is set up, or has failed: a rotation that waits for it starts again; the third failed session in a row
takes the port DOWN (R447). -/
def State.renewSession (s : State) (p : Nat) (good : Bool) : State :=
  let k := s.port p
  if !good then
    if 2 ≤ k.sessionFails then s.sessionDown p else s.updPort p (fun k => { k with sessionFails := k.sessionFails + 1 })
  else
    let s := s.updPort p (fun k => { k with session := k.session + 1 })
    if k.rotation == .renewing then
      (s.updPort p (fun k => { k with rotation := .asked })).mgt (.rotate p (k.rotIndex + 1))
    else s

/-- ROTATION_TIMEOUT: a rotation has not completed within 1 s: it is restarted with a new session; the third failure in a row takes the
port DOWN with LINK_SESSION. -/
def execRotationTimeout (port : PortId) (s : State) : Host.Outcome State Fault Refusal :=
  let p := port.val
  let k := s.port p
  if k.rotation == .idle then .next s
  else if 2 ≤ k.sessionFails then .next (s.sessionDown p)
  else
    .next (s.updPort p (fun k => { k with rotation := .renewing, sessionFails := k.sessionFails + 1 }))

end Sys2Proof.Machine
end

