-- ==== Sys2Proof/Machine/DirEvents.lean ====
section
/-! DEFINITION. The commands of the key directory: lookups, updates, compaction, READY, host updates (16 R368 to R376; 18 Table 18.4). -/

namespace Sys2Proof.Machine

/-- The 8 bytes of a lookup's result (08 Table 8.13). -/
def State.lookupResult (s : State) (k : W64) : List Byte :=
  match (if s.dirNb = 0 then none else s.dirFind k) with
  | some (b, w) => let e := s.dirWay b w; sliceB e 8 6 ++ [0, 0]
  | none => leBytes 4 s.dir.defRow.toNat ++ [0, 0, 1, 0]

/-- DIR_LOOKUP: the engine of a course takes its next key; the result is written at the priority of fabric arrivals, and an uncorrectable
bucket delivers none and stops the step (R368 to R370; 08 R200). -/
def execDirLookup (course : Fin 8) (s : State) : Host.Outcome State Fault Refusal :=
  match s.kdq.findIdx? (fun j => !j.put && courseOf j.core == course.val) with
  | none => .next s
  | some i =>
    match s.kdq[i]? with
    | none => .next s
    | some j =>
      let key := BitVec.ofNat 64 (leNat (j.items.headD []))
      let (b1, b2) := dirBuckets (max 1 s.dirNb) key
      match s.bucketBad b1, s.bucketBad b2 with
      | some (c, b), _ | none, some (c, b) =>
        .next (({ s with kdq := s.kdq.eraseIdx i }).startRestore c b |>.coreFault j.core 0x0010 2 1 0xFFFF b)
      | none, none =>
        let row := j.row + j.done / 8
        let s := (s.dirRead b1).dirRead b2
        let s := s.landEnd s.clk.tick 13 j.core (.bytes (64 * row + 8 * (j.done % 8)) (s.lookupResult key))
        let rest := j.items.drop 1
        if rest.isEmpty then
          .next (({ s with kdq := s.kdq.eraseIdx i }).tidComplete j.core j.tid)
        else .next { s with kdq := s.kdq.set i { j with items := rest, done := j.done + 1 } }

/-- DIR_UPDATE_APPLY: the update sequencer applies the next entry of the first KDPUT; none between the two cycles of a compaction's move
(R371, R375); an uncorrectable bucket stops the step, as at a lookup (DEDUCED, log entry 101). -/
def execDirUpdateApply (s : State) : Host.Outcome State Fault Refusal :=
  match s.dir.clearing, s.kdq.findIdx? (fun j => j.put) with
  | none, some i =>
    match s.kdq[i]? with
    | none => .next s
    | some j =>
      let e := j.items.headD []
      let (b1, b2) := dirBuckets (max 1 s.dirNb) (wayKey e)
      match s.bucketBad b1, s.bucketBad b2 with
      | some (c, b), _ | none, some (c, b) =>
        .next (({ s with kdq := s.kdq.eraseIdx i }).startRestore c b |>.coreFault j.core 0x0010 2 1 0xFFFF b)
      | none, none =>
        let (_, s) := s.dirUpdate j.del e
        let rest := j.items.drop 1
        if rest.isEmpty then
          .next (({ s with kdq := s.kdq.eraseIdx i }).tidComplete j.core j.tid)
        else .next { s with kdq := s.kdq.set i { j with items := rest } }
  | _, _ => .next s

/-- The other candidate bucket of a key that lies in bucket b. -/
def otherBucket (nb b : Nat) (k : W64) : Nat := let (b1, b2) := dirBuckets nb k; if b = b1 then b2 else b1

/-- COMPACTION_MOVE: the second cycle of a move clears the original way; otherwise the next bucket is visited, and from a full one the
first way that has room in its other bucket is written there (R375). -/
def execCompactionMove (s : State) : Host.Outcome State Fault Refusal :=
  let nb := s.dirNb
  let next (s : State) : State := { s with dir := { s.dir with visit := (s.dir.visit + 1) % max 1 nb, clearing := none } }
  match s.dir.clearing with
  | some _ => .next s.finishMove
  | none =>
    if nb = 0 ∨ s.backgroundPaused then .next s
    else
      let b := s.dir.visit % nb
      let pick := if s.dirCount b < 4 then none
        else (List.range 4).find? (fun w => decide (s.dirCount (otherBucket nb b (wayKey (s.dirWay b w))) ≤ 2))
      match pick with
      | none => .next (next s)
      | some w =>
        let e := s.dirWay b w
        let o := otherBucket nb b (wayKey e)
        match s.dirFree o with
        | some v =>
          let s := s.setWay o v e
          .next { s with dir := { s.dir with clearing := some (b, w) } }
        | none => .next (next s)

/-- DIR_READY_SET: the host has rewritten the directory (R376; 24 Table 24.3). -/
def execDirReadySet (s : State) : Host.Outcome State Fault Refusal :=
  .next (if s.passThrough || (!s.dir.ready && s.freshBits 0x1024 != 0) then s else { s with dir := { s.dir with ready := true } })

/-- DIR_UPDATE: a descriptor of the directory's owner queues its entries for the next step boundary (R373; 18 Table 18.4). `data`: the
entries as read. -/
def execDirUpdate (func : FuncId) (data : List Byte) (s : State) : Host.Outcome State Fault Refusal :=
  match s.front func.val 0x13 with
  | none => .next s
  | some x =>
    let f := func.val
    let s0 := s.popSub f
    let op := fieldN x.bytes 1 1
    let count := fieldN x.bytes 8 4
    if f ≠ s.dir.owner then .next (s0.answer f x 0xFD 0 0)
    else if 1 < op ∨ count = 0 ∨ 65535 < count ∨ !(x.reservedZero [(1, 1), (8, 4), (40, 1), (48, 8)]) ∨ !(s.rangeOk f x (16 * count)) then
      .next (s0.answer f x 0xFE 0 0)
    else
      let job : DirJob := ⟨x.ref f, op == 1, (List.range count).map (fun i => sliceB data (16 * i) 16), [], s.now⟩
      .next { s0 with dir := { s0.dir with host := s0.dir.host ++ [job] } }

end Sys2Proof.Machine
end

