-- ==== Sys2Proof/Machine/HostEvents.lean ====
section
/-! DEFINITION. The events of the host interface: kick, polling and fetches, submissions, interrupts, ring set-up, function resets,
mailboxes and doorbells, management slots (18; 24 R538, R539). -/

namespace Sys2Proof.Machine

/-- A function answers on the bus: the host interface is up, and the function is enabled (22 R501, R507; 24 R533). -/
def State.funcUp (s : State) (f : Nat) : Bool := s.maint.hostUp && (s.func f).enabled

/-! ### Kick, polling and fetch (R404 to R408) -/

/-- Asks for bytes 0 to 775 of the doorbell page; while a fetch is in flight one further fetch is noted (R405). -/
def State.startFetch (s : State) (f : Nat) : State :=
  if !(s.func f).pagesSet then s
  else if (s.func f).fetching then s.updFunc f (fun x => { x with noted := true })
  else
    { s.updFunc f (fun x => { x with fetching := true }) with
      out := { s.out with hostReads := s.out.hostReads ++ [(f, (s.func f).dbPage, 776)] } }

/-- KICK: a write of any value (R405). -/
def execKick (func : FuncId) (s : State) : Host.Outcome State Fault Refusal :=
  .next (if s.funcUp func.val then s.startFetch func.val else s)

/-- Records of a function wait for room in a ring (R405, R408). -/
def Func.waits (x : Func) : Bool :=
  !x.cqBuf.isEmpty || !x.tqBuf.isEmpty || !x.evBuf.isEmpty || x.evLost != 0 || !x.recWait.isEmpty

/-- POLL: the polling interval, or the 4 µs timer while records wait (R405). -/
def execPoll (func : FuncId) (s : State) : Host.Outcome State Fault Refusal :=
  let x := s.func func.val
  .next (if s.funcUp func.val && (x.poll != 0 || x.waits) then s.startFetch func.val else s)

/-- The producer or consumer index of a ring in a doorbell page (Table 18.3). -/
def pageIndex (page : List Byte) (k : Nat) : W32 := BitVec.ofNat 32 (fieldN page (indexOffset k) 4)

/-- Takes the consumer indices of the device rings; one that moves backwards or beyond its producer index is ignored (R406). -/
def Func.takeConsumers (x : Func) (page : List Byte) : Func :=
  ((List.range 130).map (64 + ·)).foldl (fun x k =>
    let c := pageIndex page k
    let r := x.ring k
    if (c - r.c).toNat ≤ (r.p - r.c).toNat ∧ c ≠ r.c then x.updRing k (fun r => { r with c := c }) else x) x

/-- Opcodes of Table 18.4. -/
def Sub.known (x : Sub) : Bool := [1, 2, 3, 4, 5, 6, 0x10, 0x11, 0x12, 0x13].contains x.op

/-- The serving group that a submission of a request opcode names: formed, led here, owned by the function (R409). -/
def State.servingOf (s : State) (f : Nat) (x : Sub) : Option Nat :=
  (List.range 16).find? (fun g =>
    (s.group g).formed && (s.group g).lead && !(s.group g).solver && (s.group g).owner == f && (s.group g).id == x.group)

/-- The request of a function that a submission names. -/
def State.ownReq (s : State) (f g : Nat) (x : Sub) : Option (Nat × Req) :=
  match (s.group g).serve.find x.id with
  | some (e, r) => if r.func = f then some (e, r) else none
  | none => none

/-- Judges a CONTINUE: none where it is accepted, else its status (R409, R413, R414). -/
def State.continueStatus (s : State) (f : Nat) (x : Sub) : Option Nat :=
  let count := fieldN x.bytes 24 3
  match s.servingOf f x with
  | none => some 0xFD
  | some g =>
    if !(x.reservedZero [(8, 4), (24, 3), (40, 1), (48, 12)]) || count == 0 || !(s.rangeOk f x (4 * count)) then some 0xFE
    else match s.ownReq f g x with
      | none => some 1
      | some (_, r) => match r.state with
        | .idle | .spilled | .spilling => none
        | _ => some 2

/-- A submission is taken: a reserved opcode, and a CONTINUE that is not accepted in its request's present state, are answered at once;
any other waits to be processed (R406, R413, R414). -/
def State.takeSub (s : State) (f : Nat) (x : Sub) : State :=
  if !x.known then s.answer f x 0xFE 0 0
  else if x.op = 3 then match s.continueStatus f x with
    | some code => s.answer f x code 0 0
    | none => s.updFunc f (fun y => { y with subs := y.subs ++ [x] })
  else s.updFunc f (fun y => { y with subs := y.subs ++ [x] })

/-- Takes the new entries of submission ring r; nothing while the completion buffer is full; a ring whose producer index runs too far
is stopped (R406, R408). -/
def State.takeRing (s : State) (f : Nat) (page : List Byte) (entries : List (List Byte)) (r : Nat) : State :=
  let q := (s.func f).ring r
  let pi := pageIndex page r
  let n := (pi - q.c).toNat
  if !q.en || decide (1024 ≤ (s.func f).cqBuf.length) || n == 0 then s
  else if 2 ^ q.s < n then s.ringFault f (some r)
  else
    let s := (s.updFunc f (fun x => x.updRing r (fun q => { q with p := pi, c := pi }))).writeIndex f r pi
    (List.range n).foldl (fun s i => s.takeSub f ⟨r, sliceB (entries.getD i []) 0 64⟩) s

/-- DOORBELL_FETCH_COMPLETE: the page of a fetch in flight returns, with the entries that the fetch makes visible, by ring and in ring
order (R405, R406, R408, R421). In pass-through mode only the event ring operates (24 R533). -/
def execDoorbellFetchComplete (func : FuncId) (page : List Byte) (entries : List (BitVec 6 × List Byte)) (s : State) :
    Host.Outcome State Fault Refusal :=
  let f := func.val
  if !(s.func f).fetching then .next s
  else
    let s := (s.updFunc f (fun x => x.takeConsumers page)).drainRings f
    let s := s.drainRec f (s.func f).recWait
    let s := if s.passThrough then s
      else (List.range 64).foldl (fun s r =>
        s.takeRing f page ((entries.filter (fun e => e.1.toNat == r)).map (·.2)) r) s
    let again := (s.func f).noted
    let s := s.updFunc f (fun x => { x with fetching := false, noted := false })
    .next (if again then s.startFetch f else s)

/-! ### Request submissions (R409, R413, R414) -/

/-- Token ids as read from a window. -/
def fitTokens (n : Nat) (ts : List W32) : List W32 := (List.range n).map (fun i => ts.getD i 0)

/-- REQUEST: queued for admission at the next step start, with its prompt as read (14 R332). -/
def execRequest (func : FuncId) (prompt : List W32) (s : State) : Host.Outcome State Fault Refusal :=
  let f := func.val
  match s.front f 1 with
  | none => .next s
  | some x =>
    let s := s.popSub f
    let b (o n : Nat) : Nat := fieldN x.bytes o n
    match s.servingOf f x with
    | none => .next (s.answer f x 0xFD 0 0)
    | some g =>
      if !(x.reservedZero [(1, 3), (8, 19), (28, 3), (32, 9), (48, 12)]) || decide (4 ≤ b 1 1) || decide (64 ≤ b 2 1) ||
          decide (16384 ≤ b 12 2) || !(s.rangeOk f x (4 * b 24 3)) then .next (s.answer f x 0xFE 0 0)
      else .next (s.updServe g (fun v => { v with news := v.news ++ [⟨x.ref f, x.bytes, fitTokens (b 24 3) prompt⟩] }))

/-- CANCEL: waits for its registration (15 R340, R359). -/
def execCancel (func : FuncId) (s : State) : Host.Outcome State Fault Refusal :=
  let f := func.val
  match s.front f 2 with
  | none => .next s
  | some x =>
    let s := s.popSub f
    match s.servingOf f x with
    | none => .next (s.answer f x 0xFD 0 0)
    | some g =>
      if !(x.reservedZero [(8, 4), (56, 4)]) then .next (s.answer f x 0xFE 0 0)
      else .next (s.updServe g (fun v => { v with cancels := v.cancels ++ [(x.ref f, x.id)] }))

/-- CONTINUE: its tokens have been read; it is judged again and takes effect (14 R324). During SPILLING it waits. -/
def execContinueReq (func : FuncId) (tokens : List W32) (s : State) : Host.Outcome State Fault Refusal :=
  let f := func.val
  match s.front f 3 with
  | none => .next s
  | some x =>
    let s := s.popSub f
    match s.continueStatus f x, s.servingOf f x with
    | some code, _ => .next (s.answer f x code 0 0)
    | none, none => .next s
    | none, some g =>
      match s.ownReq f g x with
      | none => .next s
      | some (e, r) =>
        let ts := fitTokens (fieldN x.bytes 24 3) tokens
        let s := s.answer f x 0 0 0
        match r.state with
        | .idle => .next (s.updReq g e (fun r => { r with state := .decode, unrun := ts }))
        | .spilled =>
          let s := s.updServe g (fun v => { v with conts := v.conts ++ [(x.ref f, r.id, ts)] })
          .next (s.startReload g e r.waitSub)
        | _ => .next (s.updServe g (fun v => { v with conts := v.conts ++ [(x.ref f, r.id, ts)] }))

/-- The requests on which SPILL, RELOAD and RELEASE act: slot, entry and request, or the status that answers. -/
def State.reqTarget (s : State) (f : Nat) (x : Sub) : Except Nat (Nat × Nat × Req) :=
  match s.servingOf f x with
  | none => .error 0xFD
  | some g =>
    if !(x.reservedZero [(8, 4), (56, 4)]) then .error 0xFE
    else match s.ownReq f g x with
      | none => .error 1
      | some (e, r) => .ok (g, e, r)

/-- SPILL: an IDLE request's pages go to host memory (14 R335). -/
def execSpill (func : FuncId) (s : State) : Host.Outcome State Fault Refusal :=
  let f := func.val
  match s.front f 4 with
  | none => .next s
  | some x =>
    let s := s.popSub f
    match s.reqTarget f x with
    | .error code => .next (s.answer f x code 0 0)
    | .ok (g, e, r) => .next (if r.state == .idle then s.startSpill g e (some (x.ref f)) else s.answer f x 2 0 0)

/-- RELOAD: a SPILLED request's pages come back (14 R337). -/
def execReload (func : FuncId) (s : State) : Host.Outcome State Fault Refusal :=
  let f := func.val
  match s.front f 5 with
  | none => .next s
  | some x =>
    let s := s.popSub f
    match s.reqTarget f x with
    | .error code => .next (s.answer f x code 0 0)
    | .ok (g, e, r) =>
      .next (if r.state == .spilled && r.waitSub.isNone then s.startReload g e (some (x.ref f)) else s.answer f x 2 0 0)

/-- RELEASE: an IDLE or SPILLED request ends with RELEASED (R414). -/
def execRelease (func : FuncId) (s : State) : Host.Outcome State Fault Refusal :=
  let f := func.val
  match s.front f 6 with
  | none => .next s
  | some x =>
    let s := s.popSub f
    match s.reqTarget f x with
    | .error code => .next (s.answer f x code 0 0)
    | .ok (g, e, r) =>
      .next (if r.state == .idle || r.state == .spilled then (s.endReq g e 0x0B).answer f x 0 0 0 else s.answer f x 2 0 0)

/-! ### Steps and images (R409, R410) -/

/-- STEP: a solver step or a replay waits to start, with its step input block as read. -/
def execStep (func : FuncId) (block : List Byte) (s : State) : Host.Outcome State Fault Refusal :=
  let f := func.val
  match s.front f 0x10 with
  | none => .next s
  | some x =>
    let s := s.popSub f
    let b (o n : Nat) : Nat := fieldN x.bytes o n
    let replay := bitN (b 1 1) 0
    let force := bitN (b 1 1) 1
    match (List.range 16).find? (fun g =>
        (s.group g).formed && (s.group g).lead && (s.group g).owner == f && (s.group g).id == x.id) with
    | none => .next (s.answer f x 0xFD 0 0)
    | some g =>
      if !(s.group g).solver && !replay then .next (s.answer f x 0xFD 0 0)
      else if !(x.reservedZero [(1, 3), (8, 4), (16, 16), (40, 1), (48, 8)]) || decide (4 ≤ b 1 1) || decide (64 ≤ b 2 1) ||
          (force && decide (4 ≤ b 3 1)) || (!replay && b 24 8 != 0) ||
          !(s.rangeOk f x (368 + 32 * fieldN block 236 4)) then .next (s.answer f x 0xFE 0 0)
      else .next (s.updServe g (fun v => { v with
        stepq := v.stepq ++ [(x.ref f, x.bytes, sliceB block 0 (368 + 32 * fieldN block 236 4))] }))

/-- LOAD_IMAGE: PF0 loads a program image for a group; one that is not formed here gives REGION_PLAN (09 R222; 04 R77; Table 18.4).
The map never changes while a step runs on a core (04 R76): until then the submission waits (DEDUCED, log entry 40). -/
def execLoadImage (func : FuncId) (file : ImageFile) (s : State) : Host.Outcome State Fault Refusal :=
  let f := func.val
  match s.front f 0x11 with
  | none => .next s
  | some x =>
    let s0 := s
    let s := s.popSub f
    if f ≠ 0 then .next (s.answer f x 0xFD 0 0)
    else
      let slot := (List.range 16).find? (fun g => (s.group g).formed && (s.group g).id == x.id)
      if !(x.reservedZero [(8, 4), (40, 1), (48, 16)]) || fieldN x.bytes 56 8 != file.raw.length ||
          !(s.rangeOk f x (fieldN x.bytes 56 8)) then .next (s.answer f x 0xFE 0 0)
      else
        if (List.range 16).any (fun h => (s.step' h).holdsCores) then .next s0
        else
          let (status, off, s) := s.loadImage (Image.ofFile file) slot (imageSound file) file.differ
          .next (s.answer f x status off 0)

/-! ### Interrupts and ring set-up (R401 to R404, R411; 24 R539) -/

/-- MSIX_TIME_THRESHOLD: entries of a device ring (key 64 to 193) have waited for its time threshold (R411). -/
def execMsixTimeThreshold (func : FuncId) (ring : Fin 194) (s : State) : Host.Outcome State Fault Refusal :=
  let f := func.val
  let r := (s.func f).ring ring.val
  .next (if s.funcUp f && decide (64 ≤ ring.val) && r.en && r.since != 0 && r.timeThr != 0 then
    (s.updFunc f (fun x => x.updRing ring.val (fun r => { r with since := 0 }))).msix f r.vector else s)

/-- Where a ring's registers lie in BAR0 (24 Tables 24.1, 24.10). -/
def ringAt (f k : Nat) : Nat :=
  0x80000 + 0x10000 * f +
    (if k < 64 then 0x1000 + 16 * k else if k < 128 then 0x1400 + 16 * (k - 64) else if k < 192 then 0x1800 + 16 * (k - 128)
     else 0x1C00 + 16 * (k - 192))

/-- Waiting records leave for the rings that can take them (R408, R421), and owed SECURITY events are raised. -/
def State.drainFunc (s : State) (f : Nat) : State :=
  let s := s.drainRings f
  let s := s.drainRec f (s.func f).recWait
  if f = 0 then s.payOwed else s

/-- A write of RING_CTRL (24 Table 24.11, R539; R403, R404). Clearing EN leaves STOPPED 0 until the accesses in flight have
finished. -/
def State.writeRingCtrl (s : State) (f k : Nat) (value : W64) : State :=
  let v := value.toNat
  let r := (s.func f).ring k
  let en := bitN v 5
  let off := ringAt f k + 8
  if bitsN v 4 0 < 4 ∨ 16 < bitsN v 4 0 ∨ bitsN v 22 14 = 0 ∨ 256 < bitsN v 22 14 ∨ 1000 < bitsN v 32 23 ∨
      (k = 193 ∧ (bitsN v 37 33 < 12 ∨ 16 < bitsN v 37 33)) then s.refuse off
  else if r.en then if en then s else s.updFunc f (fun x => x.updRing k (fun r => { r with en := false, stopped := false }))
  else if en && (!r.stopped || !(s.func f).pagesSet || (s.passThrough && k != 192)) then s.refuse off
  else
    let s := s.updFunc f (fun x => x.updRing k (fun r => { r with
      s := bitsN v 4 0, vector := bitsN v 13 8, countThr := bitsN v 22 14, timeThr := bitsN v 32 23
      slot := if k = 193 then bitsN v 37 33 else r.slot }))
    if en then
      (s.updFunc f (fun x => x.updRing k (fun r => { r with en := true, stopped := false, p := 0, c := 0, since := 0 }))).drainFunc f
    else s

/-- RING_ENABLE: a write of RING_CTRL that sets EN (24 R539). -/
def execRingEnable (func : FuncId) (ring : Fin 194) (value : W64) (s : State) : Host.Outcome State Fault Refusal :=
  .next (if s.funcUp func.val && bitN value.toNat 5 then s.writeRingCtrl func.val ring.val value else s)

/-- RING_DISABLE: EN is clear, and the ring's accesses in flight have finished: STOPPED reads 1 (R403). -/
def execRingDisable (func : FuncId) (ring : Fin 194) (s : State) : Host.Outcome State Fault Refusal :=
  .next (if s.funcUp func.val then
    s.updFunc func.val (fun x => x.updRing ring.val (fun r => { r with en := false, stopped := true })) else s)

/-! ### Resets (R398; 22 R500, R501) -/

/-- FUNCTION_LEVEL_RESET of one function (R398). -/
def execFunctionLevelReset (func : FuncId) (s : State) : Host.Outcome State Fault Refusal :=
  .next (if s.funcUp func.val then s.functionReset func.val else s)

/-- PERST#: every function is reset, and the host interface is down until its release (22 Table 22.1). -/
def execPerst (s : State) : Host.Outcome State Fault Refusal :=
  .next (((List.range 9).foldl (fun s f => s.functionReset f) s).updMaint (fun m => { m with perst := true, hostUp := false }))

/-- PERST_RELEASE: the host interface comes up once start-up has passed order 9 (22 R500), and where its domain is powered in pass-through
mode and in the wait of 19 R429. -/
def execPerstRelease (s : State) : Host.Outcome State Fault Refusal :=
  .next (s.updMaint (fun m => { m with
    perst := false, hostUp := s.power.railIo && (decide (9 ≤ m.order) || s.passThrough || s.sec.recovery) }))

/-! ### Mailboxes and doorbells (R422 to R424) -/

/-- Applies a function to the outbound mailbox. -/
def State.updMbo (s : State) (f : Nat) (g : MboxOut → MboxOut) : State := s.updFunc f (fun x => { x with mbo := g x.mbo })

/-- Applies a function to the inbound mailbox. -/
def State.updMbi (s : State) (f : Nat) (g : MboxIn → MboxIn) : State := s.updFunc f (fun x => { x with mbi := g x.mbi })

/-- Sets bits of DB_SP. -/
def State.ringSp (s : State) (f : Nat) (bits : W32) : State := s.updFunc f (fun x => { x with dbSp := x.dbSp ||| bits })

/-- The bit of a doorbell number. -/
def dbBit (n : BitVec 5) : W32 := 1#32 <<< n.toNat

/-- WITHDRAW clears a message that awaits the soundpost (R423). -/
def State.withdrawMbo (s : State) (f : Nat) : State := s.updMbo f (fun m => { m with full := false })

/-- SEND: ignored while FULL is 1 or LEN lies outside 1 to 256; otherwise FULL is set and DBBIT rings (R423, R424). -/
def State.sendMbo (s : State) (f : Nat) : State :=
  let m := (s.func f).mbo
  if m.full || m.len == 0 || decide (256 < m.len.toNat) then s
  else (s.updMbo f (fun m => { m with full := true })).ringSp f (dbBit m.dbbit)

/-- A write of MBO_CTRL (Table 18.10): LEN and DBBIT unless FULL; TIMEOUT; WITHDRAW before SEND. A DBBIT below 8 is ignored. -/
def State.writeMboCtrl (s : State) (f : Nat) (v : W32) : State :=
  let n := v.toNat
  let s := if bitN n 27 then s.withdrawMbo f else s
  let s := s.updMbo f (fun m =>
    let m := if bitN n 26 && s.freshBits (bar2Key f 0x20) == 0 then { m with timeout := false } else m
    if m.full then m
    else { m with len := v.extractLsb' 0 9, dbbit := if bitsN n 20 16 < 8 then m.dbbit else v.extractLsb' 16 5 })
  if bitN n 24 then s.sendMbo f else s

/-- SEND_MBO: a write of MBO_CTRL with SEND set; the data bytes as the host has written them (R423). -/
def execSendMbo (func : FuncId) (value : W32) (data : List Byte) (s : State) : Host.Outcome State Fault Refusal :=
  if s.funcUp func.val && bitN value.toNat 24 then
    let s := s.updMbo func.val (fun m => if m.full then m else { m with data := Tab.setList 0 [] 0 (data.take 256) })
    .next (s.writeMboCtrl func.val value)
  else .next s

/-- WITHDRAW (R423). -/
def execWithdraw (func : FuncId) (s : State) : Host.Outcome State Fault Refusal :=
  .next (if s.funcUp func.val then s.withdrawMbo func.val else s)

/-- MBO_TIMEOUT: FULL has remained 1 for the timeout (R423; Table 18.13 bit 2). -/
def execMboTimeout (func : FuncId) (s : State) : Host.Outcome State Fault Refusal :=
  .next (if (s.func func.val).mbo.full then ((s.updMbo func.val (fun m => { m with timeout := true })).touch (bar2Key func.val 0x20) 1).ringHost func.val 4
    else s)

/-- The TYPEs of 19 Table 19.3 and 22 Table 22.4. -/
def mailboxTypes : List Nat := [1, 2, 3, 0x10, 0x11, 0x20, 0x30, 0x40, 0x41, 0x42, 0x43, 0x44, 0x45]

/-- MBO_READ: the soundpost reads the message: FULL is cleared (Table 18.13 bit 1). Any other TYPE is answered BAD_MESSAGE (19
R437); a request of the tables is a command of its own. -/
def execMboRead (func : FuncId) (s : State) : Host.Outcome State Fault Refusal :=
  let m := (s.func func.val).mbo
  if m.full then
    let s := (s.withdrawMbo func.val).ringHost func.val 2
    let bs := Tab.getList 0 m.data 0 m.len.toNat
    .next (if mailboxTypes.contains (fieldN bs 0 2) then s
      else s.reply (.func func) (fieldN bs 0 2) 1 (BitVec.ofNat 32 (fieldN bs 4 4)) [])
  else .next s

/-- MBI_DELIVER: the oldest waiting reply goes into the inbound mailbox when that is empty, and rings bit 0 and its DBBIT (R423,
R424). -/
def execMbiDeliver (func : FuncId) (dbbit : BitVec 5) (s : State) : Host.Outcome State Fault Refusal :=
  let f := func.val
  match (s.func f).mbiWait with
  | [] => .next s
  | m :: l =>
    if (s.func f).mbi.full || m.isEmpty || decide (256 < m.length) then .next s
    else
      let s := s.updFunc f (fun x => { x with mbiWait := l })
      let s := s.updMbi f (fun b => { b with
        len := BitVec.ofNat 9 m.length, dbbit := dbbit, full := true, data := Tab.setList 0 [] 0 m })
      .next (s.ringHost f (if 8 ≤ dbbit.toNat then 1 ||| dbBit dbbit else 1))

/-- MBI_CONSUME: the host reads the word that holds byte LEN − 1 (R423). -/
def execMbiConsume (func : FuncId) (s : State) : Host.Outcome State Fault Refusal :=
  .next (if s.funcUp func.val then s.updMbi func.val (fun b => { b with full := false }) else s)

/-- MBI_WITHDRAWN: the soundpost withdraws a message that has not been read (Table 18.13 bit 3). -/
def execMbiWithdrawn (func : FuncId) (s : State) : Host.Outcome State Fault Refusal :=
  .next (if (s.func func.val).mbi.full then
    ((s.updMbi func.val (fun b => { b with full := false, withdrawn := true })).touch (bar2Key func.val 0x24) 1).ringHost func.val 8
    else s)

/-- A write of 1 to a bit of DB_HOST clears it (R424). -/
def State.clearDbHost (s : State) (f : Nat) (bits : W32) : State :=
  let keep : W32 := BitVec.ofNat 32 (s.freshBits (bar2Key f 0x10))
  s.updFunc f (fun x => { x with dbHost := x.dbHost &&& ~~~(bits &&& ~~~keep) })

/-- DB_HOST_CLEAR. -/
def execDbHostClear (func : FuncId) (bits : W32) (s : State) : Host.Outcome State Fault Refusal :=
  .next (if s.funcUp func.val then s.clearDbHost func.val bits else s)

/-- A write of DB_HOST_MASK: a bit that is set and becomes unmasked sends the doorbell vector (R424). -/
def State.setDbMask (s : State) (f : Nat) (mask : W32) : State :=
  let x := s.func f
  let s := s.updFunc f (fun x => { x with dbMask := mask })
  if x.dbHost &&& x.dbMask &&& ~~~mask != 0 then s.msix f x.dbVector else s

/-- DB_HOST_MASK_WRITE. -/
def execDbHostMaskWrite (func : FuncId) (mask : W32) (s : State) : Host.Outcome State Fault Refusal :=
  .next (if s.funcUp func.val then s.setDbMask func.val mask else s)

/-- DB_SP_SET: a write of 1 rings bits 8 to 31 (R424). -/
def execDbSpSet (func : FuncId) (bits : W32) (s : State) : Host.Outcome State Fault Refusal :=
  .next (if s.funcUp func.val then s.ringSp func.val (bits &&& 0xFFFFFF00) else s)

/-! ### Management slots (R425) -/

/-- MGT_MESSAGE: a message of up to 256 bytes arrives from a peer's soundpost; `read`: this soundpost has read the one before. A
message for a full slot is discarded and logged. -/
def execMgtMessage (peer : Place) (bytes : List Byte) (read : Bool) (s : State) : Host.Outcome State Fault Refusal :=
  match s.sec.mgtSlots.find? (fun m => m.peer == peer) with
  | some m =>
    if m.full && !read then .next (s.logFault 0x0082 6 0 none 0 0xFFFF 0xFFFF 0)
    else .next (s.updSec (fun x => { x with mgtSlots := x.mgtSlots.map (fun m =>
      if m.peer == peer then ⟨peer, true, m.timeout, bytes.take 256⟩ else m) }))
  | none => .next (s.updSec (fun x => { x with mgtSlots := x.mgtSlots ++ [⟨peer, true, false, bytes.take 256⟩] }))

/-- MGT_SLOT_TIMEOUT: a slot has stayed FULL for its timeout; the message stays. -/
def execMgtSlotTimeout (peer : Place) (s : State) : Host.Outcome State Fault Refusal :=
  .next (s.updSec (fun x => { x with mgtSlots := x.mgtSlots.map (fun m =>
    if m.peer == peer && m.full then { m with timeout := true } else m) }))

end Sys2Proof.Machine
end

