-- ==== Sys2Proof/Machine/LaneWords.lean ====
section
/-! DEFINITION. The words of the lane row (03; 08 R181 to R183): one meaning for each command. -/

namespace Sys2Proof.Machine

/-- STRING (R49). -/
def execString (core : CoreId) (delta : BitVec 12) (block : Wb) (fmt : BitVec 4) (l : BitVec 6) (s : State) :
    Host.Outcome State Fault Refusal :=
  execWord core (.string core delta block fmt l) s

/-- STRINGT (R49). -/
def execStringt (core : CoreId) (delta : BitVec 12) (block : Wb) (fmt : BitVec 4) (l : BitVec 6) (s : State) :
    Host.Outcome State Fault Refusal :=
  execWord core (.stringt core delta block fmt l) s

/-- SWAPT (R50). -/
def execSwapt (core : CoreId) (delta : BitVec 12) (s : State) :
    Host.Outcome State Fault Refusal :=
  execWord core (.swapt core delta) s

/-- BOW (R60). -/
def execBow (core : CoreId) (delta : BitVec 12) (data : Sr) (k : BitVec 4) (nib : Bool) (e : BitVec 6) (afmt : BitVec 2) (ssrc : Bool) (scale : BitVec 8) (rls : BitVec 3) (s : State) :
    Host.Outcome State Fault Refusal :=
  execWord core (.bow core delta data k nib e afmt ssrc scale rls) s

/-- BOWG (R62). -/
def execBowg (core : CoreId) (delta : BitVec 12) (list : Sa) (base : BitVec 4) (k : BitVec 4) (nib : Bool) (e : BitVec 6) (afmt : BitVec 2) (ssrc : Bool) (scale : BitVec 8) (s : State) :
    Host.Outcome State Fault Refusal :=
  execWord core (.bowg core delta list base k nib e afmt ssrc scale) s

/-- ZACC (R27). -/
def execZacc (core : CoreId) (delta : BitVec 12) (k : BitVec 4) (s : State) :
    Host.Outcome State Fault Refusal :=
  execWord core (.zacc core delta k) s

/-- WINDOW (R27). -/
def execWindow (core : CoreId) (delta : BitVec 12) (k : BitVec 4) (wsrc : Bool) (w : BitVec 10) (vs : BitVec 5) (elem : BitVec 6) (s : State) :
    Host.Outcome State Fault Refusal :=
  execWord core (.window core delta k wsrc w vs elem) s

/-- DRAIN (R66). -/
def execDrain (core : CoreId) (delta : BitVec 12) (k : BitVec 4) (vd : BitVec 5) (fmt : BitVec 4) (rm : BitVec 3) (clr : Bool) (s : State) :
    Host.Outcome State Fault Refusal :=
  execWord core (.drain core delta k vd fmt rm clr) s

end Sys2Proof.Machine
end

