-- ==== Sys2Proof/Machine/PowerOps.lean ====
section
/-! DEFINITION. Resets, power-up and power-down of the domains, start-up to READY (01 R14 to R16; 19 R426 to R429; 21 R476 to R478; 22 R500 to
R508; 23 R521). -/

namespace Sys2Proof.Machine

/-! ### Power removed -/

/-- The fabric island is unpowered: ports, lasers, route tables, cells and station time are lost (01 R14; 21 R477, R497). -/
def State.islandOff (s : State) : State :=
  { s with
    ports := [], lasers := [], net := Net.reset, routes := [], mesh := [], fabric := [], unroutable := [], notices := []
    sync := Sync.reset, station := 0, clk := { s.clk with locked := List.replicate 8 false }
    power := { s.power with railFabric := false } }

/-- The host-interface domain is unpowered: functions and host-written registers are lost, but for the mailboxes (01 R14). -/
def State.hostOff (s : State) : State :=
  { s with
    funcs := s.funcs.map (fun p => (p.1, p.2.unpowered)), pkg := Pkg.reset, parts := [], power := { s.power with railIo := false }
    maint := { s.maint with hostUp := false } }

/-- Compute is gated and every converter rail removed. The package stands before order 3 of start-up (21 R477). -/
def State.railsOff (s : State) : State :=
  ((s.loseCompute.islandOff.hostOff).updMaint (fun m => { m with
    running := 0x0A, arg := 0, byRec := false, suspended := none, pauseAsked := false, queue := [], ready := false
    leaving := none, order := min m.order 2 })).updSec (fun x => { x with fwLen := none })

/-- PWR_EN falls with the rails. -/
def State.powerDown (s : State) : State := s.railsOff.updPower (fun p => { p with pwrEn := false })

/-! ### Self-test (R503, R504) -/

/-- A core's row takes a free spare row of its bank; without one the core is retired. `subs`: substitutions of the capo map so far. -/
def takeSpare (x : List (Nat × Nat × Nat × Nat) × List Nat) (used : Nat → Nat → List Nat) (c bank row : Nat) :
    List (Nat × Nat × Nat × Nat) × List Nat :=
  let mine := (x.1.filter (fun (q : Nat × Nat × Nat × Nat) => q.1 == c && q.2.1 == bank)).map (fun q => q.2.2.2)
  match (List.range 64).find? (fun n => !(mine.contains n) && !((used c bank).contains n)) with
  | some n =>
    ((x.1.filter (fun (q : Nat × Nat × Nat × Nat) => !(q.1 == c && q.2.1 == bank && q.2.2.1 == row))) ++ [(c, bank, row, n)], x.2)
  | none => (x.1, x.2 ++ [c])

/-- The soundpost sets each core's steering from the verified factory section (03 R44). -/
def State.steerCores (s : State) : State :=
  ((s.maint.laneFaults.map (fun (q : Nat × Nat) => q.1)).eraseDups).foldl (fun s c =>
    s.updLane c (fun l => { l with
      steer := steering ((s.maint.laneFaults.filter (fun (q : Nat × Nat) => q.1 == c)).map (fun q => q.2)) })) s

/-- The memory self-test and capo repair, then the core self-test: every row zero, the capo map's substitutions applied, failing and
pending rows on spare rows, failing cores retired (R503, R504; 01 R16). A row that the factory section has substituted and that fails again
is steered by the newer substitution. -/
def State.selfTest (s : State) (t : SelfTest) : State :=
  let on (c : Nat) : Bool := s.isEnabled c
  let bad (c bank : Nat) : List Nat :=
    (t.spares.filter (fun (q : CoreId × BitVec 6 × Fin 64) => q.1.val == c && q.2.1.toNat == bank)).map (fun q => q.2.2.val)
  let rows := (t.rows.map (fun (q : CoreId × BitVec 6 × Fin 3072) => (q.1.val, q.2.1.toNat, q.2.2.val))) ++
    s.maint.pendingSubs.map (fun (q : Nat × Nat × Nat × Nat) => (q.1, q.2.1, q.2.2.1))
  let used (c bank : Nat) : List Nat :=
    bad c bank ++ (s.maint.factorySubs.filter (fun (q : Nat × Nat × Nat × Nat) => q.1 == c && q.2.1 == bank)).map (fun q => q.2.2.2)
  let (subs, lost) := (rows.filter (fun q => on q.1)).foldl (fun x q => takeSpare x used q.1 q.2.1 q.2.2) (s.maint.subs, [])
  let gone := (lost ++ t.words.map (·.val) ++ t.cores.map (·.val)).eraseDups.filter on
  let s := s.updMaint (fun m => { m with subs := subs, pendingSubs := [] })
  let s : State := { s with cores := s.cores.map (fun (p : Nat × Core) => (p.1, { Core.reset with
    sp := { SPad.reset with unc := p.2.sp.unc } })) }
  let s := gone.foldl State.retireCore s
  s.enabled.foldl (fun (s : State) c =>
    let mine := (s.maint.factorySubs.filter (fun (q : Nat × Nat × Nat × Nat) =>
        !s.maint.subs.any (fun x => x.1 == q.1 && x.2.1 == q.2.1 && x.2.2.1 == q.2.2.1)) ++ s.maint.subs).filter
      (fun (q : Nat × Nat × Nat × Nat) => q.1 == c)
    let spoilt := t.spares.filter (fun (q : CoreId × BitVec 6 × Fin 64) => q.1.val == c)
    if mine.isEmpty && spoilt.isEmpty then s
    else s.updWs c (fun w => { w with
      spares := mine.map (fun q => ⟨q.2.1, q.2.2.1, q.2.2.2⟩)
      sparesUsed := (List.range 64).foldl (fun u b =>
        let ns := (mine.filter (fun q => q.2.1 == b)).map (fun q => q.2.2.2) ++ bad c b
        if ns.isEmpty then u else Tab.set 0 u b (ns.foldl (fun m n => max m (n + 1)) 0)) [] })) s.steerCores

/-! ### Start-up (Table 22.2) -/

/-- A record of Table 1.4 leaves compute off. -/
def State.computeBarred (s : State) : Bool :=
  s.maint.badRecords.any (fun r => r == 2 || r == 3 || r == 4) || (s.maint.bootMode == 1 && s.maint.leaving.isNone) ||
    s.power.thermtrip

/-- The retained settings take their places in the ports, the power manager and the timeout exponents, and the shape record becomes
CURRENT (R505; order 8). -/
def State.applyRetained (s : State) : State :=
  match s.maint.retained with
  | none => s
  | some r =>
    let s := { s with
      ports := r.ports.foldl (fun ps (k : Nat × PortKept) => Recs.upd Port.reset ps k.1 (fun x => { x with
        enable := k.2.enable, encrypt := k.2.encrypt, retune := k.2.retune, vcAlloc := k.2.vcAlloc, shares := k.2.shares
        strict := k.2.strict })) s.ports
      power := { s.power with set := r.power, freqStage := r.freq, freqStep := r.freq }
      pkg := { s.pkg with muteExp := r.muteExp }
      parts := (r.flagExps.zipIdx).foldl (fun ps (k : Nat × Nat) => Recs.put ps k.2 { Recs.get Part.reset ps k.2 with flagExp := k.1 })
        s.parts }
    if r.shape.isEmpty || s.hasRoute then s else (s.setRoute 0 ⟨2, r.shape, []⟩).remeasure 5

/-- The host interface comes up once PERST# is released. -/
def State.hostOn (s : State) : State := s.updMaint (fun m => { m with hostUp := !m.perst })

/-- Orders 5 to 8: self-tests, the capo map's field section, retained settings, the records written, frequency raised to F_OP. -/
def State.testAndApply (s : State) (t : SelfTest) : State :=
  let s1 := s.selfTest t
  let s3 := ((s1.applyRetained.remeasure 4).remeasure 6).saveSettings
  s3.decideFreq s3.power.set.fOp

/-- Order 9: host interface up, ports enabled for bring-up. -/
def State.comeUp (s : State) : State :=
  let s1 := ({ s with passThrough := false }.updMaint (fun m => { m with order := 9, ready := true })).hostOn
  let s2 := (List.range 8).foldl (fun x i => x.updFunc (i + 1) (fun f => { f with enabled := true })) s1
  (List.range 8).foldl (fun x p => (x.laserEnable (p / 2)).bringUp p) s2

/-- READY: a PASS_THROUGH_LEAVE is answered, and the activity START_UP ends. -/
def State.readyNow (s : State) : State :=
  let s1 := match s.maint.leaving with
    | some (a, seq) => (s.reply a 0x41 0 seq []).updMaint (fun m => { m with leaving := none })
    | none => s
  if s1.maint.running = 0x0A then s1.endActivity else s1

/-- Orders 5 to 9. -/
def State.finishStart (s : State) (t : SelfTest) : State := (s.testAndApply t).comeUp.readyNow

/-- Start-up goes on as far as the supplies allow: PWR_EN once the soundpost has verified the records and VAUX and VANA are good; in the
wait of R429 the I/O rail alone; otherwise the rails of orders 4 to 6 while VMAIN is in range, or, where compute is barred, order 4 alone
and pass-through mode (21 R476; 22 R501, R502). -/
def State.startOn (s : State) : State :=
  if !s.power.vaux || s.maint.order < 1 || 3 ≤ s.maint.order then s
  else
    let s := if s.power.vana then s.updPower (fun p => { p with pwrEn := true }) else s
    if !(s.power.pwrEn && s.power.vmain) then s
    else if s.sec.recovery then ((s.updPower (fun p => { p with railIo := true })).hostOn).disableVfs
    else
      let s := if s.power.railFabric then s
        else { s with station := 0, sync := Sync.reset, power := { s.power with railIo := true, railFabric := true } }
      let s := s.updMaint (fun m => { m with order := 3 })
      if s.computeBarred then
        let s := (s.updMaint (fun m => { m with running := 0, ready := false })).hostOn
        { s.disableVfs.stopRings with passThrough := true }
      else s.updPower (fun p => { p with railMemory := true, railCore := true, ungated := [] })

/-- The grade record's enable mask has as many cores as the part's enabled count, and leaves out every core with more than two faulty lanes
(01 R16; 03 R44). -/
def Maint.gradeOk (m : Maint) : Bool :=
  decide (m.factoryOff.eraseDups.length = (if m.f272 then 16 else 32)) && m.factoryOff.all (· < 288) &&
    (List.range 288).all (fun c => m.factoryOff.contains c ||
      decide ((m.laneFaults.filter (fun (q : Nat × Nat) => q.1 == c)).eraseDups.length ≤ 2))

/-- The records of Table 1.4 that fail, in its order: those named, an image that does not verify, a grade record whose mask and count
differ (01 R15, R16). -/
def State.failing (s : State) (bad : List Nat) : List Nat :=
  [1, 2, 3, 4, 5, 6].filter (fun r => bad.contains r || (r == 1 && !s.sec.stored.verifies) || (r == 3 && !s.maint.gradeOk))

/-- Orders 1 and 2: the tailpiece records are verified, and the soundpost boots. `bad`: records of Table 1.4 that fail (19 R426 to R429;
01 R15, R16; 22 R506). -/
def State.bootPackage (s : State) (bad : List Nat) : State :=
  let bad := s.failing bad
  let m := s.maint
  let s := s.updMaint (fun m => { m with badRecords := bad, order := 1, running := 0x0A, ready := false })
  let s := { s with sec := { s.sec with
    stored := if bad.contains 1 then { s.sec.stored with verifies := false } else s.sec.stored } }
  let s := if bad.contains 5 then s.updMaint (fun m => { m with subs := [] }) else s
  let kept := if bad.contains 6 then none else m.retained
  let s := s.updMaint (fun m => { m with retained := kept })
  let s := s.updSec (fun x => match kept with
    | some r => { x with svnFloor := r.svnFloor, publishers := r.publishers, roots := r.roots }
    | none => { x with svnFloor := x.stored.svn })
  let s := bad.foldl State.recordFailed s
  let s := { s with enabled := (List.range 288).filter (fun c => !(s.maint.factoryOff.contains c) && !(s.maint.retired.contains c)) }
  let s := s.bootSoundpost
  (s.updMaint (fun m => { m with order := if s.sec.recovery then 1 else 2 })).startOn

/-- What a package reset leaves: the tailpiece, the always-on retention of R16 and R89, the straps as sampled, the supplies, PERST#; and
outside the package, what it has sent. -/
def State.resetPackage (s : State) : State :=
  { State.reset with
    pending := s.pending, free := s.free, out := s.out
    maint := { Maint.reset with
      f272 := s.maint.f272, factoryOff := s.maint.factoryOff, laneFaults := s.maint.laneFaults, factorySubs := s.maint.factorySubs, retired := s.maint.retired, subs := s.maint.subs
      pendingSubs := s.maint.pendingSubs, retained := s.maint.retained, perst := s.maint.perst, slotId := s.maint.slotId
      bootMode := s.maint.bootMode }
    sec := { Sec.reset with stored := s.sec.stored, fwBytes := s.sec.fwBytes }
    power := { Power.reset with vaux := s.power.vaux, vana := s.power.vana, vmain := s.power.vmain }
    clk := { Clk.reset with refclk := s.clk.refclk } }

/-- The image supplied in the wait of R429 verifies: it runs, and start-up goes on from order 2, or ends where nothing but the soundpost had
been reset (19 R429; 21 R476). -/
def State.resumeBoot (s : State) : State :=
  let s := s.runStored
  if s.maint.running = 0x0A ∧ s.maint.order = 1 then (s.updMaint (fun m => { m with order := 2 })).startOn
  else if s.maint.running = 0x0A ∧ (s.maint.ready ∨ s.passThrough) then s.endActivity
  else s

/-- A soundpost reset: it boots; during start-up, start-up begins again at order 1 (19 R426; 22 R500). A stored image that fails is logged
(01 R15). -/
def State.resetSoundpost (s : State) : State :=
  if s.maint.running = 0x0A ∧ s.maint.order < 9 then s.bootPackage s.maint.badRecords
  else (if s.sec.stored.verifies then s else s.recordFailed 1).bootSoundpost

/-! ### Station time -/

/-- A write of STATION_SET: taken on the source only, while SYNCED is clear and it is a member of no group; refused otherwise (21 R497;
24 Table 24.5). -/
def State.setStation (s : State) (value : W64) : State :=
  if s.isSource && !s.sync.synced && (List.range 16).all (fun g => !(s.group g).formed) then
    { s with station := value.toNat, sync := { s.sync with synced := true, part := 0 } }
  else s.refuse 0x3008

end Sys2Proof.Machine
end

