-- ==== Sys2Proof/Machine/MaintEvents.lean ====
section
/-! DEFINITION. Maintenance commands and the arbiter's events (22 R500, R506 to R513; 24 R534). -/

namespace Sys2Proof.Machine

/-- A maintenance command may be given: by PF0 or board management, without payload; otherwise the status that answers (19 R436, R437; 22
Table 22.4). -/
def maintRefusal (asker : Asker) (payload : List Byte) : Option Nat :=
  if !(askerPf0 asker) then some 2 else if !payload.isEmpty then some 1 else none

/-- MAINT_STATUS (Table 22.6). -/
def State.maintStatus (s : State) : Nat :=
  (match s.maint.suspended with
    | some (c, _) => if s.maint.running = 0 then c + 2 ^ 8 else s.maint.running
    | none => s.maint.running) + 2 ^ 16 * satNat 255 s.maint.queue.length + 2 ^ 24 * b01 s.maint.ready +
    2 ^ 25 * b01 (s.sec.stored.digest != s.sec.running.digest)

/-- PASS_THROUGH_ENTER: compute is powered off (R507). -/
def execPassThroughEnter (asker : Asker) (seq : W32) (payload : List Byte) (s : State) : Host.Outcome State Fault Refusal :=
  match maintRefusal asker payload with
  | some c => .next (s.reply asker 0x40 c seq [])
  | none => .next ((s.enterPassThrough 0).reply asker 0x40 0 seq [])

/-- PASS_THROUGH_LEAVE: refused under R508, or orders 3 to 9 run again; DONE is sent at READY. `persists`: a rail or stage fault persists. -/
def execPassThroughLeave (asker : Asker) (seq : W32) (payload : List Byte) (persists : Bool) (s : State) :
    Host.Outcome State Fault Refusal :=
  match maintRefusal asker payload with
  | some c => .next (s.reply asker 0x41 c seq [])
  | none =>
    if !s.passThrough then .next (s.reply asker 0x41 0 seq [])
    else if s.maint.leaving.isSome then .next s
    else if 95 ≤ s.power.tmax ∨ persists ∨ !s.maint.badRecords.isEmpty ∨ s.maint.tripped then .next (s.reply asker 0x41 2 seq [])
    else
      let s := s.updPower (fun p => { p with stageFaults := [], railFault := false })
      let s := s.updMaint (fun m => { m with
        order := 2, leaving := some (asker, seq), running := if m.running = 0 then 0x0A else m.running })
      .next s.startOn

/-- PACKAGE_RESET: DONE, then everything is reset but the retention of R16 and R89, and the package starts up; THERMTRIP# is released unless
a sensor still reads 105 °C or more (`hot`), which leaves compute off (R500, R501; 23 R521). `bad`: records that fail. -/
def execPackageReset (asker : Asker) (seq : W32) (payload : List Byte) (bad : List (BitVec 3)) (hot : Bool) (s : State) :
    Host.Outcome State Fault Refusal :=
  match maintRefusal asker payload with
  | some c => .next (s.reply asker 0x42 c seq [])
  | none =>
    let trip := s.power.thermtrip && hot
    let sent := (s.reply asker 0x42 0 seq []).out
    let s := { s.resetPackage with out := sent }
    let s := (s.updPower (fun p => { p with thermtrip := trip })).updMaint (fun m => { m with tripped := trip })
    .next (s.bootPackage ((bad.map (·.toNat)).filter (fun r => 1 ≤ r && r ≤ 6)))

/-- SOUNDPOST_RESET: BUSY while a structural activity runs; otherwise DONE, and the soundpost boots again (R500, R509). -/
def execSoundpostReset (asker : Asker) (seq : W32) (payload : List Byte) (s : State) : Host.Outcome State Fault Refusal :=
  match maintRefusal asker payload with
  | some c => .next (s.reply asker 0x43 c seq [])
  | none =>
    if s.maint.running ≠ 0 ∨ s.maint.suspended.isSome then .next (s.reply asker 0x43 3 seq [])
    else .next (s.reply asker 0x43 0 seq []).resetSoundpost

/-- SAVE_SETTINGS: the activity "settings save" writes the record (R506, R512). -/
def execSaveSettings (asker : Asker) (seq : W32) (payload : List Byte) (s : State) : Host.Outcome State Fault Refusal :=
  match maintRefusal asker payload with
  | some c => .next (s.reply asker 0x44 c seq [])
  | none =>
    if s.maintBusy then .next (s.reply asker 0x44 3 seq [])
    else .next ((s.startActivity 9 0 false).saveSettings.endActivity.reply asker 0x44 0 seq [])

/-- MAINT_QUERY: MAINT_STATUS (R513). -/
def execMaintQuery (asker : Asker) (seq : W32) (payload : List Byte) (s : State) : Host.Outcome State Fault Refusal :=
  match maintRefusal asker payload with
  | some c => .next (s.reply asker 0x45 c seq [])
  | none => .next (s.reply asker 0x45 0 seq (leBytes 4 s.maintStatus))

/-- PAUSE_POINT_REACHED: an activity asked to pause does so, and the first queued recovery starts (R512). -/
def execPausePointReached (s : State) : Host.Outcome State Fault Refusal :=
  let m := s.maint
  match m.queue with
  | (c, a) :: l =>
    if m.pauseAsked && pausable m.running then
      .next (((s.updMaint (fun m => { m with queue := l, suspended := some (m.running, m.arg), pauseAsked := false })).startActivity
        c a true).epochDue)
    else .next s
  | [] => .next s

/-- Every slot's chunks that this package has loaded are verified. -/
def State.reloaded (s : State) : Bool :=
  (List.range 16).all (fun g => (s.group g).swap.chunks.all (·.verified))

/-- STRUCTURAL_ACTIVITY_END: the activity that runs has done its work. A weight swap, an epoch change, key retirement, a firmware write and
start-up end with commands of their own (R511, R512). -/
def execStructuralActivityEnd (s : State) : Host.Outcome State Fault Refusal :=
  match s.maint.running with
  | 8 => .next (s.zeroingDone s.maint.arg).endActivity
  | 6 => .next (if s.reloaded then s.endActivity else s)
  | 5 => .next (if s.clk.change.isNone && !(s.clk.holds.contains .frequency) then s.endActivity else s)
  | 2 => .next s.endActivity
  | 9 => .next s.endActivity
  | _ => .next s

/-- The staged frequency table is strictly ascending in MULT, each from 6 to 24 (21 R489). -/
def freqTableOk (l : List (Nat × Nat)) : Bool :=
  l.all (fun e => decide (6 ≤ e.1) && decide (e.1 ≤ 24)) &&
    (List.range 15).all (fun i => decide ((l.getD i (0, 0)).1 < (l.getD (i + 1) (0, 0)).1))

/-- FREQ_APPLY: BUSY, or the activity "frequency-table change" copies and checks the staging table and puts it in force by a change to the
step in force; `admitted`: the firmware's rail model admits each VMV (21 R489, R491; R534; Table 24.4). -/
def execFreqApply (admitted : Bool) (s : State) : Host.Outcome State Fault Refusal :=
  if !s.funcUp 0 then .next s
  else if s.maintBusy then .next (s.updPower (fun p => { p with freqResult := 3 }))
  else
    let s := s.startActivity 5 0 false
    if admitted && freqTableOk s.power.freqStage then
      let s := (s.updPower (fun p => { p with freqStep := p.freqStage, freqResult := 1 })).retainedChanged
      .next (s.decideFreq (match s.clk.change with | some (_, n) => n | none => s.clk.fstep))
    else .next (s.updPower (fun p => { p with freqResult := 2 })).endActivity

end Sys2Proof.Machine
end

