-- ==== Sys2Proof/Machine/MoveWords.lean ====
section
/-! DEFINITION. The words of the move engine (08 R186 to R202): one meaning for each command. -/

namespace Sys2Proof.Machine

/-- SPFILL (R191). -/
def execSpfill (core : CoreId) (delta : BitVec 12) (row : Sr) (cnt : BitVec 3) (q : BitVec 5) (psrc : BitVec 3) (preg : BitVec 5) (cmt : BitVec 3) (s : State) :
    Host.Outcome State Fault Refusal :=
  execWord core (.spfill core delta row cnt q psrc preg cmt) s

/-- SPCOPY (R99). -/
def execSpcopy (core : CoreId) (delta : BitVec 12) (src : Sa) (dst : Sa) (cnt : BitVec 3) (q : BitVec 5) (s : State) :
    Host.Outcome State Fault Refusal :=
  execWord core (.spcopy core delta src dst cnt q) s

/-- WSRD (R192). -/
def execWsrd (core : CoreId) (delta : BitVec 12) (block : Wb) (part : Bool) (row : BitVec 6) (sp : Sr) (s : State) :
    Host.Outcome State Fault Refusal :=
  execWord core (.wsrd core delta block part row sp) s

/-- WSWR (R193). -/
def execWswr (core : CoreId) (delta : BitVec 12) (block : Wb) (part : Bool) (row : BitVec 6) (sp : Sr) (s : State) :
    Host.Outcome State Fault Refusal :=
  execWord core (.wswr core delta block part row sp) s

/-- KVRD (R195). -/
def execKvrd (core : CoreId) (delta : BitVec 12) (hreg : BitVec 4) (greg : BitVec 3) (sp : Sr) (s : State) :
    Host.Outcome State Fault Refusal :=
  execWord core (.kvrd core delta hreg greg sp) s

/-- KVWR (R195). -/
def execKvwr (core : CoreId) (delta : BitVec 12) (hreg : BitVec 4) (greg : BitVec 3) (sp : Sr) (s : State) :
    Host.Outcome State Fault Refusal :=
  execWord core (.kvwr core delta hreg greg sp) s

/-- KVWR_REMOTE (R195). -/
def execKvwrRemote (core : CoreId) (delta : BitVec 12) (hreg : BitVec 4) (greg : BitVec 3) (sp : Sr) (dreg : BitVec 4) (tid : BitVec 12) (s : State) :
    Host.Outcome State Fault Refusal :=
  execWord core (.kvwrRemote core delta hreg greg sp dreg tid) s

/-- SEND (R196). -/
def execSend (core : CoreId) (delta : BitVec 12) (sp : Sr) (cnt : BitVec 3) (dreg : BitVec 4) (vc : BitVec 2) (cls : BitVec 4) (tid : BitVec 12) (s : State) :
    Host.Outcome State Fault Refusal :=
  execWord core (.send core delta sp cnt dreg vc cls tid) s

/-- SENDACC (R197). -/
def execSendacc (core : CoreId) (delta : BitVec 12) (k : BitVec 4) (dreg : BitVec 4) (enc : BitVec 2) (cls : BitVec 4) (tid : BitVec 12) (s : State) :
    Host.Outcome State Fault Refusal :=
  execWord core (.sendacc core delta k dreg enc cls tid) s

/-- SENDXOR (R196). -/
def execSendxor (core : CoreId) (delta : BitVec 12) (sp : Sr) (cnt : BitVec 3) (dreg : BitVec 4) (vc : BitVec 2) (cls : BitVec 4) (tid : BitVec 12) (s : State) :
    Host.Outcome State Fault Refusal :=
  execWord core (.sendxor core delta sp cnt dreg vc cls tid) s

/-- RECV_DATA (R198). -/
def execRecvData (core : CoreId) (delta : BitVec 12) (tid : BitVec 12) (sp : Sr) (s : State) :
    Host.Outcome State Fault Refusal :=
  execWord core (.recvData core delta tid sp) s

/-- RECV_ACCUMULATOR (R198). -/
def execRecvAccumulator (core : CoreId) (delta : BitVec 12) (tid : BitVec 12) (k : BitVec 4) (s : State) :
    Host.Outcome State Fault Refusal :=
  execWord core (.recvAccumulator core delta tid k) s

/-- RECV_FAST_ADD (R198). -/
def execRecvFastAdd (core : CoreId) (delta : BitVec 12) (tid : BitVec 12) (sp : Sr) (s : State) :
    Host.Outcome State Fault Refusal :=
  execWord core (.recvFastAdd core delta tid sp) s

/-- RECV_XOR (R198). -/
def execRecvXor (core : CoreId) (delta : BitVec 12) (tid : BitVec 12) (sp : Sr) (s : State) :
    Host.Outcome State Fault Refusal :=
  execWord core (.recvXor core delta tid sp) s

/-- RECV_ON_DIE_READ (R96). -/
def execRecvOnDieRead (core : CoreId) (delta : BitVec 12) (score : BitVec 9) (srow : BitVec 13) (sp : Sr) (s : State) :
    Host.Outcome State Fault Refusal :=
  execWord core (.recvOnDieRead core delta score srow sp) s

/-- HOSTRD (R199). -/
def execHostrd (core : CoreId) (delta : BitVec 12) (buf : BitVec 6) (oreg : BitVec 4) (sp : Sr) (cnt : BitVec 3) (tid : BitVec 12) (s : State) :
    Host.Outcome State Fault Refusal :=
  execWord core (.hostrd core delta buf oreg sp cnt tid) s

/-- HOSTWR (R199). -/
def execHostwr (core : CoreId) (delta : BitVec 12) (buf : BitVec 6) (oreg : BitVec 4) (sp : Sr) (cnt : BitVec 3) (tid : BitVec 12) (s : State) :
    Host.Outcome State Fault Refusal :=
  execWord core (.hostwr core delta buf oreg sp cnt tid) s

/-- KDLOOK (R200). -/
def execKdlook (core : CoreId) (delta : BitVec 12) (sp : Sr) (cnt : BitVec 3) (rreg : BitVec 4) (tid : BitVec 12) (s : State) :
    Host.Outcome State Fault Refusal :=
  execWord core (.kdlook core delta sp cnt rreg tid) s

/-- KDPUT (R200). -/
def execKdput (core : CoreId) (delta : BitVec 12) (sp : Sr) (cnt : BitVec 3) (op : Bool) (tid : BitVec 12) (s : State) :
    Host.Outcome State Fault Refusal :=
  execWord core (.kdput core delta sp cnt op tid) s

end Sys2Proof.Machine
end

