-- ==== Sys2Proof/Machine/PowerEvents.lean ====
section
/-! DEFINITION. The events of power, clocks and thermal sensing (20 R466; 21 R476 to R493; 22 R500, R501; 23 R521, R525). -/

namespace Sys2Proof.Machine

/-! ### Supplies and start-up -/

/-- COLD_START: VAUX becomes good. Everything is reset but the tailpiece; the straps are sampled, the records of Table 1.4 verified (`bad`
fail), and the package starts up as far as its supplies allow (22 R500 to R502; 23 R518). -/
def execColdStart (slotId : BitVec 4) (bootMode : BitVec 2) (bad : List (BitVec 3)) (s : State) : Host.Outcome State Fault Refusal :=
  let bad := (bad.map (·.toNat)).filter (fun r => 1 ≤ r && r ≤ 6)
  let s := s.resetPackage
  let s := s.updMaint (fun m => { m with
    slotId := slotId.toNat, bootMode := bootMode.toNat, pendingSubs := [], retired := if bad.contains 5 then [] else m.retired })
  let s := s.updPower (fun p => { p with vaux := true })
  let s := if bootMode = 3 then s.oweSecurity 7 else s
  .next (s.bootPackage bad)

/-- VANA_GOOD (21 Table 21.2, order 2). -/
def execVanaGood (s : State) : Host.Outcome State Fault Refusal := .next (s.updPower (fun p => { p with vana := true })).startOn

/-- VMAIN_GOOD: VMAIN lies in its operating range (R476). -/
def execVmainGood (s : State) : Host.Outcome State Fault Refusal := .next (s.updPower (fun p => { p with vmain := true })).startOn

/-- COURSE_UNGATE: lane group `group` of a course is ungated, in the order of R478. After the last one compute is up, and start-up runs its
orders 5 to 9 with what the self-tests find. -/
def execCourseUngate (course group : Fin 8) (tests : SelfTest) (s : State) : Host.Outcome State Fault Refusal :=
  let n := s.power.ungated.length
  if s.power.railCore && s.maint.order == 3 && 8 * course.val + group.val == n then
    let s := s.updPower (fun p => { p with ungated := p.ungated ++ [n] })
    .next (if n = 63 then (s.updMaint (fun m => { m with order := 4 })).finishStart tests else s)
  else .next s

/-- VAUX_FAIL: every stage stops, PWR_EN falls, and the always-on domain is lost; THERMTRIP# is released (R477; 23 R521). -/
def execVauxFail (s : State) : Host.Outcome State Fault Refusal :=
  let s := s.powerDown
  .next { s with
    passThrough := false, faultLog := [], faultCount := 0, meshFaults := [], clockFaults := []
    sec := { Sec.reset with stored := s.sec.stored, fwBytes := s.sec.fwBytes }
    maint := { s.maint with order := 0, pendingSubs := [], tripped := false }
    power := { Power.reset with vana := s.power.vana, vmain := s.power.vmain } }

/-- VANA_FAIL: courses gated, converter rails removed, PWR_EN low (R477). -/
def execVanaFail (s : State) : Host.Outcome State Fault Refusal :=
  .next (s.powerDown.updPower (fun p => { p with vana := false }))

/-- UNDERVOLTAGE_LOCKOUT: VMAIN falls below 44 V and the stages stop (R477). -/
def execUndervoltageLockout (s : State) : Host.Outcome State Fault Refusal :=
  .next (s.railsOff.updPower (fun p => { p with vmain := false }))

/-- CONVERTER_STAGE_FAULT: compute is powered off into pass-through mode; with stages 2 and 3 both in fault the fabric island and the host
interface go too (01 R14; R480; 20 R465). -/
def execConverterStageFault (stage : Fin 4) (s : State) : Host.Outcome State Fault Refusal :=
  let s := (s.supplyFault 0xFFFF 0).updPower (fun p => { p with
    stageFaults := if p.stageFaults.contains stage.val then p.stageFaults else p.stageFaults ++ [stage.val] })
  .next (if s.power.stageFaults.contains 2 && s.power.stageFaults.contains 3 then s.islandOff.hostOff else s)

/-- REFCLK_LOSS: every PLL loses lock; the clock holds, and the fabric island and its ports stop (23 R525; 20 R464). -/
def execRefclkLoss (s : State) : Host.Outcome State Fault Refusal :=
  let g := s.liveSlots.head?
  let s := s.logFault 0x0050 8 0 g (match g with | some g => (s.step' g).num | none => 0) 0xFFFF 0xFFFF 0
  let s := (s.updClk (fun k => { k with refclk := false, locked := List.replicate 8 false, lockLosses := k.lockLosses + 1 })).addHold
    .lockLoss
  .next ((List.range 8).foldl (fun s p => s.portDown p) s)

/-- REFCLK_RETURN: the PLLs can lock again; enabled ports leave DOWN (23 R525; 11 R277). -/
def execRefclkReturn (s : State) : Host.Outcome State Fault Refusal :=
  let s := s.updClk (fun k => { k with refclk := true })
  .next ((List.range 8).foldl (fun s p => s.bringUp p) s)

/-- FW_WATCHDOG: the soundpost is reset and boots; a structural activity that it was running is ended and reported (20 R466; 19 R426); during
start-up, start-up begins again at order 1 (22 R500). -/
def execFwWatchdog (s : State) : Host.Outcome State Fault Refusal :=
  let g := s.liveSlots.head?
  let s := s.logFault 0x0070 10 0 g (match g with | some g => (s.step' g).num | none => 0) 0xFFFF 0xFFFF 0
  if s.maint.running = 0x0A then .next s.resetSoundpost
  else
    let s := if s.maint.running = 0 then s
      else s.interrupted.updMaint (fun m => { m with
        running := 0, arg := 0, byRec := false, pauseAsked := false, suspended := none, queue := [] })
    .next s.resetSoundpost

/-! ### Sensors (R481 to R485, R492, R493) -/

/-- A thermal cause of pass-through mode (R492): logged with reason THERMAL. The manual gives it no CLASS: an open value. -/
def State.thermalOff (s : State) : State :=
  if s.passThrough then s
  else
    let (x, s) := s.takeFree 8
    (s.packageFault 0x0061 (1 + x.toNat % 12) 4 0xFFFF 0xFFFF 0).enterPassThrough 0x0061

/-- Fixed-step mode is set for some partition (19 R452). -/
def State.fixedStep (s : State) : Bool := (List.range 9).any (fun p => (s.part p).fixedStep)

/-- A decision for F_FLOOR (Table 21.10). -/
def State.toFloor (s : State) : State :=
  if s.power.set.fFloor < s.clk.fstep then s.decideFreq s.power.set.fFloor else s

/-- SENSOR_SAMPLE, every 10 µs: Tmax in °C, P_1ms and P_1s in W, VMAIN in mV, its current in mA. A current above 42 A for 100 µs is a
supply fault; Tmax at 105 °C is a thermal emergency, at 110 °C or with F_FLOOR in force for 10 ms it ends in pass-through mode. -/
def execSensorSample (tmax : Byte) (p1ms p1s : BitVec 12) (vmain current : BitVec 17) (s : State) : Host.Outcome State Fault Refusal :=
  if !s.power.vaux then .next s
  else
    let t := tmax.toNat
    let atFloor := s.clk.fstep == s.power.set.fFloor && s.clk.change.isNone && !(s.clk.holds.contains .frequency)
    let found := decide (105 ≤ t) && !s.power.emergency
    let s := s.updPower (fun p => { p with
      tmax := t, p1ms := p1ms.toNat, p1s := p1s.toNat, vmainMv := vmain.toNat, currentMa := current.toNat
      overCount := if 42000 < current.toNat then p.overCount + 1 else 0
      hotCount := if 105 ≤ t ∧ atFloor then p.hotCount + 1 else 0
      emergency := p.emergency || decide (105 ≤ t), clearCount := if 100 ≤ t then 0 else p.clearCount })
    if s.passThrough then .next s
    else if 11 ≤ s.power.overCount then .next ((s.supplyFault 0xFFFF 0).updPower (fun p => { p with overCount := 0 }))
    else if 110 ≤ t ∨ 1001 ≤ s.power.hotCount ∨ (105 ≤ t ∧ s.fixedStep) then .next s.thermalOff
    else .next (if found then s.toFloor else s)

/-- Thresholds 1 to 7 of Table 21.6: power in %, thermal in °C, supply in A. -/
def powerSteps : List Nat := [70, 75, 80, 85, 90, 95, 100]
/-- Thermal thresholds. -/
def thermalSteps : List Nat := [80, 85, 90, 95, 100, 103, 105]
/-- Supply thresholds. -/
def supplySteps : List Nat := [34, 35, 36, 37, 38, 39, 40]

/-- One evaluation of a part-state (R484, R485). `meets t`: the input meets or exceeds t; `forced`: it is 7 whatever the input. -/
def PartState.eval (x : PartState) (steps : List Nat) (margin : Nat) (meets : Nat → Bool) (forced : Bool) : PartState :=
  let n := if forced then 7 else (steps.filter meets).length
  if x.val < n then ⟨n, 0⟩
  else if x.val = 0 ∨ forced ∨ meets (steps.getD (x.val - 1) 0 - margin) then ⟨x.val, 0⟩
  else if 100 ≤ x.below then ⟨x.val - 1, 0⟩
  else ⟨x.val, x.below + 1⟩

/-- The part-states and the budget state of an evaluation, and the runs that Table 21.10 counts. -/
def Power.evaluate (p : Power) : Power :=
  let a := p.partP.eval powerSteps 2 (fun t => decide (t * p.set.plPeak ≤ 100 * p.p1ms) || decide (t * p.set.plSust ≤ 100 * p.p1s)) false
  let b := p.partT.eval thermalSteps 2 (fun t => decide (t ≤ p.tmax)) false
  let c := p.partS.eval supplySteps 1 (fun t => decide (1000 * t ≤ p.currentMa)) (decide (p.vmainMv < 45000))
  let n := max a.val (max b.val c.val)
  let clear := decide (p.tmax < 100) && decide (p.p1ms < p.set.plPeak)
  let cleared := p.emergency && clear && decide (1000 ≤ p.clearCount)
  { p with
    partP := a, partT := b, partS := c, budget := n
    sevenCount := if n = 7 then p.sevenCount + 1 else 0
    fiveCount := if n ≤ 5 then p.fiveCount + 1 else 0
    clearCount := if p.emergency && clear && !cleared then p.clearCount + 1 else 0
    emergency := p.emergency && !cleared, raiseDue := p.raiseDue || cleared }

/-- BUDGET_EVALUATION, every 100 µs (R484, R485); a P_1ms above 1.05 × PL_PEAK is a peak-power emergency (Table 21.10). -/
def execBudgetEvaluation (s : State) : Host.Outcome State Fault Refusal :=
  if !s.power.vaux then .next s
  else
    let s := s.updPower Power.evaluate
    let peak := decide (105 * s.power.set.plPeak < 100 * s.power.p1ms)
    let found := peak && !s.power.emergency
    let s := if peak then s.updPower (fun p => { p with emergency := true, clearCount := 0 }) else s
    .next (if found && !s.fixedStep && !s.passThrough then s.toFloor else s)

/-- THERMTRIP: a sensor reads 115 °C: all compute is gated and PWR_EN driven low, until a package reset (R493; 22 Table 22.1). -/
def execThermtrip (s : State) : Host.Outcome State Fault Refusal :=
  if !s.power.vaux then .next s
  else
    .next { (s.powerDown.updPower (fun p => { p with thermtrip := true })).updMaint (fun m => { m with tripped := true, order := 0 }) with
      passThrough := true }

end Sys2Proof.Machine
end

