-- ==== Sys2Proof/Machine/SecEvents.lean ====
section
/-! DEFINITION. The events of the soundpost's security: mailbox requests of Table 19.3, SPDM, TDISP and IDE, spill keys (19 R426 to
R452). -/

namespace Sys2Proof.Machine

/-! ### Firmware (R429, R430, R437) -/

/-- The firmware write ends. -/
def State.endFwWrite (s : State) : State :=
  let s := s.updSec (fun x => { x with fwLen := none })
  if s.maint.running = 7 then s.endActivity
  else if s.maint.suspended.any (fun a => a.1 == 7) then s.updMaint (fun m => { m with suspended := none })
  else s

/-- FW_BEGIN: payload bytes 0 to 3 are the total image length. A write in progress ends and begins again; BUSY while another structural
activity runs. In the wait of R429 no activity is needed. -/
def execFwBegin (asker : Asker) (seq : W32) (payload : List Byte) (s : State) : Host.Outcome State Fault Refusal :=
  let len := fieldN payload 0 4
  if !(askerPf0 asker) then .next (s.reply asker 1 2 seq [])
  else if payload.length ≠ 4 ∨ len < 196 ∨ 32 * 2 ^ 20 < len then .next (s.reply asker 1 1 seq [])
  else if s.sec.recovery then .next ((s.updSec (fun x => { x with fwLen := some len })).reply asker 1 0 seq [])
  else if s.sec.fwLen.isSome && s.maint.running == 7 then
    .next ((s.updSec (fun x => { x with fwLen := some len })).reply asker 1 0 seq [])
  else if s.maintBusy then .next (s.reply asker 1 3 seq [])
  else .next (((s.startActivity 7 0 false).updSec (fun x => { x with fwLen := some len })).reply asker 1 0 seq [])

/-- FW_PIECE: the bytes go into the tailpiece as they arrive; the stored image no longer verifies until FW_END. -/
def execFwPiece (asker : Asker) (seq : W32) (payload : List Byte) (s : State) : Host.Outcome State Fault Refusal :=
  let off := fieldN payload 0 4
  let bs := payload.drop 4
  if !(askerPf0 asker) then .next (s.reply asker 2 2 seq [])
  else if s.maint.suspended.any (fun a => a.1 == 7) then .next (s.reply asker 2 3 seq [])
  else match s.sec.fwLen with
    | none => .next (s.reply asker 2 1 seq [])
    | some len =>
      if payload.length < 4 ∨ 248 < payload.length ∨ off % 4 ≠ 0 ∨ len < off + bs.length then .next (s.reply asker 2 1 seq [])
      else .next ((s.updSec (fun x => { x with
        fwBytes := x.fwBytes.write off bs, stored := { x.stored with verifies := false } })).reply asker 2 0 seq [])

/-- FW_END: the stored image is verified: DONE, or BAD_IMAGE with SECURITY event FW_REJECTED in running operation. In the wait of R429 a
verifying image boots. -/
def execFwEnd (asker : Asker) (seq : W32) (payload : List Byte) (s : State) : Host.Outcome State Fault Refusal :=
  if !(askerPf0 asker) then .next (s.reply asker 3 2 seq [])
  else if !payload.isEmpty then .next (s.reply asker 3 1 seq [])
  else if s.maint.suspended.any (fun a => a.1 == 7) then .next (s.reply asker 3 3 seq [])
  else match s.sec.fwLen with
    | none => .next (s.reply asker 3 1 seq [])
    | some len =>
      let img := s.imageOf s.sec.fwBytes len
      let s := (s.updSec (fun x => { x with stored := img })).endFwWrite
      if img.verifies then
        .next ((if s.sec.recovery then s.resumeBoot else s).reply asker 3 0 seq [])
      else
        let s := if s.sec.recovery then s else s.securityEvent 0 5
        .next (s.reply asker 3 5 seq [])

/-- FW_WRITE_TIMEOUT: no piece for 10 s; the timeout does not run while the write is paused (22 R512). -/
def execFwWriteTimeout (s : State) : Host.Outcome State Fault Refusal :=
  .next (if s.sec.fwLen.isSome && !(s.maint.suspended.any (fun a => a.1 == 7)) then s.endFwWrite else s)

/-! ### Keys and status (R437) -/

/-- The kind and slot that a key message names: 0 publisher slots 0 to 7, 1 side-port root slots 0 to 3. -/
def keySlotOk (payload : List Byte) : Bool :=
  let kind := fieldN payload 0 1
  let slot := fieldN payload 1 1
  decide (kind ≤ 1) && decide (slot < if kind = 0 then 8 else 4)

/-- Puts a key into its slot, or takes it out. -/
def Sec.setKey (x : Sec) (kind slot : Nat) (key : Option (List Byte)) : Sec :=
  let put (l : List (Nat × List Byte)) : List (Nat × List Byte) :=
    match key with
    | some k => Recs.put l slot k
    | none => l.filter (fun (p : Nat × List Byte) => p.1 != slot)
  if kind = 0 then { x with publishers := put x.publishers } else { x with roots := put x.roots }

/-- KEY_INSTALL. -/
def execKeyInstall (asker : Asker) (seq : W32) (payload : List Byte) (s : State) : Host.Outcome State Fault Refusal :=
  if !(askerPf0 asker) then .next (s.reply asker 0x10 2 seq [])
  else if payload.length ≠ 135 ∨ !(keySlotOk payload) ∨ fieldN payload 2 1 ≠ 4 then .next (s.reply asker 0x10 1 seq [])
  else if s.anyLocked then .next (s.reply asker 0x10 4 seq [])
  else
    let s := s.updSec (fun x => x.setKey (fieldN payload 0 1) (fieldN payload 1 1) (some (sliceB payload 2 133)))
    .next ((s.remeasure 7).retainedChanged.reply asker 0x10 0 seq [])

/-- KEY_REMOVE. -/
def execKeyRemove (asker : Asker) (seq : W32) (payload : List Byte) (s : State) : Host.Outcome State Fault Refusal :=
  if !(askerPf0 asker) then .next (s.reply asker 0x11 2 seq [])
  else if payload.length ≠ 2 ∨ !(keySlotOk payload) then .next (s.reply asker 0x11 1 seq [])
  else if s.anyLocked then .next (s.reply asker 0x11 4 seq [])
  else
    let s := s.updSec (fun x => x.setKey (fieldN payload 0 1) (fieldN payload 1 1) none)
    .next ((s.remeasure 7).retainedChanged.reply asker 0x11 0 seq [])

/-- STATUS: measurement 0x06. -/
def execStatus (asker : Asker) (seq : W32) (payload : List Byte) (s : State) : Host.Outcome State Fault Refusal :=
  .next (if payload.isEmpty then s.reply asker 0x30 0 seq (sliceB (Recs.get ⟨[], 0⟩ s.sec.meas 6).value 0 64)
    else s.reply asker 0x30 1 seq [])

/-! ### Spill keys (R448, R449) -/

/-- The function that asks by mailbox; I3C asks as PF0 (22 R509). -/
def askerFunc : Asker → Nat
  | .func f => f.val
  | .i3c => 0

/-- SPILL_ROTATE: PF0, or the owner of the group, starts a rotation on the lead. -/
def execSpillRotate (asker : Asker) (seq : W32) (payload : List Byte) (s : State) : Host.Outcome State Fault Refusal :=
  if payload.length ≠ 4 then .next (s.reply asker 0x20 1 seq [])
  else match (List.range 16).find? (fun g =>
      (s.group g).formed && (s.group g).lead && (s.group g).id.toNat == fieldN payload 0 4) with
    | none => .next (s.reply asker 0x20 (if askerPf0 asker then 1 else 2) seq [])
    | some g =>
      if !(askerPf0 asker) && (s.group g).owner != askerFunc asker then .next (s.reply asker 0x20 2 seq [])
      else if s.maintBusy then .next (s.reply asker 0x20 3 seq [])
      else .next ((s.startActivity 4 g false).reply asker 0x20 0 seq [])

/-- SPILL_KEY_DISTRIBUTE: a member's soundpost receives the key of generation `gen` and acknowledges; at the lead, `ack` names the
member whose acknowledgement arrives. -/
def execSpillKeyDistribute (slot : Slot) (gen : W32) (ack : Option Place) (s : State) : Host.Outcome State Fault Refusal :=
  let g := slot.val
  if !(s.group g).formed then .next s
  else if (s.group g).lead then
    match ack with
    | some p => .next (s.updSpill g (fun k => { k with waiting := k.waiting.filter (· != p) }))
    | none => .next s
  else
    .next ((s.updSpill g (fun k =>
      if gen.toNat = (k.gen + 1) % 2 ^ 32 then { k with next := true, waiting := [] } else k)).mgt (.spillKeyAck g gen.toNat))

/-- SPILL_KEY_ACK_TIMEOUT: 100 ms without an acknowledgement: the lead repeats three times, then abandons the rotation with
LINK_SESSION. -/
def execSpillKeyAckTimeout (slot : Slot) (s : State) : Host.Outcome State Fault Refusal :=
  let g := slot.val
  let k := s.spillKeys g
  if !(s.group g).lead || !k.next || k.waiting.isEmpty then .next s
  else if k.repeats < 3 then .next ((s.updSpill g (fun k => { k with repeats := k.repeats + 1 })).sendSpillKey g)
  else
    let s := (s.updSpill g (fun k => { k with next := false, waiting := [], repeats := 0 })).securityEvent (s.group g).owner 2
    .next (if s.maint.running = 4 ∧ s.maint.arg = g then s.endActivity else s)

/-! ### SPDM (R432, R434, R435) -/

/-- The connection of a requester. -/
def State.spdmOf (s : State) (r : Requester) : Spdm := (s.sec.sessions.find? (fun x => x.requester == r)).getD ⟨r, 0, 0⟩

/-- Replaces the connection of a requester. -/
def State.setSpdm (s : State) (x : Spdm) : State :=
  s.updSec (fun y => { y with sessions := y.sessions.filter (fun z => z.requester != x.requester) ++ [x] })

/-- The value of measurement 0x02. -/
def State.fwMeasure (s : State) : List Byte := (Recs.get ⟨[], 0⟩ s.sec.meas 2).value

/-- A request in its turn: answered, with the connection's next phase; any other is answered with an error (SPDM 1.3). `low`: the least
phase in which it is accepted, `high`: the greatest. -/
def State.spdmTurn (s : State) (r : Requester) (low high next : Nat) (a : SpdmReply) : State :=
  let x := s.spdmOf r
  if low ≤ x.phase ∧ x.phase ≤ high then (s.setSpdm { x with phase := if next = 0 then x.phase else next }).spdm r a
  else s.spdm r .error

/-- A request that the identity key answers; without one attestation answers with an error (01 Table 1.4). -/
def State.attest (s : State) (r : Requester) (a : SpdmReply) : State :=
  if s.sec.identity then s.spdmTurn r 3 5 0 a else s.spdm r .error

/-- GET_VERSION: the connection begins again. -/
def execGetVersion (requester : Requester) (s : State) : Host.Outcome State Fault Refusal :=
  .next ((s.setSpdm ⟨requester, 1, 0⟩).spdm requester .version)

/-- GET_CAPABILITIES. -/
def execGetCapabilities (requester : Requester) (s : State) : Host.Outcome State Fault Refusal :=
  .next (s.spdmTurn requester 1 1 2 .capabilities)

/-- NEGOTIATE_ALGORITHMS. -/
def execNegotiateAlgorithms (requester : Requester) (s : State) : Host.Outcome State Fault Refusal :=
  .next (s.spdmTurn requester 2 2 3 .algorithms)

/-- GET_DIGESTS. -/
def execGetDigests (requester : Requester) (s : State) : Host.Outcome State Fault Refusal :=
  .next (s.attest requester (.digests (Config.sha512 (Config.certChain s.fwMeasure))))

/-- GET_CERTIFICATE: Lumarnant root, device certificate, alias certificate (R432). -/
def execGetCertificate (requester : Requester) (s : State) : Host.Outcome State Fault Refusal :=
  .next (s.attest requester (.certificate (Config.certChain s.fwMeasure)))

/-- CHALLENGE: the alias key signs (R432). -/
def execChallenge (requester : Requester) (nonce : List Byte) (s : State) : Host.Outcome State Fault Refusal :=
  .next (s.attest requester (.challengeAuth (Config.aliasSign s.fwMeasure nonce)))

/-- The measurements that a requester may see (R435). -/
def State.visible (s : State) (r : Requester) : List (Nat × Measurement) :=
  match r with
  | .func f =>
    if f.val = 0 then s.sec.meas
    else s.sec.meas.filter (fun (m : Nat × Measurement) => m.1 < 8 || m.1 == 0x10 + f.val || m.1 == 0x20 + f.val)
  | .peer _ => s.sec.meas

/-- GET_MEASUREMENTS: the one with the index given, or all with 0xFF. -/
def execGetMeasurements (requester : Requester) (index : Byte) (s : State) : Host.Outcome State Fault Refusal :=
  let l := (s.visible requester).filter (fun (m : Nat × Measurement) => index == 0xFF || m.1 == index.toNat)
  .next (s.attest requester (.measurements (l.map (fun m => (m.1, m.2.value, m.2.changes)))))

/-- KEY_EXCHANGE: ECDHE over secp521r1, signed by the alias key. -/
def execKeyExchange (requester : Requester) (share : List Byte) (s : State) : Host.Outcome State Fault Refusal :=
  .next (if s.sec.identity then s.spdmTurn requester 3 3 4 (.keyExchange (Config.aliasSign s.fwMeasure share))
    else s.spdm requester .error)

/-- FINISH: the session is established; of a link session (`port`, here as responder or requester) the link keys follow (R445). `good`: the
peer's chain ends in the Lumarnant root, or for a server in an installed side-port root. The third failed session in a row takes the port
DOWN (R447). -/
def execFinish (requester : Requester) (port : Option PortId) (good : Bool) (s : State) : Host.Outcome State Fault Refusal :=
  match port with
  | none =>
    .next (if good then s.spdmTurn requester 4 4 5 .finish
      else if (s.spdmOf requester).phase = 4 then (s.setSpdm { s.spdmOf requester with phase := 3 }).spdm requester .error
      else s.spdm requester .error)
  | some p =>
    if (s.port p.val).st == .up && (s.port p.val).policy then .next (s.renewSession p.val (good && s.sec.identity))
    else if (s.port p.val).st != .limited then .next s
    else if good && s.sec.identity then .next (s.linkKeys p.val)
    else if 2 ≤ (s.port p.val).sessionFails then .next (s.sessionDown p.val)
    else .next (s.updPort p.val (fun k => { k with sessionFails := k.sessionFails + 1 }))

/-- KEY_UPDATE within a session. -/
def execKeyUpdate (requester : Requester) (s : State) : Host.Outcome State Fault Refusal :=
  let x := s.spdmOf requester
  .next (if x.phase = 5 then (s.setSpdm { x with updates := x.updates + 1 }).spdm requester .keyUpdate else s.spdm requester .error)

/-- HEARTBEAT_SPDM within a session. -/
def execHeartbeatSpdm (requester : Requester) (s : State) : Host.Outcome State Fault Refusal :=
  .next (s.spdmTurn requester 5 5 0 .heartbeat)

/-- END_SESSION: the connection stays. -/
def execEndSession (requester : Requester) (s : State) : Host.Outcome State Fault Refusal :=
  let x := s.spdmOf requester
  .next (if x.phase = 5 then (s.setSpdm { x with phase := 3, updates := 0 }).spdm requester .endSession else s.spdm requester .error)

/-! ### TDISP and IDE (R440 to R444) -/

/-- Applies a function to a partition. -/
def State.updPart (s : State) (p : Nat) (f : Part → Part) : State := { s with parts := Recs.put s.parts p (f (s.part p)) }

/-- R441's cases. -/
def State.lockRefused (s : State) (p : Nat) : Bool :=
  !(s.sec.ideSel.contains p) || s.dbg.en || (s.part p).count == 0 ||
    (List.range 9).any (fun q => q != p && (s.part q).tenant == (s.part p).tenant) ||
    (List.range 8).any (fun n => (s.port n).st == .up && !((s.port n).policy && (s.port n).encrypt))

/-- LOCK_INTERFACE_REQUEST for VFp: CONFIG_LOCKED and confidential mode, or an error. -/
def execLockInterfaceRequest (func : FuncId) (s : State) : Host.Outcome State Fault Refusal :=
  let p := func.val
  if p = 0 ∨ (s.part p).tdisp ≠ 0 ∨ s.lockRefused p then .next (s.spdm (.func func) .error)
  else
    let s := s.updPart p (fun x => { x with tdisp := 1, conf := true })
    .next (({ s with dbg := { s.dbg with en := false } }.remeasure 6).spdm (.func func) (.locked p))

/-- START_INTERFACE_REQUEST: CONFIG_LOCKED becomes RUN. -/
def execStartInterfaceRequest (func : FuncId) (s : State) : Host.Outcome State Fault Refusal :=
  let p := func.val
  if p ≠ 0 ∧ (s.part p).tdisp = 1 then .next ((s.updPart p (fun x => { x with tdisp := 2 })).spdm (.func func) (.started p))
  else .next (s.spdm (.func func) .error)

/-- STOP_INTERFACE_REQUEST: a locked partition is zeroed before the response (R444); an unlocked TDI answers at once. -/
def execStopInterfaceRequest (func : FuncId) (s : State) : Host.Outcome State Fault Refusal :=
  let p := func.val
  if p = 0 then .next (s.spdm (.func func) .error)
  else if (s.part p).conf then .next (s.askZeroing (16 + p))
  else .next (s.spdm (.func func) (.stopped p))

/-- A TDI in CONFIG_LOCKED or RUN enters ERROR (R442): SECURITY event, the effects of a Function Level Reset, zeroing. -/
def State.tdiError (s : State) (p : Nat) : State :=
  if p ≠ 0 ∧ ((s.part p).tdisp = 1 ∨ (s.part p).tdisp = 2) then
    (((s.updPart p (fun x => { x with tdisp := 3 })).securityEvent p 4).functionReset p).askZeroing p
  else s

/-- TDI_ERROR: an unprotected TLP, a failed integrity check, or a forbidden write. -/
def execTdiError (func : FuncId) (s : State) : Host.Outcome State Fault Refusal := .next (s.tdiError func.val)

/-- IDE_KM over an established SPDM session on PF0's DOE: the link stream, or the selective stream bound to a partition, becomes active
or stops (R440). -/
def execIdeKm (stream : Option (Fin 9)) (active : Bool) (s : State) : Host.Outcome State Fault Refusal :=
  let r : Requester := .func 0
  if (s.spdmOf r).phase ≠ 5 then .next (s.spdm r .error)
  else match stream with
    | none => .next ((s.updSec (fun x => { x with linkIde := active })).spdm r .ideKm)
    | some p =>
      .next ((s.updSec (fun x => { x with
        ideSel := (x.ideSel.filter (· != p.val)) ++ (if active then [p.val] else []) })).spdm r .ideKm)

end Sys2Proof.Machine
end

