-- ==== Sys2Proof/Machine/FormOps.lean ====
section
/-! DEFINITION. Forming and dissolving a group (24 R540, R541; 14 R322, R325, R329, R338; 15 R353; 21 R486), and reading a
request entry (24 R542). -/

namespace Sys2Proof.Machine

/-- BAR0 offset of GROUP_CTRL. -/
def groupCtrlAt (g : Nat) : Nat := 0x200000 + 0x10000 * g

/-- The largest G that this package can hold in a slot's layout (14 R325); without a layer-shard anywhere it sets no limit
below 262,144. -/
def State.ownG (s : State) (g : Nat) : Nat :=
  let k := s.group g
  let cores := (List.range s.n).filterMap (fun l =>
    let n := Tab.get 0 k.shards l
    if n = 0 then none else (s.physOf l).map (fun c => ((s.core c).ws.kvArea.length, n)))
  let sum := cores.foldl (fun n p => n + p.2) 0
  cores.foldl (fun m (p : Nat × Nat) => min m (p.1 / (p.2 * k.kvWs))) (262144 / max 1 sum)

/-- This package's layout as a member of a slot's group. -/
def State.ownLayout (s : State) (g : Nat) : Member := ⟨s.place, (s.group g).kvWs, s.ownG g, (s.group g).shards, true⟩

/-- GROUP_ID is held in a formed slot here (FORM_ERR 4). -/
def State.holdsId (s : State) (id : W32) : Bool := (List.range 16).any (fun g => (s.group g).formed && (s.group g).id == id)

/-- The places that PF0 has listed, first first. -/
def Group.listed (k : Group) : List Place :=
  (List.range k.memberCount).map (fun i => (Recs.get 0 k.memData i : Place))

/-- A field of the slot lies outside its range (FORM_ERR 6; Table 24.12; 14 R322, R338; 15 R342): among them the member list, which
names this package and no package twice (log entry 80). -/
def State.formRange (s : State) (g : Nat) : Bool :=
  let k := s.group g
  let l := k.listed
  decide (8 < k.owner) || decide (1048576 < k.entries) || decide (k.winL < 1000000) ||
    k.voices.any (fun v => v.1 == 0 || decide (1048575 < v.2.1)) || decide (20480 < k.memberCount) ||
    !(l.contains s.place) || decide (l.eraseDups.length ≠ l.length)

/-- FORM has failed: nothing is formed. -/
def State.formFails (s : State) (g code : Nat) : State := s.updGroup g (fun k => { k with formErr := code, forming := none })

/-- Every S_c of every member is 0 (14 R325). -/
def noShards (l : List Member) : Bool := l.all (fun m => m.shards.all (fun p => p.2 == 0))

/-- G of a group from its members' layouts (14 R325). -/
def groupG (l : List Member) : Nat := if noShards l then 0 else l.foldl (fun n m => min n m.g) 262144

/-- The entries, the page-list pool and the generation records fit the primary request-table regions (14 R322, R329; 15 R353). -/
def State.tableFits (s : State) (e g : Nat) : Bool :=
  decide (32 * e + 64 * (e + ceilDiv g 15) + 64 * e ≤ 4096 * s.tableBlocks.length)

/-- FORMED is set here. TOTAL counts from formation (14 R338), spill keys begin at generation 0 (19 R448), and the step number last
taken is the start value (10 R231). A new lead, whose members answer with `runs`, continues from the highest number that any of them holds,
with every budget's USED at 0 (10 R233, 20 R471). -/
def State.setFormed (s : State) (g : Nat) (runs : List MemberRun) : State :=
  let last := runs.foldl (fun (m : W64) r => if m.toNat < r.highest.toNat then r.highest else m) (s.group g).stepLast
  let s := s.updGroup g (fun k => { k with
    formed := true, formErr := 0, forming := none, stepLast := last
    serve := { k.serve with budgets := k.serve.budgets.map (fun (p : Nat × Budget) =>
      (p.1, { p.2 with total := 0, used := if runs.isEmpty then p.2.used else 0 })) } })
  (s.updSpill g (fun _ => SpillKeys.reset)).updStep g (fun _ => { StepRun.idle with highest := last })

/-- A new lead stops the step that ran when the lead was lost, and is to retry it under its number, in a serving group with an empty batch
table (10 R233; 20 R468, R471). -/
def State.takeOver (s : State) (g : Nat) (runs : List MemberRun) : State :=
  match runs.findSome? (·.running) with
  | none => s
  | some x =>
    (s.updStep g (fun r => { r with
      phase := .ended, num := x.num, entry := x.entry.toNat, voicing := x.voicing.toNat, seed := x.seed
      params := Tab.setList 0 [] 5 (x.params.take 59), replay := x.replay, status := .stepError, final := false, retryDue := true, stops := 1
      serving := !(s.group g).solver })).ctl (.stop g x.num 8)

/-- Every member has answered: the checks 4, 2 and 3, then the group is formed. Before the slot has an image, 2 and 3 wait for a later
FORM (log entry 81). -/
def State.formReady (s : State) (g : Nat) : State :=
  match (s.group g).forming with
  | none => s
  | some f =>
    if !f.waiting.isEmpty then s
    else
      let k := s.group g
      let ms := k.listed.filterMap (fun p => f.layouts.find? (fun m => m.place == p))
      let n := groupG ms
      let known := (s.image g).loaded
      if f.held then s.formFails g 4
      else if known && ((!k.solver && n == 0) || (k.solver && n == 0 && !noShards ms)) then s.formFails g 2
      else if known && !(s.tableFits k.entries n) then s.formFails g 3
      else
        let s := s.updGroup g (fun k => { k with kvG := n, members := ms })
        let s := if (s.others g).isEmpty then s
          else (s.mgt (.formList g n (ms.map (fun m => (m.place, m.ws, m.shards))))).mgt (.formed g)
        (s.setFormed g f.runs).takeOver g f.runs

/-- FORM: refused where LEAD is 0, or for a slot that is formed or being formed; the checks 6 and 5, then the group's fields go to every
other member. -/
def State.formGroup (s : State) (g : Nat) : State :=
  let k := s.group g
  if !k.lead || k.formed || k.forming.isSome then s.refuse (groupCtrlAt g)
  else if s.formRange g then s.formFails g 6
  else if s.station < k.winT0 then s.formFails g 5
  else
    let others := k.listed.filter (· != s.place)
    let s := if others.isEmpty then s else s.mgt (.formFields g k.fields)
    let f : Forming := { waiting := others, repeats := 0, held := s.holdsId k.id, layouts := [s.ownLayout g], runs := [] }
    (s.updGroup g (fun k => { k with forming := some f, serve := { k.serve with budgetStates := [] } })).formReady g

/-- DISSOLVE: refused while a request entry is not FREE or a step runs, and where LEAD is 0; otherwise FORMED is cleared on every
member. -/
def State.dissolve (s : State) (g : Nat) : State :=
  let k := s.group g
  if !k.lead || !k.formed || (s.step' g).busy || (s.step' g).retryDue ||
      k.serve.reqs.any (fun (p : Nat × Req) => p.2.state != .free) then
    s.refuse (groupCtrlAt g)
  else
    let s := s.updGroup g (fun k => { k with formed := false })
    if (s.others g).isEmpty then s else s.mgt (.dissolve g)

/-- What this member tells a new lead of its slot's steps (10 R233). -/
def State.memberRun (s : State) (g : Nat) : MemberRun :=
  let r := s.step' g
  { highest := r.highest
    running := if r.live then some ⟨r.num, BitVec.ofNat 6 r.entry, BitVec.ofNat 2 r.voicing, r.seed,
      (List.range 59).map (fun i => Tab.get 0 r.params (5 + i)), r.replay⟩ else none }

/-- A member takes the group's fields and answers with its layout. It knows the group by the GROUP_ID of its own slot. A FORM for the slot
in which the group is formed already can only come from a new lead at the lost one's coordinate: it finds the slot free, and is told of its
steps (10 R233; 20 R471: log entry 99). -/
def State.formFieldsIn (s : State) (g : Nat) (x : GroupFields) : State :=
  let k := s.group g
  let again := k.formed && k.id == x.id
  let run : MemberRun := if again then s.memberRun g else ⟨0, none⟩
  let held := !again && s.holdsId x.id
  if k.id != x.id || k.lead then s
  else
    let s := if held then s else s.updGroup g (fun k => { k with
      solver := x.solver, owner := x.owner.toNat, stepLast := x.stepLast, salt := x.salt, entries := x.entries.toNat
      btTid := x.btTid, btRegion := x.btRegion.toNat, propRegion := x.propRegion.toNat, tpoint := x.tpoint.toNat
      inputWin := x.inputWin.toNat, recoveryWin := x.recoveryWin.toNat, winT0 := x.winT0.toNat, winL := x.winL.toNat
      loadSrc := x.loadSrc })
    s.mgt (.formAnswer g k.kvWs k.shards (s.ownG g) s.budgetNow held run)

/-- The lead takes a member's answer. -/
def State.formAnswerIn (s : State) (g : Nat) (place : Place) (ws : Nat) (shards : List (Nat × Nat)) (n budget : Nat) (held : Bool)
    (run : MemberRun) : State :=
  match (s.group g).forming with
  | none => s
  | some f =>
    if !(f.waiting.contains place) then s
    else
      let m : Member := ⟨place, ws, n, shards.foldl (fun (t : Tab Nat) p => Tab.set 0 t p.1 p.2) [], true⟩
      let f := { f with
        waiting := f.waiting.filter (· != place), held := f.held || held, layouts := f.layouts ++ [m]
        runs := if run = ⟨0, none⟩ then f.runs else f.runs ++ [run] }
      (s.updGroup g (fun k => { k with
        forming := some f
        serve := { k.serve with budgetStates := k.serve.budgetStates ++ [(place.toNat, budget)] } })).formReady g

/-! ### Request entries -/

/-- The 32 bytes of a request entry (14 Table 14.1). -/
def Req.entryBytes (r : Req) : List Byte :=
  leBytes 4 r.id.toNat ++ leBytes 2 (r.cust % 16384 + 2 ^ 14 * b01 r.acancel + 2 ^ 15 * b01 r.hold) ++
    leBytes 1 (r.state.code + 16 * r.spec) ++ leBytes 1 r.stopset ++ leBytes 8 r.seed.toNat ++ leBytes 3 r.pos ++
    leBytes 1 r.mgen ++ leBytes 3 r.prompt ++ [0] ++ leBytes 3 r.maxnew ++ [0] ++ leBytes 4 r.list.toNat

/-- The 64 bytes of a generation record (15 Table 15.1). -/
def Req.genBytes (r : Req) : List Byte :=
  let words (n : Nat) (l : List W32) : List Byte := (List.range n).flatMap (fun i => leBytes 4 (l.getD i 0xFFFFFFFF).toNat)
  words 4 r.drafts ++ words 7 r.hist ++
    leBytes 1 (r.drafts.length + 8 * r.hist.length + 64 * b01 r.cancelAfter) ++ leBytes 1 r.ring ++ leBytes 1 r.func ++ [0] ++
    leBytes 4 r.lastStep.toNat ++ List.replicate 12 0

/-- REQ_INDEX selects an entry, and REQ_DATA takes its copy; an index past the table copies zeros. -/
def State.selectReq (s : State) (g e : Nat) : State :=
  let r := s.req g e
  s.updGroup g (fun k => { k with
    reqIndex := e, reqData := if e < k.entries then r.entryBytes ++ r.genBytes else List.replicate 96 0 })

end Sys2Proof.Machine
end

