-- ==== Sys2Proof/Machine/RegOps.lean ====
section
/-! DEFINITION. Register writes of BAR0 and BAR2, register by register (24 R529 to R552; 18 R422 to R424; 12 R304; 11 R273; 19 R438,
R442; 21 R482). -/

namespace Sys2Proof.Machine

/-! ### Access (R529, R532, R533) -/

/-- Offsets of 64-bit registers. -/
def wideReg (o : Nat) : Bool :=
  if o = 0x2008 ∨ o = 0x3008 ∨ o = 0x600000 ∨ o = 0xC00000 then true
  else if 0x10000 ≤ o ∧ o < 0x18000 then [0x10, 0x18, 0x20, 0x28].contains (o % 0x1000)
  else if 0x80000 ≤ o ∧ o < 0x110000 then
    let r := (o - 0x80000) % 0x10000
    r < 0x10 || (0x100 ≤ r && r < 0x500) || (0x1000 ≤ r && r < 0x1C20)
  else if 0x200000 ≤ o ∧ o < 0x300000 then
    let r := o % 0x10000
    r < 0x18 || r == 0x40 || r == 0x48 || (0x60 ≤ r && r < 0xA0) || r == 0x708
  else false

/-- Whether a block of BAR0 is assigned to PF0 in the present state (R533). -/
def State.assigned (s : State) (o : Nat) : Bool :=
  !s.sec.recovery && (!s.passThrough || o < 0x30000 || (0x80000 ≤ o && o < 0x90000))

/-- Some group is formed here: the live registers of the package are in use (R531). -/
def State.anyFormed (s : State) : Bool := (List.range 16).any (fun g => (s.group g).formed)

/-! ### Package control, power, station time (Tables 24.3 to 24.5) -/

/-- DIR_CTRL. -/
def State.writeDirCtrl (s : State) (v : Nat) : State :=
  if bitsN v 20 4 < 1 ∨ 65536 < bitsN v 20 4 ∨ 8 < bitsN v 27 24 then s.refuse 0x1024
  else { s with dir := { s.dir with ready := bitN v 0 && (s.dir.ready || s.freshBits 0x1024 == 0), limit := bitsN v 20 4, owner := bitsN v 27 24 } }

/-- POWER_LIMIT (21 R482). -/
def State.writePowerLimit (s : State) (v : Nat) : State :=
  let sust := bitsN v 10 0
  let peak := bitsN v 26 16
  if sust < 400 ∨ 1800 < sust ∨ peak < 400 ∨ 1800 < peak ∨ peak < sust then s.refuse 0x2000
  else s.liveReg s.anyFormed 0x2000 v

/-- POWER_CONTROL (21 Table 21.7). -/
def State.writePowerControl (s : State) (v : Nat) : State :=
  if bitsN v 3 0 < bitsN v 7 4 then s.refuse 0x2008 else s.liveReg s.anyFormed 0x2008 v

/-- RATE_ADJ. -/
def State.writeRateAdj (s : State) (v : Nat) : State :=
  let x := (BitVec.ofNat 32 v).toInt
  if x < -200000 ∨ 200000 < x then s.refuse 0x3010
  else if s.isSource then { s with sync := { s.sync with rateAdj := x } } else s

/-- FREQ_STAGE[k]. -/
def State.writeFreqStage (s : State) (k v : Nat) : State :=
  s.updPower (fun p => { p with freqStage := p.freqStage.set k (bitsN v 4 0, bitsN v 17 8) })

/-! ### Ports (Table 24.6; R535) -/

/-- PORT_CTRL: RETUNE and ROTATE are not live; ENCRYPT takes effect when the port next enters LIGHT; its clearing is ignored while any
partition is locked. -/
def State.writePortCtrl (s : State) (p v : Nat) : State :=
  let k := s.port p
  let retune := bitsN v 4 2
  let rotate := bitsN v 22 5
  if retune = 7 ∨ rotate < 60 ∨ 86400 < rotate ∨ (k.st ≠ .down ∧ (retune ≠ k.retune ∨ rotate ≠ k.rotate)) then
    s.refuse (0x10000 + 0x1000 * p)
  else
    let enc := bitN v 1 || (k.encrypt && s.anyLocked)
    let s := s.updPort p (fun k => { k with encrypt := enc, retune := retune, rotate := rotate })
    let s := if enc = k.encrypt then s else s.remeasure 6
    (if bitN v 0 = k.enable then s else s.portEnable p (bitN v 0)).retainedChanged

/-- VC_ALLOC, lower or upper half: only while the port is DOWN (11 R273). -/
def State.writeVcAlloc (s : State) (p : Nat) (hi : Bool) (v : Nat) : State :=
  let k := s.port p
  let new := (List.range 4).map (fun i => bitsN v (16 * i + 15) (16 * i))
  let l := if hi then k.vcAlloc.take 4 ++ new else new ++ k.vcAlloc.drop 4
  if k.st ≠ .down ∨ l.any (fun n => decide (n < 3840)) ∨ 40960 < l.foldl (· + ·) 0 then
    s.refuse (0x10010 + 0x1000 * p + (if hi then 8 else 0))
  else (s.updPort p (fun k => { k with vcAlloc := l })).retainedChanged

/-- SHARE_LO or SHARE_HI (12 R304). -/
def State.writeShares (s : State) (p : Nat) (hi : Bool) (v : Nat) : State :=
  let o := 0x10020 + 0x1000 * p + (if hi then 8 else 0)
  let l := ((s.portAhead p).takeShares hi v).shares
  if l.any (fun n => decide (256 < n)) ∨ 256 < l.foldl (· + ·) 0 then s.refuse o
  else s.liveReg ((s.port p).st != .down) o v

/-- A port block. -/
def State.writePort (s : State) (p r v : Nat) : State :=
  match r with
  | 0x00 => s.writePortCtrl p v
  | 0x10 => s.writeVcAlloc p false v
  | 0x18 => s.writeVcAlloc p true v
  | 0x20 => s.writeShares p false v
  | 0x28 => s.writeShares p true v
  | _ => s

/-! ### Route tables (Table 24.7), partitions (Table 24.8) -/

/-- SHAPE_STAGE, FENCE_STAGE, COORDINATOR. -/
def State.writeRoute (s : State) (r v : Nat) : State :=
  if r < 0x80 then
    s.updNet (fun n => { n with shapeStage := n.shapeStage.take r ++ leBytes 4 v ++ n.shapeStage.drop (r + 4) })
  else if r < 0x180 then
    s.updNet (fun n => { n with fenceStage := Tab.set 0 n.fenceStage ((r - 0x80) / 4) (bitsN v 17 0 + 2 ^ 31 * bitsN v 31 31) })
  else if r = 0x190 then s.updNet (fun n => { n with coordinator := BitVec.ofNat 20 v })
  else s

/-- Two ranges of cores overlap. -/
def rangesMeet (a n b m : Nat) : Bool := n != 0 && m != 0 && a < b + m && b < a + n

/-- PART_DESC (19 R438, R439, R442). -/
def State.writePartDesc (s : State) (p v : Nat) : State :=
  let first := bitsN v 8 0
  let count := bitsN v 17 9
  let tenant := bitsN v 20 18
  let others := (List.range 9).filter (· != p)
  if (s.part p).conf then if (s.part p).tdisp = 2 then s.tdiError p else s
  else if others.any (fun q => rangesMeet first count (s.part q).first (s.part q).count) ||
      others.any (fun q => (s.part q).conf && (s.part q).tenant == tenant) then s.refuse (0x30000 + 0x100 * p)
  else (s.updPart p (fun x => { x with
    first := first, count := count, tenant := tenant, vcen := BitVec.ofNat 4 (bitsN v 24 21), fixedStep := bitN v 25 })).remeasure 6

/-- FLAG_EXP. -/
def State.writeFlagExp (s : State) (p v : Nat) : State :=
  if bitsN v 4 0 < 16 ∨ 30 < bitsN v 4 0 then s.refuse (0x30004 + 0x100 * p)
  else (s.updPart p (fun x => { x with flagExp := bitsN v 4 0 })).retainedChanged

/-! ### Function blocks (Tables 24.10, 24.11; R538, R539) -/

/-- A write that reaches the host windows or the ring set-up of a VF whose TDI is in RUN sends it into ERROR (19 R442). -/
def State.runGuard (s : State) (f : Nat) (act : State → State) : State := if (s.part f).tdisp = 2 ∧ f ≠ 0 then s.tdiError f else act s

/-- A function's own block at offset r. -/
def State.writeFunc (s : State) (f r v : Nat) : State :=
  let off := 0x80000 + 0x10000 * f + r
  let page := v / 4096 * 4096
  if r = 0 then s.updFunc f (fun x => { x with dbPage := page })
  else if r = 8 then s.updFunc f (fun x => { x with stPage := page })
  else if r = 0x10 then
    if 256 < bitsN v 8 0 then s.refuse off else s.updFunc f (fun x => { x with poll := bitsN v 8 0, dbVector := bitsN v 21 16 })
  else if 0x100 ≤ r ∧ r < 0x500 then
    let w := (r - 0x100) / 16
    s.runGuard f (fun s =>
      if r % 16 = 0 then s.updFunc f (fun x => { x with windows := Recs.put x.windows w ⟨page, (x.win w).len⟩ })
      else if v % 4096 ≠ 0 ∨ 2 ^ 40 < v then s.refuse off
      else s.updFunc f (fun x => { x with windows := Recs.put x.windows w ⟨(x.win w).base, v⟩ }))
  else if 0x1000 ≤ r ∧ r < 0x1C20 then
    let k := if r < 0x1400 then (r - 0x1000) / 16 else if r < 0x1800 then 64 + (r - 0x1400) / 16
      else if r < 0x1C00 then 128 + (r - 0x1800) / 16 else 192 + (r - 0x1C00) / 16
    s.runGuard f (fun s =>
      if r % 16 ≠ 0 then s.writeRingCtrl f k (BitVec.ofNat 64 v)
      else if ((s.func f).ring k).en then s.refuse off
      else s.updFunc f (fun x => x.updRing k (fun q => { q with base := page })))
  else s

/-! ### Group slots (Table 24.12; R531, R541 to R544) -/

/-- A field that is not live: refused while the group is formed. -/
def State.fixedField (s : State) (g r : Nat) (f : Group → Group) : State :=
  if (s.group g).formed then s.refuse (groupCtrlAt g + r) else s.updGroup g f

/-- GROUP_CTRL: the fields, then FORM, then DISSOLVE. -/
def State.writeGroupCtrl (s : State) (g v : Nat) : State :=
  let k := s.group g
  let f (k : Group) : Group :=
    { k with solver := bitN v 3, owner := bitsN v 7 4, lead := bitN v 8, id := BitVec.ofNat 32 (bitsN v 63 32) }
  if k.formed ∧ (f k).solver = k.solver ∧ (f k).owner = k.owner ∧ (f k).lead = k.lead ∧ (f k).id = k.id then
    if bitN v 1 then s.dissolve g else if bitN v 0 then s.formGroup g else s
  else
    let ok := !k.formed
    let s := s.fixedField g 0 f
    if ok && bitN v 0 then s.formGroup g else if ok && bitN v 1 then s.dissolve g else s

/-- SERVE_A: RESERVE is live, BT_TID and BT_REGION are not. -/
def State.writeServeA (s : State) (g v : Nat) : State :=
  let k := s.group g
  let tid := BitVec.ofNat 12 (bitsN v 27 16)
  let reg := bitsN v 31 28
  if k.formed && (tid != k.btTid || reg != k.btRegion) then s.refuse (groupCtrlAt g + 0x30)
  else (s.updGroup g (fun k => { k with btTid := tid, btRegion := reg })).liveWrite g 0x30 (bitsN v 15 0)

/-- A group slot at offset r, below the indexed data. -/
def State.writeSlotLow (s : State) (g r v : Nat) : State :=
  match r with
  | 0x00 => s.writeGroupCtrl g v
  | 0x08 => if (s.group g).formed then s else s.updGroup g (fun k => { k with stepLast := BitVec.ofNat 64 v })
  | 0x10 => s.fixedField g r (fun k => { k with salt := BitVec.ofNat 64 v })
  | 0x18 => s.fixedField g r (fun k => { k with leadAt := BitVec.ofNat 20 v })
  | 0x20 => s.fixedField g r (fun k => { k with entries := bitsN v 20 0 })
  | 0x24 =>
    if bitsN v 5 0 < 1 ∨ 32 < bitsN v 5 0 then s.refuse (groupCtrlAt g + r)
    else s.fixedField g r (fun k => { k with kvWs := bitsN v 5 0 })
  | 0x30 => s.writeServeA g v
  | 0x34 => s.fixedField g r (fun k => { k with
      propRegion := bitsN v 3 0, tpoint := bitsN v 9 4, inputWin := bitsN v 15 10, recoveryWin := bitsN v 21 16 })
  | 0x38 => s.liveWrite g r v
  | 0x3C => s.liveWrite g r (bitsN v 5 0)
  | 0x40 => s.fixedField g r (fun k => { k with winT0 := v })
  | 0x48 => s.fixedField g r (fun k => { k with winL := v })
  | 0x50 => s.fixedField g r (fun k => { k with loadSrc := BitVec.ofNat 28 v })
  | 0x58 => if bitN v 0 then (s.updGroup g (fun k => { k with parity := true })).touch (parityAt g) 1 else s
  | _ =>
    if 0x60 ≤ r ∧ r < 0xA0 then s.liveWrite g r (if r % 16 = 0 then bitsN v 35 0 else v)
    else if 0x100 ≤ r ∧ r < 0x220 then
      s.fixedField g r (fun k => { k with shards := (List.range 4).foldl (fun t i =>
        Tab.set 0 t (r - 0x100 + i) (bitsN v (8 * i + 7) (8 * i))) k.shards })
    else s

/-- BUD_DATA and SS_DATA act on the entry that the index selects when the write lands; only ALLOW, FTG and VALID of a budget entry are
written (R543). -/
def State.writeSlotHigh (s : State) (g r v : Nat) : State :=
  let k := s.group g
  match r with
  | 0x400 => s.fixedField g r (fun k => { k with memberCount := bitsN v 16 0 })
  | 0x404 => s.updGroup g (fun k => { k with memIndex := bitsN v 16 0 })
  | 0x408 => s.fixedField g r (fun k => { k with memData := Recs.put k.memData k.memIndex (BitVec.ofNat 20 v) })
  | 0x410 => s.selectReq g (bitsN v 19 0)
  | 0x480 => s.updGroup g (fun k => { k with budIndex := bitsN v 13 0 })
  | 0x4A0 => s.liveWrite g (2 ^ 20 + 32 * k.budIndex) v
  | 0x4B0 => s.liveWrite g (2 ^ 20 + 32 * k.budIndex + 16) v
  | 0x4B4 => s.liveWrite g (2 ^ 20 + 32 * k.budIndex + 20) (v % 2)
  | 0x500 => s.updGroup g (fun k => { k with ssIndex := bitsN v 7 0 })
  | 0x708 => s.liveWrite g r v
  | _ =>
    if 0x600 ≤ r ∧ r < 0x700 then
      (List.range 4).foldl (fun s i => s.liveWrite g (2 ^ 24 + 256 * k.ssIndex + (r - 0x600) + i) (bitsN v (8 * i + 7) (8 * i))) s
    else if 0x714 ≤ r ∧ r < 0x800 then s.liveWrite g r v
    else s

/-- A group slot. -/
def State.writeSlot (s : State) (g r v : Nat) : State := if r < 0x400 then s.writeSlotLow g r v else s.writeSlotHigh g r v

/-! ### Readback and debug (R547, R548, R552) -/

/-- GO: one access reads a block and its record and checks the CRC; ignored while any partition is locked. -/
def State.readBack (s : State) (c b : Nat) : State :=
  if s.anyLocked then s
  else
    let put (s : State) (status : Nat) (data rec_ : List Byte) : State := { s with readback := ⟨status, c, b, data, rec_⟩ }
    let kind := (s.core c).ws.kindOf b
    let old := s.readback
    if !(s.isEnabled c) || decide (wsBlocks ≤ b) || (kind != 1 && kind != 2) then
      put (if s.isEnabled c && decide (b < wsBlocks) then s.serviceRefused c b else s) 2 old.data old.record
    else
      let s := s.updWs c (fun w => w.correct b)
      let w := (s.core c).ws
      let bad := w.blockBad b
      if bad || w.crcOf b != (w.record b).crc then
        let s := s.logFault (if bad then 0x0010 else 0x0011) 2 0 none 0 (BitVec.ofNat 16 c) 0xFFFF b
        put (s.startRestore c b) 3 old.data old.record
      else put s 1 (w.block b) (leBytes 4 (w.record b).crc.toNat ++ (w.record b).body)

/-- DEBUG_CTRL: ignored while any partition is locked. -/
def State.writeDebugCtrl (s : State) (v : Nat) : State :=
  if s.anyLocked then s
  else ({ s with dbg := { s.dbg with
    en := bitN v 0, stopEn := bitN v 1, stopCore := bitsN v 10 2, stopMark := BitVec.ofNat 16 (bitsN v 31 16)
    stopOcc := bitsN v 47 32 } }).remeasure 6

/-- A part of a tuning-register set (R552). -/
def Lane.setPart (l : Lane) (i : Nat) : List Byte :=
  let b := i % 2 = 1
  let t := if b then l.setB else l.setA
  match i / 2 with
  | 0 => Tab.getList 0 t.slices 0 2048
  | 1 => Tab.getList 0 t.slices 2048 2048
  | 2 => Tab.getList 0x7F t.scales 0 256 ++ leBytes 1 t.fmt.toNat ++ leBytes 1 (b01 t.trans) ++ leBytes 1 (b01 t.square) ++
      leBytes 1 t.l ++ leBytes 1 (b01 (l.activeB == b))
  | _ => []

/-- An accumulator index: the words of I of the 64 strings, word by word as R129 exports them, then their control words. -/
def Lane.accBytes (l : Lane) (k : Nat) : List Byte :=
  let accs := (List.range 64).map (l.accAt k)
  (List.range 4).flatMap (fun i => accs.flatMap (fun a => leBytes 4 (a.words.getD i 0).toNat)) ++
    accs.flatMap (fun a => leBytes 4 (ctrlWord (l.win k) a).toNat)

/-- The item that STATE_SEL selects; an item that does not exist reads 0. Element 5 of a SUM record would need a rounding mode, which
the debug block does not name: it is an open value (log entry 5). -/
def State.debugItem (s : State) : List Byte × State :=
  match s.physOf s.dbg.selCore with
  | none => ([], s)
  | some c =>
    let x := s.core c
    let i := s.dbg.selIndex
    match s.dbg.selSpace with
    | 0 => (if i < spRows then x.sp.row i else [], s)
    | 1 => (if i < 32 then (Tab.getList 0 x.vec.regs (64 * i) 64).flatMap (fun w => leBytes 4 w.toNat) else [], s)
    | 2 => (if i < 16 then x.lane.accBytes i else [], s)
    | 3 =>
      if i < 8 then
        let r := Recs.get Red.empty x.vec.red i
        let (u, s) := s.takeFree 32
        ((r.record u.toNat).flatMap (fun w => leBytes 4 w.toNat), s)
      else ([], s)
    | 4 => (if i < 8 then x.lane.setPart i else [], s)
    | _ => ([], s)

/-- STATE_SEL: the selected item is copied into the 2 KiB of STATE_DATA. While a step runs the copy is not valid: its bytes are open
values. -/
def State.writeStateSel (s : State) (v : Nat) : State :=
  if s.anyLocked then s
  else
    let s := { s with dbg := { s.dbg with selCore := bitsN v 8 0, selSpace := bitsN v 11 9, selIndex := bitsN v 31 16 } }
    let (bs, s) := if s.liveSlots.isEmpty then s.debugItem
      else match s.takeFree 16384 with | (u, s) => (leBytes 2048 u.toNat, s)
    { s with dbg := { s.dbg with data := sliceB bs 0 2048 } }

/-- A hazard record's 16 bytes (07 Table 7.4; 09 R230). -/
def TraceRec.bytes (r : TraceRec) : List Byte :=
  leBytes 4 r.tick.toNat ++ leBytes 3 r.offset.toNat ++ [r.opcode] ++ leBytes 2 r.source.toNat ++ [r.code, 0] ++ leBytes 4 r.other.toNat

/-- A hazard record from its bytes. -/
def TraceRec.ofBytes (l : List Byte) : TraceRec :=
  let n {w : Nat} (o k : Nat) : BitVec w := BitVec.ofNat w (fieldN l o k)
  ⟨n 0 4, n 4 3, n 7 1, n 8 2, n 10 1, n 12 4⟩

/-- The debug block at offset r: STATE_DATA, TRACE and PERF hold what is written. -/
def State.writeDebug (s : State) (r v : Nat) : State :=
  if s.anyLocked then s
  else if r = 0 then s.writeDebugCtrl v
  else if r = 8 then s.writeStateSel v
  else if 0x1000 ≤ r ∧ r < 0x1800 then
    let d := sliceB s.dbg.data 0 2048
    { s with dbg := { s.dbg with data := d.take (r - 0x1000) ++ leBytes 4 v ++ d.drop (r - 0x1000 + 4) } }
  else if 0x10000 ≤ r ∧ r < 0x11000 then
    let d := sliceB (s.trace.flatMap TraceRec.bytes) 0 4096
    let d := d.take (r - 0x10000) ++ leBytes 4 v ++ d.drop (r - 0x10000 + 4)
    let n := max s.trace.length ((r - 0x10000) / 16 + 1)
    { s with trace := (List.range n).map (fun i => TraceRec.ofBytes (sliceB d (16 * i) 16)) }
  else if 0x20000 ≤ r then { s with dbg := { s.dbg with perf := Tab.setList 0 s.dbg.perf (r - 0x20000) (leBytes 4 v) } }
  else s

/-! ### BAR0 and BAR2 -/

/-- REFUSED is cleared, unless a write has been refused in the same cycle (00 R6). -/
def State.clearRefused (s : State) : State :=
  if s.freshBits 0x1010 = 0 then { s with pkg := { s.pkg with refused := false } } else s

/-- The readback block at offset r (R547): RB_CTRL takes the core and block it names, and GO; RB_DATA and RB_RECORD hold what is written
(Table 24.1: RWL). -/
def State.writeReadback (s : State) (r v : Nat) : State :=
  let put (l : List Byte) (n o : Nat) : List Byte :=
    let d := sliceB l 0 n
    d.take o ++ leBytes 4 v ++ d.drop (o + 4)
  if s.anyLocked then s
  else if r = 0 then
    if bitN v 31 then s.readBack (bitsN v 8 0) (bitsN v 20 9)
    else { s with readback := { s.readback with core := bitsN v 8 0, block := bitsN v 20 9 } }
  else if 0x1000 ≤ r ∧ r < 0x2000 then { s with readback := { s.readback with data := put s.readback.data 4096 (r - 0x1000) } }
  else if 0x2000 ≤ r ∧ r < 0x2108 then { s with readback := { s.readback with record := put s.readback.record 264 (r - 0x2000) } }
  else s

/-- A command's effect as a write's: the commands that a register write brings never stop. -/
def State.thenOf (s : State) (r : Host.Outcome State Fault Refusal) : State := match r with | .next t => t | _ => s

/-- PF0's write of one whole register. -/
def State.writePf0 (s : State) (o v : Nat) : State :=
  if o < 0x1000 then s
  else if o = 0x1008 then if bitN v 0 then s.abandon (bitsN v 7 4) else s
  else if o = 0x1010 then if bitN v 0 then s.clearRefused else s
  else if o = 0x1018 then
    if bitsN v 4 0 < 16 ∨ 30 < bitsN v 4 0 then s.refuse o
    else ({ s with pkg := { s.pkg with muteExp := bitsN v 4 0 } }).retainedChanged
  else if o = 0x2000 then s.writePowerLimit v
  else if o = 0x2008 then s.writePowerControl v
  else if 0x2040 ≤ o ∧ o < 0x2080 then s.writeFreqStage ((o - 0x2040) / 4) v
  else if o = 0x20C0 then
    if bitN v 0 then s.thenOf (execFreqApply (s.power.freqStage.all (fun e => Config.railAdmits e.1 e.2)) s) else s
  else if o = 0x3008 then s.setStation (BitVec.ofNat 64 v)
  else if o = 0x3010 then s.writeRateAdj v
  else if 0x10000 ≤ o ∧ o < 0x18000 then s.writePort (o / 0x1000 - 0x10) (o % 0x1000) v
  else if o = routeCmdAt then
    let s := if bitN v 0 then s.thenOf (execRouteInstall s) else s
    if bitN v 1 then s.thenOf (execRouteEpoch s) else s
  else if 0x20000 ≤ o ∧ o < 0x21000 then s.writeRoute (o - 0x20000) v
  else if 0x30000 ≤ o ∧ o < 0x30900 then
    if o % 0x100 = 0 then s.writePartDesc ((o - 0x30000) / 0x100) v
    else if o % 0x100 = 4 then s.writeFlagExp ((o - 0x30000) / 0x100) v
    else s
  else if 0x200000 ≤ o ∧ o < 0x300000 then s.writeSlot ((o - 0x200000) / 0x10000) (o % 0x10000) v
  else if 0x600000 ≤ o ∧ o < 0x603000 then s.writeReadback (o - 0x600000) v
  else if 0xC00000 ≤ o then s.writeDebug (o - 0xC00000) v
  else s

/-- A function's write of one whole BAR0 register: its own block, the directory fields of the owner of the directory, and for PF0
everything else but the VFs' blocks (Table 24.1). -/
def State.writeReg (s : State) (f o v : Nat) : State :=
  if !s.assigned o then s
  else if 0x80000 ≤ o ∧ o < 0x110000 then
    if (o - 0x80000) / 0x10000 = f then s.writeFunc f ((o - 0x80000) % 0x10000) v else s
  else if o = 0x1020 then if f = 0 ∨ s.dir.owner = f then s.liveReg s.anyFormed o v else s
  else if o = 0x1024 then if f = 0 ∨ s.dir.owner = f then s.writeDirCtrl v else s
  else if f = 0 then s.writePf0 o v
  else s

/-- One 32-bit word of a write: a 32-bit register whole, or a half of a 64-bit one; the lower half is held until the upper half comes, and
an upper half alone is a part of a register (R529). -/
def State.writeHalf (s : State) (f o v : Nat) : State :=
  let base := o / 8 * 8
  let key := 2 ^ 24 * f + base
  if !(wideReg base) then s.writeReg f o v
  else if o = base then
    { s with pkg := { s.pkg with halves := (s.pkg.halves.filter (fun p => p.1 != key)) ++ [(key, v)] } }
  else match s.pkg.halves.find? (fun p => p.1 == key) with
    | some p =>
      ({ s with pkg := { s.pkg with halves := s.pkg.halves.filter (fun p => p.1 != key) } }).writeReg f base (p.2 + 2 ^ 32 * v)
    | none => s

/-- A register of the BAR2 page: 32 bits (18 Table 18.9). -/
def State.writePage (s : State) (f o v : Nat) : State :=
  match o with
  | 0x000 => s.startFetch f
  | 0x010 => s.clearDbHost f (BitVec.ofNat 32 v)
  | 0x014 => s.setDbMask f (BitVec.ofNat 32 v)
  | 0x018 => s.ringSp f (BitVec.ofNat 32 v &&& 0xFFFFFF00)
  | 0x020 => s.writeMboCtrl f (BitVec.ofNat 32 v)
  | 0x024 => if bitN v 26 && s.freshBits (bar2Key f 0x24) == 0 then s.updMbi f (fun m => { m with withdrawn := false }) else s
  | 0x028 =>
    let ms := bitsN v 13 0
    if ms = 0 ∨ 10000 < ms then s else s.updFunc f (fun x => { x with mbTimeout := ms })
  | _ =>
    if 0x100 ≤ o ∧ o < 0x200 then
      s.updMbo f (fun m => if m.full then m else { m with data := Tab.setList 0 m.data (o - 0x100) (leBytes 4 v) })
    else s

/-- A write of `data` at `offset`: the 32-bit words that it covers whole, in rising order (R529). -/
def State.busWrite (s : State) (f : Nat) (bar2 : Bool) (offset : Nat) (data : List Byte) : State :=
  let first := (offset + 3) / 4 * 4
  (List.range ((offset + data.length - first) / 4)).foldl (fun s i =>
    let v := fieldN data (first - offset + 4 * i) 4
    if bar2 then s.writePage f (first + 4 * i) v else s.writeHalf f (first + 4 * i) v) s

end Sys2Proof.Machine
end

