-- ==== Sys2Proof/Machine/RegEvents.lean ====
section
/-! DEFINITION. The commands of set-up registers: groups, readback, debug, and every other register write (24). -/

namespace Sys2Proof.Machine

/-- PF0 can write the group slots. -/
def State.slotsUp (s : State) : Bool := s.funcUp 0 && s.assigned 0x200000

/-- FORM (R540). -/
def execForm (slot : Slot) (s : State) : Host.Outcome State Fault Refusal :=
  .next (if s.slotsUp then s.formGroup slot.val else s)

/-- FORM_MESSAGE (R540, R541). -/
def execFormMessage (slot : Slot) (msg : FormMsg) (s : State) : Host.Outcome State Fault Refusal :=
  let g := slot.val
  let member := !(s.group g).lead
  match msg with
  | .fields x => .next (s.formFieldsIn g x)
  | .list n ms =>
    .next (if member && !(s.group g).formed then s.updGroup g (fun k => { k with
      kvG := n
      members := ms.map (fun m => ⟨m.1, m.2.1, n, m.2.2.foldl (fun (t : Tab Nat) p => Tab.set 0 t p.1 p.2) [], true⟩) }) else s)
  | .formed => .next (if member && !(s.group g).formed then s.setFormed g [] else s)
  | .dissolve => .next (if member then s.updGroup g (fun k => { k with formed := false }) else s)
  | .answer place ws shards n budget held run => .next (s.formAnswerIn g place ws shards n budget held run)

/-- FORM_TIMEOUT: a member has not answered within 10 ms: three repeats, then FORM_ERR 1 (R540). -/
def execFormTimeout (slot : Slot) (s : State) : Host.Outcome State Fault Refusal :=
  let g := slot.val
  match (s.group g).forming with
  | none => .next s
  | some f =>
    if f.repeats < 3 then
      .next ((s.updGroup g (fun k => { k with forming := some { f with repeats := f.repeats + 1 } })).mgt
        (.formFields g (s.group g).fields))
    else .next (s.formFails g 1)

/-- DISSOLVE (R541). -/
def execDissolve (slot : Slot) (s : State) : Host.Outcome State Fault Refusal :=
  .next (if s.slotsUp then s.dissolve slot.val else s)

/-- REQ_INDEX_WRITE (R542). -/
def execReqIndexWrite (slot : Slot) (index : BitVec 20) (s : State) : Host.Outcome State Fault Refusal :=
  .next (if s.slotsUp then s.selectReq slot.val index.toNat else s)

/-- GO: RB_CTRL with the core and block that it names (R547). -/
def execGo (core : BitVec 9) (block : BitVec 12) (s : State) : Host.Outcome State Fault Refusal :=
  .next (if s.slotsUp then s.readBack core.toNat block.toNat else s)

/-- DEBUG_EN_WRITE: DEBUG_CTRL (R548). -/
def execDebugEnWrite (value : W64) (s : State) : Host.Outcome State Fault Refusal :=
  .next (if s.slotsUp then s.writeDebugCtrl value.toNat else s)

/-- STATE_SEL_WRITE (R548, R552). -/
def execStateSelWrite (value : W32) (s : State) : Host.Outcome State Fault Refusal :=
  .next (if s.slotsUp then s.writeStateSel value.toNat else s)

/-- REFUSED_CLEAR (R530). -/
def execRefusedClear (s : State) : Host.Outcome State Fault Refusal :=
  .next (if s.funcUp 0 && !s.sec.recovery then s.clearRefused else s)

/-- REGISTER_WRITE: a write of `data` by a function into its BAR0, or its BAR2 page (R529 to R531). -/
def execRegisterWrite (func : FuncId) (bar2 : Bool) (offset : BitVec 24) (data : List Byte) (s : State) :
    Host.Outcome State Fault Refusal :=
  .next (if s.funcUp func.val then s.busWrite func.val bar2 offset.toNat data else s)

end Sys2Proof.Machine
end

