-- ==== Sys2Proof/Machine/StationEvents.lean ====
section
/-! DEFINITION. Station time: exchanges with the parent and the children, holdover, the source (21 R495 to R499). -/

namespace Sys2Proof.Machine

/-- A timestamp in 1/16 ns: station time and the sixteenth at the optical interface (R495). -/
def State.stamp (s : State) (frac : BitVec 4) : Nat := 16 * s.station + frac.toNat

/-- A port over which timestamps can be exchanged. -/
def State.talks (s : State) (p : Nat) : Bool := (s.port p).st == .up && !(s.port p).silent

/-- The port of this package's parent: one hop closer to the source along the route of order 0, else the next neighbour on a minimal path;
for the source of a pod above 0 a pod link (R495, R496, R498). -/
def State.parentPort (s : State) : Option Nat :=
  if s.spare then none
  else if s.isSource then
    if podOf s.place = 0 then none else ([6, 7].filter (fun p => s.meshPort p && s.talks p)).head?
  else
    let first := (schedPort s.shape s.place s.net.coordinator 0).toList
    ((first ++ (productive s.shape s.place s.net.coordinator)).filter s.talks).head?

/-- Applies a function to the station-time state. -/
def State.updSync (s : State) (f : Sync → Sync) : State := { s with sync := f s.sync }

/-- SYNC_EXCHANGE: every 125 µs a parent sends SYNC to a child, and then its departure timestamp; `frac` its sixteenth. A package that has
no time of its own yet is no parent. -/
def execSyncExchange (port : PortId) (frac : BitVec 4) (s : State) : Host.Outcome State Fault Refusal :=
  let p := port.val
  if s.talks p && s.sync.synced && s.parentPort != some p then
    .next ((s.ctl (.sync p)).ctl (.followUp p (s.stamp frac) s.station s.sync.hops))
  else .next s

/-- SYNC: the child records t2. -/
def execSync (port : PortId) (frac : BitVec 4) (s : State) : Host.Outcome State Fault Refusal :=
  .next (if s.parentPort = some port.val then s.updSync (fun y => { y with t2 := s.stamp frac }) else s)

/-- FOLLOW_UP: the child takes t1 and the parent's hops, and sends DELAY_REQ at t3. -/
def execFollowUp (port : PortId) (t1 : BitVec 68) (hops : Byte) (frac : BitVec 4) (s : State) : Host.Outcome State Fault Refusal :=
  if s.parentPort = some port.val then
    .next ((s.updSync (fun y => { y with t1 := t1.toNat, parentHops := hops.toNat, t3 := s.stamp frac })).ctl (.delayReq port.val))
  else .next s

/-- DELAY_REQ: the parent records t4 and returns it. -/
def execDelayReq (port : PortId) (frac : BitVec 4) (s : State) : Host.Outcome State Fault Refusal :=
  .next (if s.talks port.val && s.sync.synced then s.ctl (.delayResp port.val (s.stamp frac)) else s)

/-- The child's offset from its parent, in 1/16 ns (R495). -/
def Sync.offset (y : Sync) (t4 : Nat) : Int := (((y.t2 : Int) - y.t1) - ((t4 : Int) - y.t3)) / 2

/-- The parent's rate about this package's own clock, from two exchanges, within ±1,000 ppm (R497). -/
def Sync.newRate (y : Sync) : Int :=
  let own : Int := (y.t2 : Int) - y.lastOwn
  let far : Int := (y.t1 : Int) - y.lastParent
  if y.lastOwn = 0 ∨ own ≤ 0 then y.rate else max (-1000000) (min 1000000 (y.rate + (far - own) * 10 ^ 9 / own))

/-- DELAY_RESP: the first exchange sets station time to the parent's and then SYNCED; later ones steer the rate and slew the offset away;
HOLDOVER clears once the offset is within the bound of R496 (R497, R498). -/
def execDelayResp (port : PortId) (t4 : BitVec 68) (s : State) : Host.Outcome State Fault Refusal :=
  if s.parentPort = some port.val then
    let y := s.sync
    let off := y.offset t4.toNat
    if !y.synced then
      let now := ((16 * s.station : Int) - off).toNat
      .next { s with
        station := now / 16 % 2 ^ 64
        sync := { y with synced := true, hops := y.parentHops + 1, slew := 0, part := now % 16 * (stationUnit / 16), lastParent := y.t1
                         lastOwn := ((y.t2 : Int) - off).toNat } }
    else
      let near := decide (100 * off.natAbs ≤ 3200 + 432 * (y.parentHops + 1))
      .next (s.updSync (fun y => { y with
        rate := y.newRate, slew := -off * (stationUnit / 16), hops := y.parentHops + 1, lastParent := y.t1, lastOwn := y.t2
        holdover := y.holdover && !near }))
  else .next s

/-- HOLDOVER: no timestamps with any parent for 50 ms (R498). -/
def execHoldover (s : State) : Host.Outcome State Fault Refusal :=
  .next (if s.sync.synced && !(s.isSource && podOf s.place == 0) then s.updSync (fun y => { y with holdover := true }) else s)

/-- SOURCE_SYNCED: 100 ms after the package became the source with no STATION_SET (R497). -/
def execSourceSynced (s : State) : Host.Outcome State Fault Refusal :=
  .next (if s.isSource && s.power.railFabric then s.updSync (fun y => { y with synced := true }) else s)

/-- STATION_SET: PF0's write (R497). -/
def execStationSet (value : W64) (s : State) : Host.Outcome State Fault Refusal :=
  .next (if s.funcUp 0 then s.setStation value else s)

end Sys2Proof.Machine
end

