-- ==== Sys2Proof/Machine/VectorWords.lean ====
section
/-! DEFINITION. The words of the vector engine and the reduction unit (06; 08 R184, R185): one meaning for each command. -/

namespace Sys2Proof.Machine

/-- VLD (R119). -/
def execVld (core : CoreId) (delta : BitVec 12) (row : Sr) (vd : BitVec 5) (n : BitVec 2) (rls : BitVec 3) (s : State) :
    Host.Outcome State Fault Refusal :=
  execWord core (.vld core delta row vd n rls) s

/-- VST (R119). -/
def execVst (core : CoreId) (delta : BitVec 12) (row : Sr) (vs : BitVec 5) (n : BitVec 2) (cmt : BitVec 3) (s : State) :
    Host.Outcome State Fault Refusal :=
  execWord core (.vst core delta row vs n cmt) s

/-- VFILL (R119). -/
def execVfill (core : CoreId) (delta : BitVec 12) (vd : BitVec 5) (imm : W32) (s : State) :
    Host.Outcome State Fault Refusal :=
  execWord core (.vfill core delta vd imm) s

/-- VPROG (R121). -/
def execVprog (core : CoreId) (delta : BitVec 12) (op : VprogOp) (s : State) :
    Host.Outcome State Fault Refusal :=
  execWord core (.vprog core delta op) s

/-- VCVT (R126). -/
def execVcvt (core : CoreId) (delta : BitVec 12) (op : VcvtOp) (s : State) :
    Host.Outcome State Fault Refusal :=
  execWord core (.vcvt core delta op) s

/-- VPERM (R130). -/
def execVperm (core : CoreId) (delta : BitVec 12) (vd : BitVec 5) (vs : BitVec 5) (vi : BitVec 5) (vl : BitVec 7) (fsel : Bool) (freg : BitVec 5) (s : State) :
    Host.Outcome State Fault Refusal :=
  execWord core (.vperm core delta vd vs vi vl fsel freg) s

/-- VRED_INIT (R132). -/
def execVredInit (core : CoreId) (delta : BitVec 12) (q : BitVec 3) (v : BitVec 5) (kind : BitVec 3) (wsrc : Bool) (w : BitVec 10) (elem : BitVec 6) (s : State) :
    Host.Outcome State Fault Refusal :=
  execWord core (.vredInit core delta q v kind wsrc w elem) s

/-- VRED_ACC (R132). -/
def execVredAcc (core : CoreId) (delta : BitVec 12) (q : BitVec 3) (v : BitVec 5) (e : BitVec 6) (fmt : BitVec 4) (lay : Bool) (ssc : BitVec 2) (imm : BitVec 8) (base : BitVec 4) (s : State) :
    Host.Outcome State Fault Refusal :=
  execWord core (.vredAcc core delta q v e fmt lay ssc imm base) s

/-- VRED_MERGE (R137). -/
def execVredMerge (core : CoreId) (delta : BitVec 12) (q : BitVec 3) (v : BitVec 5) (s : State) :
    Host.Outcome State Fault Refusal :=
  execWord core (.vredMerge core delta q v) s

/-- VRED_PHASE (R139). -/
def execVredPhase (core : CoreId) (delta : BitVec 12) (q : BitVec 3) (s : State) :
    Host.Outcome State Fault Refusal :=
  execWord core (.vredPhase core delta q) s

/-- VRED_OUT (R137). -/
def execVredOut (core : CoreId) (delta : BitVec 12) (q : BitVec 3) (v : BitVec 5) (rm : BitVec 3) (s : State) :
    Host.Outcome State Fault Refusal :=
  execWord core (.vredOut core delta q v rm) s

/-- VRED_SMOUT (R139). -/
def execVredSmout (core : CoreId) (delta : BitVec 12) (q : BitVec 3) (v : BitVec 5) (vs : BitVec 5) (e : BitVec 6) (s : State) :
    Host.Outcome State Fault Refusal :=
  execWord core (.vredSmout core delta q v vs e) s

/-- VSCAN (R135). -/
def execVscan (core : CoreId) (delta : BitVec 12) (q : BitVec 3) (vs : BitVec 5) (e : BitVec 6) (fmt : BitVec 4) (lay : Bool) (ssc : BitVec 2) (imm : BitVec 8) (s : State) :
    Host.Outcome State Fault Refusal :=
  execWord core (.vscan core delta q vs e fmt lay ssc imm) s

/-- VTOPK_INIT (R136). -/
def execVtopkInit (core : CoreId) (delta : BitVec 12) (k : BitVec 6) (s : State) :
    Host.Outcome State Fault Refusal :=
  execWord core (.vtopkInit core delta k) s

/-- VTOPK_ACC (R136). -/
def execVtopkAcc (core : CoreId) (delta : BitVec 12) (v : BitVec 5) (e : BitVec 6) (base : BitVec 4) (s : State) :
    Host.Outcome State Fault Refusal :=
  execWord core (.vtopkAcc core delta v e base) s

/-- VTOPK_MERGE (R137). -/
def execVtopkMerge (core : CoreId) (delta : BitVec 12) (v : BitVec 5) (s : State) :
    Host.Outcome State Fault Refusal :=
  execWord core (.vtopkMerge core delta v) s

/-- VTOPK_OUT (R136). -/
def execVtopkOut (core : CoreId) (delta : BitVec 12) (v : BitVec 5) (s : State) :
    Host.Outcome State Fault Refusal :=
  execWord core (.vtopkOut core delta v) s

end Sys2Proof.Machine
end

