-- ==== Sys2Proof/Machine/Dispatch.lean ====
section
/-! DEFINITION. The dispatch of the commands: one arm per constructor of Instr. -/

namespace Sys2Proof.Machine

/-- The effect of a command on everything but the queue. -/
def exec (i : Instr) (s : State) : Host.Outcome State Fault Refusal :=
  match i with
  | .nop core delta => Sys2Proof.Machine.execNop core delta s
  | .halt core delta => Sys2Proof.Machine.execHalt core delta s
  | .loop core delta src count => Sys2Proof.Machine.execLoop core delta src count s
  | .endloop core delta => Sys2Proof.Machine.execEndloop core delta s
  | .waitf core delta flag n => Sys2Proof.Machine.execWaitf core delta flag n s
  | .waitfSatisfied core => Sys2Proof.Machine.execWaitfSatisfied core s
  | .setf core delta flag value => Sys2Proof.Machine.execSetf core delta flag value s
  | .incf core delta flag => Sys2Proof.Machine.execIncf core delta flag s
  | .decf core delta flag => Sys2Proof.Machine.execDecf core delta flag s
  | .signal core delta flag dreg => Sys2Proof.Machine.execSignal core delta flag dreg s
  | .signalArrival port core flag step tenant => Sys2Proof.Machine.execSignalArrival port core flag step tenant s
  | .expect core delta tid => Sys2Proof.Machine.execExpect core delta tid s
  | .mark core delta mark => Sys2Proof.Machine.execMark core delta mark s
  | .mova core delta d sk src => Sys2Proof.Machine.execMova core delta d sk src s
  | .adda core delta d a bk b => Sys2Proof.Machine.execAdda core delta d a bk b s
  | .suba core delta d a bk b => Sys2Proof.Machine.execSuba core delta d a bk b s
  | .shla core delta d a bk b => Sys2Proof.Machine.execShla core delta d a bk b s
  | .anda core delta d a bk b => Sys2Proof.Machine.execAnda core delta d a bk b s
  | .moda core delta d a bk b => Sys2Proof.Machine.execModa core delta d a bk b s
  | .lda core delta d src a imm => Sys2Proof.Machine.execLda core delta d src a imm s
  | .string core delta block fmt l => Sys2Proof.Machine.execString core delta block fmt l s
  | .stringt core delta block fmt l => Sys2Proof.Machine.execStringt core delta block fmt l s
  | .swapt core delta => Sys2Proof.Machine.execSwapt core delta s
  | .bow core delta data k nib e afmt ssrc scale rls => Sys2Proof.Machine.execBow core delta data k nib e afmt ssrc scale rls s
  | .bowg core delta list base k nib e afmt ssrc scale => Sys2Proof.Machine.execBowg core delta list base k nib e afmt ssrc scale s
  | .bowgPreview core => Sys2Proof.Machine.execBowgPreview core s
  | .zacc core delta k => Sys2Proof.Machine.execZacc core delta k s
  | .window core delta k wsrc w vs elem => Sys2Proof.Machine.execWindow core delta k wsrc w vs elem s
  | .drain core delta k vd fmt rm clr => Sys2Proof.Machine.execDrain core delta k vd fmt rm clr s
  | .vld core delta row vd n rls => Sys2Proof.Machine.execVld core delta row vd n rls s
  | .vst core delta row vs n cmt => Sys2Proof.Machine.execVst core delta row vs n cmt s
  | .vfill core delta vd imm => Sys2Proof.Machine.execVfill core delta vd imm s
  | .vprog core delta op => Sys2Proof.Machine.execVprog core delta op s
  | .vcvt core delta op => Sys2Proof.Machine.execVcvt core delta op s
  | .vperm core delta vd vs vi vl fsel freg => Sys2Proof.Machine.execVperm core delta vd vs vi vl fsel freg s
  | .vredInit core delta q v kind wsrc w elem => Sys2Proof.Machine.execVredInit core delta q v kind wsrc w elem s
  | .vredAcc core delta q v e fmt lay ssc imm base => Sys2Proof.Machine.execVredAcc core delta q v e fmt lay ssc imm base s
  | .vredMerge core delta q v => Sys2Proof.Machine.execVredMerge core delta q v s
  | .vredPhase core delta q => Sys2Proof.Machine.execVredPhase core delta q s
  | .vredOut core delta q v rm => Sys2Proof.Machine.execVredOut core delta q v rm s
  | .vredSmout core delta q v vs e => Sys2Proof.Machine.execVredSmout core delta q v vs e s
  | .vscan core delta q vs e fmt lay ssc imm => Sys2Proof.Machine.execVscan core delta q vs e fmt lay ssc imm s
  | .vtopkInit core delta k => Sys2Proof.Machine.execVtopkInit core delta k s
  | .vtopkAcc core delta v e base => Sys2Proof.Machine.execVtopkAcc core delta v e base s
  | .vtopkMerge core delta v => Sys2Proof.Machine.execVtopkMerge core delta v s
  | .vtopkOut core delta v => Sys2Proof.Machine.execVtopkOut core delta v s
  | .spfill core delta row cnt q psrc preg cmt => Sys2Proof.Machine.execSpfill core delta row cnt q psrc preg cmt s
  | .spcopy core delta src dst cnt q => Sys2Proof.Machine.execSpcopy core delta src dst cnt q s
  | .wsrd core delta block part row sp => Sys2Proof.Machine.execWsrd core delta block part row sp s
  | .wswr core delta block part row sp => Sys2Proof.Machine.execWswr core delta block part row sp s
  | .kvrd core delta hreg greg sp => Sys2Proof.Machine.execKvrd core delta hreg greg sp s
  | .kvwr core delta hreg greg sp => Sys2Proof.Machine.execKvwr core delta hreg greg sp s
  | .kvwrRemote core delta hreg greg sp dreg tid => Sys2Proof.Machine.execKvwrRemote core delta hreg greg sp dreg tid s
  | .send core delta sp cnt dreg vc cls tid => Sys2Proof.Machine.execSend core delta sp cnt dreg vc cls tid s
  | .sendacc core delta k dreg enc cls tid => Sys2Proof.Machine.execSendacc core delta k dreg enc cls tid s
  | .sendxor core delta sp cnt dreg vc cls tid => Sys2Proof.Machine.execSendxor core delta sp cnt dreg vc cls tid s
  | .recvData core delta tid sp => Sys2Proof.Machine.execRecvData core delta tid sp s
  | .recvAccumulator core delta tid k => Sys2Proof.Machine.execRecvAccumulator core delta tid k s
  | .recvFastAdd core delta tid sp => Sys2Proof.Machine.execRecvFastAdd core delta tid sp s
  | .recvXor core delta tid sp => Sys2Proof.Machine.execRecvXor core delta tid sp s
  | .recvOnDieRead core delta score srow sp => Sys2Proof.Machine.execRecvOnDieRead core delta score srow sp s
  | .hostrd core delta buf oreg sp cnt tid => Sys2Proof.Machine.execHostrd core delta buf oreg sp cnt tid s
  | .hostwr core delta buf oreg sp cnt tid => Sys2Proof.Machine.execHostwr core delta buf oreg sp cnt tid s
  | .kdlook core delta sp cnt rreg tid => Sys2Proof.Machine.execKdlook core delta sp cnt rreg tid s
  | .kdput core delta sp cnt op tid => Sys2Proof.Machine.execKdput core delta sp cnt op tid s
  | .decodeResume core => Sys2Proof.Machine.execDecodeResume core s
  | .seqMiscompare core => Sys2Proof.Machine.execSeqMiscompare core s
  | .flagWaitTimeout core => Sys2Proof.Machine.execFlagWaitTimeout core s
  | .stepTooLong core delta => Sys2Proof.Machine.execStepTooLong core delta s
  | .coreFinished core => Sys2Proof.Machine.execCoreFinished core s
  | .lateItemCheck item => Sys2Proof.Machine.execLateItemCheck item s
  | .cellArrival via chan cell => Sys2Proof.Machine.execCellArrival via chan cell s
  | .transferComplete core tid => Sys2Proof.Machine.execTransferComplete core tid s
  | .waitingArrivalWrite core => Sys2Proof.Machine.execWaitingArrivalWrite core s
  | .kvWriteContextComplete core tid => Sys2Proof.Machine.execKvWriteContextComplete core tid s
  | .hostReadCompletion core tid first data => Sys2Proof.Machine.execHostReadCompletion core tid first data s
  | .hostDmaError read => Sys2Proof.Machine.execHostDmaError read s
  | .scrubVisit core finds => Sys2Proof.Machine.execScrubVisit core finds s
  | .scrubForcedAccess core finds => Sys2Proof.Machine.execScrubForcedAccess core finds s
  | .blockRestoration core block data => Sys2Proof.Machine.execBlockRestoration core block data s
  | .spareRowSubstitution core bank row => Sys2Proof.Machine.execSpareRowSubstitution core bank row s
  | .arbitrationOutcome core v1 v2 => Sys2Proof.Machine.execArbitrationOutcome core v1 v2 s
  | .sampleReferenceCheck core => Sys2Proof.Machine.execSampleReferenceCheck core s
  | .droneVisit core vectors finds => Sys2Proof.Machine.execDroneVisit core vectors finds s
  | .meshCrc core lost => Sys2Proof.Machine.execMeshCrc core lost s
  | .clockLockLoss course => Sys2Proof.Machine.execClockLockLoss course s
  | .stop slot step status => Sys2Proof.Machine.execStop slot step status s
  | .stepRetry slot released => Sys2Proof.Machine.execStepRetry slot released s
  | .discard core tid => Sys2Proof.Machine.execDiscard core tid s
  | .heartbeat port compute => Sys2Proof.Machine.execHeartbeat port compute s
  | .silent port => Sys2Proof.Machine.execSilent port s
  | .silentReport silent reporter journal => Sys2Proof.Machine.execSilentReport silent reporter journal s
  | .packageLost place journal => Sys2Proof.Machine.execPackageLost place journal s
  | .coreRetirementAndReload core journal => Sys2Proof.Machine.execCoreRetirementAndReload core journal s
  | .frameTransmit port => Sys2Proof.Machine.execFrameTransmit port s
  | .frameReceived port words chans marks => Sys2Proof.Machine.execFrameReceived port words chans marks s
  | .replayTimeout port => Sys2Proof.Machine.execReplayTimeout port s
  | .laneDrop port lane => Sys2Proof.Machine.execLaneDrop port lane s
  | .laserFault die => Sys2Proof.Machine.execLaserFault die s
  | .laserInputGood die => Sys2Proof.Machine.execLaserInputGood die s
  | .portEnable port on => Sys2Proof.Machine.execPortEnable port on s
  | .signalPresent port lanes => Sys2Proof.Machine.execSignalPresent port lanes s
  | .equalisationConverged port lanes => Sys2Proof.Machine.execEqualisationConverged port lanes s
  | .hello port rec_ => Sys2Proof.Machine.execHello port rec_ s
  | .portStateTimeout port => Sys2Proof.Machine.execPortStateTimeout port s
  | .retune port lanes => Sys2Proof.Machine.execRetune port lanes s
  | .epochStage common fence => Sys2Proof.Machine.execEpochStage common fence s
  | .epochAck place => Sys2Proof.Machine.execEpochAck place s
  | .drainWave answers => Sys2Proof.Machine.execDrainWave answers s
  | .admissionPoint slot => Sys2Proof.Machine.execAdmissionPoint slot s
  | .stepStartReceived slot num entry voicing seed params replay lastOld => Sys2Proof.Machine.execStepStartReceived slot num entry voicing seed params replay lastOld s
  | .tickZero slot => Sys2Proof.Machine.execTickZero slot s
  | .advance slot group => Sys2Proof.Machine.execAdvance slot group s
  | .advanceAck slot place group => Sys2Proof.Machine.execAdvanceAck slot place group s
  | .spillRecordsWritten slot place id groups oldest newest full => Sys2Proof.Machine.execSpillRecordsWritten slot place id groups oldest newest full s
  | .reloadComplete slot place id groups records status => Sys2Proof.Machine.execReloadComplete slot place id groups records status s
  | .stepFinishedReport slot place step budget report => Sys2Proof.Machine.execStepFinishedReport slot place step budget report s
  | .requestCommit slot => Sys2Proof.Machine.execRequestCommit slot s
  | .cancelRegister slot => Sys2Proof.Machine.execCancelRegister slot s
  | .dirLookup course => Sys2Proof.Machine.execDirLookup course s
  | .swapStage slot manifest section_ => Sys2Proof.Machine.execSwapStage slot manifest section_ s
  | .staged slot place status => Sys2Proof.Machine.execStaged slot place status s
  | .releaseAll slot => Sys2Proof.Machine.execReleaseAll slot s
  | .chunkReceived slot chunk stream data => Sys2Proof.Machine.execChunkReceived slot chunk stream data s
  | .chunkTimeout slot chunk stream => Sys2Proof.Machine.execChunkTimeout slot chunk stream s
  | .loaded slot place => Sys2Proof.Machine.execLoaded slot place s
  | .abandon slot => Sys2Proof.Machine.execAbandon slot s
  | .parityValid slot => Sys2Proof.Machine.execParityValid slot s
  | .kick func => Sys2Proof.Machine.execKick func s
  | .poll func => Sys2Proof.Machine.execPoll func s
  | .doorbellFetchComplete func page entries => Sys2Proof.Machine.execDoorbellFetchComplete func page entries s
  | .request func prompt => Sys2Proof.Machine.execRequest func prompt s
  | .cancel func => Sys2Proof.Machine.execCancel func s
  | .continueReq func tokens => Sys2Proof.Machine.execContinueReq func tokens s
  | .spill func => Sys2Proof.Machine.execSpill func s
  | .reload func => Sys2Proof.Machine.execReload func s
  | .release func => Sys2Proof.Machine.execRelease func s
  | .step func block => Sys2Proof.Machine.execStep func block s
  | .loadImage func file => Sys2Proof.Machine.execLoadImage func file s
  | .swap func manifest others => Sys2Proof.Machine.execSwap func manifest others s
  | .dirUpdate func data => Sys2Proof.Machine.execDirUpdate func data s
  | .msixTimeThreshold func ring => Sys2Proof.Machine.execMsixTimeThreshold func ring s
  | .ringEnable func ring value => Sys2Proof.Machine.execRingEnable func ring value s
  | .ringDisable func ring => Sys2Proof.Machine.execRingDisable func ring s
  | .functionLevelReset func => Sys2Proof.Machine.execFunctionLevelReset func s
  | .sendMbo func value data => Sys2Proof.Machine.execSendMbo func value data s
  | .withdraw func => Sys2Proof.Machine.execWithdraw func s
  | .mboTimeout func => Sys2Proof.Machine.execMboTimeout func s
  | .mbiConsume func => Sys2Proof.Machine.execMbiConsume func s
  | .mbiDeliver func dbbit => Sys2Proof.Machine.execMbiDeliver func dbbit s
  | .mbiWithdrawn func => Sys2Proof.Machine.execMbiWithdrawn func s
  | .mboRead func => Sys2Proof.Machine.execMboRead func s
  | .dbHostClear func bits => Sys2Proof.Machine.execDbHostClear func bits s
  | .dbHostMaskWrite func mask => Sys2Proof.Machine.execDbHostMaskWrite func mask s
  | .dbSpSet func bits => Sys2Proof.Machine.execDbSpSet func bits s
  | .mgtMessage peer bytes read => Sys2Proof.Machine.execMgtMessage peer bytes read s
  | .fwBegin asker seq payload => Sys2Proof.Machine.execFwBegin asker seq payload s
  | .fwPiece asker seq payload => Sys2Proof.Machine.execFwPiece asker seq payload s
  | .fwEnd asker seq payload => Sys2Proof.Machine.execFwEnd asker seq payload s
  | .keyInstall asker seq payload => Sys2Proof.Machine.execKeyInstall asker seq payload s
  | .keyRemove asker seq payload => Sys2Proof.Machine.execKeyRemove asker seq payload s
  | .spillRotate asker seq payload => Sys2Proof.Machine.execSpillRotate asker seq payload s
  | .status asker seq payload => Sys2Proof.Machine.execStatus asker seq payload s
  | .getVersion requester => Sys2Proof.Machine.execGetVersion requester s
  | .getCapabilities requester => Sys2Proof.Machine.execGetCapabilities requester s
  | .negotiateAlgorithms requester => Sys2Proof.Machine.execNegotiateAlgorithms requester s
  | .getDigests requester => Sys2Proof.Machine.execGetDigests requester s
  | .getCertificate requester => Sys2Proof.Machine.execGetCertificate requester s
  | .challenge requester nonce => Sys2Proof.Machine.execChallenge requester nonce s
  | .getMeasurements requester index => Sys2Proof.Machine.execGetMeasurements requester index s
  | .keyExchange requester share => Sys2Proof.Machine.execKeyExchange requester share s
  | .finish requester port good => Sys2Proof.Machine.execFinish requester port good s
  | .keyUpdate requester => Sys2Proof.Machine.execKeyUpdate requester s
  | .heartbeatSpdm requester => Sys2Proof.Machine.execHeartbeatSpdm requester s
  | .endSession requester => Sys2Proof.Machine.execEndSession requester s
  | .lockInterfaceRequest func => Sys2Proof.Machine.execLockInterfaceRequest func s
  | .stopInterfaceRequest func => Sys2Proof.Machine.execStopInterfaceRequest func s
  | .tdiError func => Sys2Proof.Machine.execTdiError func s
  | .linkKeyRotation port busy => Sys2Proof.Machine.execLinkKeyRotation port busy s
  | .rotate port index => Sys2Proof.Machine.execRotate port index s
  | .retireKey port acked => Sys2Proof.Machine.execRetireKey port acked s
  | .rotationTimeout port => Sys2Proof.Machine.execRotationTimeout port s
  | .spillKeyDistribute slot gen ack => Sys2Proof.Machine.execSpillKeyDistribute slot gen ack s
  | .spillKeyAckTimeout slot => Sys2Proof.Machine.execSpillKeyAckTimeout slot s
  | .coldStart slotId bootMode bad => Sys2Proof.Machine.execColdStart slotId bootMode bad s
  | .courseUngate course group tests => Sys2Proof.Machine.execCourseUngate course group tests s
  | .sensorSample tmax p1ms p1s vmain current => Sys2Proof.Machine.execSensorSample tmax p1ms p1s vmain current s
  | .converterStageFault stage => Sys2Proof.Machine.execConverterStageFault stage s
  | .syncExchange port frac => Sys2Proof.Machine.execSyncExchange port frac s
  | .sync port frac => Sys2Proof.Machine.execSync port frac s
  | .followUp port t1 hops frac => Sys2Proof.Machine.execFollowUp port t1 hops frac s
  | .delayReq port frac => Sys2Proof.Machine.execDelayReq port frac s
  | .delayResp port t4 => Sys2Proof.Machine.execDelayResp port t4 s
  | .stationSet value => Sys2Proof.Machine.execStationSet value s
  | .passThroughEnter asker seq payload => Sys2Proof.Machine.execPassThroughEnter asker seq payload s
  | .passThroughLeave asker seq payload persists => Sys2Proof.Machine.execPassThroughLeave asker seq payload persists s
  | .packageReset asker seq payload bad hot => Sys2Proof.Machine.execPackageReset asker seq payload bad hot s
  | .soundpostReset asker seq payload => Sys2Proof.Machine.execSoundpostReset asker seq payload s
  | .saveSettings asker seq payload => Sys2Proof.Machine.execSaveSettings asker seq payload s
  | .maintQuery asker seq payload => Sys2Proof.Machine.execMaintQuery asker seq payload s
  | .freqApply admitted => Sys2Proof.Machine.execFreqApply admitted s
  | .form slot => Sys2Proof.Machine.execForm slot s
  | .formMessage slot msg => Sys2Proof.Machine.execFormMessage slot msg s
  | .formTimeout slot => Sys2Proof.Machine.execFormTimeout slot s
  | .dissolve slot => Sys2Proof.Machine.execDissolve slot s
  | .reqIndexWrite slot index => Sys2Proof.Machine.execReqIndexWrite slot index s
  | .go core block => Sys2Proof.Machine.execGo core block s
  | .debugEnWrite value => Sys2Proof.Machine.execDebugEnWrite value s
  | .stateSelWrite value => Sys2Proof.Machine.execStateSelWrite value s
  | .registerWrite func bar2 offset data => Sys2Proof.Machine.execRegisterWrite func bar2 offset data s
  | .cellLeavesOutboundBuffer core what => Sys2Proof.Machine.execCellLeavesOutboundBuffer core what s
  | .alignmentLock port => Sys2Proof.Machine.execAlignmentLock port s
  | .rotateRetry port => Sys2Proof.Machine.execRotateRetry port s
  | .startInterfaceRequest func => Sys2Proof.Machine.execStartInterfaceRequest func s
  | .ideKm stream active => Sys2Proof.Machine.execIdeKm stream active s
  | .mgtSlotTimeout peer => Sys2Proof.Machine.execMgtSlotTimeout peer s
  | .muteRelease => Sys2Proof.Machine.execMuteRelease s
  | .muteTimeout => Sys2Proof.Machine.execMuteTimeout s
  | .frequencyChange => Sys2Proof.Machine.execFrequencyChange s
  | .pllLock => Sys2Proof.Machine.execPllLock s
  | .tickDiverge => Sys2Proof.Machine.execTickDiverge s
  | .supplyFault => Sys2Proof.Machine.execSupplyFault s
  | .fwWatchdog => Sys2Proof.Machine.execFwWatchdog s
  | .heartbeatSend => Sys2Proof.Machine.execHeartbeatSend s
  | .routeInstall => Sys2Proof.Machine.execRouteInstall s
  | .routeEpoch => Sys2Proof.Machine.execRouteEpoch s
  | .epochAckTimeout => Sys2Proof.Machine.execEpochAckTimeout s
  | .switch => Sys2Proof.Machine.execSwitch s
  | .drainQuery => Sys2Proof.Machine.execDrainQuery s
  | .purge => Sys2Proof.Machine.execPurge s
  | .retire => Sys2Proof.Machine.execRetire s
  | .dirUpdateApply => Sys2Proof.Machine.execDirUpdateApply s
  | .compactionMove => Sys2Proof.Machine.execCompactionMove s
  | .dirReadySet => Sys2Proof.Machine.execDirReadySet s
  | .perst => Sys2Proof.Machine.execPerst s
  | .fwWriteTimeout => Sys2Proof.Machine.execFwWriteTimeout s
  | .vanaGood => Sys2Proof.Machine.execVanaGood s
  | .budgetEvaluation => Sys2Proof.Machine.execBudgetEvaluation s
  | .thermtrip => Sys2Proof.Machine.execThermtrip s
  | .vauxFail => Sys2Proof.Machine.execVauxFail s
  | .vanaFail => Sys2Proof.Machine.execVanaFail s
  | .undervoltageLockout => Sys2Proof.Machine.execUndervoltageLockout s
  | .refclkLoss => Sys2Proof.Machine.execRefclkLoss s
  | .holdover => Sys2Proof.Machine.execHoldover s
  | .sourceSynced => Sys2Proof.Machine.execSourceSynced s
  | .pausePointReached => Sys2Proof.Machine.execPausePointReached s
  | .structuralActivityEnd => Sys2Proof.Machine.execStructuralActivityEnd s
  | .refusedClear => Sys2Proof.Machine.execRefusedClear s
  | .relockTimeout => Sys2Proof.Machine.execRelockTimeout s
  | .perstRelease => Sys2Proof.Machine.execPerstRelease s
  | .vmainGood => Sys2Proof.Machine.execVmainGood s
  | .refclkReturn => Sys2Proof.Machine.execRefclkReturn s

end Sys2Proof.Machine
end

