-- ==== Sys2Proof/Safety.lean ====
section
/-! DEFINITION. What counts as a safe run of the block, and the terms in which statements speak of a word that is decoded and
issues, and of what a command leaves as it was. -/

namespace Sys2Proof.Machine

/-- The byte memories of a core keep their canonical form. -/
def Core.memWf (x : Core) : Bool := Memory.wf x.sp.mem && Memory.wf x.ws.mem

/-- Every byte memory of the block keeps its canonical form: the scratchpads and weight stores of the cores, and the tailpiece's
image. -/
def State.memWf (s : State) : Bool := s.cores.all (fun p => p.2.memWf) && Memory.wf s.sec.fwBytes

/-- A step from s is safe: it answers a next state. -/
def SafeStep (s : State) : Prop := ∃ t, step s = .next t

/-- Every one of the first n steps from s is safe. -/
def SafeRun : Nat → State → Prop
  | 0, _ => True
  | n + 1, s => ∃ t, step s = .next t ∧ SafeRun n t

/-! ### Words -/

/-- The core that a ZVIS word is for; none for a command that is no word. -/
def wordCore : Instr → Option CoreId
  | .nop c _ | .halt c _ | .loop c _ _ _ | .endloop c _ | .waitf c _ _ _ | .setf c _ _ _ | .incf c _ _ | .decf c _ _
  | .signal c _ _ _ | .expect c _ _ | .mark c _ _ | .mova c _ _ _ _ | .adda c _ _ _ _ _ | .suba c _ _ _ _ _
  | .shla c _ _ _ _ _ | .anda c _ _ _ _ _ | .moda c _ _ _ _ _ | .lda c _ _ _ _ _ | .string c _ _ _ _
  | .stringt c _ _ _ _ | .swapt c _ | .bow c _ _ _ _ _ _ _ _ _ | .bowg c _ _ _ _ _ _ _ _ _ | .zacc c _ _
  | .window c _ _ _ _ _ _ | .drain c _ _ _ _ _ _ | .vld c _ _ _ _ _ | .vst c _ _ _ _ _ | .vfill c _ _ _ | .vprog c _ _
  | .vcvt c _ _ | .vperm c _ _ _ _ _ _ _ | .vredInit c _ _ _ _ _ _ _ | .vredAcc c _ _ _ _ _ _ _ _ _
  | .vredMerge c _ _ _ | .vredPhase c _ _ | .vredOut c _ _ _ _ | .vredSmout c _ _ _ _ _ | .vscan c _ _ _ _ _ _ _ _
  | .vtopkInit c _ _ | .vtopkAcc c _ _ _ _ | .vtopkMerge c _ _ | .vtopkOut c _ _ | .spfill c _ _ _ _ _ _ _
  | .spcopy c _ _ _ _ _ | .wsrd c _ _ _ _ _ | .wswr c _ _ _ _ _ | .kvrd c _ _ _ _ | .kvwr c _ _ _ _
  | .kvwrRemote c _ _ _ _ _ _ | .send c _ _ _ _ _ _ _ | .sendacc c _ _ _ _ _ _ | .sendxor c _ _ _ _ _ _ _
  | .recvData c _ _ _ | .recvAccumulator c _ _ _ | .recvFastAdd c _ _ _ | .recvXor c _ _ _ | .recvOnDieRead c _ _ _ _
  | .hostrd c _ _ _ _ _ _ | .hostwr c _ _ _ _ _ _ | .kdlook c _ _ _ _ _ | .kdput c _ _ _ _ _ => some c
  | _ => none

/-- The word i may stand in a program of core c, and the core decodes it now: it is enabled, decodes, and the cursor stays below
2^40 (07 R149, R152; 08 R172). -/
def State.Decodes (s : State) (c : CoreId) (i : Instr) : Prop :=
  wordOk s.n (s.logical c.val) i = true ∧ s.passThrough = false ∧ s.isEnabled c.val = true ∧
    (s.core c.val).ctl.dec = .decoding ∧ (s.core c.val).ctl.cursor + (wordDelta i).toNat < 2 ^ 40

/-- The control core after a word: the cursor has moved by its delta, the program offset to the next word (07 R149). -/
def Ctl.past (k : Ctl) (i : Instr) : Ctl := { k with cursor := k.cursor + (wordDelta i).toNat, offset := k.offset + 1 }

/-- The queue entry of a word: its scheduled tick, its offset and the registers as they are at decode (07 R150, R153). -/
def State.entryOf (s : State) (c : CoreId) (i : Instr) : QEntry :=
  ⟨i, (s.core c.val).ctl.cursor + (wordDelta i).toNat, (s.core c.val).ctl.offset, (s.core c.val).ctl.regs⟩

/-- What a word issues with when its tick is the present one. -/
def State.ctxOf (s : State) (c : CoreId) (i : Instr) : Ctx := ⟨c.val, s.clk.tick, s.entryOf c i⟩

/-- The state once core c has decoded the word i. -/
def State.decoded (s : State) (c : CoreId) (i : Instr) : State := s.updCtl c.val (fun k => k.past i)

/-- No engine queue of any core holds an entry. -/
def State.NoQueue (s : State) : Prop :=
  ∀ p ∈ s.cores, p.2.ctl.laneQ = [] ∧ p.2.ctl.vecQ = [] ∧ p.2.ctl.moveQ = []

/-- Nothing is under way in the block: nothing queued, in flight, late or in conflict, no step, no load, no change of frequency, nothing
suspended, every message posted, and the debug mode off. -/
def State.Quiet (s : State) : Prop :=
  s.NoQueue ∧ s.landings = [] ∧ (∀ p ∈ s.steps, p.2.phase = .none ∧ p.2.stopDue = false) ∧
    (∀ g, (s.group g).swap.phase ≠ .loading) ∧ s.clk.late = [] ∧ s.clk.conflicts = [] ∧ s.clk.uses = [] ∧ s.clk.previews = [] ∧
    s.clk.change = none ∧ s.maint.suspended = none ∧ s.dbg.en = false ∧ s.out.posted = (s.out.ctl.length, s.out.mgt.length)

/-- The timed word i of core c issues as it is decoded: the core's step has passed tick 0, the word's tick has come, it is alone in the
queues, nothing blocks it, and its issue slot is free (07 R151, R153; 09 R208). -/
def State.Issues (s : State) (c : CoreId) (i : Instr) (sl : SlotId) : Prop :=
  s.Decodes c i ∧ s.NoQueue ∧ (s.core c.val).ctl.preStart = false ∧
    (s.core c.val).ctl.s0 + (s.entryOf c i).tick ≤ s.clk.tick ∧
    s.blockItem c.val (s.entryOf c i) = none ∧ Tab.get 0 (s.core c.val).busy sl.idx ≤ s.clk.tick

/-- Core c once the word i has been decoded and holds its issue slot for `occ` ticks; everything else of the core is as it was. -/
def State.issued (s : State) (c : CoreId) (i : Instr) (sl : SlotId) (occ : Nat) : Core :=
  { s.core c.val with
    ctl := (s.core c.val).ctl.past i
    busy := Tab.set 0 (s.core c.val).busy sl.idx (s.clk.tick + occ) }

/-- Results put in flight one after the other. -/
def inFlightAfter (m : List Landing) (ls : List Landing) : List Landing := ls.foldl (fun m l => Landing.insert l m) m

/-- From s to t only cores, results in flight, the marks of late items and the noted accesses of 09 R211 have changed. -/
def State.CoresOnly (s t : State) : Prop :=
  t = { s with cores := t.cores, landings := t.landings, clk := { s.clk with late := t.clk.late, uses := t.clk.uses } }

/-- From s to t only core c has changed, to `x`, and the results `ls` have been put in flight. -/
def State.Becomes (s t : State) (c : CoreId) (x : Core) (ls : List Landing) : Prop :=
  t.core c.val = x ∧ (∀ d, d ≠ c.val → t.core d = s.core d) ∧ t.landings = inFlightAfter s.landings ls ∧ s.CoresOnly t

/-- As `Becomes`, but for the sticky status and the digests of core c. -/
def State.BecomesBut (s t : State) (c : CoreId) (x : Core) (ls : List Landing) : Prop :=
  s.Becomes t c { x with
    ctl := { x.ctl with status := (t.core c.val).ctl.status }
    xfer := { x.xfer with digests := (t.core c.val).xfer.digests } } ls

/-- From s to t only core d has changed, and what is in flight and the marks of late items. -/
def State.OnlyCore (s t : State) (d : Nat) : Prop := (∀ e, e ≠ d → t.core e = s.core e) ∧ s.CoresOnly t

/-- From s to t only port p has changed. -/
def State.OnlyPort (s t : State) (p : Nat) : Prop := (∀ q, q ≠ p → t.port q = s.port q) ∧ t = { s with ports := t.ports }

/-- What an entry of the fault log or an event changes is as t has it, the rest as s has it: the log and its count, the functions' rings
and buffers, what leaves for the host, and the count of open values. -/
def State.logged (s t : State) : State :=
  { s with free := t.free, funcs := t.funcs, faultLog := t.faultLog, faultCount := t.faultCount, out := t.out }

/-- From s to t no core, no result or cell in flight, no page, port, route, image or partition has changed. -/
def State.SameCompute (s t : State) : Prop :=
  t.cores = s.cores ∧ t.landings = s.landings ∧ t.mesh = s.mesh ∧ t.fabric = s.fabric ∧ t.pageGens = s.pageGens ∧
    t.ports = s.ports ∧ t.routes = s.routes ∧ t.images = s.images ∧ t.enabled = s.enabled ∧ t.parts = s.parts

/-- From s to t the step of slot g has come, in the present cycle: where the cores of its partition are free they begin to decode it at once,
where they are not no core has changed; no other step, and nothing in flight (07 R151; 09 R219). -/
def State.StepComes (s t : State) (g : Nat) : Prop :=
  let cs := s.coresOf (s.group g).owner
  let now := s.clk.tick + s.clk.heldTotal
  (t.step' g).phase = .starting ∧ (t.step' g).startCycle = now ∧
    (s.coresBusy g = true ∨ (s.image g).loaded = false → t.cores = s.cores ∧ (t.step' g).decodeAt = none) ∧
    (s.coresBusy g = false → (s.image g).loaded = true → s.enabled.Nodup → (∀ c ∈ cs, (s.core c).xfer.waiting = []) →
      (t.step' g).decodeAt = some now ∧
      (∀ c ∈ cs, t.core c = (s.core c).begin (t.step' g).num (t.startOffset g c) (s.image g).flags) ∧
      ∀ c, c ∉ cs → t.core c = s.core c) ∧
    (∀ h, h ≠ g → t.step' h = s.step' h) ∧ t.landings = s.landings ∧ t.mesh = s.mesh ∧ t.fabric = s.fabric ∧
    t.pageGens = s.pageGens ∧ t.routes = s.routes ∧ t.faultLog = s.faultLog

/-- The value of accumulator k of string j of core c (02 R26). -/
def State.accNow (s : State) (c k j : Nat) : Val := accVal ((s.core c).lane.win k) ((s.core c).lane.accAt k j)

end Sys2Proof.Machine
end

