-- ==== Sys2Proof/Certificates/Slice0/Obligations.lean ====
section
/-! DEFINITION. The statements for the provers. -/

open Sys2Proof Sys2Proof.Machine

/-! ### The step -/

/-- A step takes the command at the front of the queue and has its effect on the state with the queue's rest.
The model's choices in it: log entry 1. -/
def Obligations.StepRunsTheFrontCommand : Prop :=
  ∀ (s : State) (c : Instr) (rest : List Instr),
    s.pending = c :: rest → step s = exec c { s with pending := rest }

/-- A step on an empty queue is one clock cycle (the model's choice, log entry 2). Where nothing is under way, station time runs on and the
counter passes to the next tick; while a hold is in force it keeps its value and the cycle is a held one (09 R204, R206).
The model's choices in it: log entry 2. -/
def Obligations.IdleStepIsOneCycle : Prop :=
  ∀ s : State, s.pending = [] →
    step s = .next s.idle ∧
    let t : State := { s.passTime with pkg := { s.pkg with fresh := [] } }
    (s.Quiet → s.clk.holds = [] → step s = .next { t with clk := { s.clk with tick := s.clk.tick + 1, heldRun := 0 } }) ∧
    (s.Quiet → s.clk.holds ≠ [] → step s = .next { t with clk := { s.clk with
      heldTotal := s.clk.heldTotal + 1, heldRun := s.clk.heldRun + 1 } })

/-! ### Words -/

/-- Words written out from Tables 8.1 to 8.10 decode to the instructions that they stand for. -/
def Obligations.WordsDecode : Prop :=
  ∀ c : CoreId,
    decodeZvis c 0x0000000000000500#64 = some (.nop c 5) ∧
    decodeZvis c 0x00000000FC700105#64 = some (.setf c 1 7 63) ∧
    decodeZvis c 0x00000000C2200011#64 = some (.adda c 0 2 1 true 1) ∧
    decodeZvis c 0x0000000000300025#64 = some (.zacc c 0 3) ∧
    decodeZvis c 0x0000001E2F800042#64 = some (.vfill c 0 24 0x0F17) ∧
    decodeZvis c 0x00000000000000FF#64 = none

/-- Decoding an encoded word of the instruction set gives the instruction back, with every operand at every value that a program may
hold (08 R170 to R172). -/
def Obligations.DecodeOfEncode : Prop :=
  ∀ (c : CoreId) (i : Instr) (w : W64),
    wordCore i = some c → staticOk i = true → encodeZvis i = some w → decodeZvis c w = some i

/-- Words that a core does not decode: one that no program may hold is refused, whatever the state; a core that is not enabled, or has decoded
HALT, decodes nothing more; while a WAITF waits, or a word is held for its full queue, a word that comes waits in order and nothing else
happens (07 R154, R158, R163; 08 R172).
The model's choices in it: log entry 87. -/
def Obligations.WordsThatAreNotDecoded : Prop :=
  ∀ (s : State) (c : CoreId) (i : Instr), wordCore i = some c →
    (wordOk s.n (s.logical c.val) i = false → exec i s = .refused .reservedEncoding) ∧
    (wordOk s.n (s.logical c.val) i = true → (s.core c.val).ctl.dec = .halted ∨ s.isEnabled c.val = false → exec i s = .next s) ∧
    (∀ k : Ctl, wordOk s.n (s.logical c.val) i = true → s.passThrough = false → s.isEnabled c.val = true → (s.core c.val).ctl = k →
      ((∃ f n t, k.dec = .waiting f n t) ∨ ∃ j t, k.dec = .held j t) →
      exec i s = .next (s.setCore c.val { s.core c.val with ctl := { k with stalled := k.stalled ++ [i] } }))

/-- A timed word whose tick has not come, or whose step has not passed its tick 0, waits in its engine's queue with its tick, its offset and
the registers as they are at decode; nothing else changes but the core's cursor and offset (07 R149 to R151, R153).
The model's choices in it: log entry 2. -/
def Obligations.TimedWordWaitsForItsTick : Prop :=
  ∀ (s : State) (c : CoreId) (i : Instr) (eng : Engine), wordCore i = some c → s.Decodes c i → engineOf i = some eng → s.NoQueue →
    s.clk.tick < (s.core c.val).ctl.s0 + (s.entryOf c i).tick ∨ (s.core c.val).ctl.preStart = true →
    exec i s = .next (s.setCore c.val { s.core c.val with ctl := ((s.core c.val).ctl.past i).setQueue eng [s.entryOf c i] })

/-- A queued entry issues when a cycle brings the counter to its tick: the SETF queued alone for the next tick has its change in flight for
the end of that tick (07 R153, R159).
The model's choices in it: log entry 2. -/
def Obligations.QueuedEntryIssuesAtItsTick : Prop :=
  ∀ (s : State) (c : CoreId) (δ : BitVec 12) (f : BitVec 6) (v : BitVec 8) (e : QEntry) (x : Core),
    e.instr = .setf c δ f v → s.pending = [] → s.Quiet → s.clk.holds = [] → s.isEnabled c.val = true →
    x.ctl.preStart = false → x.ctl.laneQ = [] → x.ctl.vecQ = [] → x.ctl.moveQ = [e] →
    Tab.get 0 x.busy SlotId.control.idx ≤ s.clk.tick + 1 → x.ctl.s0 + e.tick = s.clk.tick + 1 →
    ∃ t, step (s.setCore c.val x) = .next t ∧ t.clk.tick = s.clk.tick + 1 ∧ (t.core c.val).ctl.moveQ = [] ∧
      t.landings = [⟨2 * (s.clk.tick + 1) + 1, 41, c.val, .setFlag f.toNat v⟩] ∧ (∀ d, d ≠ c.val → t.core d = s.core d)

/-! ### Control words -/

/-- MOVA, ADDA, SUBA, SHLA, ANDA, MODA by a nonzero number and LDA write their register when they are decoded, all results modulo
2^32; the cursor moves by the delta, and no other core, register or memory changes. MODA by zero writes nothing and logs DIV_ZERO; LDA past
the constant pool writes nothing and logs BAD_ADDRESS: a record of the control core with the word's tick, offset and opcode, of whose DETAIL
this statement says nothing (07 R145 to R147; 08 R173). -/
def Obligations.AddressWordsComplete : Prop :=
  ∀ (s : State) (c : CoreId) (δ : BitVec 12) (d a : BitVec 5) (bk : Bool) (b : BitVec 20),
    let k := (s.core c.val).ctl
    let A := Tab.get 0 k.regs a.toNat
    let B := if bk then b.signExtend 32 else Tab.get 0 k.regs (b.toNat % 32)
    let Turns (i : Instr) (k' : Ctl) : Prop := s.Decodes c i → ∃ t, exec i s = .next t ∧
      s.Becomes t c { s.core c.val with ctl := k' } []
    let Writes (i : Instr) (v : W32) : Prop := Turns i { k.past i with regs := Tab.set 0 k.regs d.toNat v }
    let Logs (i : Instr) (op : Byte) (why : Reason) : Prop := k.recs.length < 16 → s.Decodes c i → ∃ detail t, exec i s = .next t ∧
      s.Becomes t c { s.core c.val with ctl := { k.past i with
        skipCount := satNat (2 ^ 32 - 1) (k.skipCount + 1)
        recs := k.recs ++ [⟨BitVec.ofNat 32 (s.entryOf c i).tick, k.offset, op, BitVec.ofNat 16 c.val, why, detail⟩] } } []
    (∀ v, Writes (.mova c δ d true v) v) ∧
    (∀ v, Writes (.mova c δ d false v) (Tab.get 0 k.regs (v.toNat % 32))) ∧
    Writes (.adda c δ d a bk b) (A + B) ∧ Writes (.suba c δ d a bk b) (A - B) ∧
    Writes (.shla c δ d a bk b) (A <<< (B.toNat % 32)) ∧ Writes (.anda c δ d a bk b) (A &&& B) ∧
    (B ≠ 0 → Writes (.moda c δ d a bk b) (A % B)) ∧
    (B = 0 → Logs (.moda c δ d a bk b) 0x15 .divZero) ∧
    (∀ n, A.toNat + n.toNat < 4096 →
      Writes (.lda c δ d true a n) (Tab.get 0 (s.core c.val).vec.consts (A.toNat + n.toNat))) ∧
    (∀ n, 4096 ≤ A.toNat + n.toNat →
      Logs (.lda c δ d true a n) 0x16 .badAddress) ∧
    (∀ n, Writes (.lda c δ d false 0 n) (s.paramWord c.val n.toNat))

/-- NOP only moves the cursor; HALT stops decoding; a LOOP with a nonzero count opens a level with that count, one with count 0 passes
over its body; ENDLOOP goes back to the body while repetitions remain and otherwise closes the level; a WAITF with N above 0 stops
decoding, one with N = 0 is skipped with BAD_FIELD (07 R148, R157, R158, R159, R163; 08 R179). -/
def Obligations.ControlWordsComplete : Prop :=
  ∀ (s : State) (c : CoreId) (δ : BitVec 12),
    let k := (s.core c.val).ctl
    let Turns (i : Instr) (k' : Ctl) : Prop := s.Decodes c i → ∃ t, exec i s = .next t ∧
      s.Becomes t c { s.core c.val with ctl := k' } []
    (let i : Instr := .nop c δ; Turns i (k.past i)) ∧
    (let i : Instr := .halt c δ; Turns i { k.past i with dec := .halted }) ∧
    (∀ src n, let i : Instr := .loop c δ src n;
      let count : W32 := if src then Tab.get 0 k.regs (16 + n.toNat) else n.setWidth 32
      (count ≠ 0 → Turns i { k.past i with loops := k.loops ++ [⟨count, k.offset + 1⟩] }) ∧
      (count = 0 → Turns i { k.past i with dec := .skipping 0 })) ∧
    (∀ outer top, k.loops = outer ++ [top] → let i : Instr := .endloop c δ;
      (top.remaining = 1 → Turns i { k.past i with loops := outer }) ∧
      (top.remaining ≠ 1 → Turns i { k.past i with
        loops := outer ++ [⟨top.remaining - 1, top.body⟩], offset := top.body })) ∧
    (∀ f n, n ≠ 0 → let i : Instr := .waitf c δ f n;
      Turns i { k.past i with dec := .waiting f n (s.entryOf c i).tick, waitFrom := s.clk.tick + s.clk.heldTotal }) ∧
    (∀ f, k.recs.length < 16 → let i : Instr := .waitf c δ f 0;
      Turns i { k.past i with
        skipCount := satNat (2 ^ 32 - 1) (k.skipCount + 1)
        recs := k.recs ++ [⟨BitVec.ofNat 32 (s.entryOf c i).tick, k.offset, 0x04, BitVec.ofNat 16 c.val, .badField, 0⟩] })

/-- SETF, INCF and DECF put their change of a flag in flight for the end of their tick, in the order SETF, INCF, DECF (07 R159, R160);
a SIGNAL to a core of the package increments the flag there 2 ticks, one per hop and 6 per course boundary later, one to a core that is not there
logs BAD_TARGET (07 R161); one to another package enters the outbound buffer as a cell of channel 1 with the number of its step; EXPECT closes
its transfer id (08 R180); MARK records itself (07 R169).
The model's choices in it: log entries 89, 97. -/
def Obligations.FlagWordsComplete : Prop :=
  ∀ (s : State) (c : CoreId) (δ : BitVec 12) (f : BitVec 6),
    let T := s.clk.tick
    (∀ v, let i : Instr := .setf c δ f v;
      s.Issues c i .control → ∃ t, exec i s = .next t ∧
        s.Becomes t c (s.issued c i .control 1) [⟨2 * T + 1, 41, c.val, .setFlag f.toNat v⟩]) ∧
    (let i : Instr := .incf c δ f;
      s.Issues c i .control → ∃ t, exec i s = .next t ∧
        s.Becomes t c (s.issued c i .control 1) [⟨2 * T + 1, 42, c.val, .incFlag f.toNat⟩]) ∧
    (let i : Instr := .decf c δ f;
      s.Issues c i .control → ∃ t, exec i s = .next t ∧
        s.Becomes t c (s.issued c i .control 1) [⟨2 * T + 1, 43, c.val, .decFlag f.toNat (s.entryOf c i)⟩]) ∧
    (∀ r d, let i : Instr := .signal c δ f r;
      let w := Tab.get 0 (s.core c.val).ctl.regs r.toNat
      s.Issues c i .control → s.destHere w = true → destReserved w = 0 → s.physOf (destCore w) = some d →
        s.partOf d = s.partOf c.val → ∃ t, exec i s = .next t ∧
          s.Becomes t c (s.issued c i .control 1)
            [⟨2 * (T + 2 + meshHops c.val d + 6 * meshCrossings c.val d) + 1, 42, d, .signalFlag f.toNat c.val⟩]) ∧
    (∀ r, let i : Instr := .signal c δ f r;
      let w := Tab.get 0 (s.core c.val).ctl.regs r.toNat
      let k := (s.core c.val).ctl
      s.Issues c i .control → s.destHere w = true → destReserved w = 0 → s.physOf (destCore w) = none → k.recs.length < 16 →
        ∃ t, exec i s = .next t ∧ s.Becomes t c { s.issued c i .control 1 with ctl := { k.past i with
          skipCount := satNat (2 ^ 32 - 1) (k.skipCount + 1)
          recs := k.recs ++ [⟨BitVec.ofNat 32 (s.entryOf c i).tick, k.offset, (s.entryOf c i).opcode,
            BitVec.ofNat 16 (c.val + 512 * (s.entryOf c i).source), .badTarget, BitVec.ofNat 32 (destCore w)⟩] } } []) ∧
    (∀ r, let i : Instr := .signal c δ f r;
      let w := Tab.get 0 (s.core c.val).ctl.regs r.toNat
      s.Issues c i .control → s.destHere w = false → destReserved w = 0 → s.placeOk (destPlace w) = true →
        ∃ t, exec i s = .next t ∧ s.Becomes t c { s.issued c i .control 1 with
          xfer := { (s.core c.val).xfer with outbound := (s.core c.val).xfer.outbound ++ [
            mkCell w s.place (destCore w) 1 0 0 (s.tenantOf c.val) (f.setWidth 12) 0 1 .signal
              (leBytes 8 (s.stepOf c.val).num.toNat)] } } []) ∧
    (∀ tid o, let i : Instr := .expect c δ tid;
      s.Issues c i .control → o ∈ (s.core c.val).xfer.tids → o.tid = tid.toNat → ∃ t, exec i s = .next t ∧
        s.Becomes t c { s.issued c i .control 1 with
          xfer := { (s.core c.val).xfer with tids := (s.core c.val).xfer.tids.filter (·.tid != tid.toNat) } } []) ∧
    (∀ m, let i : Instr := .mark c δ m;
      s.Issues c i .control → s.dbg.en = false → m.toNat < 0xEE00 → ∃ t, exec i s = .next t ∧
        s.Becomes t c { s.issued c i .control 1 with
          ctl := { (s.core c.val).ctl.past i with
            lastMark := m, lastMarkTick := BitVec.ofNat 32 (s.entryOf c i).tick } } [])

/-! ### Lane words -/

/-- STRING and STRINGT put the tuning set of the block in flight for tick t + 4; SWAPT exchanges the sets; BOW and BOWG take their
operand in their tick, to be bowed with the set active at its end; ZACC and WINDOW clear an index, WINDOW with a new base; DRAIN
writes the rounded values of an index two ticks later and ORs what it met into the status (02 R27, R37 to R40; 03 R49, R50, R57 to R62,
R66; 05 R103). -/
def Obligations.LaneWordsComplete : Prop :=
  ∀ (s : State) (c : CoreId) (δ : BitVec 12),
    let T := s.clk.tick
    let x := s.core c.val
    let r := x.ctl.regs
    (∀ block fmt l trans b, let i : Instr := if trans then .stringt c δ block fmt l else .string c δ block fmt l;
      s.Issues c i .restring → resolveWb r block = (b, none) → isWeight fmt.toNat = true →
        (trans = true → fmt ≠ 6 ∧ (x.ws.record b).square = true) → x.ws.kindOf b = 1 → x.ws.blockBad b = false →
        ∃ t, exec i s = .next t ∧ s.Becomes t c { s.issued c i .restring 1 with ws := x.ws.correct b }
          [⟨2 * (T + 4), 0, c.val, .restring (mkTuneSet b (x.ws.block b) (x.ws.record b) fmt trans (l.toNat + 1))⟩]) ∧
    (let i : Instr := .swapt c δ;
      s.Issues c i .swap → ∃ t, exec i s = .next t ∧
        s.Becomes t c { s.issued c i .swap 1 with lane := { x.lane with activeB := !x.lane.activeB } } []) ∧
    (∀ data k nib e afmt ssrc scale rls at_, let i : Instr := .bow c δ data k nib e afmt ssrc scale rls;
      let a := (Tab.get 0 r (scale.toNat % 16)).toNat
      let rows := at_.rows ++ (if ssrc then [a / 64, (a + 1) / 64] else [])
      s.Issues c i .bow → resolveSr x.sp r data 1 = (at_, none) → checkRelease x.sp r data rls = none →
        (afmt = 3 → e.toNat < 32) → (ssrc = true → a ≤ 393214) → ∃ t, exec i s = .next t ∧
          s.Becomes t c (s.issued c i .bow (if afmt = 3 then 2 else 1))
            [⟨2 * T + 1, 0, c.val, .bowTake
              ⟨k.toNat, nib, e.toNat + 1, afmt, if ssrc then x.sp.mem.byte a else scale,
                if ssrc then x.sp.mem.byte (a + 1) else scale, x.sp.row (at_.rows.headD 0)⟩
              none none (if rls = 0 then none else some (data.reg.toNat, cnt r rls)) rows (s.entryOf c i)⟩]) ∧
    (∀ list base k nib e afmt ssrc scale row, let i : Instr := .bowg c δ list base k nib e afmt ssrc scale;
      s.Issues c i .bow → resolveSa r list 2 = (row, none) → afmt ≠ 3 →
        (ssrc = true → (Tab.get 0 r (scale.toNat % 16)).toNat ≤ 393214) →
        ∃ t, exec i s = .next t ∧ s.Becomes t c (s.issued c i .bow 2)
          [⟨2 * T + 1, 0, c.val, .bowTake
            ⟨k.toNat, nib, e.toNat + 1, afmt, scale, scale, []⟩
            (some ⟨Tab.get 0 r base.toNat, x.sp.row row, row + 1,
              if ssrc then some (Tab.get 0 r (scale.toNat % 16)).toNat else none, s.plannedFor c.val T⟩)
            none none [row] (s.entryOf c i)⟩]) ∧
    (∀ k, let i : Instr := .zacc c δ k;
      s.Issues c i .accumulator → ∃ t, exec i s = .next t ∧
        s.Becomes t c (s.issued c i .accumulator 1) [⟨2 * T + 1, 1, c.val, .accClear k.toNat none⟩]) ∧
    (∀ k wsrc w vs e, let i : Instr := .window c δ k wsrc w vs e;
      let W : Int := if wsrc then (x.vec.elem vs.toNat e.toNat).toInt else w.toInt
      s.Issues c i .accumulator → -512 ≤ W → W ≤ 511 → ∃ t, exec i s = .next t ∧
        s.Becomes t c (s.issued c i .accumulator 1) [⟨2 * T + 1, 1, c.val, .accClear k.toNat (some W)⟩]) ∧
    (∀ k vd fmt rm clr fm m, let i : Instr := .drain c δ k vd fmt rm clr;
      let out (j : Nat) := roundOut fm m (if m == .st then s.draw c.val r 1 0 j else 0) false 0 (s.accNow c.val k.toNat j)
      s.Issues c i .accumulator → Fmt.ofCode fmt.toNat = some fm → drainTarget fm = true → RM.ofCode rm.toNat = some m →
        x.lane.readBad k.toNat = false → ∃ t, exec i s = .next t ∧
          s.BecomesBut t c (s.issued c i .accumulator 1)
            (⟨2 * (T + 2) + 1, 20, c.val, .vreg vd.toNat 0 ((List.range 64).map (fun j => BitVec.ofNat 32 (out j).1))⟩ ::
              (if clr then [⟨2 * T + 1, 1, c.val, .accClear k.toNat none⟩] else [])) ∧
          (t.core c.val).ctl.status =
            x.ctl.status ||| exitMask (RFlags.all ((List.range 64).map (fun j => (out j).2))))

/-! ### Steps, page groups, cancels -/

/-- Steps: at an admission point a due drone slot is put before it, a solver group with nothing queued waits, and a queued STEP starts the
next step number; a member begins what STEP_START names: the cores decode from then on where they are free; 64 cycles later, with the
early items in for 8, TICK_ZERO lets the step run from the present tick; a member's report joins the lead's, one of an abort ends the step and
tells the members; one commit action is taken in a cycle; the first waiting cancel is registered and answered (07 R151, R168; 09 R210, R219;
10 R231; 14 R549; 15 R340, R341, R352, R360; 20 R461).
The model's choices in it: log entries 32, 35, 96. -/
def Obligations.StepEventsComplete : Prop :=
  ∀ (s : State) (g : Slot),
    let k := s.group g.val
    let run := s.step' g.val
    k.formed = true → s.passThrough = false → (s.spillKeys g.val).next = false → s.clk.holds.contains .replayStop = false →
    (k.lead = true → run.busy = false → run.retryDue = false → k.saved = none → k.serve.recover = [] → s.maint.running ≠ 6 →
      (s.droneDue g.val = true → k.droneSlot = false → exec (.admissionPoint g) s =
        .next (s.updGroup g.val (fun k => { k with droneSlot := true }))) ∧
      (s.droneDue g.val = false → k.solver = true → k.live = [] → k.swap.phase = .none →
        (k.serve.stepq = [] → exec (.admissionPoint g) s = .next (s.updGroup g.val (fun k => { k with droneSlot := false }))) ∧
        (∀ x e blk, k.serve.stepq = [(x, e, blk)] → bitsN (fieldN e 1 1) 1 0 = 0 → k.stepLast ≠ 0xFFFFFFFFFFFFFFFF →
          s.canStart g.val = true → (s.image g.val).entries.any (fun p => p.1 == fieldN e 2 1) = true → fieldN blk 236 4 = 0 →
          k.serve.reqs.length ≤ k.entries → ∃ t, exec (.admissionPoint g) s = .next t ∧
            (t.group g.val).stepLast = k.stepLast + 1 ∧ (t.group g.val).serve.stepq = [] ∧ (t.step' g.val).num = k.stepLast + 1 ∧
            (t.step' g.val).sub = some x ∧ (t.step' g.val).seed = BitVec.ofNat 64 (fieldN e 16 8) ∧
            (∀ h, h ≠ g.val → t.group h = s.group h) ∧ s.StepComes t g.val))) ∧
    (∀ num entry voicing seed params replay lastOld, k.lead = false → run.onCores = false → ∃ t,
      exec (.stepStartReceived g num entry voicing seed params replay lastOld) s = .next t ∧
        (t.step' g.val).num = num ∧ (t.step' g.val).entry = entry.toNat ∧ (t.step' g.val).seed = seed ∧
        (t.step' g.val).replay = replay ∧ (∀ h, h ≠ g.val → t.group h = s.group h) ∧ s.StepComes t g.val) ∧
    (∀ from_ ready, run.phase = .starting → run.decodeAt = some from_ → from_ + 64 ≤ s.clk.tick + s.clk.heldTotal →
      run.readyAt = some ready → ready + 8 ≤ s.clk.tick + s.clk.heldTotal →
      k.swap.phase = .none → s.dir.ready = true → s.dir.host = [] → s.dir.clearing = none → s.enabled.Nodup → s.NoQueue →
      (∃ c ∈ s.coresOf k.owner, (s.core c).ctl.finished = false) →
      (∀ c ∈ s.coresOf k.owner, (s.core c).xfer.waiting = []) → ∃ t, exec (.tickZero g) s = .next t ∧
        (t.step' g.val).phase = .running ∧ (t.step' g.val).s0 = s.clk.tick ∧
        (∀ c ∈ s.coresOf k.owner, t.core c = { s.core c with ctl := { (s.core c).ctl with s0 := s.clk.tick, preStart := false } }) ∧
        (∀ c, c ∉ s.coresOf k.owner → t.core c = s.core c) ∧ (∀ h, h ≠ g.val → t.step' h = s.step' h) ∧
        t = { s with cores := t.cores, steps := t.steps, hazards := [], trace := [] }) ∧
    (∀ place other budget report, k.lead = true → run.live = true → place ≠ s.place → place ∉ run.reports →
      place ∈ k.members.map (·.place) → report.status = 0 → other ∈ k.members.map (·.place) → other ∉ run.reports → other ≠ place →
      exec (.stepFinishedReport g place run.num budget report) s =
        .next ((s.updStep g.val (fun r => { r with reports := r.reports ++ [place], gath := addReports r.gath report })).updServe g.val
          (fun v => { v with budgetStates := Recs.put v.budgetStates place.toNat budget.toNat }))) ∧
    (∀ place budget report, k.lead = true → run.live = true → place ≠ s.place → place ∉ run.reports →
      place ∈ k.members.map (·.place) → report.status ≠ 0 → exec (.stepFinishedReport g place run.num budget report) s =
        .next (((s.takeReport g.val place report).endStep g.val (StepStatus.ofCode report.status) true).ctl
          (.stop g.val run.num report.status))) ∧
    (run.phase = .committing → k.serve.cancels = [] →
      (∀ b, run.batch[run.commitPos]? = some b → run.commitPos + 1 < run.batch.length → b.prefill = true → b.last = false →
        run.unreadable = false → (s.req g.val b.entry).state ≠ .free → (s.req g.val b.entry).id = b.id →
        exec (.requestCommit g) s = .next ((s.updReq g.val b.entry (fun r => { r with
            pos := r.pos + b.count, unrun := r.unrun.drop b.count, lastStep := run.num.setWidth 32 })).updStep g.val
          (fun x => { x with commitPos := x.commitPos + 1 }))) ∧
      (run.batch = [] → k.serve.pauses = [] → exec (.requestCommit g) s = .next (s.endCommit g.val))) ∧
    (∀ x id l, k.serve.cancels = (x, id) :: l →
      let q := s.updServe g.val (fun v => { v with cancels := l })
      let answer (t : State) (status : Nat) : State := t.complete x (complBytes 2 status true x.tag id.toNat 0 0 s.station)
      (k.serve.find id = none → (s.func x.func).recent.contains id = false →
        exec (.cancelRegister g) s = .next (answer q 2)) ∧
      (∀ e r, k.serve.find id = some (e, r) → r.func = x.func → r.state ≠ .spilling → r.state ≠ .reloading → r.acancel = false →
        exec (.cancelRegister g) s = .next (answer (q.endReq g.val e 5) 0)))

/-- Page groups: a member advances a freed group's generation and acknowledges; the group joins the free list with the last
acknowledgement. A member writes its spill records or restores its pages and reports; the lead waits for the others, and with the last
report the request is SPILLED, or IDLE again (14 R324, R328, R335, R337).
The model's choices in it: log entry 19. -/
def Obligations.PageEventsComplete : Prop :=
  ∀ (s : State) (g : Slot),
    let k := s.group g.val
    k.formed = true →
    (k.lead = false → (∀ group, exec (.advance g group) s =
        .next ({ s with pageGens := Recs.upd [] s.pageGens g.val (fun t => Tab.upd 0 t group.toNat (fun n => (n + 1) % 65536)) }.ctl
          (.advanceAck g.val group.toNat))) ∧
      (∀ id groups oldest newest full, exec (.spillRecordsWritten g s.place id groups oldest newest full) s =
        let t := s.writeSpill g.val id (groups.map (·.toNat))
        .next (t.ctl (.spillDone g.val id (s.spillGen g.val, s.spillGen g.val) (decide (2 ^ 40 ≤ (t.spillKeys g.val).counter))))) ∧
      (∀ id groups records status, exec (.reloadComplete g s.place id groups records status) s =
        let r := s.restorePages g.val id (s.spillPages g.val (groups.map (·.toNat))) records
        .next (r.2.ctl (.reloadDone g.val id r.1)))) ∧
    (∀ place (group : BitVec 18) l, (∀ y ∈ l, y.1 ≠ group.toNat) →
      (k.serve.freeing = (group.toNat, [place]) :: l → exec (.advanceAck g place group) s =
        .next (s.updServe g.val (fun v => { v with freeing := l, taken := v.taken.erase group.toNat }))) ∧
      (∀ other, other ≠ place → k.serve.freeing = (group.toNat, [place, other]) :: l → exec (.advanceAck g place group) s =
        .next (s.updServe g.val (fun v => { v with freeing := l ++ [(group.toNat, [other])] })))) ∧
    (k.lead = true → ∀ place id e r, place ≠ s.place → k.serve.find id = some (e, r) →
      (∀ other groups (oldest newest : W32), r.state = .spilling → (s.req g.val e).waitOn = [place, other] → r.waitOn = [place, other] →
        other ≠ place → (s.req g.val e).spillGens = none →
        exec (.spillRecordsWritten g place id groups oldest newest false) s =
          .next (s.updReq g.val e (fun r => { r with waitOn := [other], spillGens := some (oldest.toNat, newest.toNat) }))) ∧
      (∀ groups (oldest newest : W32), r.state = .spilling → s.req g.val e = r → r.waitOn = [place] → r.spillGens = none →
        r.waitSub = none → r.pages = [] → r.cancelAfter = false → (∀ c ∈ k.serve.conts, c.2.1 ≠ r.id) → ∃ t,
        exec (.spillRecordsWritten g place id groups oldest newest false) s = .next t ∧ (t.req g.val e).state = .spilled ∧
          (t.req g.val e).spillGens = some (oldest.toNat, newest.toNat) ∧
          (t.req g.val e).list = BitVec.ofNat 32 r.spillSet ∧ t = { s with groups := t.groups } ∧
          (∀ h, h ≠ g.val → t.group h = s.group h) ∧ (∀ e', e' ≠ e → t.req g.val e' = s.req g.val e')) ∧
      (∀ groups records, r.state = .reloading → s.req g.val e = r → r.waitOn = [place] → r.waitSub = none → r.cancelAfter = false →
        (∀ c ∈ k.serve.conts, c.2.1 ≠ r.id) → ∃ t, exec (.reloadComplete g place id groups records 0) s = .next t ∧
          (t.req g.val e).state = .idle ∧ (t.req g.val e).pages = r.pages ∧ t = { s with groups := t.groups } ∧
          (∀ h, h ≠ g.val → t.group h = s.group h) ∧ (∀ e', e' ≠ e → t.req g.val e' = s.req g.val e')))

/-! ### The key directory, weight loads -/

/-- The directory: a lookup engine writes the result of its next key, the last one completing the transfer, an uncorrectable bucket restores
the block and delivers none; the update sequencer applies one entry; compaction passes over a bucket with room, writes the first way of a
full one that its other bucket can take there, and clears the original way in the second cycle; READY is set; a DIR_UPDATE of the
directory's owner waits for the step boundary, anyone else's is refused (16 R368 to R376; 18 Table 18.4).
The model's choices in it: log entry 101 (an uncorrectable bucket of a KDPUT entry). -/
def Obligations.DirEventsComplete : Prop :=
  ∀ (s : State),
    (∀ (course : Fin 8) j key l, s.kdq = [j] → j.put = false → courseOf j.core = course.val → j.items = key :: l →
      let b := dirBuckets (max 1 s.dirNb) (BitVec.ofNat 64 (leNat key))
      let q := (s.dirRead b.1).dirRead b.2
      let landed := q.landEnd s.clk.tick 13 j.core (.bytes (64 * (j.row + j.done / 8) + 8 * (j.done % 8))
        (q.lookupResult (BitVec.ofNat 64 (leNat key))))
      (s.bucketBad b.1 = none → s.bucketBad b.2 = none →
        (l ≠ [] → exec (.dirLookup course) s = .next { landed with kdq := [{ j with items := l, done := j.done + 1 }] }) ∧
        (l = [] → exec (.dirLookup course) s = .next (({ landed with kdq := [] } : State).tidComplete j.core j.tid))) ∧
      (∀ c blk, s.bucketBad b.1 = some (c, blk) → exec (.dirLookup course) s =
        .next ((({ s with kdq := [] } : State).startRestore c blk).coreFault j.core 0x0010 2 1 0xFFFF blk))) ∧
    (∀ j e e2 l, s.dir.clearing = none → s.kdq = [j] → j.put = true → j.items = e :: e2 :: l →
      let b := dirBuckets (max 1 s.dirNb) (wayKey e)
      (s.bucketBad b.1 = none → s.bucketBad b.2 = none →
        exec .dirUpdateApply s = .next { (s.dirUpdate j.del e).2 with kdq := [{ j with items := e2 :: l }] }) ∧
      (∀ c blk, s.bucketBad b.1 = some (c, blk) → exec .dirUpdateApply s =
        .next ((({ s with kdq := [] } : State).startRestore c blk).coreFault j.core 0x0010 2 1 0xFFFF blk))) ∧
    (∀ b w, s.dir.clearing = some (b, w) → exec .compactionMove s =
      .next (let t := s.setWay b w (List.replicate 16 0)
        { t with dir := { t.dir with visit := (t.dir.visit + 1) % max 1 t.dirNb, clearing := none } })) ∧
    (s.dir.clearing = none → s.dirNb ≠ 0 → s.backgroundPaused = false →
      (s.dirCount (s.dir.visit % s.dirNb) < 4 → exec .compactionMove s =
        .next { s with dir := { s.dir with visit := (s.dir.visit + 1) % s.dirNb, clearing := none } }) ∧
      (∀ w l v, 4 ≤ s.dirCount (s.dir.visit % s.dirNb) →
        (List.range 4).filter (fun w => decide (s.dirCount (otherBucket s.dirNb (s.dir.visit % s.dirNb)
          (wayKey (s.dirWay (s.dir.visit % s.dirNb) w))) ≤ 2)) = w :: l →
        let e := s.dirWay (s.dir.visit % s.dirNb) w
        let o := otherBucket s.dirNb (s.dir.visit % s.dirNb) (wayKey e)
        s.dirFree o = some v → exec .compactionMove s =
          .next { s.setWay o v e with dir := { (s.setWay o v e).dir with clearing := some (s.dir.visit % s.dirNb, w) } })) ∧
    (s.passThrough = false → s.dir.ready = true ∨ s.freshBits 0x1024 = 0 → exec .dirReadySet s = .next { s with dir := { s.dir with ready := true } }) ∧
    (∀ (f : FuncId) x data, s.front f.val 0x13 = some x →
      let count := fieldN x.bytes 8 4
      let q := s.popSub f.val
      (f.val ≠ s.dir.owner → exec (.dirUpdate f data) s = .next (q.answer f.val x 0xFD 0 0)) ∧
      (f.val = s.dir.owner → fieldN x.bytes 1 1 ≤ 1 → 1 ≤ count → count ≤ 65535 →
        x.reservedZero [(1, 1), (8, 4), (40, 1), (48, 8)] = true → s.rangeOk f.val x (16 * count) = true →
        exec (.dirUpdate f data) s = .next { q with dir := { q.dir with host := q.dir.host ++
          [⟨x.ref f.val, fieldN x.bytes 1 1 == 1, (List.range count).map (fun i => sliceB data (16 * i) 16), [], s.now⟩] } }))

/-- Loads and swaps: a SWAP of PF0 for a led group starts the activity and sends the manifest, one of another function is refused; a
member stages a section that checks, answers PLACEMENT for one that does not; the lead collects STAGED and LOADED, a failure ends the swap;
a chunk of a wrong length or hash fails, one whose layer is not released is held; a chunk without progress fails with LENGTH; ABANDON
without a stall is refused; VALID of the parity is set (17 R381, R382, R388 to R395; 24 R531).
The model's choices in it: log entries 9, 25, 46. -/
def Obligations.LoadEventsComplete : Prop :=
  ∀ (s : State) (g : Slot), s.passThrough = false →
    let k := s.group g.val
    let w := k.swap
    (∀ (f : FuncId) x manifest others, s.front f.val 0x12 = some x → f.val ≠ 0 → exec (.swap f manifest others) s =
      .next ((s.popSub f.val).answer f.val x 0xFD 0 0)) ∧
    (∀ x manifest others, s.front 0 0x12 = some x →
      (List.range 16).find? (fun h => (s.group h).formed && (s.group h).id == x.id && (s.group h).lead) = some g.val →
      s.maintBusy = false → s.maint.suspended = none → fieldN x.bytes 1 1 = 1 → k.loadSrc.toNat % 2 = 1 →
      x.reservedZero [(1, 1), (8, 8), (40, 1), (48, 16)] = true → s.rangeOk 0 x manifest.length = true →
      let status := s.manifestFail g.val manifest others true
      ∃ t, exec (.swap 0 manifest others) s = .next t ∧
        t = { s with groups := t.groups, funcs := t.funcs, maint := t.maint, sec := { s.sec with meas := t.sec.meas }, out := t.out } ∧
        (status ≠ 0 → t = (s.popSub 0).answer 0 x status 0 0) ∧
        (status = 0 → t.maint.running = 3 ∧ t.maint.arg = g.val ∧ (t.group g.val).swap.phase = .staging ∧
          (t.group g.val).swap.policy = 1 ∧ (t.group g.val).swap.nextGen = BitVec.ofNat 32 (fieldN manifest 8 4) ∧
          (t.group g.val).serve.gen = k.serve.gen ∧
          t.out.mgt = s.out.mgt ++ (if (s.others g.val).isEmpty then [] else [.manifest g.val manifest]))) ∧
    (∀ manifest sec, k.formed = true → k.lead = false → s.maintBusy = false → s.maint.suspended = none →
      let entry := sliceB manifest (256 + 80 * s.memberIndex g.val) 80
      (sec.length ≠ fieldN entry 8 8 → exec (.swapStage g manifest sec) s = .next (s.ctl (.staged g.val 7))) ∧
      (∀ ks, sec.length = fieldN entry 8 8 → s.sectionChunks sec (fieldN manifest 16 2) (fieldN manifest 20 2) = some ks → ∃ t,
        exec (.swapStage g manifest sec) s = .next t ∧
          t = { s with groups := t.groups, maint := t.maint, sec := { s.sec with meas := t.sec.meas }, out := t.out } ∧
          (Config.sha512 sec ≠ sliceB entry 16 64 → t = s.ctl (.staged g.val 7)) ∧
          (Config.sha512 sec = sliceB entry 16 64 → t.maint.running = 3 ∧ (t.group g.val).swap.phase = .staging ∧
            (t.group g.val).swap.chunks.length = ks.length ∧ t.out.ctl = s.out.ctl ++ [.staged g.val 0]))) ∧
    (∀ place other, k.lead = true → w.phase = .staging → place ∈ s.others g.val → place ∉ w.staged →
      (∀ status, status ≠ 0 → exec (.staged g place status) s = .next (s.endSwap g.val status.toNat)) ∧
      (other ∈ k.places → other ∉ w.staged → other ≠ place → exec (.staged g place 0) s =
        .next (s.updSwap g.val (fun w => { w with staged := w.staged ++ [place] })))) ∧
    (k.lead = false → w.phase = .staging → exec (.releaseAll g) s =
      .next (((s.updSwap g.val (fun w => { w with phase := .loading })).releaseEvery g.val).checkLoaded g.val)) ∧
    (∀ place other, k.lead = true → w.phase = .loading → place ∈ s.others g.val → place ∉ w.loadedBy → other ∈ k.places →
      other ∉ w.loadedBy → other ≠ place → exec (.loaded g place) s =
        .next (s.updSwap g.val (fun w => { w with loadedBy := w.loadedBy ++ [place] }))) ∧
    (∀ (i : W32) x stream data, w.chunk i.toNat = some x → x.attempts ≠ 0 → x.verified = false → x.held = none →
      let q := s.updSwap g.val (fun w => { w with stalled := if w.stalled.map (·.1) == some i.toNat then none else w.stalled })
      (data.length ≠ x.encLen → exec (.chunkReceived g i stream data) s = .next (q.chunkFailed g.val i.toNat 1 stream.toNat)) ∧
      (data.length = x.encLen → Config.sha512 data ≠ x.srcHash → exec (.chunkReceived g i stream data) s =
        .next (q.chunkFailed g.val i.toNat 2 stream.toNat)) ∧
      (data.length = x.encLen → Config.sha512 data = x.srcHash → q.chunkFree g.val x = false →
        exec (.chunkReceived g i stream data) s = .next (q.updChunk g.val i.toNat (fun k => { k with held := some data }))) ∧
      (data.length = x.encLen → Config.sha512 data = x.srcHash → q.chunkFree g.val x = true →
        exec (.chunkReceived g i stream data) s =
          .next (((q.writeChunk g.val i.toNat stream.toNat data).fetchChunks g.val).checkLoaded g.val)) ∧
      (w.stalled.map (·.1) ≠ some i.toNat →
        exec (.chunkTimeout g i stream) s = .next (s.chunkFailed g.val i.toNat 1 stream.toNat))) ∧
    (w.stalled = none → exec (.abandon g) s = .next (s.refuse 0x1008)) ∧
    (w.stalled.isSome = true → exec (.abandon g) s =
      .next ((s.updServe g.val (fun v => { v with gen := none })).endSwap g.val 9)) ∧
    exec (.parityValid g) s = .next ((s.updGroup g.val (fun k => { k with parity := true })).touch (parityAt g.val) 1)

/-! ### Submissions, rings, resets -/

/-- Submissions: one that names no group served here is answered NOT_PERMITTED; REQUEST joins the submissions that wait for admission, CANCEL
those that wait for registration; CONTINUE gives an IDLE request its tokens and DECODE; SPILL starts a spill of an IDLE request, RELOAD a
reload of a SPILLED one, RELEASE ends an IDLE or SPILLED one; STEP waits to start; LOAD_IMAGE is PF0's, and stays in its ring while a step
holds cores (18 R409, R410, R413, R414).
The model's choices in it: log entries 36, 58. -/
def Obligations.SubmissionsComplete : Prop :=
  ∀ (s : State) (f : FuncId) (x : Sub),
    let q := s.popSub f.val
    let answer (t : State) (status : Nat) : State := t.complete (x.ref f.val) (complBytes x.op status true x.tag x.complId 0 0 t.station)
    (s.front f.val 1 = some x → (∀ prompt, q.servingOf f.val x = none → exec (.request f prompt) s = .next (answer q 0xFD)) ∧
      (∀ g prompt, q.servingOf f.val x = some g → fieldN x.bytes 1 1 < 4 → fieldN x.bytes 2 1 < 64 → fieldN x.bytes 12 2 < 16384 →
        x.reservedZero [(1, 3), (8, 19), (28, 3), (32, 9), (48, 12)] = true → q.rangeOk f.val x (4 * fieldN x.bytes 24 3) = true →
        exec (.request f prompt) s = .next (q.updServe g (fun v => { v with
          news := v.news ++ [⟨x.ref f.val, x.bytes, fitTokens (fieldN x.bytes 24 3) prompt⟩] })))) ∧
    (s.front f.val 2 = some x → ∀ g, q.servingOf f.val x = some g → x.reservedZero [(8, 4), (56, 4)] = true →
      exec (.cancel f) s = .next (q.updServe g (fun v => { v with cancels := v.cancels ++ [(x.ref f.val, x.id)] }))) ∧
    (s.front f.val 3 = some x → (∀ status tokens, q.continueStatus f.val x = some status →
        exec (.continueReq f tokens) s = .next (answer q status)) ∧
      (∀ g e r tokens, q.continueStatus f.val x = none → q.servingOf f.val x = some g → q.ownReq f.val g x = some (e, r) →
        r.state = .idle → exec (.continueReq f tokens) s =
          .next ((answer q 0).updReq g e (fun r => { r with state := .decode, unrun := fitTokens (fieldN x.bytes 24 3) tokens })))) ∧
    (s.front f.val 4 = some x → (∀ status, q.reqTarget f.val x = .error status → exec (.spill f) s = .next (answer q status)) ∧
      (∀ g e r, q.reqTarget f.val x = .ok (g, e, r) →
        (r.state = .idle → exec (.spill f) s = .next (q.startSpill g e (some (x.ref f.val)))) ∧
        (r.state ≠ .idle → exec (.spill f) s = .next (answer q 2)))) ∧
    (s.front f.val 5 = some x → ∀ g e r, q.reqTarget f.val x = .ok (g, e, r) →
      (r.state = .spilled → r.waitSub = none → exec (.reload f) s = .next (q.startReload g e (some (x.ref f.val)))) ∧
      (r.state ≠ .spilled → exec (.reload f) s = .next (answer q 2))) ∧
    (s.front f.val 6 = some x → ∀ g e r, q.reqTarget f.val x = .ok (g, e, r) →
      (r.state = .idle ∨ r.state = .spilled → exec (.release f) s = .next (answer (q.endReq g e 0x0B) 0)) ∧
      (r.state ≠ .idle → r.state ≠ .spilled → exec (.release f) s = .next (answer q 2))) ∧
    (s.front f.val 0x10 = some x → ∀ g block,
      (List.range 16).find? (fun g => (q.group g).formed && (q.group g).lead && (q.group g).owner == f.val && (q.group g).id == x.id) =
        some g → (q.group g).solver = true → x.reservedZero [(1, 3), (8, 4), (16, 16), (40, 1), (48, 8)] = true →
      fieldN x.bytes 1 1 = 0 → fieldN x.bytes 2 1 < 64 → fieldN x.bytes 24 8 = 0 →
      q.rangeOk f.val x (368 + 32 * fieldN block 236 4) = true → exec (.step f block) s =
        .next (q.updServe g (fun v => { v with
          stepq := v.stepq ++ [(x.ref f.val, x.bytes, sliceB block 0 (368 + 32 * fieldN block 236 4))] }))) ∧
    (s.front f.val 0x11 = some x → ∀ file,
      (f.val ≠ 0 → exec (.loadImage f file) s = .next (answer q 0xFD)) ∧
      (f.val = 0 → x.reservedZero [(8, 4), (40, 1), (48, 16)] = true → fieldN x.bytes 56 8 = file.raw.length →
        q.rangeOk f.val x (fieldN x.bytes 56 8) = true →
        let slot := (List.range 16).find? (fun g => (q.group g).formed && (q.group g).id == x.id)
        let r := q.loadImage (Image.ofFile file) slot (imageSound file) file.differ
        ((∀ h < 16, (s.step' h).holdsCores = false) → exec (.loadImage f file) s = .next (r.2.2.answer f.val x r.1 r.2.1 0)) ∧
        (∀ h < 16, (s.step' h).holdsCores = true → exec (.loadImage f file) s = .next s)))

/-- The host interface: a kick, a due poll and a noted fetch ask for the doorbell page, one while a fetch is in flight is noted; the page
brings consumer indices forward and makes new submissions visible; a time threshold sends the ring's vector; RING_CTRL enables a ring
with its indices at 0, a disabled ring reads STOPPED; a Function Level Reset clears the function's set-up, PERST# all of them and the
interface (18 R398, R402 to R406, R411; 24 R539; 22 R500, R501).
The model's choices in it: log entries 9, 28, 60. -/
def Obligations.HostEventsComplete : Prop :=
  ∀ (s : State) (f : FuncId), s.funcUp f.val = true →
    let x := s.func f.val
    (x.pagesSet = true → x.fetching = false →
      let t := { s.updFunc f.val (fun x => { x with fetching := true }) with
        out := { s.out with hostReads := s.out.hostReads ++ [(f.val, x.dbPage, 776)] } }
      exec (.kick f) s = .next t ∧ (x.poll ≠ 0 → exec (.poll f) s = .next t)) ∧
    (x.pagesSet = true → x.fetching = true → exec (.kick f) s = .next (s.updFunc f.val (fun x => { x with noted := true }))) ∧
    (x.poll = 0 → x.waits = false → exec (.poll f) s = .next s) ∧
    (∀ page (ring : Fin 130), x.fetching = true → x.noted = false → x.waits = false → (∀ r ∈ x.rings, r.1 < 64 → r.2.en = false) →
      ∃ t, exec (.doorbellFetchComplete f page []) s = .next t ∧ (t.func f.val).fetching = false ∧
        ((t.func f.val).ring (64 + ring.val)).p = (x.ring (64 + ring.val)).p ∧
        ((t.func f.val).ring (64 + ring.val)).c =
          (let c := pageIndex page (64 + ring.val)
           let r := x.ring (64 + ring.val)
           if (c - r.c).toNat ≤ (r.p - r.c).toNat then c else r.c) ∧ t = { s with funcs := t.funcs, out := t.out } ∧
        (∀ h, h ≠ f.val → t.func h = s.func h)) ∧
    (∀ ring : Fin 194, 64 ≤ ring.val → (x.ring ring.val).en = true → (x.ring ring.val).since ≠ 0 → (x.ring ring.val).timeThr ≠ 0 →
      exec (.msixTimeThreshold f ring) s =
        .next ((s.updFunc f.val (fun x => x.updRing ring.val (fun r => { r with since := 0 }))).msix f.val (x.ring ring.val).vector)) ∧
    (∀ (ring : Fin 194) (value : W64), bitN value.toNat 5 = true → (x.ring ring.val).en = false → (x.ring ring.val).stopped = true →
      x.pagesSet = true → s.passThrough = false → x.waits = false → s.sec.owed = [] →
      4 ≤ bitsN value.toNat 4 0 → bitsN value.toNat 4 0 ≤ 16 → 1 ≤ bitsN value.toNat 22 14 → bitsN value.toNat 22 14 ≤ 256 →
      bitsN value.toNat 32 23 ≤ 1000 → 12 ≤ bitsN value.toNat 37 33 → bitsN value.toNat 37 33 ≤ 16 →
      exec (.ringEnable f ring value) s = .next (s.updFunc f.val (fun x => x.updRing ring.val (fun r => { r with
        s := bitsN value.toNat 4 0, vector := bitsN value.toNat 13 8, countThr := bitsN value.toNat 22 14
        timeThr := bitsN value.toNat 32 23, slot := if ring.val = 193 then bitsN value.toNat 37 33 else r.slot
        en := true, stopped := false, p := 0, c := 0, since := 0 })))) ∧
    (∀ (ring : Fin 194) (value : W64), bitN value.toNat 5 = true → bitsN value.toNat 4 0 < 4 → exec (.ringEnable f ring value) s =
      .next (s.refuse (ringAt f.val ring.val + 8))) ∧
    (∀ ring : Fin 194, exec (.ringDisable f ring) s =
      .next (s.updFunc f.val (fun x => x.updRing ring.val (fun r => { r with en := false, stopped := true })))) ∧
    (∃ t, exec (.functionLevelReset f) s = .next t ∧ (t.func f.val).rings = [] ∧ (t.func f.val).windows = [] ∧
      (t.func f.val).dbPage = 0 ∧ (t.func f.val).stPage = 0 ∧ (t.func f.val).subs = [] ∧ (t.func f.val).mbTimeout = 1000 ∧
      (t.func f.val).enabled = x.enabled ∧ (t.func f.val).dbMask = x.dbMask ∧
      ((∀ g, (s.group g).formed = false ∧ (s.group g).serve.reqs = []) →
        t = { s with funcs := t.funcs, groups := t.groups } ∧ ∀ h, h ≠ f.val → t.func h = s.func h)) ∧
    exec .perst s = .next (((List.range 9).foldl (fun t n => t.functionReset n) s).updMaint (fun m => { m with
      perst := true, hostUp := false })) ∧
    exec .perstRelease s = .next (s.updMaint (fun m => { m with
      perst := false
      hostUp := s.power.railIo && (decide (9 ≤ m.order) || s.passThrough || s.sec.recovery) }))

/-- Mailboxes and doorbells: SEND of a fitting message sets FULL and rings the soundpost, ignored while FULL; WITHDRAW, and the soundpost's
read, clear FULL; a timeout, a read and a withdrawal ring the host; a waiting reply goes into the empty inbound mailbox, a read empties it;
DB_HOST is write-one-to-clear, but for the bits set in the same cycle, an unmasked set bit sends the vector, DB_SP takes bits 8 to 31. A message of a peer's soundpost fills its
slot, one for a full slot is logged; a slot that stays full is marked (18 R422 to R425; 19 R437).
The model's choices in it: log entries 61, 62. -/
def Obligations.MailboxesComplete : Prop :=
  ∀ (s : State) (f : FuncId), s.funcUp f.val = true →
    let x := s.func f.val
    (∀ (value : W32) data, bitsN value.toNat 27 24 = 1 → x.mbo.full = false → 1 ≤ value.toNat % 512 → value.toNat % 512 ≤ 256 →
      8 ≤ bitsN value.toNat 20 16 → exec (.sendMbo f value data) s = .next (s.updFunc f.val (fun x => { x with
        mbo := { x.mbo with data := Tab.setList 0 [] 0 (data.take 256), len := value.extractLsb' 0 9, dbbit := value.extractLsb' 16 5
                            full := true }
        dbSp := x.dbSp ||| dbBit (value.extractLsb' 16 5) }))) ∧
    (∀ (value : W32) data, bitsN value.toNat 27 24 = 1 → x.mbo.full = true → exec (.sendMbo f value data) s =
      .next (s.updFunc f.val id)) ∧
    exec (.withdraw f) s = .next (s.updFunc f.val (fun x => { x with mbo := { x.mbo with full := false } })) ∧
    (x.mbo.full = true → exec (.mboTimeout f) s =
      .next (((s.updFunc f.val (fun x => { x with mbo := { x.mbo with timeout := true } })).touch (bar2Key f.val 0x20) 1).ringHost f.val 4)) ∧
    (x.mbo.full = true → mailboxTypes.contains (fieldN (Tab.getList 0 x.mbo.data 0 x.mbo.len.toNat) 0 2) = true →
      exec (.mboRead f) s = .next ((s.updFunc f.val (fun x => { x with mbo := { x.mbo with full := false } })).ringHost f.val 2)) ∧
    (∀ (dbbit : BitVec 5) m l, x.mbiWait = m :: l → x.mbi.full = false → 1 ≤ m.length → m.length ≤ 256 → ∃ t,
      exec (.mbiDeliver f dbbit) s = .next t ∧ (t.func f.val).mbi.full = true ∧ (t.func f.val).mbi.len = BitVec.ofNat 9 m.length ∧
        (t.func f.val).mbi.data = Tab.setList 0 [] 0 m ∧ (t.func f.val).mbiWait = l ∧ (t.func f.val).dbHost =
          (if 8 ≤ dbbit.toNat then x.dbHost ||| (1 ||| dbBit dbbit) else x.dbHost ||| 1) ∧
        (t.func f.val).mbo = x.mbo ∧ (t.func f.val).rings = x.rings ∧ (∀ h, h ≠ f.val → t.func h = s.func h) ∧
        t = { s with funcs := t.funcs, out := t.out, pkg := { s.pkg with fresh := t.pkg.fresh } }) ∧
    exec (.mbiConsume f) s = .next (s.updFunc f.val (fun x => { x with mbi := { x.mbi with full := false } })) ∧
    (x.mbi.full = true → exec (.mbiWithdrawn f) s =
      .next (((s.updFunc f.val (fun x => { x with mbi := { x.mbi with full := false, withdrawn := true } })).touch
        (bar2Key f.val 0x24) 1).ringHost f.val 8)) ∧
    (∀ bits, exec (.dbHostClear f bits) s = .next (s.updFunc f.val (fun x => { x with
      dbHost := x.dbHost &&& ~~~(bits &&& ~~~(BitVec.ofNat 32 (s.freshBits (bar2Key f.val 0x10)))) }))) ∧
    (∀ mask,
      let t := s.updFunc f.val (fun x => { x with dbMask := mask })
      (x.dbHost &&& x.dbMask &&& ~~~mask = 0 → exec (.dbHostMaskWrite f mask) s = .next t) ∧
      (x.dbHost &&& x.dbMask &&& ~~~mask ≠ 0 → exec (.dbHostMaskWrite f mask) s = .next (t.msix f.val x.dbVector))) ∧
    (∀ bits, exec (.dbSpSet f bits) s = .next (s.updFunc f.val (fun x => { x with dbSp := x.dbSp ||| (bits &&& 0xFFFFFF00) }))) ∧
    (∀ peer bytes read, s.sec.mgtSlots.find? (fun m => m.peer == peer) = none → exec (.mgtMessage peer bytes read) s =
      .next (s.updSec (fun y => { y with mgtSlots := y.mgtSlots ++ [⟨peer, true, false, bytes.take 256⟩] }))) ∧
    (∀ m, s.sec.mgtSlots = [m] → m.full = true →
      (∀ bytes, exec (.mgtMessage m.peer bytes false) s = .next (s.logFault 0x0082 6 0 none 0 0xFFFF 0xFFFF 0)) ∧
      exec (.mgtSlotTimeout m.peer) s = .next (s.updSec (fun y => { y with mgtSlots := [{ m with timeout := true }] })))

/-! ### The soundpost -/

/-- Firmware, keys, status and spill keys: only PF0 or board management may write; FW_BEGIN opens a write as the activity "firmware write"
and is answered BUSY while another activity runs; FW_PIECE puts its bytes at its offset; FW_END closes the write and answers DONE for an
image that verifies, BAD_IMAGE with FW_REJECTED otherwise; ten seconds without a piece close it; a watchdog logs and boots the soundpost. Keys
go into and out of their slots unless a partition is locked. SPILL_ROTATE starts "key retirement"; a member takes the next key and
acknowledges, the lead repeats three times and then abandons the rotation (19 R430, R436, R437, R448, R449; 20 R466).
The model's choices in it: log entries 10, 26, 63, 64. -/
def Obligations.FirmwareAndKeysComplete : Prop :=
  ∀ (s : State) (a : Asker) (seq : W32),
    (∀ payload, askerPf0 a = false → exec (.fwBegin a seq payload) s = .next (s.reply a 1 2 seq []) ∧
      exec (.fwPiece a seq payload) s = .next (s.reply a 2 2 seq []) ∧ exec (.fwEnd a seq payload) s = .next (s.reply a 3 2 seq []) ∧
      exec (.keyInstall a seq payload) s = .next (s.reply a 0x10 2 seq []) ∧
      exec (.keyRemove a seq payload) s = .next (s.reply a 0x11 2 seq [])) ∧
    (∀ payload, askerPf0 a = true → s.sec.recovery = false → s.sec.fwLen = none → payload.length = 4 →
      196 ≤ fieldN payload 0 4 → fieldN payload 0 4 ≤ 32 * 2 ^ 20 →
      (s.maintBusy = true → exec (.fwBegin a seq payload) s = .next (s.reply a 1 3 seq [])) ∧
      (s.maintBusy = false → s.maint.suspended = none → ∃ t, exec (.fwBegin a seq payload) s = .next t ∧ t.maint.running = 7 ∧
        t = { s.reply a 1 0 seq [] with sec := { s.sec with fwLen := some (fieldN payload 0 4) }, maint := t.maint })) ∧
    (∀ len bs (off : Nat), askerPf0 a = true → s.maint.suspended = none → s.sec.fwLen = some len → off % 4 = 0 → bs.length ≤ 244 →
      off + bs.length ≤ len → len ≤ 32 * 2 ^ 20 → exec (.fwPiece a seq (leBytes 4 off ++ bs)) s =
        .next ((s.updSec (fun x => { x with fwBytes := x.fwBytes.write off bs, stored := { x.stored with verifies := false } })).reply a 2 0
          seq [])) ∧
    (∀ len, askerPf0 a = true → s.maint.suspended = none → s.sec.fwLen = some len → s.sec.recovery = false → s.maint.running = 7 →
      let img := s.imageOf s.sec.fwBytes len
      let q := (s.updSec (fun x => { x with stored := img, fwLen := none })).endActivity
      exec (.fwEnd a seq []) s = .next (if img.verifies then q.reply a 3 0 seq [] else (q.security 0 5).reply a 3 5 seq [])) ∧
    (s.sec.fwLen.isSome = true → s.maint.suspended = none → s.maint.running = 7 → exec .fwWriteTimeout s =
      .next (s.updSec (fun x => { x with fwLen := none })).endActivity) ∧
    (s.maint.running = 0 → (∀ g, (s.step' g).phase = .none) → exec .fwWatchdog s =
      .next (s.logFault 0x0070 10 0 none 0 0xFFFF 0xFFFF 0).resetSoundpost) ∧
    (∀ kind slot (key : List Byte), askerPf0 a = true → kind ≤ 1 → (slot < if kind = 0 then 8 else 4) → key.length = 133 →
      fieldN key 0 1 = 4 →
      let bytes : List Byte := leBytes 1 kind ++ leBytes 1 slot ++ key
      (s.anyLocked = true → exec (.keyInstall a seq bytes) s = .next (s.reply a 0x10 4 seq []) ∧
        exec (.keyRemove a seq (bytes.take 2)) s = .next (s.reply a 0x11 4 seq [])) ∧
      (s.anyLocked = false →
        exec (.keyInstall a seq bytes) s =
          .next ((((s.updSec (fun x => x.setKey kind slot (some key))).remeasure 7).retainedChanged).reply a 0x10 0 seq []) ∧
        exec (.keyRemove a seq (bytes.take 2)) s =
          .next ((((s.updSec (fun x => x.setKey kind slot none)).remeasure 7).retainedChanged).reply a 0x11 0 seq []))) ∧
    exec (.status a seq []) s = .next (s.reply a 0x30 0 seq (sliceB (Recs.get ⟨[], 0⟩ s.sec.meas 6).value 0 64)) ∧
    (∀ g : Slot, s.maintBusy = false → s.maint.suspended = none → askerPf0 a = true →
      (List.range 16).find? (fun h => (s.group h).formed && (s.group h).lead && (s.group h).id == (s.group g.val).id) = some g.val →
      ∃ t, exec (.spillRotate a seq (leBytes 4 (s.group g.val).id.toNat)) s = .next t ∧ t.maint.running = 4 ∧ t.maint.arg = g.val ∧
        (t.spillKeys g.val).next = true ∧ (t.spillKeys g.val).waiting = s.others g.val ∧
        (t.spillKeys g.val).gen = (s.spillKeys g.val).gen ∧
        t = { s with sec := { s.sec with spill := t.sec.spill }, maint := t.maint, funcs := t.funcs, out := t.out }) ∧
    (∀ (g : Slot) (gen : W32), (s.group g.val).formed = true → (s.group g.val).lead = false →
      gen.toNat = ((s.spillKeys g.val).gen + 1) % 2 ^ 32 → exec (.spillKeyDistribute g gen none) s =
        .next ((s.updSpill g.val (fun k => { k with next := true, waiting := [] })).mgt (.spillKeyAck g.val gen.toNat))) ∧
    (∀ (g : Slot) (gen : W32) p, (s.group g.val).formed = true → (s.group g.val).lead = true →
      exec (.spillKeyDistribute g gen (some p)) s =
        .next (s.updSpill g.val (fun k => { k with waiting := k.waiting.filter (· != p) }))) ∧
    (∀ g : Slot, (s.group g.val).lead = true → (s.spillKeys g.val).next = true → (s.spillKeys g.val).waiting ≠ [] →
      ((s.spillKeys g.val).repeats < 3 → exec (.spillKeyAckTimeout g) s =
        .next ((s.updSpill g.val (fun k => { k with repeats := k.repeats + 1 })).sendSpillKey g.val)) ∧
      (3 ≤ (s.spillKeys g.val).repeats → s.maint.running ≠ 4 → exec (.spillKeyAckTimeout g) s =
        .next ((s.updSpill g.val (fun k => { k with next := false, waiting := [], repeats := 0 })).security (s.group g.val).owner 2)))

/-- SPDM, TDISP and IDE: GET_VERSION opens the connection, GET_CAPABILITIES and NEGOTIATE_ALGORITHMS follow in turn, attestation answers a
package that has its identity key, with the measurements that the requester may see; KEY_EXCHANGE and FINISH establish a session,
KEY_UPDATE, HEARTBEAT and END_SESSION act in it; a request out of turn is answered with an error. LOCK_INTERFACE_REQUEST locks the
partition unless R441 refuses it, START takes it to RUN, STOP zeroes a locked one, an error does so with SECURITY event TDI_ERROR; IDE_KM over
the session makes a stream active (19 R434, R435, R440 to R442, R444).
The model's choices in it: log entries 10, 65 to 67. -/
def Obligations.SessionsComplete : Prop :=
  ∀ (s : State),
    (∀ r : Requester,
      let x := s.spdmOf r
      let turn (phase : Nat) (a : SpdmReply) : Host.Outcome State Fault Refusal := .next ((s.setSpdm { x with phase := phase }).spdm r a)
      let no : Host.Outcome State Fault Refusal := .next (s.spdm r .error)
      exec (.getVersion r) s = .next ((s.setSpdm ⟨r, 1, 0⟩).spdm r .version) ∧
      (x.phase = 1 → exec (.getCapabilities r) s = turn 2 .capabilities) ∧ (x.phase ≠ 1 → exec (.getCapabilities r) s = no) ∧
      (x.phase = 2 → exec (.negotiateAlgorithms r) s = turn 3 .algorithms) ∧
      (x.phase ≠ 2 → exec (.negotiateAlgorithms r) s = no) ∧
      (s.sec.identity = true → 3 ≤ x.phase → x.phase ≤ 5 →
        exec (.getDigests r) s = turn x.phase (.digests (Config.sha512 (Config.certChain s.fwMeasure))) ∧
        exec (.getCertificate r) s = turn x.phase (.certificate (Config.certChain s.fwMeasure)) ∧
        (∀ nonce, exec (.challenge r nonce) s = turn x.phase (.challengeAuth (Config.aliasSign s.fwMeasure nonce))) ∧
        exec (.getMeasurements r 0xFF) s =
          turn x.phase (.measurements ((s.visible r).map (fun m => (m.1, m.2.value, m.2.changes))))) ∧
      (s.sec.identity = false → exec (.getDigests r) s = no ∧ exec (.getCertificate r) s = no ∧
        (∀ bytes, exec (.challenge r bytes) s = no ∧ exec (.keyExchange r bytes) s = no) ∧
        ∀ index, exec (.getMeasurements r index) s = no) ∧
      (∀ share, s.sec.identity = true → x.phase = 3 → exec (.keyExchange r share) s =
        turn 4 (.keyExchange (Config.aliasSign s.fwMeasure share))) ∧
      (x.phase = 4 → exec (.finish r none true) s = turn 5 .finish ∧ exec (.finish r none false) s = turn 3 .error) ∧
      (x.phase = 5 → exec (.keyUpdate r) s = .next ((s.setSpdm { x with updates := x.updates + 1 }).spdm r .keyUpdate) ∧
        exec (.heartbeatSpdm r) s = turn 5 .heartbeat ∧
        exec (.endSession r) s = .next ((s.setSpdm { x with phase := 3, updates := 0 }).spdm r .endSession)) ∧
      (x.phase ≠ 5 → exec (.keyUpdate r) s = no ∧ exec (.heartbeatSpdm r) s = no ∧ exec (.endSession r) s = no) ∧
      (∀ p : PortId, (s.port p.val).st = .limited →
        (s.sec.identity = true → ∃ t, exec (.finish r (some p) true) s = .next t ∧ (t.port p.val).st = .up ∧
          (t.port p.val).txKeys = ⟨some ⟨(s.port p.val).session + 1, 0⟩, none⟩ ∧
          (t.port p.val).rxKeys = ⟨some ⟨(s.port p.val).session + 1, 0⟩, none⟩ ∧ (t.port p.val).key = false ∧
          (t.port p.val).seq = 0 ∧ (t.port p.val).expect = 0 ∧ (t.port p.val).outq =
            (s.port p.val).buffer.flatMap (fun f => f.cells.map (fun c => (c.1, ⟨8, c.1, c.2⟩))) ++ (s.port p.val).outq ∧
          State.OnlyPort { s with funcs := t.funcs, out := t.out } t p.val) ∧
        ((s.port p.val).sessionFails < 2 → exec (.finish r (some p) false) s =
          .next (s.updPort p.val (fun k => { k with sessionFails := k.sessionFails + 1 }))) ∧
        (2 ≤ (s.port p.val).sessionFails → exec (.finish r (some p) false) s =
          .next ((s.portDown p.val).security 0 2))) ∧
      (∀ p : PortId, (s.port p.val).st = .up → (s.port p.val).policy = true → ∀ good,
        exec (.finish r (some p) good) s = .next (s.renewSession p.val (good && s.sec.identity)))) ∧
    (∀ p : FuncId,
      let say (t : State) (a : SpdmReply) : Host.Outcome State Fault Refusal := .next (t.spdm (.func p) a)
      (s.lockRefused p.val = true → exec (.lockInterfaceRequest p) s = say s .error) ∧
      (p.val ≠ 0 → (s.part p.val).tdisp = 0 → s.lockRefused p.val = false → exec (.lockInterfaceRequest p) s =
        say ({ s.updPart p.val (fun x => { x with tdisp := 1, conf := true }) with dbg := { s.dbg with en := false } }.remeasure 6)
          (.locked p.val)) ∧
      (p.val ≠ 0 → (s.part p.val).tdisp = 1 → exec (.startInterfaceRequest p) s =
        say (s.updPart p.val (fun x => { x with tdisp := 2 })) (.started p.val)) ∧
      ((s.part p.val).tdisp ≠ 1 → exec (.startInterfaceRequest p) s = say s .error) ∧
      (p.val ≠ 0 → (s.part p.val).conf = false → exec (.stopInterfaceRequest p) s = say s (.stopped p.val)) ∧
      (p.val ≠ 0 → (s.part p.val).conf = true → exec (.stopInterfaceRequest p) s = .next (s.askZeroing (16 + p.val))) ∧
      (p.val ≠ 0 → (s.part p.val).tdisp = 1 ∨ (s.part p.val).tdisp = 2 → exec (.tdiError p) s =
        .next ((((s.updPart p.val (fun x => { x with tdisp := 3 })).security p.val 4).functionReset p.val).askZeroing p.val)) ∧
      ((s.part p.val).tdisp = 0 → exec (.tdiError p) s = .next s)) ∧
    ((s.spdmOf (.func 0)).phase = 5 → ∀ active,
      exec (.ideKm none active) s = .next ((s.updSec (fun x => { x with linkIde := active })).spdm (.func 0) .ideKm) ∧
      ∀ p : Fin 9, ∃ t, exec (.ideKm (some p) active) s = .next t ∧ (p.val ∈ t.sec.ideSel ↔ active = true) ∧
        (∀ q, q ≠ p.val → (q ∈ t.sec.ideSel ↔ q ∈ s.sec.ideSel)) ∧
        t = { s with sec := { s.sec with ideSel := t.sec.ideSel }
                     out := { s.out with spdm := s.out.spdm ++ [(.func 0, .ideKm)] } })

/-! ### Power, station time, maintenance -/

/-- Power: a cold start verifies the records and boots with everything but the tailpiece reset; supplies that come up are noted, and PWR_EN
rises with VAUX and VANA; the lane groups are ungated in order; VAUX, VANA and VMAIN failing take the rails and compute with them, THERMTRIP
too, into pass-through mode; a stage fault does, and two of them take the fabric island; sensor samples are held, 105 °C goes to F_FLOOR and
110 °C to pass-through mode; the budget state is the highest part-state; without the reference clock no PLL is locked and no port is up
(20 R465; 21 R476 to R485, R490 to R493; 22 R500, R501; 23 R521, R525).
The model's choices in it: log entries 68 to 72, 76. -/
def Obligations.PowerComplete : Prop :=
  ∀ (s : State),
    let gone (t : State) : Prop := t.cores = s.cores.map (fun c => (c.1, c.2.unpowered)) ∧ t.groups = [] ∧ t.steps = [] ∧ t.landings = []
    let dead (t : State) : Prop := gone t ∧ t.power.railCore = false ∧ t.power.railMemory = false
    (∀ slotId bootMode bad, ∃ t, exec (.coldStart slotId bootMode bad) s = .next t ∧ t.cores = [] ∧ t.groups = [] ∧
      t.steps = [] ∧ t.landings = [] ∧ t.power.vaux = true ∧
      t.maint.slotId = slotId.toNat ∧ t.maint.bootMode = bootMode.toNat ∧ t.pending = s.pending ∧
      (bad = [] → s.sec.stored.verifies = true → s.maint.gradeOk = true → t.faultLog = []) ∧
      t.ports = [] ∧ t.routes = [] ∧ t.mesh = [] ∧ t.fabric = [] ∧ t.images = [] ∧ t.kdq = [] ∧ t.dir = Dir.reset ∧
      t.clk = { Clk.reset with refclk := s.clk.refclk } ∧ t.sec.fwBytes = s.sec.fwBytes) ∧
    (s.maint.order ≠ 1 → s.maint.order ≠ 2 → exec .vanaGood s = .next (s.updPower (fun p => { p with vana := true })) ∧
      exec .vmainGood s = .next (s.updPower (fun p => { p with vmain := true }))) ∧
    (s.maint.order = 2 → s.power.vaux = true → s.power.vmain = false → exec .vanaGood s =
      .next (s.updPower (fun p => { p with vana := true, pwrEn := true }))) ∧
    (s.maint.order = 2 → s.power.vaux = true → s.power.pwrEn = true → s.sec.recovery = false → s.maint.badRecords = [] →
      s.maint.bootMode = 0 → s.power.thermtrip = false → ∃ t, exec .vmainGood s = .next t ∧ t.maint.order = 3 ∧ t.power.railIo =
        (if s.power.railFabric then s.power.railIo else true) ∧ t.power.railFabric = true ∧
        t.power.railMemory = true ∧ t.power.railCore = true ∧ t.power.ungated = [] ∧ s.SameCompute t ∧
        t = { s with power := t.power, station := t.station, sync := t.sync, maint := { s.maint with order := 3 } }) ∧
    (∀ (course group : Fin 8) tests, s.power.railCore = true → s.maint.order = 3 → 8 * course.val + group.val = s.power.ungated.length →
      s.power.ungated.length < 63 → exec (.courseUngate course group tests) s =
        .next (s.updPower (fun p => { p with ungated := p.ungated ++ [p.ungated.length] }))) ∧
    (∃ t, exec .vauxFail s = .next t ∧ dead t ∧ t.power.vaux = false ∧ t.power.pwrEn = false ∧ t.faultLog = [] ∧ t.passThrough = false ∧
      t.maint.retired = s.maint.retired ∧ t.maint.subs = s.maint.subs ∧ t.sec.stored = s.sec.stored ∧ t.sec.fwBytes = s.sec.fwBytes ∧
      t.pending = s.pending) ∧
    (∃ t, exec .vanaFail s = .next t ∧ dead t ∧ t.power.vana = false ∧ t.power.pwrEn = false ∧ t.ports = [] ∧ t.faultLog = s.faultLog ∧
      t.sec = { s.sec with fwLen := none } ∧ t.maint.retired = s.maint.retired ∧ t.enabled = s.enabled ∧ t.pending = s.pending) ∧
    (∃ t, exec .undervoltageLockout s = .next t ∧ dead t ∧ t.power.vmain = false ∧ t.power.pwrEn = s.power.pwrEn ∧ t.ports = [] ∧
      t.sec = { s.sec with fwLen := none } ∧ t.faultLog = s.faultLog ∧ t.maint.retired = s.maint.retired ∧ t.enabled = s.enabled ∧ t.pending = s.pending) ∧
    (s.passThrough = false → s.liveSlots = [] → s.maint.running = 0 → ∀ stage : Fin 4, ∃ t,
      exec (.converterStageFault stage) s = .next t ∧ dead t ∧ t.passThrough = true ∧ stage.val ∈ t.power.stageFaults ∧
        t.sec = s.sec ∧ t.enabled = s.enabled ∧
        (s.power.stageFaults = [] → t.ports = s.ports ∧ t.routes = s.routes ∧ t.lasers = s.lasers ∧ t.station = s.station)) ∧
    (s.power.vaux = true → (∃ t, exec .thermtrip s = .next t ∧ dead t ∧ t.passThrough = true ∧ t.power.pwrEn = false ∧
      t.power.thermtrip = true ∧ t.maint.tripped = true ∧ t.sec = { s.sec with fwLen := none } ∧ t.faultLog = s.faultLog ∧ t.enabled = s.enabled)) ∧
    (s.liveSlots = [] → exec .refclkLoss s = .next ((List.range 8).foldl (fun t p => t.portDown p)
      (((s.logFault 0x0050 8 0 none 0 0xFFFF 0xFFFF 0).updClk (fun k => { k with
        refclk := false, locked := List.replicate 8 false, lockLosses := k.lockLosses + 1 })).addHold .lockLoss))) ∧
    ((∀ p : PortId, (s.port p.val).enable = false) → exec .refclkReturn s = .next (s.updClk (fun k => { k with refclk := true }))) ∧
    (s.power.vaux = true → s.passThrough = false → ∀ (tmax : Byte) p1 p2 (v current : BitVec 17),
      let held (t : State) : Prop := t.power.tmax = tmax.toNat ∧ t.power.p1ms = p1.toNat ∧ t.power.p1s = p2.toNat ∧
        t.power.vmainMv = v.toNat ∧ t.power.currentMa = current.toNat
      (tmax.toNat < 105 → current.toNat ≤ 42000 → ∃ t,
        exec (.sensorSample tmax p1 p2 v current) s = .next t ∧ held t ∧ t = { s with power := t.power }) ∧
      (105 ≤ tmax.toNat → tmax.toNat < 110 → current.toNat ≤ 42000 → s.power.emergency = false → s.fixedStep = false →
        s.power.set.fFloor < s.clk.fstep → ∃ t, exec (.sensorSample tmax p1 p2 v current) s = .next t ∧
          held t ∧ t.power.emergency = true ∧
          t = { s with power := t.power, clk := { s.clk with
            change := some ((s.clk.tick + 8 + 4095) / 4096 * 4096, s.power.set.fFloor) } }) ∧
      (110 ≤ tmax.toNat → current.toNat ≤ 42000 → s.liveSlots = [] → s.maint.running = 0 → ∃ t,
        exec (.sensorSample tmax p1 p2 v current) s = .next t ∧ t.passThrough = true ∧ dead t)) ∧
    (s.power.vaux = true → s.passThrough = false → ∃ t, exec .budgetEvaluation s = .next t ∧
      t.power.budget = max t.power.partP.val (max t.power.partT.val t.power.partS.val) ∧
      (s.power.set.plPeak ≤ s.power.p1ms → s.power.partP.val ≤ 7 → t.power.partP.val = 7 ∧ 7 ≤ t.power.budget) ∧
      t = { s with power := t.power, clk := { s.clk with change := t.clk.change } })

/-- Station time: a parent that has time sends SYNC and its timestamp; the child holds t2, then t1 and the hops with its DELAY_REQ at t3; the
parent answers t4; the first exchange sets station time to the parent's and SYNCED, a later one steers the rate and slews; 50 ms without
a parent is holdover; the source is synced after 100 ms, or by STATION_SET while it is member of no group, refused otherwise (21 R495 to R498;
24 Table 24.5).
The model's choices in it: log entry 74. -/
def Obligations.StationTimeComplete : Prop :=
  ∀ (s : State) (p : PortId) (frac : BitVec 4),
    let y := s.sync
    (s.talks p.val = true → y.synced = true → s.parentPort ≠ some p.val → exec (.syncExchange p frac) s =
      .next ((s.ctl (.sync p.val)).ctl (.followUp p.val (16 * s.station + frac.toNat) s.station y.hops))) ∧
    (s.parentPort = some p.val → exec (.sync p frac) s = .next { s with sync := { y with t2 := 16 * s.station + frac.toNat } }) ∧
    (∀ t1 hops, s.parentPort = some p.val → exec (.followUp p t1 hops frac) s =
      .next ({ s with sync := { y with t1 := t1.toNat, parentHops := hops.toNat, t3 := 16 * s.station + frac.toNat } }.ctl
        (.delayReq p.val))) ∧
    (s.talks p.val = true → y.synced = true → exec (.delayReq p frac) s = .next (s.ctl (.delayResp p.val (16 * s.station + frac.toNat)))) ∧
    (∀ t4 : BitVec 68, s.parentPort = some p.val → y.synced = false → ∃ t, exec (.delayResp p t4) s = .next t ∧
      t.sync.synced = true ∧ t.sync.hops = y.parentHops + 1 ∧
      t.station = (16 * (s.station : Int) - (((y.t2 : Int) - y.t1) - ((t4.toNat : Int) - y.t3)) / 2).toNat / 16 % 2 ^ 64 ∧
      t = { s with station := t.station, sync := t.sync }) ∧
    (∀ t4 : BitVec 68, s.parentPort = some p.val → y.synced = true → ∃ t, exec (.delayResp p t4) s = .next t ∧
      t.station = s.station ∧ t.sync.hops = y.parentHops + 1 ∧ t.sync.lastParent = y.t1 ∧ t.sync.lastOwn = y.t2 ∧
      (100 * (y.offset t4.toNat).natAbs ≤ 3200 + 432 * (y.parentHops + 1) → t.sync.holdover = false) ∧ t = { s with sync := t.sync }) ∧
    (y.synced = true → s.isSource = false → exec .holdover s = .next { s with sync := { y with holdover := true } }) ∧
    (s.isSource = true → s.power.railFabric = true → exec .sourceSynced s = .next { s with sync := { y with synced := true } }) ∧
    (∀ value : W64, s.funcUp 0 = true →
      (s.isSource = true → y.synced = false → (∀ g, (s.group g).formed = false) → exec (.stationSet value) s =
        .next { s with station := value.toNat, sync := { y with synced := true, part := 0 } }) ∧
      (s.isSource = false ∨ y.synced = true → exec (.stationSet value) s = .next (s.refuse 0x3008)))

/-- Maintenance: a command of anyone but PF0 and board management is answered NOT_PERMITTED; PASS_THROUGH_ENTER powers compute off, LEAVE is
refused under R508, answered DONE outside that mode, and otherwise powers the rails and takes start-up to order 3; PACKAGE_RESET keeps the tailpiece, SOUNDPOST_RESET boots the soundpost, BUSY while an
activity runs; SAVE_SETTINGS writes the retained record; MAINT_QUERY answers MAINT_STATUS; at a pause point the first recovery
starts; an activity that ends leaves none running; FREQ_APPLY puts a table in force that checks (22 R500, R506 to R513; 21 R489).
The model's choices in it: log entries 73, 75. -/
def Obligations.MaintenanceComplete : Prop :=
  ∀ (s : State) (a : Asker) (seq : W32),
    (askerPf0 a = false → ∀ payload persists bad hot,
      exec (.passThroughEnter a seq payload) s = .next (s.reply a 0x40 2 seq []) ∧
      exec (.passThroughLeave a seq payload persists) s = .next (s.reply a 0x41 2 seq []) ∧
      exec (.packageReset a seq payload bad hot) s = .next (s.reply a 0x42 2 seq []) ∧
      exec (.soundpostReset a seq payload) s = .next (s.reply a 0x43 2 seq []) ∧
      exec (.saveSettings a seq payload) s = .next (s.reply a 0x44 2 seq []) ∧
      exec (.maintQuery a seq payload) s = .next (s.reply a 0x45 2 seq [])) ∧
    (askerPf0 a = true →
      (s.passThrough = false → s.liveSlots = [] → s.maint.running = 0 → ∃ t, exec (.passThroughEnter a seq []) s = .next t ∧
        t.passThrough = true ∧ t.cores = s.cores.map (fun c => (c.1, c.2.unpowered)) ∧ t.groups = [] ∧ t.power.railCore = false ∧
        t.power.railMemory = false ∧ t.ports = s.ports ∧ t.routes = s.routes ∧
        t.maint.ready = false) ∧
      (∀ persists, (s.passThrough = false → exec (.passThroughLeave a seq [] persists) s = .next (s.reply a 0x41 0 seq [])) ∧
        (s.passThrough = true → 95 ≤ s.power.tmax ∨ s.maint.tripped = true → exec (.passThroughLeave a seq [] persists) s =
          .next (s.reply a 0x41 2 seq [])) ∧
        (persists = false → s.passThrough = true → s.power.tmax < 95 → s.maint.tripped = false → s.maint.badRecords = [] →
          s.maint.leaving = none → s.power.vaux = true → s.power.vana = true → s.power.vmain = true → s.power.thermtrip = false →
          s.sec.recovery = false → ∃ t, exec (.passThroughLeave a seq [] persists) s = .next t ∧ t.maint.leaving = some (a, seq) ∧
            t.maint.order = 3 ∧ t.passThrough = true ∧ t.power.railCore = true ∧ t.power.railMemory = true ∧ t.power.railFabric = true ∧
            t.power.ungated = [] ∧ t.power.stageFaults = [] ∧ s.SameCompute t)) ∧
      (∀ bad hot, ∃ t, exec (.packageReset a seq [] bad hot) s = .next t ∧ t.cores = [] ∧ t.groups = [] ∧ t.landings = [] ∧
        t.maint.retired = s.maint.retired ∧ t.maint.slotId = s.maint.slotId ∧ t.power.vaux = s.power.vaux ∧
        (hot = false → t.power.thermtrip = false ∧ t.maint.tripped = false)) ∧
      (s.maint.running ≠ 0 → exec (.soundpostReset a seq []) s = .next (s.reply a 0x43 3 seq [])) ∧
      (s.maint.running = 0 → s.maint.suspended = none → exec (.soundpostReset a seq []) s =
        .next (s.reply a 0x43 0 seq []).resetSoundpost) ∧
      (s.maintBusy = true → exec (.saveSettings a seq []) s = .next (s.reply a 0x44 3 seq [])) ∧
      (s.maintBusy = false → s.maint.suspended = none → ∃ t, exec (.saveSettings a seq []) s = .next t ∧
        t.maint.retained = some s.retainedNow ∧ t.maint.dirty = false ∧ t.maint.running = 0 ∧
        t = { s.reply a 0x44 0 seq [] with maint := t.maint }) ∧
      (let answer (n : Nat) : State := s.reply a 0x45 0 seq (leBytes 4 (n + 2 ^ 16 * min 255 s.maint.queue.length +
          2 ^ 24 * b01 s.maint.ready + 2 ^ 25 * b01 (s.sec.stored.digest != s.sec.running.digest)))
       (s.maint.suspended = none ∨ s.maint.running ≠ 0 → exec (.maintQuery a seq []) s = .next (answer s.maint.running)) ∧
       ∀ c arg, s.maint.suspended = some (c, arg) → s.maint.running = 0 →
          exec (.maintQuery a seq []) s = .next (answer (c + 2 ^ 8)))) ∧
    (∀ n l, s.maint.queue = (6, n) :: l → s.maint.pauseAsked = true → s.maint.running = 7 → s.maint.arg = 0 → ∃ t,
      exec .pausePointReached s = .next t ∧ t.maint.running = 6 ∧ t.maint.arg = n ∧ t.maint.byRec = true ∧ t.maint.queue = l ∧
        t.maint.suspended = some (7, 0) ∧ t.maint.pauseAsked = false ∧ t = { s with maint := t.maint }) ∧
    (s.maint.running = 9 → s.maint.queue = [] → s.maint.suspended = none → s.maint.dirty = false → exec .structuralActivityEnd s =
      .next (s.updMaint (fun m => { m with running := 0, arg := 0, byRec := false, pauseAsked := false }))) ∧
    (s.funcUp 0 = true →
      (s.maintBusy = true → ∀ ok, exec (.freqApply ok) s = .next (s.updPower (fun p => { p with freqResult := 3 }))) ∧
      (s.maintBusy = false → s.maint.suspended = none → freqTableOk s.power.freqStage = true → s.clk.change = none → ∃ t,
        exec (.freqApply true) s = .next t ∧ t.power.freqStep = s.power.freqStage ∧ t.power.freqResult = 1 ∧ t.maint.running = 5 ∧
          t = { s with maint := t.maint, power := t.power, clk := { s.clk with
            change := some ((s.clk.tick + 8 + 4095) / 4096 * 4096, s.clk.fstep) } }) ∧
      (s.maintBusy = false → s.maint.suspended = none → freqTableOk s.power.freqStage = false → ∃ t,
        exec (.freqApply true) s = .next t ∧ t.power = { s.power with freqResult := 2 } ∧
          t = { s with maint := t.maint, power := t.power }))

/-! ### Set-up registers -/

/-- Groups: FORM on a package without LEAD is refused, a field outside its range gives FORM_ERR 6, WIN_T0 in the future 5; a good FORM sends the
fields to the other members and waits for their layouts; a member takes them and answers, telling a new lead of its steps where the group is
formed already, or answers that it holds the id; FORMED and
DISSOLVE act on a member; a member that stays silent is asked three times more, then FORM_ERR 1; DISSOLVE clears FORMED, refused while an entry
is not FREE or a step runs (24 R540, R541).
The model's choices in it: log entries 80 to 82, 88, 99. -/
def Obligations.GroupSetUpComplete : Prop :=
  ∀ (s : State) (g : Slot),
    let k := s.group g.val
    (s.slotsUp = true →
      (k.lead = false → exec (.form g) s = .next (s.refuse (0x200000 + 0x10000 * g.val)) ∧
        exec (.dissolve g) s = .next (s.refuse (0x200000 + 0x10000 * g.val))) ∧
      (k.lead = true → k.formed = false → k.forming = none →
        (s.formRange g.val = true → exec (.form g) s =
          .next (s.updGroup g.val (fun k => { k with formErr := 6, forming := none }))) ∧
        (s.formRange g.val = false → s.station < k.winT0 → exec (.form g) s =
          .next (s.updGroup g.val (fun k => { k with formErr := 5, forming := none }))) ∧
        (s.formRange g.val = false → k.winT0 ≤ s.station → k.listed.filter (· != s.place) ≠ [] → exec (.form g) s =
          .next ((s.mgt (.formFields g.val k.fields)).updGroup g.val (fun k => { k with
            forming := some { waiting := k.listed.filter (· != s.place), repeats := 0, held := s.holdsId k.id
                              layouts := [s.ownLayout g.val], runs := [] }
            serve := { k.serve with budgetStates := [] } })))) ∧
      (k.lead = true → k.formed = true → (s.step' g.val).busy = false → (s.step' g.val).retryDue = false →
        ((∀ r ∈ k.serve.reqs, r.2.state = .free) → s.others g.val ≠ [] → exec (.dissolve g) s =
          .next ((s.updGroup g.val (fun k => { k with formed := false })).mgt (.dissolve g.val))) ∧
        (∀ r ∈ k.serve.reqs, r.2.state ≠ .free → exec (.dissolve g) s = .next (s.refuse (0x200000 + 0x10000 * g.val))))) ∧
    (k.lead = false →
      (∀ x : GroupFields, k.id = x.id →
        (k.formed = false → s.holdsId x.id = true → exec (.formMessage g (.fields x)) s =
          .next (s.mgt (.formAnswer g.val k.kvWs k.shards (s.ownG g.val) s.budgetNow true ⟨0, none⟩))) ∧
        (k.formed = true ∨ s.holdsId x.id = false → ∃ t, exec (.formMessage g (.fields x)) s = .next t ∧ (t.group g.val).fields = x ∧
          t.out.mgt = s.out.mgt ++ [.formAnswer g.val k.kvWs k.shards (s.ownG g.val) s.budgetNow false
            (if k.formed then s.memberRun g.val else ⟨0, none⟩)] ∧
          (∀ h, h ≠ g.val → t.group h = s.group h) ∧ t = { s with groups := t.groups, out := { s.out with mgt := t.out.mgt } })) ∧
      (k.formed = false → ∃ t, exec (.formMessage g .formed) s = .next t ∧ (t.group g.val).formed = true ∧
        (t.group g.val).formErr = 0 ∧ t.spillKeys g.val = SpillKeys.reset ∧ (t.step' g.val).phase = .none ∧
        (t.step' g.val).highest = k.stepLast ∧ (∀ h, h ≠ g.val → t.group h = s.group h ∧ t.step' h = s.step' h) ∧
        t = { s with groups := t.groups, steps := t.steps, sec := { s.sec with spill := t.sec.spill } }) ∧
      exec (.formMessage g .dissolve) s = .next (s.updGroup g.val (fun k => { k with formed := false }))) ∧
    (∀ f, k.forming = some f →
      (f.repeats < 3 → exec (.formTimeout g) s = .next ((s.updGroup g.val (fun k => { k with
        forming := some { f with repeats := f.repeats + 1 } })).mgt (.formFields g.val k.fields))) ∧
      (3 ≤ f.repeats → exec (.formTimeout g) s = .next (s.updGroup g.val (fun k => { k with formErr := 1, forming := none }))) ∧
      (∀ place other ws n budget held run, f.waiting = [place, other] → other ≠ place →
        exec (.formMessage g (.answer place ws [] n budget held run)) s = .next (s.updGroup g.val (fun k => { k with
          forming := some { f with
            waiting := [other], held := f.held || held, layouts := f.layouts ++ [⟨place, ws, n, [], true⟩]
            runs := if run = ⟨0, none⟩ then f.runs else f.runs ++ [run] }
          serve := { k.serve with budgetStates := k.serve.budgetStates ++ [(place.toNat, budget)] } }))))

/-- Registers: REQ_INDEX copies the entry and its generation record; GO reads a block of an admitted region, gives STATUS 2 for any other, and
is ignored while a partition is locked, as writes of the debug block are; STATE_SEL copies the item; REFUSED is cleared, unless it was
set in the same cycle; a register write
outside its range is refused, one to VC_ALLOC of a port in use too, a live field waits while its group is formed, a 64-bit register takes
both halves with the upper one (24 R529 to R531, R542, R547, R548; 21 R482; 11 R273).
The model's choices in it: log entries 78, 79, 83. -/
def Obligations.RegistersComplete : Prop :=
  ∀ (s : State),
    (s.slotsUp = true →
      (∀ (g : Slot) (e : BitVec 20), exec (.reqIndexWrite g e) s = .next (s.updGroup g.val (fun k => { k with
        reqIndex := e.toNat
        reqData := if e.toNat < k.entries then (s.req g.val e.toNat).entryBytes ++ (s.req g.val e.toNat).genBytes
                   else List.replicate 96 0 }))) ∧
      (s.anyLocked = true → ∀ c b value sel, exec (.go c b) s = .next s ∧ exec (.debugEnWrite value) s = .next s ∧
        exec (.stateSelWrite sel) s = .next s) ∧
      (s.anyLocked = false →
        (∀ (c : BitVec 9) (b : BitVec 12), s.isEnabled c.toNat = false → exec (.go c b) s =
          .next { s with readback := ⟨2, c.toNat, b.toNat, s.readback.data, s.readback.record⟩ }) ∧
        (∀ (c : BitVec 9) (b : BitVec 12), s.isEnabled c.toNat = true → b.toNat < wsBlocks →
          (s.core c.toNat).ws.kindOf b.toNat = 1 →
          let t := s.updWs c.toNat (fun w => w.correct b.toNat)
          let w := (t.core c.toNat).ws
          w.blockBad b.toNat = false → w.crcOf b.toNat = (w.record b.toNat).crc → exec (.go c b) s =
            .next { t with readback := ⟨1, c.toNat, b.toNat, w.block b.toNat,
              leBytes 4 (w.record b.toNat).crc.toNat ++ (w.record b.toNat).body⟩ }) ∧
        (∀ value : W64, exec (.debugEnWrite value) s = .next ({ s with dbg := { s.dbg with
          en := bitN value.toNat 0, stopEn := bitN value.toNat 1, stopCore := bitsN value.toNat 10 2
          stopMark := BitVec.ofNat 16 (bitsN value.toNat 31 16), stopOcc := bitsN value.toNat 47 32 } }.remeasure 6)) ∧
        (∀ (sel : W32) c, s.liveSlots = [] → s.physOf (bitsN sel.toNat 8 0) = some c → bitsN sel.toNat 11 9 = 0 →
          bitsN sel.toNat 31 16 < spRows → exec (.stateSelWrite sel) s = .next { s with dbg := { s.dbg with
            selCore := bitsN sel.toNat 8 0, selSpace := 0, selIndex := bitsN sel.toNat 31 16
            data := sliceB ((s.core c).sp.row (bitsN sel.toNat 31 16)) 0 2048 } }))) ∧
    (s.funcUp 0 = true → s.sec.recovery = false → s.passThrough = false →
      (s.freshBits 0x1010 = 0 → exec .refusedClear s = .next { s with pkg := { s.pkg with refused := false } }) ∧
      (s.freshBits 0x1010 ≠ 0 → exec .refusedClear s = .next s) ∧
      (∀ v : W32, 1800 < bitsN v.toNat 10 0 → exec (.registerWrite 0 false 0x2000 (leBytes 4 v.toNat)) s = .next (s.refuse 0x2000)) ∧
      (∀ v : W32, bitsN v.toNat 4 0 < 16 → exec (.registerWrite 0 false 0x1018 (leBytes 4 v.toNat)) s = .next (s.refuse 0x1018)) ∧
      (∀ (p : PortId) (v : W64), (s.port p.val).st ≠ .down → s.pkg.halves = [] →
        exec (.registerWrite 0 false (BitVec.ofNat 24 (0x10010 + 0x1000 * p.val)) (leBytes 8 v.toNat)) s =
          .next (s.refuse (0x10010 + 0x1000 * p.val))) ∧
      (∀ (g : Slot) (v : W32),
        let at_ : BitVec 24 := BitVec.ofNat 24 (0x200038 + 0x10000 * g.val)
        ((s.group g.val).formed = true → exec (.registerWrite 0 false at_ (leBytes 4 v.toNat)) s =
          .next (s.updGroup g.val (fun k => { k with live := k.live ++ [(0x38, v.toNat)] }))) ∧
        ((s.group g.val).formed = false → exec (.registerWrite 0 false at_ (leBytes 4 v.toNat)) s =
          .next (s.updGroup g.val (fun k => { k with eosId := v })))) ∧
      (∀ (g : Slot) (v : W64), (s.group g.val).formed = false → s.pkg.halves = [] →
        exec (.registerWrite 0 false (BitVec.ofNat 24 (0x200010 + 0x10000 * g.val)) (leBytes 8 v.toNat)) s =
          .next (s.updGroup g.val (fun k => { k with salt := v }))) ∧
      (∀ (offset : BitVec 24), exec (.registerWrite 0 false offset []) s = .next s))

/-- What the manual says of reset: Table 22.6's RUNNING START_UP, Tables 24.3 to 24.14's reset columns, Tables 18.10 to 18.12, Table 21.9's
frequency table. No command waits, nothing is in flight, no byte memory lists anything (22 R513; 24; 18; 21 R489).
The model's choices in it: log entries 1, 4. -/
def Obligations.ResetValues : Prop :=
  let s := State.reset
  s.memWf = true ∧ s.pending = [] ∧ s.NoQueue ∧ s.landings = [] ∧
    (∀ c, (s.core c).sp.mem = [] ∧ (s.core c).ws.mem = []) ∧ s.maint.running = 0x0A ∧ s.maint.ready = false ∧ s.pkg.refused = false ∧ s.pkg.refusedAt = 0 ∧ s.pkg.muteExp = 0x18 ∧
    s.dir.ready = false ∧ s.dir.limit = 0x1000 ∧ s.dir.owner = 0 ∧ s.dir.defRow = 0 ∧
    s.power.set.plSust = 1550 ∧ s.power.set.plPeak = 1800 ∧ s.power.set.fOp = 14 ∧ s.power.set.fFloor = 4 ∧
    s.power.set.voiceMap = 0xFA50 ∧ s.power.set.fixedFstep = 14 ∧ s.power.budget = 0 ∧
    s.power.freqStep.length = 16 ∧ (∀ n : Fin 15, s.power.freqStep[n.val]? = some (6 + n.val, 600 + 20 * n.val)) ∧
    s.power.freqStep[15]? = some (22, 940) ∧ s.sync.synced = false ∧
    (∀ p : PortId, (s.port p.val).st = .down ∧ (s.port p.val).enable = false ∧ (s.port p.val).retune = 2 ∧
      (s.port p.val).rotate = 3600 ∧ (s.port p.val).vcAlloc = 12288 :: List.replicate 7 4096 ∧
      (s.port p.val).shares = List.replicate 8 32 ∧ (s.port p.val).strict = List.replicate 8 false) ∧
    (∀ f : FuncId, (s.func f.val).dbMask = 0xFFFFFFFF ∧ (s.func f.val).mbTimeout = 1000 ∧ (s.func f.val).mbo.dbbit = 8 ∧
      ∀ k : Fin 194, ((s.func f.val).ring k.val).s = 4 ∧ ((s.func f.val).ring k.val).stopped = true ∧
        ((s.func f.val).ring k.val).countThr = 1 ∧ ((s.func f.val).ring k.val).slot = 12) ∧
    (∀ p : FuncId, (s.part p.val).count = 0 ∧ (s.part p.val).vcen = 0xF ∧ (s.part p.val).flagExp = 0x18 ∧ (s.part p.val).conf = false) ∧
    (∀ g : Slot, (s.group g.val).formed = false ∧ (s.group g.val).kvWs = 1 ∧ (s.group g.val).eosId = 0xFFFFFFFF ∧
      (s.group g.val).voices = List.replicate 4 (1, 0, 0, 0)) ∧
    s.dbg.en = false ∧ s.dbg.stopOcc = 1 ∧ s.readback.status = 0

/-! ### Vector words -/

/-- VLD, VFILL and VPERM put a vector register's elements in flight, VLD also the release of its rows; VST puts the rows of the memory
image of its register in flight, with their commit; each lands at its fixed latency. A VPERM of no element, or of more than 64,
logs BAD_FIELD (06 R116, R119, R130; 05 R103).
The model's choices in it: log entry 89. -/
def Obligations.VectorMoveWordsComplete : Prop :=
  ∀ (s : State) (c : CoreId) (δ : BitVec 12),
    let T := s.clk.tick
    let x := s.core c.val
    let r := x.ctl.regs
    (∀ row vd n rls at_, let i : Instr := .vld c δ row vd n rls;
      s.Issues c i .memory → resolveSr x.sp r row (n.toNat + 1) = (at_, none) → checkRelease x.sp r row rls = none →
        at_.rows.all (fun q => !x.sp.rowBad q) = true → ∃ t, exec i s = .next t ∧
          s.Becomes t c { s.issued c i .memory 1 with sp := x.sp.correct at_.rows }
            (⟨2 * (T + 2) + 1, 21, c.val, .vreg vd.toNat 0 (elemsOf (at_.rows.flatMap x.sp.row))⟩ ::
              (if rls = 0 then [] else [⟨2 * T + 1, 30, c.val, .release row.reg.toNat (cnt r rls) (s.entryOf c i)⟩]))) ∧
    (∀ row vs n cmt at_, let i : Instr := .vst c δ row vs n cmt;
      s.Issues c i .memory → resolveSr x.sp r row (n.toNat + 1) = (at_, none) → checkCommit x.sp r row cmt = none →
        ∃ t, exec i s = .next t ∧ s.Becomes t c (s.issued c i .memory 1)
          (⟨2 * T + 1, 10, c.val, .rowList (at_.rows.zipIdx.map
              (fun p => (p.1, sliceB (imageOf (x.vec.reg vs.toNat)) (64 * p.2) 64)))⟩ ::
            (if cmt = 0 then [] else [⟨2 * T + 1, 31, c.val, .commit row.reg.toNat (cnt r cmt) (s.entryOf c i)⟩]))) ∧
    (∀ vd imm, let i : Instr := .vfill c δ vd imm;
      s.Issues c i .memory → ∃ t, exec i s = .next t ∧ s.Becomes t c (s.issued c i .memory 1)
        [⟨2 * T + 1, 21, c.val, .vreg vd.toNat 0 (List.replicate 64 imm)⟩]) ∧
    (∀ vd vs vi vl fsel freg, let i : Instr := .vperm c δ vd vs vi vl fsel freg;
      let fill : W32 := if fsel then Tab.get 0 r freg.toNat else 0
      let idx (j : Nat) : Nat := (x.vec.elem vi.toNat j).toNat
      s.Issues c i .element → 1 ≤ vl.toNat → vl.toNat ≤ 64 → ∃ t, exec i s = .next t ∧
        s.Becomes t c { s.issued c i .element 1 with
            ctl := { x.ctl.past i with status := (x.ctl.status |||
              StatusBit.permOor.mask ((List.range vl.toNat).any (fun j => decide (vl.toNat ≤ idx j)))) } }
          [⟨2 * (T + 1) + 1, 22, c.val, .vreg vd.toNat 0 ((List.range 64).map (fun j =>
            if vl.toNat ≤ j then fill else if idx j < vl.toNat then x.vec.elem vs.toNat (idx j) else fill))⟩]) ∧
    (∀ vd vs vi vl fsel freg, let i : Instr := .vperm c δ vd vs vi vl fsel freg;
      s.Issues c i .element → vl.toNat = 0 ∨ 64 < vl.toNat → x.ctl.recs.length < 16 → ∃ t, exec i s = .next t ∧
        s.Becomes t c { s.issued c i .element 1 with ctl := { x.ctl.past i with
          skipCount := satNat (2 ^ 32 - 1) (x.ctl.skipCount + 1)
          recs := x.ctl.recs ++ [⟨BitVec.ofNat 32 (s.entryOf c i).tick, x.ctl.offset, 0x45,
            BitVec.ofNat 16 (c.val + 512 * (s.entryOf c i).source), .badField, BitVec.ofNat 32 vl.toNat⟩] } } [])

/-- VPROG runs its program of n operations on each element of its first register vector and puts the result in flight for 2 n − 1 ticks
later; a further vector follows in the next tick (06 R116, R121 to R123). -/
def Obligations.VprogCompletes : Prop :=
  ∀ (s : State) (c : CoreId) (δ : BitVec 12) (o : VprogOp) (pr : EProg), let i : Instr := .vprog c δ o;
    let T := s.clk.tick
    let x := s.core c.val
    let src (k : BitVec 2) (q : BitVec 5) (j : Nat) := vprogSrc x.vec k q o.elem 0 j
    let out (j : Nat) := runUops pr.consts j (fun k => s.draw c.val x.ctl.regs 3 k j) pr.ops 0
      [src o.k0 o.s0 j, src o.k1 o.s1 j, src o.k2 o.s2 j, 0, 0, 0, 0, 0] {}
    s.Issues c i .element → x.vec.progs.find? (·.1 == o.p.toNat) = some (o.p.toNat, pr) → pr.ops ≠ [] →
      o.vd.toNat + o.r.toNat < 32 → o.s0.toNat + o.r.toNat < 32 → o.s1.toNat + o.r.toNat < 32 →
      o.s2.toNat + o.r.toNat < 32 → ∃ t, exec i s = .next t ∧
        s.BecomesBut t c (s.issued c i .element (o.r.toNat + 1))
          (⟨2 * (T + 2 * pr.ops.length - 1) + 1, 22, c.val,
            .vreg o.vd.toNat 0 ((List.range 64).map (fun j => BitVec.ofNat 32 ((out j).1.getD 0 0)))⟩ ::
            (if o.r = 0 then [] else [⟨2 * (T + 1), 8, c.val, .vprog o 1 (s.entryOf c i)⟩])) ∧
        (t.core c.val).ctl.status =
          x.ctl.status ||| vecMask (RFlags.all ((List.range 64).map (fun j => (out j).2)))

/-- VCVT in its forms: a register to a register, an accumulator to a register in a format or as its record of five words, a record to an
accumulator, and a register added into an accumulator (06 R125 to R129; 02 R37; 08 R185). -/
def Obligations.VcvtCompletes : Prop :=
  ∀ (s : State) (c : CoreId) (δ : BitVec 12) (o : VcvtOp) (m : RM), let i : Instr := .vcvt c δ o;
    let T := s.clk.tick
    let x := s.core c.val
    let es := x.vec.reg o.s.toNat
    let ka := o.s.toNat % 16
    let kd := o.d.toNat % 16
    let draw (n : Nat) : Nat := if m == .st then s.draw c.val x.ctl.regs 2 0 n else 0
    let dstOk (f : Fmt) : Prop := (o.dsc ≠ 0 → scalable f = true) ∧ (o.dsc = 2 → o.dlay = true) ∧ o.dsc ≠ 3 ∧
      (o.dsc = 1 → o.imm ≠ 0xFF)
    let vals (f : Fmt) := (List.range 64).map (srcVal es f o.slay (srcScales o.ssc.toNat o.imm es))
    let Flies (ls : List Landing) (m : BitVec 16) : Prop := ∃ t, exec i s = .next t ∧
      s.BecomesBut t c (s.issued c i .element 1) ls ∧ (t.core c.val).ctl.status = x.ctl.status ||| m
    s.Issues c i .element → RM.ofCode o.rm.toNat = some m →
    (∀ sf df, o.sk = false → o.dk = false → Fmt.ofCode o.sfmt.toNat = some sf → Fmt.ofCode o.dfmt.toNat = some df →
      sf ≠ .lacc → df ≠ .lacc → srcScaleBad o.ssc.toNat sf o.slay = false → dstOk df →
      let q := convertAll df m draw o.sat o.dsc.toNat o.imm false (vals sf)
      Flies [⟨2 * (T + 1) + 1, 22, c.val, .vreg o.d.toNat 0 (packRaw df o.dlay q.1 q.2.1)⟩] (vecMask q.2.2)) ∧
    (∀ df, o.sk = true → o.dk = false → o.sfmt = 10 → o.ssc = 0 → Fmt.ofCode o.dfmt.toNat = some df → df ≠ .lacc → dstOk df →
      x.lane.readBad ka = false →
      let q := convertAll df m draw o.sat o.dsc.toNat o.imm true ((List.range 64).map (s.accNow c.val ka))
      Flies [⟨2 * (T + 2) + 1, 22, c.val, .vreg o.d.toNat 0 (packRaw df o.dlay q.1 q.2.1)⟩] (exitMask q.2.2)) ∧
    (o.sk = true → o.dk = false → o.sfmt = 10 → o.dfmt = 10 → o.ssc = 0 → o.dsc = 0 → o.d.toNat ≤ 27 → x.lane.readBad ka = false →
      Flies ((List.range 5).map (fun n =>
        ⟨2 * (T + 2 + n) + 1, 22, c.val, .vreg (o.d.toNat + n) 0 ((List.range 64).map (fun j =>
          if n < 4 then (x.lane.accAt ka j).words.getD n 0 else ctrlWord (x.lane.win ka) (x.lane.accAt ka j)))⟩)) 0) ∧
    (o.sk = false → o.dk = true → o.sfmt = 10 → o.dfmt = 10 → o.ssc = 0 → o.dsc = 0 → o.s.toNat ≤ 27 →
      let w (n j : Nat) : Nat := (x.vec.elem (o.s.toNat + n) j).toNat
      (∀ j, j < 64 → w 4 j % 1024 = w 4 0 % 1024) →
      Flies [⟨2 * (T + 3) + 1, 2, c.val, .accRestore kd (winOf (w 4 0)) ((List.range 64).map (fun j =>
        Acc.ofBits (BitVec.ofNat 128 (w 0 j + w 1 j * 2 ^ 32 + w 2 j * 2 ^ 64 + w 3 j * 2 ^ 96)) (w 4 j / 1024)))⟩] 0) ∧
    (∀ sf, o.sk = false → o.dk = true → Fmt.ofCode o.sfmt.toNat = some sf → sf ≠ .lacc → o.dfmt = 10 → o.dsc = 0 →
      srcScaleBad o.ssc.toNat sf o.slay = false →
      Flies [⟨2 * (T + 3) + 1, 3, c.val, .accAdd kd ((vals sf).map (fun v => [v.toTerm])) none⟩] 0)

/-- VRED INIT, MERGE and PHASE, VTOPK INIT and MERGE change their state as they issue: INIT to an empty state of its kind, MERGE with the
record of a register, PHASE to the sum phase; each changes nothing else of the core, but for VNAN, which VTOPK MERGE sets for a NaN that it
leaves out (06 R132, R133, R136, R137, R139). -/
def Obligations.ReductionStateWordsComplete : Prop :=
  ∀ (s : State) (c : CoreId) (δ : BitVec 12) (q : BitVec 3) (v : BitVec 5),
    let x := s.core c.val
    let red := Recs.get Red.empty x.vec.red q.toNat
    let p := Red.ofRecord (x.vec.reg v.toNat)
    let Puts (i : Instr) (r : Red) : Prop := s.Issues c i .reduction → ∃ t, exec i s = .next t ∧
      s.Becomes t c { s.issued c i .reduction 1 with vec := { x.vec with red := Recs.put x.vec.red q.toNat r } } []
    (∀ wsrc w e, let W : Int := if wsrc then (x.vec.elem v.toNat e.toNat).toInt else w.toInt;
      -512 ≤ W → W ≤ 511 → Puts (.vredInit c δ q v 1 wsrc w e) { Red.empty with kind := 1, w := W }) ∧
    (∀ kind wsrc w e, kind = 2 ∨ kind = 3 ∨ kind = 4 ∨ kind = 5 →
      Puts (.vredInit c δ q v kind wsrc w e) { Red.empty with kind := kind.toNat, w := 0 }) ∧
    (∀ wsrc w e, let C := x.vec.elem v.toNat 0; let D := x.vec.elem v.toNat 1;
      finiteF32 C = true → (0 : Int) < (cmpKey C.toNat).getD 0 → finiteF32 D = true →
      Puts (.vredInit c δ q v 6 wsrc w e) { Red.empty with kind := 6, w := -92, c := C, d := D }) ∧
    (red.kind ≠ 0 → red.kind = p.kind → red.sumPhase = p.sumPhase → (red.kind = 6 → red.c = p.c ∧ red.d = p.d) →
      (red.kind = 1 → red.w = p.w) → Puts (.vredMerge c δ q v) (red.merge p)) ∧
    (red.kind = 6 → red.sumPhase = false →
      Puts (.vredPhase c δ q) { red with sumPhase := true, acc := Acc.zero, w := -92 }) ∧
    (∀ k, let i : Instr := .vtopkInit c δ k; s.Issues c i .reduction → ∃ t, exec i s = .next t ∧
      s.Becomes t c { s.issued c i .reduction 1 with vec := { x.vec with topkK := k.toNat + 1, topk := [] } } []) ∧
    (let i : Instr := .vtopkMerge c δ v; s.Issues c i .reduction → v.toNat < 31 → ∃ t, exec i s = .next t ∧
      (t.core c.val).ctl.status = (x.ctl.status ||| StatusBit.vnan.mask (((x.vec.reg v.toNat).zip (x.vec.reg (v.toNat + 1))).any
        (fun e => e.2 ≠ 0xFFFFFFFF && rankKey e.1.toNat == none))) ∧
      s.BecomesBut t c { s.issued c i .reduction 1 with vec := { x.vec with
        topk := ((x.vec.reg v.toNat).zip (x.vec.reg (v.toNat + 1))).foldl (fun l e =>
          if e.2 = 0xFFFFFFFF || rankKey e.1.toNat == none then l
          else topkInsert x.vec.topkK e.1 e.2.toNat l) x.vec.topk } } [])

/-- VRED ACC takes the first E elements of its register into its state: summed exactly for SUM, ranked one after the other for the
kinds that rank; VSCAN takes their largest exponent and what special values it met; VTOPK ACC keeps the highest (06 R132 to R136,
R139; 02 R36). -/
def Obligations.ReductionElementWordsComplete : Prop :=
  ∀ (s : State) (c : CoreId) (δ : BitVec 12) (q : BitVec 3) (v : BitVec 5) (e : BitVec 6),
    let x := s.core c.val
    let red := Recs.get Red.empty x.vec.red q.toNat
    let es := x.vec.reg v.toNat
    (∀ fmt lay ssc imm base f, let i : Instr := .vredAcc c δ q v e fmt lay ssc imm base;
      let vals := (List.range (e.toNat + 1)).map (srcVal es f lay (srcScales ssc.toNat imm es))
      s.Issues c i .reduction → red.kind = 1 → Fmt.ofCode fmt.toNat = some f → f ≠ .lacc →
        srcScaleBad ssc.toNat f lay = false → ∃ t r', exec i s = .next t ∧
          s.Becomes t c { s.issued c i .reduction 1 with vec := { x.vec with red := Recs.put x.vec.red q.toNat r' } } [] ∧
          r'.acc = red.acc.addTerms red.w (vals.map Val.toTerm) ∧ r'.kind = 1 ∧ r'.w = red.w ∧
          r'.nan = (red.nan || vals.any (· == Val.nan))) ∧
    (∀ lay imm base, let i : Instr := .vredAcc c δ q v e 8 lay 0 imm base;
      let b := (Tab.get 0 x.ctl.regs base.toNat).toNat
      s.Issues c i .reduction → red.kind = 2 ∨ red.kind = 3 ∨ red.kind = 4 ∨ red.kind = 6 →
        (red.kind = 4 → b + e.toNat < 2 ^ 24) → ∃ t, exec i s = .next t ∧
          s.BecomesBut t c { s.issued c i .reduction 1 with vec := { x.vec with red := (Recs.put x.vec.red q.toNat
            (((es.take (e.toNat + 1)).zipIdx).foldl (fun r p => r.accElem p.1 (b + p.2)) red)) } } []) ∧
    (∀ fmt lay ssc imm f, let i : Instr := .vscan c δ q v e fmt lay ssc imm;
      let vals := (List.range (e.toNat + 1)).map (srcVal es f lay (srcScales ssc.toNat imm es))
      s.Issues c i .reduction → red.kind = 5 → Fmt.ofCode fmt.toNat = some f → f ≠ .lacc →
        srcScaleBad ssc.toNat f lay = false → ∃ t r', exec i s = .next t ∧
          s.BecomesBut t c { s.issued c i .reduction 1 with vec := { x.vec with red := Recs.put x.vec.red q.toNat r' } } [] ∧
          r'.exp = (vals.filterMap Val.exp).foldl max red.exp ∧ r'.kind = 5 ∧
          r'.nan = (red.nan || vals.any (· == Val.nan))) ∧
    (∀ base, let i : Instr := .vtopkAcc c δ v e base;
      let b := (Tab.get 0 x.ctl.regs base.toNat).toNat
      s.Issues c i .reduction → b + e.toNat < 2 ^ 24 → ∃ t, exec i s = .next t ∧
        s.BecomesBut t c { s.issued c i .reduction 2 with
          vec := { x.vec with topk := ((es.take (e.toNat + 1)).zipIdx).foldl (fun l p =>
            if rankKey p.1.toNat == none then l else topkInsert x.vec.topkK p.1 (b + p.2) l) x.vec.topk } } [])

/-- VRED OUT puts the state's record in flight for tick t + 3, VRED SMOUT the quotients of a row for tick t + 7, VTOPK OUT the kept
values for tick t + 3 and their indexes for tick t + 4, padded with −infinity and 0xFFFFFFFF (06 R134, R136, R137, R139, R140). -/
def Obligations.ReductionOutputWordsComplete : Prop :=
  ∀ (s : State) (c : CoreId) (δ : BitVec 12) (q : BitVec 3) (v : BitVec 5),
    let T := s.clk.tick
    let x := s.core c.val
    let red := Recs.get Red.empty x.vec.red q.toNat
    (∀ rm m, let i : Instr := .vredOut c δ q v rm;
      s.Issues c i .reduction → RM.ofCode rm.toNat = some m → ∃ t, exec i s = .next t ∧
        s.BecomesBut t c (s.issued c i .reduction 1)
          [⟨2 * (T + 3) + 1, 23, c.val, .vreg v.toNat 0 (red.record (roundOut .fp32 m
            (if m == .st then s.draw c.val x.ctl.regs 4 0 0 else 0) false 0 (accVal red.w red.acc)).1)⟩]) ∧
    (∀ vs e, let i : Instr := .vredSmout c δ q v vs e;
      let part (w : W32) : Nat := match red.lseClass with
        | 1 => Fmt.fp32.nanBits
        | 2 => 0
        | 3 => if w = 0x7F800000 then red.rinv else 0
        | _ => rn2 fMul (lseU red.c.toNat red.m w.toNat) red.rinv
      s.Issues c i .reduction → red.kind = 6 → red.sumPhase = true → ∃ t, exec i s = .next t ∧
        s.BecomesBut t c (s.issued c i .reduction 1) [⟨2 * (T + 7) + 1, 23, c.val, .vreg v.toNat 0
          ((x.vec.reg vs.toNat).zipIdx.map (fun a => if a.2 ≤ e.toNat then BitVec.ofNat 32 (part a.1) else 0))⟩]) ∧
    (let i : Instr := .vtopkOut c δ v;
      let pad := x.vec.topk ++ List.replicate (64 - x.vec.topk.length) ((0xFF800000 : W32), (0xFFFFFFFF : W32))
      s.Issues c i .reduction → v.toNat < 31 → ∃ t, exec i s = .next t ∧
        s.Becomes t c (s.issued c i .reduction 1)
          [⟨2 * (T + 3) + 1, 23, c.val, .vreg v.toNat 0 (pad.map (·.1))⟩,
           ⟨2 * (T + 4) + 1, 23, c.val, .vreg (v.toNat + 1) 0 (pad.map (·.2))⟩])

/-! ### Move words -/

/-- WSRD puts the stored rows of a block in flight for the scratchpad, 32 rows for tick t + 3 and the rest for tick t + 4; WSWR of one row
puts the row of the scratchpad in flight for the weight store (08 R187, R192, R193). -/
def Obligations.WeightMoveWordsComplete : Prop :=
  ∀ (s : State) (c : CoreId) (δ : BitVec 12) (block : Wb) (row : BitVec 6) (sp : Sr) (b : Nat) (at_ : RowsAt),
    let T := s.clk.tick
    let x := s.core c.val
    let r := x.ctl.regs
    resolveWb r block = (b, none) → b < wsBlocks → x.ws.kindOf b = 1 → x.ws.blockBad b = false →
    (let i : Instr := .wsrd c δ block true row sp;
      s.Issues c i .local → resolveSr x.sp r sp 1 = (at_, none) → ∃ t, exec i s = .next t ∧
        s.Becomes t c { s.issued c i .local 1 with ws := x.ws.correct b }
          (⟨2 * (T + 3) + 1, 11, c.val, .rowList (at_.rows.zip [x.ws.storedRow b row.toNat])⟩ ::
            (if sp.mode = 3 then [⟨2 * (T + 3) + 1, 31, c.val, .commit sp.reg.toNat 1 (s.entryOf c i)⟩] else []))) ∧
    (let i : Instr := .wsrd c δ block false 0 sp;
      let pairs := at_.rows.zip ((List.range 64).map (x.ws.storedRow b))
      s.Issues c i .local → resolveSr x.sp r sp 64 = (at_, none) → ∃ t, exec i s = .next t ∧
        s.Becomes t c { s.issued c i .local 2 with ws := x.ws.correct b }
          ([⟨2 * (T + 3) + 1, 11, c.val, .rowList (pairs.take 32)⟩, ⟨2 * (T + 4) + 1, 11, c.val, .rowList (pairs.drop 32)⟩] ++
            (if sp.mode = 3 then [⟨2 * (T + 4) + 1, 31, c.val, .commit sp.reg.toNat 64 (s.entryOf c i)⟩] else []))) ∧
    (∀ sr, let i : Instr := .wswr c δ block true row sp;
      s.Issues c i .local → resolveSr x.sp r sp 1 = (at_, none) → at_.rows = [sr] → x.sp.rowBad sr = false →
        ∃ t, exec i s = .next t ∧ s.Becomes t c { s.issued c i .local 1 with sp := x.sp.correct [sr] }
          ((if sp.mode = 2 then [⟨2 * T + 1, 30, c.val, .release sp.reg.toNat 1 (s.entryOf c i)⟩] else []) ++
            [⟨2 * (T + 3) + 1, 12, c.val, .ws (4096 * b + 64 * row.toNat) (x.sp.row sr)⟩])) ∧
    (let i : Instr := .wswr c δ block false 0 sp;
      s.Issues c i .local → resolveSr x.sp r sp 64 = (at_, none) → at_.rows.length = 64 →
        at_.rows.all (fun q => !x.sp.rowBad q) = true → ∃ t, exec i s = .next t ∧
        s.Becomes t c { s.issued c i .local 2 with sp := x.sp.correct (at_.rows.take 32) }
          [⟨2 * (T + 1), 6, c.val, .rowRead ⟨at_.rows.drop 32, 32, (at_.rows.take 32).map x.sp.row, .wswr b 0,
            if sp.mode = 2 then some (sp.reg.toNat, 64) else none, s.entryOf c i⟩⟩])

/-- SPFILL writes its word into the first Q rows at the end of its tick, and goes on with the rest in the next tick; SPCOPY reads its
first Q rows and writes them three ticks later, from the top down where its source lies below its destination (05 R98, R99;
08 R190, R191). -/
def Obligations.ScratchpadRunWordsComplete : Prop :=
  ∀ (s : State) (c : CoreId) (δ : BitVec 12) (n : BitVec 3) (q : BitVec 5),
    let T := s.clk.tick
    let x := s.core c.val
    let r := x.ctl.regs
    let count := cnt r n
    1 ≤ count → count ≤ 6144 →
    (∀ row psrc preg cmt at_ W, let i : Instr := .spfill c δ row n q psrc preg cmt;
      let all := at_.rows.zip at_.rows
      let line := (List.replicate 16 (leBytes 4 W.toNat)).flatten
      let com := if cmt = 0 then none else some (row.reg.toNat, cnt r cmt)
      s.Issues c i .local → resolveSr x.sp r row count = (at_, none) → checkCommit x.sp r row cmt = none →
        (psrc.toNat = 0 → W = Tab.get 0 r preg.toNat) → (psrc.toNat = 1 → W = BitVec.ofNat 32 T) →
        (psrc.toNat = 2 → W = BitVec.ofNat 32 (T / 2 ^ 32)) → (psrc.toNat = 3 → W = BitVec.ofNat 32 s.station) →
        (psrc.toNat = 4 → W = BitVec.ofNat 32 (s.station / 2 ^ 32)) → (psrc.toNat = 5 → W = (s.takeFree 32).1) →
        let s' := if psrc.toNat = 5 then (s.takeFree 32).2 else s
        psrc.toNat ≤ 5 → ∃ t, exec i s = .next t ∧
          s'.Becomes t c { s.issued c i .local (ceilDiv count (q.toNat + 1)) with
              xfer := { x.xfer with varyDone := if psrc = 0 then x.xfer.varyDone else true } }
            (⟨2 * T + 1, 11, c.val, .rowList ((all.take (q.toNat + 1)).map (fun p => (p.1, line)))⟩ ::
            (if all.drop (q.toNat + 1) = [] then
              (if cmt = 0 then [] else [⟨2 * T + 1, 31, c.val, .commit row.reg.toNat (cnt r cmt) (s.entryOf c i)⟩])
             else [⟨2 * (T + 1), 7, c.val, .rowRun ⟨.fill W, all.drop (q.toNat + 1), q.toNat + 1, com, s.entryOf c i⟩⟩]))) ∧
    (∀ src dst a b, let i : Instr := .spcopy c δ src dst n q;
      let pairs := ((List.range count).map (b + ·)).zip ((List.range count).map (a + ·))
      let all := if a < b then pairs.reverse else pairs
      s.Issues c i .local → resolveSa r src count = (a, none) → resolveSa r dst count = (b, none) →
        let now := all.take (q.toNat + 1)
        now.all (fun p => !x.sp.rowBad p.2) = true → ∃ t, exec i s = .next t ∧
          s.Becomes t c { s.issued c i .local (ceilDiv count (q.toNat + 1)) with sp := x.sp.correct (now.map (·.2)) }
            (⟨2 * (T + 3) + 1, 11, c.val, .rowList (now.map (fun p => (p.1, x.sp.row p.2)))⟩ ::
              (if all.drop (q.toNat + 1) = [] then [] else
                [⟨2 * (T + 1), 7, c.val,
                  .rowRun ⟨.copy a (a < b), all.drop (q.toNat + 1), q.toNat + 1, none, s.entryOf c i⟩⟩])))

/-- KVRD of a fresh page puts its rows in flight, 32 a tick from tick t + 3 on; of a page whose generation differs it delivers zeros and
counts a stale read; KVWR to a page of the package reads its rows, 32 a tick, and puts them in flight for the weight store (08 R194, R195; 14 R325 to
R327).
The model's choices in it: log entry 22. -/
def Obligations.KvWordsComplete : Prop :=
  ∀ (s : State) (c : CoreId) (δ : BitVec 12) (hreg : BitVec 4) (greg : BitVec 3) (sp : Sr) (y : KvLayout) (at_ : RowsAt),
    let T := s.clk.tick
    let x := s.core c.val
    let r := x.ctl.regs
    let h := Handle.ofWord (Tab.get 0 r hreg.toNat)
    let l := s.logical c.val
    let n := h.count * y.ws
    let addrs := y.addrs x.ws l h
    let gen := s.pageGen y.slot (y.groupOf l h.page)
    s.kvLayout c.val = some y → h.bad (pageBase y.g y.shards l) (y.g * Tab.get 0 y.shards l) = false →
    resolveSr x.sp r sp n = (at_, none) → addrs.all (fun a => !x.ws.rowBad a) = true →
    let flight (rows : List (List Byte)) : List Landing := (List.range (ceilDiv n 32)).map (fun k =>
      ⟨2 * (T + 3 + k) + 1, 11, c.val, .rowList (((at_.rows.zip rows).drop (32 * k)).take 32)⟩)
    (let i : Instr := .kvrd c δ hreg greg sp;
      s.Issues c i .local →
      (gen = cnt r greg % 65536 → ∃ t, exec i s = .next t ∧
        s.Becomes t c { s.issued c i .local (ceilDiv n 32) with ws := addrs.foldl (fun w a => w.correctRow a) x.ws }
          (flight (addrs.map (fun a => x.ws.mem.read a 64)))) ∧
      (gen ≠ cnt r greg % 65536 → ∃ t, exec i s = .next t ∧
        s.Becomes t c { s.issued c i .local (ceilDiv n 32) with
            xfer := { x.xfer with staleReads := x.xfer.staleReads + 1 } }
          (flight (addrs.map (fun _ => List.replicate 64 0))))) ∧
    (let i : Instr := .kvwr c δ hreg greg sp;
      Tab.get 0 (Recs.get [] s.pageGens y.slot) (y.groupOf l h.page) = ((Tab.get 0 r (16 + greg.toNat)).setWidth 16).toNat →
      let now := at_.rows.take 32
      let rest := at_.rows.drop 32
      now.all (fun q => !x.sp.rowBad q) = true → s.Issues c i .local →
      ∃ t, exec i s = .next t ∧ s.Becomes t c { s.issued c i .local (ceilDiv n 32) with sp := x.sp.correct now }
        [if rest = [] then ⟨2 * (T + 3) + 1, 12, c.val, .wsRows (addrs.zip (now.map x.sp.row))⟩
         else ⟨2 * (T + 1), 6, c.val, .rowRead ⟨rest, now.length, now.map x.sp.row, .kvLocal addrs
          ((Tab.get 0 r (16 + greg.toNat)).setWidth 16) y.slot (y.groupOf l h.page), none, s.entryOf c i⟩⟩])

/-- SEND and SENDXOR put the two cells of each of their rows in the outbound buffer, those of 32 rows in their tick, and go on with the rest;
SENDACC puts the cells of the accumulator's contribution there (08 R196, R197; 13 R309 to R313, R319). -/
def Obligations.SendWordsComplete : Prop :=
  ∀ (s : State) (c : CoreId) (δ : BitVec 12) (dreg : BitVec 4) (cls : BitVec 4) (tid : BitVec 12),
    let x := s.core c.val
    let r := x.ctl.regs
    let d := Tab.get 0 r dreg.toNat
    let out := x.xfer.outbound
    (∀ (isXor : Bool) sp n vc at_, let i : Instr := if isXor then .sendxor c δ sp n dreg vc cls tid else .send c δ sp n dreg vc cls tid;
      let count := cnt r n
      let kind : CellKind := if isXor then .xor else .data
      let now := at_.rows.take 32
      let rest := at_.rows.drop 32
      s.Issues c i .out → s.sendFail (s.ctxOf c i) d = none → 1 ≤ count → count ≤ 1024 →
        resolveSr x.sp r sp count = (at_, none) → s.vcFail (s.ctxOf c i) vc = none →
        now.all (fun q => !x.sp.rowBad q) = true → ∃ t, exec i s = .next t ∧
          s.Becomes t c { s.issued c i .out (ceilDiv count 32) with
            sp := x.sp.correct now
            xfer := { x.xfer with outbound := out ++ (now.map x.sp.row).zipIdx.flatMap (fun p =>
              rowCells s c.val d (vcOf vc) (cls.setWidth 2) (if isXor then 3 else 0) tid (2 * p.2) (2 * count) .none p.1) } }
            (if rest = [] then [] else [⟨2 * (s.clk.tick + 1), 6, c.val, .rowRead ⟨rest, now.length, now.map x.sp.row,
              .send d (vcOf vc) (cls.setWidth 2) tid kind (2 * count), none, s.entryOf c i⟩⟩])) ∧
    (∀ k enc, let i : Instr := .sendacc c δ k dreg enc cls tid;
      let cells := (contribution (x.lane.win k.toNat) ((List.range 64).map (x.lane.accAt k.toNat)) enc.toNat (tagBase r)
        (tagPoint r) (s.saltOf c.val)).1
      s.Issues c i .out → s.sendFail (s.ctxOf c i) d = none → x.lane.readBad k.toNat = false →
        ∃ t, exec i s = .next t ∧ s.BecomesBut t c { s.issued c i .out 1 with xfer := { x.xfer with
          varyDone := x.xfer.varyDone || enc == 2
          outbound := out ++ cells.zipIdx.map (fun p => mkCell d s.place (destCore d) 0 (cls.setWidth 2)
            (if enc = 2 then 2 else 1) (s.tenantOf c.val) tid p.2 cells.length .none p.1) } } [])

/-- RECV of the forms that take rows or an accumulator opens its transfer id with the form and the rows that its operand names; RECV of
form 4 reads the row of the other core and puts it in flight over the mesh (08 R188, R198; 05 R96, R97). -/
def Obligations.ReceiveWordsComplete : Prop :=
  ∀ (s : State) (c : CoreId) (δ : BitVec 12) (tid : BitVec 12) (sp : Sr) (at_ : RowsAt),
    let T := s.clk.tick
    let x := s.core c.val
    let r := x.ctl.regs
    let Opens (i : Instr) (form : TidForm) (rows : RowRef) : Prop :=
      s.Issues c i .into → x.xfer.tids.all (·.tid != tid.toNat) = true → x.xfer.tids.length < 64 → x.xfer.waiting = [] →
        ∃ t o, exec i s = .next t ∧ o.tid = tid.toNat ∧ o.form = form ∧ o.rows = rows ∧ o.rcvd = 0 ∧ o.complete = false ∧
          s.Becomes t c { s.issued c i .into 1 with xfer := { x.xfer with
            tids := x.xfer.tids ++ [o], varyDone := x.xfer.varyDone || form == .fast } } []
    (resolveSr x.sp r sp 1 = (at_, none) → Opens (.recvData c δ tid sp) .data at_.ref) ∧
    (∀ k, Opens (.recvAccumulator c δ tid k) (.acc k.toNat) ⟨none, 0, false⟩) ∧
    (resolveSr x.sp r sp 4 = (at_, none) → Opens (.recvFastAdd c δ tid sp) .fast at_.ref) ∧
    (resolveSr x.sp r sp 1 = (at_, none) → Opens (.recvXor c δ tid sp) .xor at_.ref) ∧
    (∀ score srow d, let i : Instr := .recvOnDieRead c δ score srow sp;
      s.Issues c i .into → srow.toNat < spRows → resolveSr x.sp r sp 1 = (at_, none) → s.physOf score.toNat = some d →
        d ≠ c.val → s.partOf d = s.partOf c.val → (s.core d).sp.rowBad srow.toNat = false → ∃ t, exec i s = .next t ∧
          t.core c.val = s.issued c i .into 1 ∧
          t.core d = { s.core d with sp := (s.core d).sp.correct [srow.toNat] } ∧
          (∀ e, e ≠ c.val → e ≠ d → t.core e = s.core e) ∧ t.landings = inFlightAfter s.landings [⟨2 * (T + 5 + meshHops d c.val + 6 * meshCrossings d c.val) + 1, 11, c.val,
            .rowList [(at_.rows.headD 0, (s.core d).sp.row srow.toNat)]⟩] ∧ s.CoresOnly t)

/-- The words that open a transfer of their own: HOSTRD asks host memory for its bytes, HOSTWR has its rows ready for host memory, KDLOOK
and KDPUT hand their keys or entries to the directory, KVWR with REMOTE 1 puts its head cell and its rows' cells (to a core of the package or of another) in the outbound buffer;
each opens its transfer id, and reads its rows 32 a tick (08 R187, R188, R195, R199, R200).
The model's choices in it: log entry 9. -/
def Obligations.ServiceWordsComplete : Prop :=
  ∀ (s : State) (c : CoreId) (δ : BitVec 12) (tid : BitVec 12) (sp : Sr) (n : BitVec 3) (at_ : RowsAt),
    let x := s.core c.val
    let r := x.ctl.regs
    let count := cnt r n
    let now := at_.rows.take 32
    let rest := at_.rows.drop 32
    let data := now.map x.sp.row
    let w (buf : BitVec 6) := (s.func (s.ownerOf c.val)).win buf.toNat
    let Opened (i : Instr) (form : TidForm) (s' : State) (y : Core) (f : Xfer → Xfer) (ls : List Landing) : Prop :=
      ∃ t o, exec i s = .next t ∧ o.tid = tid.toNat ∧ o.form = form ∧ o.rcvd = 0 ∧ o.complete = false ∧
        s'.Becomes t c { y with xfer := f { x.xfer with tids := x.xfer.tids ++ [o] } } ls
    let more (i : Instr) (sink : RowSink) : List Landing :=
      if rest = [] then [] else [⟨2 * (s.clk.tick + 1), 6, c.val, .rowRead ⟨rest, now.length, data, sink, none, s.entryOf c i⟩⟩]
    x.xfer.tids.all (·.tid != tid.toNat) = true → x.xfer.tids.length < 64 → x.xfer.waiting = [] → 1 ≤ count →
    now.all (fun q => !x.sp.rowBad q) = true →
    (∀ buf oreg, let i : Instr := .hostrd c δ buf oreg sp n tid;
      let off := (Tab.get 0 r oreg.toNat).toNat
      s.Issues c i .service → count ≤ 1024 → off % 64 = 0 → (w buf).len ≠ 0 → off + 64 * count ≤ (w buf).len →
        resolveSr x.sp r sp count = (at_, none) →
        Opened i .hostrd { s with out := { s.out with
          hostReads := s.out.hostReads ++ [(s.ownerOf c.val, (w buf).base + off, 64 * count)] } }
          (s.issued c i .service 1) id []) ∧
    (∀ buf oreg, let i : Instr := .hostwr c δ buf oreg sp n tid;
      let off := (Tab.get 0 r oreg.toNat).toNat
      s.Issues c i .service → count ≤ 1024 → off % 64 = 0 → (w buf).len ≠ 0 → off + 64 * count ≤ (w buf).len →
        resolveSr x.sp r sp count = (at_, none) →
        Opened i .hostwr s { s.issued c i .service (ceilDiv count 32) with sp := x.sp.correct now }
          (fun xf => { xf with hostOut := xf.hostOut ++ data.zipIdx.map (fun p =>
            (tid.toNat, (w buf).base + off + 64 * p.2, p.1)) })
          (more i (.hostwr ((w buf).base + off) tid.toNat))) ∧
    (∀ rreg, let i : Instr := .kdlook c δ sp n rreg tid;
      let dst := (Tab.get 0 r rreg.toNat).toNat
      s.Issues c i .service → count ≤ 8192 → dst + ceilDiv count 8 ≤ spRows → s.hasDir = true →
        resolveSr x.sp r sp (ceilDiv count 8) = (at_, none) →
        Opened i .kdlook { s with kdq := if rest = [] then s.kdq ++ [⟨c.val, tid.toNat, false, false,
            (List.range count).map (fun k => sliceB data.flatten (8 * k) 8), dst, 0⟩] else s.kdq }
          { s.issued c i .service (ceilDiv (ceilDiv count 8) 32) with sp := x.sp.correct now } id
          (more i (.kdlook count dst tid.toNat))) ∧
    (∀ op, let i : Instr := .kdput c δ sp n op tid;
      s.Issues c i .service → count ≤ 4096 → s.hasDir = true →
        resolveSr x.sp r sp (ceilDiv count 4) = (at_, none) →
        Opened i .kdput { s with kdq := if rest = [] then s.kdq ++ [⟨c.val, tid.toNat, true, op,
            (List.range count).map (fun k => sliceB data.flatten (16 * k) 16), 0, 0⟩] else s.kdq }
          { s.issued c i .service (ceilDiv (ceilDiv count 4) 32) with sp := x.sp.correct now } id
          (more i (.kdput count op tid.toNat))) ∧
    (∀ hreg greg dreg y ws g shards holder, let i : Instr := .kvwrRemote c δ hreg greg sp dreg tid;
      let word := Tab.get 0 r hreg.toNat
      let h := Handle.ofWord word
      let d := Tab.get 0 r dreg.toNat
      let own := s.destHere d
      let dst := mkDest holder (destPlace d) own
      let total := h.count * ws
      let head := leBytes 4 word.toNat ++ leBytes 2 (cnt r greg) ++ [0, 0] ++
        leBytes 4 (mkDest (s.logical c.val) s.place own).toNat
      s.Issues c i .out → s.kvLayout c.val = some y →
        (if own then destReserved d = 0 ∧ (ws, g, shards) = (y.ws, y.g, y.shards) ∧ s.targetFail c.val holder = none
         else s.destFail d = none ∧ ((s.group y.slot).members.find? (·.place == destPlace d)).map
          (fun m => (m.ws, m.g, m.shards)) = some (ws, g, shards)) →
        pageCore g shards h.page = some holder → h.bad 0 (pageBase g shards 288) = false → total ≤ 1023 → resolveSr x.sp r sp total = (at_, none) →
        Opened i .kvwr s { s.issued c i .out (ceilDiv total 32) with sp := x.sp.correct now }
          (fun xf => { xf with outbound := xf.outbound ++
            [mkCell dst s.place holder 2 0 0 (s.tenantOf c.val) tid 0 (2 * total + 1) .kvwr head] ++
            data.zipIdx.flatMap (fun p => rowCells s c.val dst 2 0 0 tid (2 * p.2 + 1) (2 * total + 1) .kvwr p.1) })
          (more i (.kvRemote dst tid (2 * total + 1))))

/-! ### Results that land -/

/-- A landed SETF sets its flag, an INCF or SIGNAL adds one, a DECF takes one from a flag above 0; every other flag is as it was. An increment
lost at 255 sets FLAG_SAT; a decrement of a flag at 0 leaves every flag and logs FLAG_UNDERFLOW with the DECF's tick, offset and the flag as
detail. Nothing else changes (07 R159, R160, Table 7.5; 08 R173). -/
def Obligations.LandedFlagChange : Prop :=
  ∀ (s : State) (c T f g : Nat) (v : Byte) (e : QEntry),
    let k := (s.core c).ctl
    let old := Tab.get 0 k.flags f
    let Sets (eff : LandEff) (new : Byte) (status : BitVec 16) : Prop :=
      let t := s.applyEff c T eff
      Tab.get 0 (t.core c).ctl.flags g = (if g = f then new else Tab.get 0 k.flags g) ∧
        t.core c = { s.core c with ctl := { k with flags := (t.core c).ctl.flags, status := status } } ∧ s.OnlyCore t c ∧
        t.landings = s.landings
    Tab.wf 0 k.flags = true →
    Sets (.setFlag f v) v k.status ∧
    Sets (.incFlag f) (if old = 255 then 255 else old + 1)
      (if old = 255 then k.status ||| BitVec.ofNat 16 (2 ^ StatusBit.flagSat.pos) else k.status) ∧
    (old ≠ 0 → Sets (.decFlag f e) (old - 1) k.status) ∧
    (old = 0 → k.recs.length < 16 → s.applyEff c T (.decFlag f e) = s.updCtl c (fun k => { k with
      skipCount := satNat (2 ^ 32 - 1) (k.skipCount + 1)
      recs := k.recs ++ [⟨BitVec.ofNat 32 e.tick, e.offset, e.opcode, BitVec.ofNat 16 (c + 512 * e.source), .flagUnderflow,
        BitVec.ofNat 32 f⟩] }))

/-- A landed write of the scratchpad or the weight store stores its bytes and nowhere else, and corrects the words that it replaces, but for
those of the scratchpad whose cells are faulty; the CRC in
a weight-store block's record becomes that of the block as written, and the write is counted. Nothing else changes (05 R91, R109;
04 R75). -/
def Obligations.LandedMemoryWrite : Prop :=
  ∀ (s : State) (c T at_ a : Nat) (bs : List Byte),
    let x := s.core c
    (Memory.wf x.sp.mem = true →
      let t := s.applyEff c T (.rows at_ bs)
      (t.core c).sp.mem.byte a = (if 64 * at_ ≤ a ∧ a < 64 * at_ + bs.length then bs.getD (a - 64 * at_) 0 else x.sp.mem.byte a) ∧
      Memory.wf (t.core c).sp.mem = true ∧
      t.core c = { x with sp := { x.sp with mem := (t.core c).sp.mem, errs := (t.core c).sp.errs } } ∧
      (∀ e, e ∈ (t.core c).sp.errs ↔
        e ∈ x.sp.errs ∧ (¬(64 * at_ < 8 * e.1 + 8 ∧ 8 * e.1 < 64 * at_ + bs.length) ∨ e.1 ∈ x.sp.faulty)) ∧
      s.OnlyCore t c ∧ t.landings = s.landings) ∧
    (Memory.wf x.ws.mem = true →
      let t := s.applyEff c T (.ws at_ bs)
      let b := at_ / 4096
      (t.core c).ws.mem.byte a = (if at_ ≤ a ∧ a < at_ + bs.length then bs.getD (a - at_) 0 else x.ws.mem.byte a) ∧
      Memory.wf (t.core c).ws.mem = true ∧
      ((t.core c).ws.record b).crc = ({ x.ws with mem := x.ws.mem.write at_ bs }).crcOf b ∧
      (∀ b', b' ≠ b → (t.core c).ws.record b' = x.ws.record b') ∧
      t.core c = { x with ws := { x.ws with
        mem := (t.core c).ws.mem, errs := (t.core c).ws.errs, records := (t.core c).ws.records
        writes := Tab.upd 0 x.ws.writes b (· + 1) } } ∧
      s.OnlyCore t c ∧ t.landings = s.landings)

/-- A landed vector result sets its elements and no other; a landed ZACC or WINDOW leaves the 64 accumulators of its index with value 0
and no flag and those of every other index as they were, and a WINDOW sets the base (02 R27; 06 R112, R116). -/
def Obligations.LandedRegisterWrite : Prop :=
  ∀ (s : State) (c T : Nat),
    (∀ v first es n, Tab.wf 0 (s.core c).vec.regs = true →
      let t := s.applyEff c T (.vreg v first es)
      let at_ := 64 * v + first
      Tab.get 0 (t.core c).vec.regs n = (if at_ ≤ n ∧ n < at_ + es.length then es.getD (n - at_) 0
        else Tab.get 0 (s.core c).vec.regs n) ∧
      t.core c = { s.core c with vec := { (s.core c).vec with regs := (t.core c).vec.regs } } ∧ s.OnlyCore t c ∧
      t.landings = s.landings) ∧
    (∀ k w n j, j < 64 →
      let t := s.applyEff c T (.accClear k w)
      (t.core c).lane.accAt k j = Acc.zero ∧ (n ≠ k → (t.core c).lane.accAt n j = (s.core c).lane.accAt n j) ∧
      t.core c = { s.core c with lane := { (s.core c).lane with
        acc := (t.core c).lane.acc, residues := (t.core c).lane.residues
        windows := match w with | some v => Tab.set 0 (s.core c).lane.windows k v | none => (s.core c).lane.windows } } ∧
      s.OnlyCore t c ∧ t.landings = s.landings) ∧
    (∀ k W, Tab.wf 0 (s.core c).lane.windows = true → ((s.applyEff c T (.accClear k (some W))).core c).lane.win k = W)

/-! ### Exceptions of timed words -/

/-- A timed word whose issue slot is still held is skipped: it logs SLOT_BUSY with its tick, offset and opcode and an open DETAIL, and
has no other effect. So are words that break a rule of their operands, with its reason and the field: EXPECT of an id that is not open, a
vector register past 31, an id opened twice, a destination with reserved bits (03 R64; 08 R173, R176, R180, R185, R186, R188).
The model's choices in it: log entries 5 and 89. -/
def Obligations.SkippedWordsAreLogged : Prop :=
  ∀ (s : State) (c : CoreId) (δ : BitVec 12),
    let x := s.core c.val
    (∀ (y : Ctx) (sl : SlotId) occ eff, let z := s.core y.core
      y.tick < Tab.get 0 z.busy sl.idx → z.ctl.recs.length < 16 →
      let t := s.issueIn y sl occ [] eff
      t.core y.core = { z with ctl := { z.ctl with
        skipCount := satNat (2 ^ 32 - 1) (z.ctl.skipCount + 1)
        recs := z.ctl.recs ++ [⟨BitVec.ofNat 32 y.entry.tick, y.entry.offset, y.entry.opcode,
          BitVec.ofNat 16 (y.core + 512 * y.entry.source), .slotBusy, Config.freeWord 32 s.free⟩] } } ∧
      State.OnlyCore { s with free := s.free + 1 } t y.core ∧ t.landings = s.landings) ∧
    (let Logs (i : Instr) (sl : SlotId) (why : Reason) (detail : Nat) : Prop :=
      s.Issues c i sl → x.ctl.recs.length < 16 → ∃ t, exec i s = .next t ∧
        s.Becomes t c { s.issued c i sl 1 with ctl := { x.ctl.past i with
          skipCount := satNat (2 ^ 32 - 1) (x.ctl.skipCount + 1)
          recs := x.ctl.recs ++ [⟨BitVec.ofNat 32 (s.entryOf c i).tick, x.ctl.offset, (s.entryOf c i).opcode,
            BitVec.ofNat 16 (c.val + 512 * (s.entryOf c i).source), why, BitVec.ofNat 32 detail⟩] } } []
    (∀ tid, x.xfer.tids.all (·.tid != tid.toNat) = true → Logs (.expect c δ tid) .control .tidUnknown tid.toNat) ∧
    Logs (.vtopkOut c δ 31) .reduction .badField 31 ∧
    (∀ tid k, x.xfer.tids.any (·.tid == tid.toNat) = true → x.xfer.tids.length < 64 →
      Logs (.recvAccumulator c δ tid k) .into .tidBusy tid.toNat) ∧
    (∀ f r, let w := Tab.get 0 x.ctl.regs r.toNat;
      destReserved w ≠ 0 → s.destHere w = false → Logs (.signal c δ f r) .control .badDest w.toNat))

/-! ### Invariants of the whole machine -/

/-- The queue is first in, first out: a step takes the command at the front and leaves the rest as it was, whatever the command does; an
idle step leaves the queue empty. -/
def Obligations.QueueIsFirstInFirstOut : Prop :=
  ∀ s t : State, step s = .next t → t.pending = s.pending.drop 1

/-- Every step keeps the canonical form of every byte memory: the scratchpads, the weight stores and the tailpiece's image.
The model's choices in it: log entry 4. -/
def Obligations.MemoriesStayCanonical : Prop :=
  ∀ s t : State, s.memWf = true → step s = .next t → t.memWf = true

/-! ### Arrivals and what leaves a core -/

/-- A SIGNAL that a port has brought, of the step that its core has run last, adds one to its flag there at the end of the tick, one of the
next step is kept pending; a data cell of an open transfer that the switch has sent to its core puts its 32 bytes in flight for its half row
at the end of the tick and is counted; a cell whose id is not open waits (07 R162; 08 R188; 12 R296; 05 R106).
The model's choices in it: log entries 89, 97. -/
def Obligations.ArrivalsComplete : Prop :=
  ∀ (s : State) (d : Nat),
    s.passThrough = false →
    (∀ (port : PortId) core flag (step : W64) tenant x, let i : Instr := .signalArrival port core flag step tenant;
      let q : State := { s with mesh := s.mesh.erase x }
      s.mesh.find? (fun x => x.port == port.val && x.cell.kind == .signal && x.cell.core == core && x.cell.tenant == tenant &&
        x.cell.tid == flag.setWidth 12 && fieldN x.cell.payload 0 8 == step.toNat) = some x →
      s.physOf core.toNat = some d → core ≠ 0x1FF → (s.part ((s.partOf d).getD 0)).tenant = tenant.toNat →
      (step = (s.core d).ctl.ran → exec i s = .next (q.landEnd s.clk.tick 42 d (.incFlag flag.toNat))) ∧
      (step.toNat = (s.core d).ctl.ran.toNat + 1 → (Tab.get 0 (s.core d).ctl.pendSig flag.toNat).toNat < 255 →
        exec i s = .next (q.updCtl d (fun k => { k with
          pendSig := Tab.set 0 k.pendSig flag.toNat (Tab.get 0 k.pendSig flag.toNat + 1) })))) ∧
    (∀ via chan (cell : Cell), let i : Instr := .cellArrival via chan cell;
      let x : InCell := ⟨viaPort via, chan, cell⟩
      x ∈ s.mesh → s.physOf cell.core.toNat = some d → cell.core ≠ 0x1FF → cell.dest = s.place → cell.kind = .data → cell.last = false →
      (s.part ((s.partOf d).getD 0)).tenant = cell.tenant.toNat →
      (∀ o, (s.core d).xfer.tids.find? (·.tid == cell.tid.toNat) = some o → o.form = .data → o.discard = false →
        o.total = none → o.rows.reg = none → o.rows.pos + cell.index.toNat / 2 < spRows → ∃ t, exec i s = .next t ∧
          t.landings = inFlightAfter s.landings [⟨2 * s.clk.tick + 1, 13, d,
            .bytes (64 * (o.rows.pos + cell.index.toNat / 2) + 32 * (cell.index.toNat % 2)) cell.payload⟩] ∧
          t.core d = { s.core d with xfer := { (s.core d).xfer with tids := (s.core d).xfer.tids.map (fun p =>
            if p.tid == o.tid then { p with rcvd := o.rcvd + 1, total := none } else p) } } ∧
          State.OnlyCore { s with mesh := s.mesh.erase x } t d) ∧
      ((s.core d).xfer.tids.find? (·.tid == cell.tid.toNat) = none → ∃ t, exec i s = .next t ∧
          t.core d = { s.core d with xfer := { (s.core d).xfer with waiting := (s.core d).xfer.waiting ++ [x] } } ∧
          t.landings = s.landings ∧ State.OnlyCore { s with mesh := s.mesh.erase x } t d))

/-- A transfer whose count meets its total completes; a KV-write context that is complete writes all its rows when its handle and
generation are right, and answers with status 0; the rows of a host read are written, and the last of them completes it; cells that wait
are offered again, oldest first (05 R106; 08 R195, R199; 12 R296). -/
def Obligations.CompletionsComplete : Prop :=
  ∀ (s : State) (c : CoreId) (tid : BitVec 12),
    let x := (s.core c.val).xfer
    (∀ o, x.tids.find? (·.tid == tid.toNat) = some o → o.total = some o.rcvd → o.complete = false → o.form = .data →
      o.faulty = false → o.rows.reg = none → ∃ t, exec (.transferComplete c tid) s = .next t ∧
        t.core c.val = { s.core c.val with xfer := { x with
          tids := x.tids.map (fun p => if p.tid == o.tid then { p with complete := true } else p) } } ∧
        s.OnlyCore t c.val ∧ t.landings = s.landings) ∧
    (∀ w : InCell, x.waiting = [w] → (w.cell.kind = .data) →
      (∀ o, x.tids.find? (·.tid == w.cell.tid.toNat) = some o → o.form = .data → o.discard = false → o.total = none →
        o.rows.reg = none → o.rows.pos + w.cell.index.toNat / 2 < spRows → w.cell.last = false →
        ∃ t, exec (.waitingArrivalWrite c) s = .next t ∧ s.OnlyCore t c.val ∧
          t.core c.val = { s.core c.val with xfer := { x with waiting := [], tids := x.tids.map (fun p =>
            if p.tid == o.tid then { p with rcvd := o.rcvd + 1, total := none } else p) } } ∧
          t.landings = inFlightAfter s.landings [⟨2 * s.clk.tick + 1, 13, c.val,
            .bytes (64 * (o.rows.pos + w.cell.index.toNat / 2) + 32 * (w.cell.index.toNat % 2)) w.cell.payload⟩])) ∧
    (∀ k y (head : List Byte), let h := Handle.ofWord (BitVec.ofNat 32 (fieldN head 0 4));
      let l := s.logical c.val
      x.kvctx.find? (fun k => k.tid == tid.toNat && k.total == some k.rcvd) = some k → k.head = some head → x.waiting = [] →
      s.kvLayout c.val = some y → h.bad (pageBase y.g y.shards l) (y.g * Tab.get 0 y.shards l) = false →
      s.pageGen y.slot (y.groupOf l h.page) = fieldN head 4 2 →
      ∃ t r, exec (.kvWriteContextComplete c tid) s = .next t ∧
        t.landings = inFlightAfter s.landings [⟨2 * s.clk.tick + 1, 13, c.val,
          .wsRows ((y.addrs (s.core c.val).ws l h).zip k.rows)⟩] ∧
        t.core c.val = { s.core c.val with xfer := { x with
          replies := x.replies ++ [r], kvctx := x.kvctx.filter (·.tid != k.tid) } } ∧
        r.vc = 3 ∧ r.kind = .data ∧ r.last = true ∧ fieldN r.payload 0 1 = 0 ∧ s.OnlyCore t c.val) ∧
    (∀ (first : BitVec 11) data o, x.tids.find? (fun o => o.tid == tid.toNat && o.form == .hostrd && !o.complete) = some o →
      o.rows.reg = none → o.faulty = false → data.length = 64 * (o.want - first.toNat) →
      first.toNat ≤ o.want → o.got = first.toNat →
      ∃ t, exec (.hostReadCompletion c tid first data) s = .next t ∧
        t.landings = inFlightAfter s.landings [⟨2 * s.clk.tick + 1, 14, c.val, .rowList ((List.range (o.want - first.toNat)).map
          (fun i => (o.rows.pos + (first.toNat + i), sliceB data (64 * i) 64)))⟩] ∧
        t.core c.val = { s.core c.val with xfer := { x with tids := x.tids.map (fun p =>
          if p.tid == o.tid then { p with got := o.want, rcvd := 2 * o.want, complete := true } else p) } } ∧ s.OnlyCore t c.val)

/-- A reply or a cell leaves its core stamped with the number of the current route-table slot and enters the switch; a row of a HOSTWR
leaves for host memory. A failed host read stops what asked for it and nothing else: a step of a slot ends with STEP_ERROR after a HOST_DMA
entry in the fault log; a read of a core outside any step is only logged (09 R209; 12 R295, R298; 18 R400).
The model's choices in it: log entries 13, 15. -/
def Obligations.LeavingAndFailedReadsComplete : Prop :=
  ∀ (s : State) (c : CoreId),
    let x := (s.core c.val).xfer
    let stamp (cell : Cell) : InCell := ⟨8, cell.vc, { cell with epoch := s.epochBit == 1 }⟩
    (s.NoQueue →
    (∀ r l, x.replies = r :: l → exec (.cellLeavesOutboundBuffer c .reply) s =
      .next ((s.updXfer c.val (fun x => { x with replies := l })).forward (stamp r))) ∧
    (∀ cell l, x.outbound = cell :: l → cell.vc = 0 ∨ x.replies = [] →
      let q := (s.updXfer c.val (fun x => { x with outbound := l })).forward (stamp cell)
      ∃ t, exec (.cellLeavesOutboundBuffer c .cell) s = .next t ∧ t = { q with clk := { q.clk with late := t.clk.late } }) ∧
    (∀ tid addr row l, x.hostOut = (tid, addr, row) :: l → ∃ t, exec (.cellLeavesOutboundBuffer c .host) s = .next t ∧
      t.core c.val = { s.core c.val with xfer := { x with hostOut := l, tids := (t.core c.val).xfer.tids } } ∧
      (t.core c.val).xfer.tids.map (fun o => (o.tid, o.got)) =
        x.tids.map (fun o => (o.tid, if o.tid == tid then o.got + 1 else o.got)) ∧
      State.OnlyCore { s with out := (s.hostWrite (s.ownerOf c.val) addr row).out } t c.val ∧ t.landings = s.landings)) ∧
    (s.slotOf c.val = none →
      exec (.hostDmaError (.core c)) s = .next (s.logFault 0x00A0 6 0 none 0 (BitVec.ofNat 16 c.val) 0xFFFF 0)) ∧
    (∀ g, s.slotOf c.val = some g → (s.step' g).live = true →
      exec (.hostDmaError (.core c)) s =
        .next ((s.logFault 0x00A0 6 2 (some g) (s.step' g).num 0xFFFF 0xFFFF 0).abortStep g .stepError)) ∧
    (∀ g : Fin 16, (s.step' g.val).live = true →
      exec (.hostDmaError (.step g)) s =
        .next ((s.logFault 0x00A0 6 2 (some g.val) (s.step' g.val).num 0xFFFF 0xFFFF 0).abortStep g.val .stepError))

/-! ### The control cores, the mute and the clock -/

/-- A WAITF whose flag has reached its amount consumes it and decoding resumes; a held word enters its queue once there is room; a core
that has decoded HALT, with its queues empty and its results landed, has finished; the preview of a queued BOWG plans its accesses
(07 R154, R158, R160, R163; 09 R212).
The model's choices in it: log entries 89, 97. -/
def Obligations.DecoderEventsComplete : Prop :=
  ∀ (s : State) (c : CoreId),
    let x := s.core c.val
    let k := x.ctl
    (∀ f n tick, k.dec = .waiting f n tick → n ≤ Tab.get 0 k.flags f.toNat → k.stalled = [] → s.NoQueue →
      ∃ t, exec (.waitfSatisfied c) s = .next t ∧ t.core c.val = { x with
        ctl := { k with dec := .decoding, flags := Tab.set 0 k.flags f.toNat (Tab.get 0 k.flags f.toNat - n) } } ∧
        (∀ d, d ≠ c.val → t.core d = s.core d) ∧ s.CoresOnly t ∧ t.landings = s.landings) ∧
    (∀ i tick eng, k.dec = .held i tick → engineOf i = some eng → k.stalled = [] → s.NoQueue →
      let e : QEntry := ⟨i, tick, k.offset - 1, k.regs⟩
      let q := s.setCore c.val { x with ctl := { k.setQueue eng [e] with dec := .decoding } }
      q.mayReach (q.issueTick c.val e) = false → ∃ t, exec (.decodeResume c) s = .next t ∧ t.core c.val = q.core c.val ∧
        s.OnlyCore t c.val ∧ t.landings = s.landings) ∧
    (k.dec = .halted → k.finished = false → k.preStart = false → k.laneQ = [] → k.vecQ = [] → k.moveQ = [] →
      s.resultsOut c.val = false →
      let q := s.updCtl c.val (fun k => { k with finished := true })
      (s.slotOf c.val = none → exec (.coreFinished c) s = .next q) ∧
      (∀ g, s.slotOf c.val = some g → exec (.coreFinished c) s = .next ((q.releaseLayers g c.val).checkFinished g))) ∧
    (∀ δ list base kk nib e afmt scale tick off regs row, k.laneQ = [⟨.bowg c δ list base kk nib e afmt false scale, tick, off, regs⟩] →
      (resolveSa regs list 2).1 = row → s.clk.previews = [] → k.s0 + tick ≤ s.clk.tick + 16 → s.clk.tick + 9 ≤ k.s0 + tick →
      s.bankTaken c.val (row % 32) = false → s.bankTaken c.val ((row + 1) % 32) = false →
      x.sp.rowBad row = false → x.sp.rowBad (row + 1) = false →
      let bytes := x.sp.row row ++ x.sp.row (row + 1)
      let rows := ((List.range (e.toNat + 1)).filterMap
        (fun i => gatherAddr (Tab.get 0 regs base.toNat) (fieldN bytes (2 * i) 2))).map (· / 64)
      ∃ t, exec (.bowgPreview c) s = .next t ∧ t.core c.val = { x with sp := x.sp.correct [row, row + 1] } ∧
        t.clk.previews = [⟨c.val, k.s0 + tick, row, max 1 (gatherCost rows)⟩] ∧ t.landings = s.landings ∧
        State.OnlyCore { s with clk := { s.clk with previews := t.clk.previews } } t c.val)

/-- Faults of a control core: SEQ_MISCOMPARE is a fault of the core with a drone visit asked for, and the second within 10 minutes also
asks for the core's retirement; a flag wait that is too long is logged with its flag and value and ends the step with
FLAG_WAIT_TIMEOUT; a cursor that would pass 2^40 − 1 ends it with STEP_TOO_LONG (07 R144, R152, R164; 20 R462).
The model's choices in it: log entry 13. -/
def Obligations.ControlFaultsComplete : Prop :=
  ∀ (s : State) (c : CoreId),
    let k := (s.core c.val).ctl
    let recent := (s.core c.val).det.seqTimes.filter (fun t => s.station < t + 600000000000)
    let q := s.updDet c.val (fun d => { d with seqTimes := recent ++ [s.station], visitAsked := true })
    (s.isEnabled c.val = true → s.passThrough = false →
      (recent = [] → exec (.seqMiscompare c) s = .next (q.coreFault c.val 0x0003 4 1 0xFFFF 0)) ∧
      (recent ≠ [] → exec (.seqMiscompare c) s = .next ((q.coreFault c.val 0x0003 4 3 0xFFFF 0).askRetire c.val))) ∧
    (∀ f n t, k.dec = .waiting f n t → k.waitFrom + s.flagBound c.val ≤ s.clk.tick + s.clk.heldTotal → exec (.flagWaitTimeout c) s =
      .next ((s.logExc c.val t (k.offset - 1) 0x04 0 .flagWaitTimeout
        (f.toNat + 256 * (Tab.get 0 k.flags f.toNat).toNat)).abortCore c.val .flagWaitTimeout)) ∧
    (∀ δ : BitVec 12, s.isEnabled c.val = true → k.dec = .decoding → 2 ^ 40 ≤ k.cursor + δ.toNat →
      exec (.stepTooLong c δ) s =
        .next ((s.logExc c.val (k.cursor + δ.toNat) k.offset 0x00 0 .stepTooLong δ.toNat).abortCore c.val .stepTooLong))

/-- The mute and the clock: an item that has not arrived by its check is late, the check of a tick's conflicts plans the held cycles that the
queued words need; a late item is gone 8 cycles after it has arrived, and after 2^j held cycles the steps of the items that have not come
end; a decided change of frequency takes effect before
its tick T0 and holds the counter until every PLL has locked (09 R208, R210, R211, R214, R216; 21 R491).
The model's choices in it: log entries 14, 24. -/
def Obligations.MuteAndClockComplete : Prop :=
  ∀ (s : State),
    (∀ t, s.clk.tick ≤ t → t ≤ s.clk.tick + 16 → exec (.lateItemCheck (.conflict t)) s =
      .next { s with clk := { s.clk with conflicts := s.clk.conflicts ++ [(t, s.foreseen t)] } }) ∧
    (∀ (c : CoreId) tid due o, let item : CheckItem := .transfer c tid due;
      (s.core c.val).xfer.tids.find? (·.tid == tid.toNat) = some o → o.complete = false →
      (s.core c.val).ctl.s0 + due - 16 ≤ s.clk.tick → s.clk.late = [] →
      exec (.lateItemCheck item) s =
        .next { s with clk := { s.clk with late := [⟨item, (s.core c.val).ctl.s0 + due - 16, none⟩] } }) ∧
    (exec .muteRelease s = .next { s with clk := { s.clk with
      late := s.clk.late.filter (fun l => match l.arrived with
        | none => true
        | some a => decide (s.clk.tick + s.clk.heldTotal < a + 8)) } }) ∧
    (∀ (c : CoreId) tid due a g, s.clk.late = [⟨.transfer c tid due, a, none⟩] → a + 7 ≤ s.clk.tick →
      2 ^ s.pkg.muteExp ≤ s.clk.heldRun → s.slotOf c.val = some g → (s.step' g).onCores = true → exec .muteTimeout s =
        .next (((s.logFault 0x00C0 8 2 (some g) (s.step' g).num (BitVec.ofNat 16 c.val) 0xFFFF tid.toNat).abortCore c.val
          .muteTimeout).pumpAll)) ∧
    (∀ t0 f, s.clk.change = some (t0, f) → t0 ≤ s.clk.tick + 1 → ∃ t, exec .frequencyChange s = .next t ∧
      t = { s with clk := { s.clk with fstep := f, change := none, locked := List.replicate 8 false, holds := t.clk.holds } } ∧
      (∀ h, h ∈ t.clk.holds ↔ h ∈ s.clk.holds ∨ h = .frequency)) ∧
    (s.clk.refclk = true → s.NoQueue → ∃ t, exec .pllLock s = .next t ∧
      t = { s with clk := { s.clk with locked := List.replicate 8 true, holds := t.clk.holds } } ∧
      (∀ h, h ∈ t.clk.holds ↔ h ∈ s.clk.holds ∧ h ≠ .frequency ∧ h ≠ .lockLoss))

/-! ### The weight store's scrubber, arbitration and drone tests -/

/-- A visit of the scrubber to a good block goes on to the next; one that meets a single-bit error corrects it and counts it at its bank, but
where another write has reached the bank row the write-back is dropped; one that meets a double-bit error logs WS_UNCORRECTABLE and marks the
block; a forced access also costs a held cycle. A bad block of no region is zeroed, one of the directory takes the bytes it is given, one of a
mirrored region takes its partner's copy, and is no longer bad. A row that is due takes the next spare row of its bank (04 R84 to R89).
The model's choices in it: log entry 11. -/
def Obligations.ScrubberComplete : Prop :=
  ∀ (s : State) (c : CoreId) (raced : List (BitVec 6)) (journal : List JournalRec),
    let w := (s.core c.val).ws
    let b := w.scrubNext
    s.isEnabled c.val = true → s.passThrough = false → s.backgroundPaused = false →
    (w.errs = [] → w.recErrs = [] → w.bad = [] → w.crcOf b = (w.record b).crc → ∃ t, exec (.scrubVisit c ⟨[], raced⟩) s = .next t ∧
      t.core c.val = { s.core c.val with ws := { w with
        scrubNext := (b + 1) % wsBlocks, scrubRows := w.scrubRows.filter (fun r => r / 64 != b) } } ∧
      s.OnlyCore t c.val ∧ t.landings = s.landings) ∧
    (∀ n : Fin 545, n.val < 512 → w.errs = [] → w.recErrs = [] → w.bad = [] → w.crcOf b = (w.record b).crc →
      ∃ t, exec (.scrubVisit c ⟨[(n, false)], raced⟩) s = .next t ∧
        t.core c.val = { s.core c.val with ws := { w with
          errs := if (BitVec.ofNat 6 (n.val / 8)) ∈ raced then [(512 * b + n.val, WordErr.single)] else []
          corrected := Tab.upd 0 w.corrected (n.val / 8) (fun m => if m + 1 < 2 ^ 32 then m + 1 else 2 ^ 32 - 1)
          scrubNext := (b + 1) % wsBlocks, scrubRows := (t.core c.val).ws.scrubRows, spareDue := (t.core c.val).ws.spareDue } } ∧
        64 * b + n.val / 8 ∈ (t.core c.val).ws.scrubRows ∧
        (64 * b + n.val / 8 ∈ w.scrubRows → 64 * b + n.val / 8 ∈ (t.core c.val).ws.spareDue) ∧
        s.OnlyCore t c.val ∧ t.landings = s.landings) ∧
    (∀ n : Fin 545, w.errs = [] → w.bad = [] → w.kindOf b = 2 → ∃ t, exec (.scrubVisit c ⟨[(n, true)], raced⟩) s = .next t ∧
      (t.core c.val).ws.bad = [b] ∧ (t.core c.val).ws.mem = w.mem ∧
      t.core c.val = { s.core c.val with ws := (t.core c.val).ws } ∧ (s.logged t).OnlyCore t c.val ∧ t.landings = s.landings ∧
      t.faultCount = s.faultCount + 1 ∧ ∃ e, t.faultLog.getLast? = some e ∧ e.reason = 0x0011 ∧ e.unit = BitVec.ofNat 16 c.val) ∧
    (∀ finds, exec (.scrubForcedAccess c finds) s =
      exec (.scrubVisit c finds) { s with clk := { s.clk with conflicts := s.clk.conflicts ++ [(s.clk.tick, 1)] } } ∧
      ∃ t, exec (.scrubForcedAccess c finds) s = .next t) ∧
    (∀ (blk : Fin 3072) data, w.bad = [blk.val] → Memory.wf w.mem = true →
      w.kindOf blk.val = 0 ∨ (w.kindOf blk.val = 3 ∧ data.length = 4096) ∨
        ((w.kindOf blk.val = 4 ∨ w.kindOf blk.val = 5) ∧ s.bothBad c.val blk.val = false) →
      ∃ t, exec (.blockRestoration c blk ⟨data, journal⟩) s = .next t ∧ (t.core c.val).ws.bad = [] ∧
        t.core c.val = { s.core c.val with ws := (t.core c.val).ws } ∧ s.OnlyCore t c.val ∧ t.landings = s.landings ∧
        (∀ a, a / 4096 ≠ blk.val → (t.core c.val).ws.mem.byte a = w.mem.byte a) ∧
        ∀ k, k < 4096 → let byte := (t.core c.val).ws.mem.byte (4096 * blk.val + k)
          (w.kindOf blk.val = 0 → byte = 0) ∧ (w.kindOf blk.val = 3 → byte = data.getD k 0) ∧
          ∀ d q, w.kindOf blk.val = 4 ∨ w.kindOf blk.val = 5 → s.partnerBlock c.val blk.val = some (d, q) →
            byte = (s.core d).ws.mem.byte (4096 * q + k)) ∧
    (∀ bank row n, let key := 64 * row.val + bank.toNat;
      key ∈ w.spareDue → w.blockBad row.val = false → Tab.get 0 w.sparesUsed bank.toNat = n → n < 64 →
      ∃ t, exec (.spareRowSubstitution c bank row) s = .next t ∧
        (⟨bank.toNat, row.val, n⟩ : Spare) ∈ (t.core c.val).ws.spares ∧
        t.core c.val = { s.core c.val with ws := { w with
          spares := (t.core c.val).ws.spares, spareDue := w.spareDue.filter (· != key)
          sparesUsed := Tab.set 0 w.sparesUsed bank.toNat (n + 1) } } ∧
        State.OnlyCore { s.logged t with maint := { s.maint with
          pendingSubs := s.maint.pendingSubs ++ [(c.val, bank.toNat, row.val, n)] } } t c.val ∧
        t.landings = s.landings ∧ t.faultCount = s.faultCount + 1)

/-- An arbitration in which neither recomputation agrees asks for the retirement of the core and of its alternate; one whose alternate
gives V0 trusts the values. A sample that equals its reference is checked; a passing drone visit notes its time, clears the
scratchpad's count and releases the checked samples, a failing one asks for the core's retirement (20 R458 to R462).
The model's choices in it: log entries 12, 16, 17. -/
def Obligations.CheckerEventsComplete : Prop :=
  ∀ (s : State) (c : CoreId),
    let x := s.core c.val
    (∀ tick d v1 v2, x.det.arbOpen = some tick → s.slotOf c.val = none → s.alternate c.val = some d → s.NoQueue →
      let js := x.lane.journal.filter (fun j => j.tick == tick)
      js.all (fun j => Tab.get 0 x.ws.writes j.set.block == j.writes) = true →
      (v2 ≠ js.flatMap (·.sums) → v2.map residue ≠ js.flatMap (·.residues) →
        ∃ t, exec (.arbitrationOutcome c v1 v2) s = .next t ∧ t.faultCount = s.faultCount + 1 ∧
          t.core c.val = { x with det := { x.det with arbOpen := none } } ∧ (∀ e, e ≠ c.val → t.core e = s.core e) ∧
          t = { s.logged t with cores := t.cores, clk := { s.clk with holds := t.clk.holds }, maint := t.maint } ∧
          (∀ h, h ∈ t.clk.holds ↔ h ∈ s.clk.holds ∧ h ≠ .arbitration c.val) ∧
          ∃ e, t.faultLog.getLast? = some e ∧ e.reason = 0x0001 ∧ e.outcome = 6 ∧ e.unit = BitVec.ofNat 16 c.val ∧
            e.sub = BitVec.ofNat 16 d) ∧
      (v2 = js.flatMap (·.sums) → x.det.checkerFaults + 1 < 4 → Tab.wf Acc.zero x.lane.acc = true → ∃ t, exec (.arbitrationOutcome c v1 v2) s = .next t ∧
        t.faultCount = s.faultCount + 1 ∧
        t.core c.val = { x with
          det := { x.det with arbOpen := none, checkerFaults := x.det.checkerFaults + 1 }, lane := (t.core c.val).lane } ∧
        (∀ k j, (t.core c.val).lane.accAt k j = x.lane.accAt k j) ∧ (∀ e, e ≠ c.val → t.core e = s.core e) ∧
        t = { s.logged t with cores := t.cores, clk := { s.clk with holds := t.clk.holds }, maint := t.maint } ∧
        ∃ e, t.faultLog.getLast? = some e ∧ e.reason = 0x0001 ∧ e.outcome = 3)) ∧
    (∀ y rest, x.lane.samples = y :: rest → y.checked = false → y.entry.reference = y.entry.sums →
      ∃ t, exec (.sampleReferenceCheck c) s = .next t ∧
        t.core c.val = { x with lane := { x.lane with samples := { y with checked := true } :: rest } } ∧
        s.OnlyCore t c.val ∧ t.landings = s.landings) ∧
    (s.isEnabled c.val = true → s.passThrough = false → s.backgroundPaused = false → s.idleFor c.val = true →
      (∃ t, exec (.droneVisit c true ⟨[], []⟩) s = .next t ∧ t.core c.val = { x with
          det := { x.det with lastVisit := s.station, visitAsked := false }, sp := { x.sp with unc := 0 }
          lane := { x.lane with samples := x.lane.samples.filter (fun y => !y.checked) } } ∧ s.OnlyCore t c.val ∧
        t.landings = s.landings) ∧
      ((s.stepOf c.val).onCores = false → ∃ t, exec (.droneVisit c false ⟨[], []⟩) s = .next t ∧
        t = (((s.updDet c.val (fun d => { d with visitAsked := false })).logFault 0x0090 12 3 none 0 (BitVec.ofNat 16 c.val) 0xFFFF
          0).askRetire c.val)))

/-! ### Faults, stops and lost packages -/

/-- A fault-log entry stands last in the log with its reason, class, outcome, step, unit and the part; the count of entries rises by one, at
most 1,024 are kept, and nothing else changes but what leaves for the host. Faults of the package's parts: a mesh fault is counted and stops the step of its core, the third in an hour enters pass-through mode; a
loss of lock holds the counter, its course unlocked; after 2 µs, and where the counters diverge, the courses are resynchronised; a supply
fault marks the rail (20 R463 to R465, R474).
The model's choices in it: log entries 13, 18, 57. -/
def Obligations.PartFaultsComplete : Prop :=
  ∀ (s : State), s.passThrough = false →
    (∀ (reason : BitVec 16) (cls outcome : Nat) (slot : Option Nat) (step : W64) (unit sub : BitVec 16) (d : Nat),
      let t := s.logFault reason cls outcome slot step unit sub d
      t.faultCount = s.faultCount + 1 ∧
      (∃ e, t.faultLog = (if s.faultLog.length < 1024 then s.faultLog else s.faultLog.drop 1) ++ [e] ∧ e.reason = reason ∧
        e.cls = cls ∧ e.outcome = outcome ∧ e.step = step ∧ e.unit = unit ∧ e.sub = sub) ∧
      (s.faultLog.length ≤ 1024 → t.faultLog.length ≤ 1024) ∧ t = s.logged t) ∧
    (∀ c : CoreId, s.isEnabled c.val = true →
      let recent := s.meshFaults.filter (fun t => s.station < t + 3600000000000)
      let q : State := { s with meshFaults := recent ++ [s.station] }
      (recent.length < 2 → exec (.meshCrc c none) s = .next (q.coreFault c.val 0x0020 5 1 0xFFFF 0)) ∧
      (2 ≤ recent.length → exec (.meshCrc c none) s =
        .next ((q.coreFault c.val 0x0020 5 4 0xFFFF 0).enterPassThrough 0x0020))) ∧
    (∀ course : Fin 8, ∃ t, exec (.clockLockLoss course) s = .next t ∧ t.faultCount = s.faultCount + 1 ∧
      t = { s.logged t with clk := { s.clk with
        locked := s.clk.locked.set course.val false, lockLosses := s.clk.lockLosses + 1, holds := t.clk.holds } } ∧
      (∀ h, h ∈ t.clk.holds ↔ h ∈ s.clk.holds ∨ h = .lockLoss)) ∧
    (Hold.lockLoss ∈ s.clk.holds ∨ Hold.frequency ∈ s.clk.holds → exec .relockTimeout s = .next (s.clockFault 0x0050 0xFFFF 0).resync) ∧
    exec .tickDiverge s =
      .next ((s.clockFault 0x0051 0xFFFF 0).updClk (fun k => { k with diverges := k.diverges + 1 })).resync ∧
    exec .supplyFault s = .next ((s.supplyFault 0xFFFF 0).updPower (fun p => { p with railFault := true }))

/-- A STOP ends the member's step with its status, a replay stop keeps the program state and holds the counter; either way what its cores add to
the step record goes to the lead. A stopped step is retried by its lead under its number, with its batch and seed and nothing committed, once
the recovery has completed; a DISCARD notice marks the transfer (20 R468; 10 R252).
The model's choices in it: log entry 50. -/
def Obligations.StopAndRetryComplete : Prop :=
  ∀ (s : State) (g : Slot),
    let k := s.group g.val
    let run := s.step' g.val
    (∀ step status, k.formed = true → k.lead = false → run.live = true → run.num = step →
      let report : CtlMsg := .finished g.val step s.budgetNow { s.endReport g.val with status := status.toNat }
      (status = (7 : Byte) →
        exec (.stop g step status) s = .next (((s.closeStep g.val .replayStopped true).addHold .replayStop).ctl report)) ∧
      (status ≠ 7 → exec (.stop g step status) s = .next ((s.endStep g.val (StepStatus.ofCode status.toNat) true).ctl report))) ∧
    (k.formed = true → k.lead = true → run.busy = false → s.recovered g.val = true → s.passThrough = false →
      run.retryDue = true → k.saved = none → k.serve.recover = [] → run.input = [] → k.swap.lastOldRunning = false →
      ∃ t, exec (.stepRetry g false) s = .next t ∧ (t.step' g.val).num = run.num ∧ (t.step' g.val).seed = run.seed ∧
        (t.step' g.val).retry = true ∧ (t.step' g.val).retryDue = false ∧ (t.step' g.val).reports = [] ∧
        (t.step' g.val).committed = 0 ∧ (t.step' g.val).status = .completed ∧ (t.step' g.val).batch = run.batch ∧
        (∀ h, t.group h = s.group h) ∧ s.StepComes t g.val) ∧
    (∀ core tid, s.passThrough = false → exec (.discard core tid) s = .next (s.discardHere core.toNat tid.toNat))

/-- Heartbeats: one leaves by every UP torus and pod port with the package's place, compute state and highest step; one that comes is noted on
its port; a port without one is declared silent; a reported package of the same torus is declared lost. A core that retires leaves the enabled
set and joins the field section (20 R469 to R471; 01 R16).
The model's choices in it: log entries 48, 49. -/
def Obligations.LostPartsComplete : Prop :=
  ∀ (s : State),
    (let beats : List CtlMsg := ((List.range 8).filter (fun p => (s.port p).st == .up && s.meshPort p)).map
        (fun p => .heartbeat p s.place s.computeState s.highestStep);
     exec .heartbeatSend s = .next { s with out := { s.out with ctl := s.out.ctl ++ beats } }) ∧
    (∀ p : PortId, ∀ compute, compute ≠ (1 : BitVec 2) → exec (.heartbeat p compute) s =
      .next (s.updPort p.val (fun k => { k with heard := s.station, silent := false }))) ∧
    (∀ p : PortId, (s.port p.val).st = .up → (s.port p.val).silent = false → s.meshPort p.val = true →
      exec (.silent p) s = .next (s.declareSilent p.val)) ∧
    (∀ silent reporter, s.hears silent = true → s.net.reports.all (fun r => r.1 != silent) = true →
      silent ∉ s.net.lost → 1 < neighbourCount s.shape silent → exec (.silentReport silent reporter []) s =
      .next (s.updNet (fun n => { n with reports := n.reports ++ [(silent, reporter, s.station)] }))) ∧
    (∀ p, s.hears p = true → s.net.reports.any (fun r => r.1 == p) = true → p ∉ s.net.lost → p ≠ s.place →
      (∀ g, (s.group g).formed = false) → exec (.packageLost p []) s = .next (s.declareLost p) ∧ p ∈ (s.declareLost p).net.lost) ∧
    (∀ (c : CoreId) journal, s.maint.running = 6 → s.maint.arg = c.val → s.isEnabled c.val = true →
      (∃ u, exec (.coreRetirementAndReload c journal) s = .next u) ∧
      let t := (s.stopAll 0x00B0).retireCore c.val
      (∀ g, (t.image g).loaded = false) → exec (.coreRetirementAndReload c journal) s = .next t ∧
        t.enabled = ((s.stopAll 0x00B0).enabled).erase c.val ∧ c.val ∈ t.maint.retired ∧
        t.core c.val = Core.reset ∧ (∀ j ∈ t.kdq, j.core ≠ c.val) ∧ (∀ l ∈ t.landings, l.core ≠ c.val))

/-! ### Optical ports -/

/-- Frames: an UP port with a sendable CTL cell sends it in a data frame with its sequence number, in clear or, under the policy, encrypted
with the key of the slot in use, the nonce of its frame counter and SEQ and CELLS as additional data, and keeps the frame; one with nothing to
send sends an idle frame, one that replays sends the oldest frame again with fresh ACK, OFF, NAK and LANES; each enters the coded stream.
Codewords that hold no whole frame only enter the receive stream; a frame with a bad CRC or an uncorrectable codeword starts a discard
episode, an idle frame moves nothing on, an in-order data frame in clear advances E and releases its cells in slot order; 2 µs without an
acknowledgement replay the buffer (11 R258 to R267, R272, R281).
The model's choices in it: log entries 53, 97, 98. -/
def Obligations.FramesComplete : Prop :=
  ∀ (s : State) (p : PortId),
    let k := s.port p.val
    let sends (t : State) (f : Frame) (k' : Port) : Prop :=
      let q := k'.push (frameBytes f)
      t.port p.val = { q.1 with
        ownOff := (t.port p.val).ownOff, nakDue := false, credits := (t.port p.val).credits, starve := (t.port p.val).starve } ∧
      State.OnlyPort { s with out := { s.out with
        frames := s.out.frames ++ [(p.val, f)], lanes := s.out.lanes ++ q.2.map (fun l => (p.val, l.1, l.2)) } } t p.val
    k.st = .up →
    (∀ cell (x : InCell), k.resend = [] → k.buffer = [] → k.realign = false → k.farOff = 0 → k.starved = [] →
      k.outq = [(1, x)] → x.cell = cell → cell.vc = 1 → s.fabric = [] → k.keyFrames + 1 < 2 ^ 43 →
      (k.policy = false → ∃ t f, exec (.frameTransmit p) s = .next t ∧
        f.type = 0 ∧ f.seq = k.seq ∧ f.ack = k.expect - 1 ∧ f.nak = k.nakDue ∧ f.cells = [(1, cell)] ∧ f.count = 1 ∧ f.enc = false ∧
        f.body = bodyOf [(1, cell)] ∧
        sends t f { k with seq := k.seq + 1, frames := k.frames + 1, buffer := [f], outq := [] }) ∧
      (∀ lk, k.policy = true → k.txKeys.slot k.key = some lk → ∃ t f, exec (.frameTransmit p) s = .next t ∧
        (let m := Config.linkKey p.val lk.session (linkDir (s.requester p.val) true) lk.index
         f.type = 0 ∧ f.seq = k.seq ∧ f.cells = [(1, cell)] ∧ f.count = 1 ∧ f.enc = true ∧ f.key = k.key ∧
          (f.body, f.tag) = Config.linkSeal (sliceB m 0 32) (linkNonce m k.frames) (linkAad f) (bodyOf [(1, cell)])) ∧
        sends t f { k with seq := k.seq + 1, frames := k.frames + 1, keyFrames := k.keyFrames + 1, buffer := [f], outq := [] })) ∧
    (k.resend = [] → k.buffer = [] → k.realign = false → k.outq = [] → ∃ t f, exec (.frameTransmit p) s = .next t ∧
      f.type = 1 ∧ f.seq = k.seq ∧ f.ack = k.expect - 1 ∧ f.nak = k.nakDue ∧ f.count = 0 ∧ sends t f k) ∧
    (∀ old l, k.resend = old :: l → k.realign = false → ∃ t f, exec (.frameTransmit p) s = .next t ∧
      f.type = old.type ∧ f.seq = old.seq ∧ f.ack = k.expect - 1 ∧ f.nak = k.nakDue ∧ f.lanes = k.lanes ∧ f.count = old.count ∧
      f.enc = old.enc ∧ f.key = old.key ∧ f.body = old.body ∧ f.tag = old.tag ∧ sends t f { k with resend := l }) ∧
    (∀ words chans marks, (k.pull words).1.nextFrame = none → ∃ t, exec (.frameReceived p words chans marks) s = .next t ∧
      t.port p.val = { (k.pull words).1 with rxCount := (t.port p.val).rxCount } ∧ s.OnlyPort t p.val) ∧
    (∀ words chans marks bs good k', (k.pull words).1.nextFrame = some ((bs, good), k') →
      let f := frameOf bs
      (frameCrcGood bs = false ∨ good = false → k.episode = false → ∃ t, exec (.frameReceived p words chans marks) s = .next t ∧
        t.port p.val = { k' with episode := true, nakDue := true, rxCount := (t.port p.val).rxCount } ∧ s.OnlyPort t p.val) ∧
      (frameCrcGood bs = true → good = true → f.count ≤ 12 → f.reserved = false → f.nak = false → f.lanes = k.farLanes →
        k.buffer = [] → k.rotation = .idle →
        (f.type = 1 → s.fabric = [] → ∃ t, exec (.frameReceived p words chans marks) s = .next t ∧
          t.port p.val = { k' with
            farOff := f.off, rxCount := (t.port p.val).rxCount, offTime := (t.port p.val).offTime
            offSince := (t.port p.val).offSince } ∧ s.OnlyPort t p.val) ∧
        (f.type = 0 → 1 ≤ f.count → f.enc = false → k.policy = false → f.seq = k.expect → f.off = k.farOff →
          exec (.frameReceived p words chans marks) s =
            .next ((((s.updPort p.val (fun _ => { k' with
              expect := k.expect + 1, rxFrames := k.rxFrames + 1, episode := false, tagRun := 0 })).rxCount p.val 0
                (k.pull words).2.1).rxCount p.val 1 (k.pull words).2.2).releaseCells p.val false
                  (bodyCells f.body f.count (chans.zip marks)))))) ∧
    (k.buffer ≠ [] → k.resend = [] → k.replayRun < 7 → k.replayTimes = [] → ∃ t, exec (.replayTimeout p) s = .next t ∧
      t.port p.val = { k with
        resend := k.buffer, replayRun := k.replayRun + 1, replayTimes := [s.station], replayAt := (t.port p.val).replayAt
        txCount := (t.port p.val).txCount } ∧ s.OnlyPort t p.val)

/-- Bring-up: enabling a lit port of a peer takes it to LIGHT, disabling it takes it down, signal on 4 lanes to TRAIN, equalisation to ALIGN,
lock to HELLO; a matching hello record to UP with its sequence numbers and counters at 0, to LIMITED where the policy is on and no key is
held, or, after a retraining that needs no keys, to UP with its buffer to be sent again; a mismatch marks it miswired, and it stays in HELLO. A
state that takes too long goes back to LIGHT, a third retraining in a row down. A lane that drops leaves the set; a laser that faults takes its ports
down, its input good again brings them back; a retune brings lanes back (11 R266, R275 to R280; 23 R522).
The model's choices in it: log entries 54, 55, 93, 97, 98. -/
def Obligations.PortBringUpComplete : Prop :=
  ∀ (s : State) (p : PortId),
    let k := s.port p.val
    let events (t : State) : State := { s with funcs := t.funcs, out := t.out }
    (k.st = .down → (s.laser (p.val / 2)).good = true → s.power.railFabric = true → (s.peer p.val).isSome = true →
      ∃ t, exec (.portEnable p true) s = .next t ∧
        t.port p.val = { k with enable := true, st := .light, policy := k.encrypt } ∧ (∀ q, q ≠ p.val → t.port q = s.port q) ∧
        (t.laser (p.val / 2)).en = true ∧
        t = { s with ports := t.ports, lasers := t.lasers, maint := { s.maint with dirty := true } }) ∧
    (exec (.portEnable p false) s = .next ((((s.updPort p.val (fun k => { k with enable := false })).laserEnable (p.val / 2)).portDown
      p.val).updMaint (fun m => { m with dirty := true }))) ∧
    (∀ lanes, k.st = .light → 4 ≤ laneCount lanes → exec (.signalPresent p lanes) s =
      .next (s.updPort p.val (fun k => { k with
        st := .train, lanes := lanes, realign := false, farLanes := 0xFFFF, txLanes := 0xFFFF, txBits := 0, txLen := 0, txSyms := 0
        txWords := 0, rxWords := [], rxPos := 0 }))) ∧
    (∀ lanes, k.st = .train → let l := if k.retraining then k.lanes ||| lanes else k.lanes &&& lanes
      4 ≤ laneCount l → exec (.equalisationConverged p lanes) s =
        .next (s.updPort p.val (fun k => { k with st := .align, lanes := l }))) ∧
    (k.st = .align → exec (.alignmentLock p) s = .next (s.updPort p.val (fun k => { k with st := .hello }))) ∧
    (∀ h, k.st = .hello → s.helloOk p.val h = true →
      (k.policy = false → k.retraining = false → ∃ t,
        exec (.hello p h) s = .next t ∧ (t.port p.val).st = .up ∧ (t.port p.val).seq = 0 ∧ (t.port p.val).expect = 0 ∧
        (t.port p.val).frames = 0 ∧ (t.port p.val).rxFrames = 0 ∧ (t.port p.val).buffer = [] ∧ (t.port p.val).resend = [] ∧
        (t.port p.val).txLanes = k.txLanes ∧ (t.port p.val).lanes = k.lanes ∧
        (t.port p.val).outq = k.buffer.flatMap (fun f => f.cells.map (fun c => (c.1, (⟨8, c.1, c.2⟩ : InCell)))) ++ k.outq ∧
        (events t).OnlyPort t p.val) ∧
      (k.policy = true → k.txKeys.slot k.key = none → k.retraining = false → exec (.hello p h) s =
        .next (s.updPort p.val (fun k => { k with st := .limited, miswired := false }))) ∧
      (k.policy = false ∨ (k.txKeys.slot k.key).isSome = true → k.retraining = true → ∃ t, exec (.hello p h) s = .next t ∧
        t.port p.val = { k with
          st := .up, miswired := false, retraining := false, retrainFails := 0, resend := k.buffer
          replayAt := (t.port p.val).replayAt } ∧ (events t).OnlyPort t p.val)) ∧
    (∀ h, k.st = .hello → s.helloOk p.val h = false → ∃ t, exec (.hello p h) s = .next t ∧
      t.port p.val = { k with miswired := true } ∧ (events t).OnlyPort t p.val) ∧
    (k.st = .train ∨ k.st = .align ∨ k.st = .hello → k.miswired = false →
      (k.retraining = false ∨ k.retrainFails < 2 → ∃ t, exec (.portStateTimeout p) s = .next t ∧
        t.port p.val = { k with
          st := .light, policy := k.encrypt, realign := false, retraining := k.retraining && k.encrypt == k.policy
          retrainFails := if k.retraining then k.retrainFails + 1 else 0 } ∧ (events t).OnlyPort t p.val) ∧
      (k.retraining = true → 2 ≤ k.retrainFails → exec (.portStateTimeout p) s = .next (s.portDown p.val))) ∧
    (k.st = .hello → k.miswired = true → exec (.portStateTimeout p) s = .next s) ∧
    (∀ lane : Fin 16, k.st ≠ .down → k.lanes.getLsbD lane.val = true →
      4 ≤ laneCount (k.lanes &&& ~~~(BitVec.ofNat 16 (2 ^ lane.val))) → ∃ t, exec (.laneDrop p lane) s = .next t ∧
        t.port p.val = { k with
          lanes := k.lanes &&& ~~~(BitVec.ofNat 16 (2 ^ lane.val)), rxCount := (t.port p.val).rxCount } ∧ s.OnlyPort t p.val) ∧
    (∀ lanes, k.st = .up → s.backgroundPaused = false → ∃ t f, exec (.retune p lanes) s = .next t ∧
      f.type = 2 ∧ f.lanes = k.lanes ||| lanes ∧ f.nak = k.nakDue ∧ f.seq = k.seq ∧ f.ack = k.expect - 1 ∧
      (let q := Port.push { k with lanes := k.lanes ||| lanes, nakDue := false } (frameBytes f)
       t.port p.val = q.1 ∧
         State.OnlyPort { s with out := { s.out with
           frames := s.out.frames ++ [(p.val, f)], lanes := s.out.lanes ++ q.2.map (fun l => (p.val, l.1, l.2)) } } t p.val)) ∧
    (∀ die : Fin 4, (s.laser die.val).en = true →
      (let q := ((s.updLaser die.val (fun l => { l with fault := true, good := false })).portDown (2 * die.val)).portDown
          (2 * die.val + 1)
       (s.laser die.val).good = true →
        ((s.port (2 * die.val)).st ≠ .down ∨ (s.port (2 * die.val + 1)).st ≠ .down → exec (.laserFault die) s = .next q) ∧
        ((s.port (2 * die.val)).st = .down → (s.port (2 * die.val + 1)).st = .down → exec (.laserFault die) s =
          .next (q.linkEvent (2 * die.val) 2))) ∧
      (∃ t, exec (.laserInputGood die) s = .next t ∧ (t.laser die.val).good = true ∧ (t.laser die.val).fault = false ∧
        (∀ q, q / 2 ≠ die.val → t.port q = s.port q) ∧ t = { s with lasers := t.lasers, ports := t.ports }))

/-- Link keys: an expiry sends ROTATE with the next index; its acknowledgement installs the key of the session in the idle slot and switches
KEY, and where no frame under the old key is unacknowledged RETIRE_KEY follows at once; BUSY waits and is retried; a receiver with an idle slot installs
the index and answers, with none it answers BUSY; RETIRE_KEY erases the older slot, its acknowledgement ends the rotation; a rotation that
takes 1 s waits for a new session, and the third failure in a row takes the port down (19 R446, R447).
The model's choices in it: log entry 56. -/
def Obligations.LinkKeysComplete : Prop :=
  ∀ (s : State) (p : PortId),
    let k := s.port p.val
    k.st = .up → k.policy = true →
    (k.rotation = .idle → exec (.linkKeyRotation p none) s =
      .next ((s.updPort p.val (fun k => { k with rotation := .asked })).mgt (.rotate p.val (k.rotIndex + 1)))) ∧
    (k.rotation = .asked → exec (.linkKeyRotation p (some true)) s =
      .next (s.updPort p.val (fun k => { k with rotation := .busy }))) ∧
    (k.rotation = .asked → ∃ t, exec (.linkKeyRotation p (some false)) s = .next t ∧
      t.port p.val = { k with
        key := !k.key, rotIndex := k.rotIndex + 1, keyFrames := 0, rotation := (t.port p.val).rotation, txKeys := (t.port p.val).txKeys } ∧
      (t.port p.val).txKeys.slot (!k.key) = some ⟨k.session, k.rotIndex + 1⟩ ∧
      (k.buffer = [] → (t.port p.val).rotation = .retiring ∧ (t.port p.val).txKeys.slot k.key = none ∧
        t.out.mgt = s.out.mgt ++ [.retireKey p.val k.rotIndex]) ∧
      (k.buffer.any (fun f => f.enc && f.key == k.key) = true → (t.port p.val).rotation = .switched ∧
        (t.port p.val).txKeys.slot k.key = k.txKeys.slot k.key ∧ t.out.mgt = s.out.mgt) ∧
      State.OnlyPort { s with out := { s.out with mgt := t.out.mgt } } t p.val) ∧
    (k.rotation = .busy → exec (.rotateRetry p) s =
      .next ((s.updPort p.val (fun k => { k with rotation := .asked })).mgt (.rotate p.val (k.rotIndex + 1)))) ∧
    (∀ index,
      (k.rxKeys.s0 = none → exec (.rotate p index) s = .next ((s.updPort p.val (fun k => { k with
        rxKeys := { k.rxKeys with s0 := some ⟨k.session, index.toNat⟩ } })).mgt (.rotateAck p.val false))) ∧
      (k.rxKeys.s0.isSome = true → k.rxKeys.s1 = none → exec (.rotate p index) s = .next ((s.updPort p.val (fun k => { k with
        rxKeys := { k.rxKeys with s1 := some ⟨k.session, index.toNat⟩ } })).mgt (.rotateAck p.val false))) ∧
      (k.rxKeys.s0.isSome = true → k.rxKeys.s1.isSome = true → exec (.rotate p index) s =
        .next (s.mgt (.rotateAck p.val true)))) ∧
    (∀ a b, k.rxKeys = ⟨some a, some b⟩ →
      (a.session < b.session ∨ (a.session = b.session ∧ a.index < b.index) → exec (.retireKey p false) s =
        .next ((s.updPort p.val (fun k => { k with rxKeys := ⟨none, some b⟩ })).mgt (.retireKeyAck p.val))) ∧
      (b.session < a.session ∨ (a.session = b.session ∧ b.index < a.index) → exec (.retireKey p false) s =
        .next ((s.updPort p.val (fun k => { k with rxKeys := ⟨some a, none⟩ })).mgt (.retireKeyAck p.val)))) ∧
    (k.rotation = .retiring → exec (.retireKey p true) s =
      .next (s.updPort p.val (fun k => { k with rotation := .idle, sessionFails := 0 }))) ∧
    (k.rotation ≠ .idle → k.sessionFails < 2 → exec (.rotationTimeout p) s = .next (s.updPort p.val (fun k => { k with
      rotation := .renewing, sessionFails := k.sessionFails + 1 }))) ∧
    (k.rotation ≠ .idle → 2 ≤ k.sessionFails → exec (.rotationTimeout p) s = .next ((s.portDown p.val).securityEvent 0 2))

/-! ### Routes and epochs -/

/-- Route-table slots: an install with a good staged record makes slot 0 current with it, a bad one is refused with RESULT 2 and the refusal
counted at its address; an epoch change starts on the coordinator only. A package that is told stages the contents, switches, answers a drain
query with its old cells and retires the old slot, each with its acknowledgement; the coordinator takes acknowledgements away from those it
waits for, repeats an unanswered message, sends the next query until a wave is empty, and purges (12 R300, R301; 24 R536).
The model's choices in it: log entries 8, 52. -/
def Obligations.RouteEventsComplete : Prop :=
  ∀ (s : State),
    (shapeBad s.net.shapeStage = false → s.hasRoute = false → ∃ t, exec .routeInstall s = .next t ∧
      (t.routeSlot 0) = ⟨2, sliceB s.net.shapeStage 0 128, s.stagedFence⟩ ∧
      t = { s with routes := t.routes, net := { s.net with result := 1 }, sec := { s.sec with meas := t.sec.meas }
                   maint := { s.maint with dirty := true } }) ∧
    (shapeBad s.net.shapeStage = true → exec .routeInstall s =
      .next ((s.updNet (fun n => { n with result := 2 })).refuse routeCmdAt)) ∧
    (shapeBad s.net.shapeStage = false → s.coordinating = true → s.maintBusy = false → s.maint.suspended = none →
      exec .routeEpoch s = .next (State.nextEpoch 3
        ((s.startActivity 1 0 false).startEpoch (sliceB s.net.shapeStage 0 128) s.stagedFence))) ∧
    (s.coordinating = false → shapeBad s.net.shapeStage = false → exec .routeEpoch s =
      .next ((s.updNet (fun n => { n with result := 2 })).refuse routeCmdAt)) ∧
    (s.coordinating = false →
      (∀ common fence, exec (.epochStage common fence) s = .next ((s.stageSlot common fence).ctl .epochAck)) ∧
      exec .switch s = .next (s.switchSlot.ctl .epochAck) ∧
      exec .drainQuery s = .next ((s.ctl (.drainAnswer s.oldCount s.net.oldSeen)).updNet (fun n => { n with oldSeen := false })) ∧
      exec .purge s = .next (s.purgeOld.ctl .epochAck) ∧ exec .retire s = .next s.retireSlot) ∧
    (∀ p q, s.net.epoch.phase = .staging → s.net.epoch.waiting = [p, q] → p ≠ q → exec (.epochAck p) s =
      .next (s.updNet (fun n => { n with epoch := { n.epoch with waiting := [q] } }))) ∧
    (s.net.epoch.phase = .switching → s.net.epoch.waiting ≠ [] → s.net.epoch.repeats < 3 → 
      exec .epochAckTimeout s =
        .next ((s.updNet (fun n => { n with epoch := { n.epoch with repeats := n.epoch.repeats + 1 } })).ctl .switch)) ∧
    (∀ answers, s.net.epoch.phase = .draining → s.epochPeers.all (fun p => answers.any (fun a => a.1 == p)) = true →
      answers.all (fun a => a.2.1 == 0) = true → s.oldCount = 0 →
      (s.net.epoch.waves = 0 → exec (.drainWave answers) s =
        .next ((s.updNet (fun n => { n with oldSeen := false, epoch := { n.epoch with waves := 1 } })).ctl .drainQuery)) ∧
      (1 ≤ s.net.epoch.waves → s.net.oldSeen = false → answers.all (fun a => !a.2.2) = true →
        exec (.drainWave answers) s = .next (s.updNet (fun n => { n with oldSeen := false })).finishEpoch))


/-! ### No command ends a run -/

/-- No state stops a command: every command that is no ZVIS word, with any operands, in every state answers a next state, and so does every
word that a program may hold; a word that the loader rejects is refused under its own name, whatever the state (08 R172). -/
def Obligations.EveryCommandIsExecuted : Prop :=
  ∀ (s : State) (i : Instr),
    (wordCore i = none → ∃ t, exec i s = .next t) ∧
    (∀ c, wordCore i = some c →
      (wordOk s.n (s.logical c.val) i = true → ∃ t, exec i s = .next t) ∧
      (wordOk s.n (s.logical c.val) i = false → exec i s = .refused .reservedEncoding))
end

