-- ==== Sys2Proof/Laws/Tab.lean ====
section
/-! SUPPORT. Tables, records and byte memories: read after write, and the canonical form. -/

namespace Sys2Proof.Machine

theorem Recs.get_put_self {α : Type} (d : α) (m : List (Nat × α)) (k : Nat) (v : α) :
    Recs.get d (Recs.put m k v) k = v := by
  induction m with
  | nil => simp [Recs.put, Recs.get]
  | cons p m ih =>
    obtain ⟨j, w⟩ := p
    simp only [Recs.put]
    split_ifs with h1 h2
    · simp [Recs.get]
    · simp [Recs.get]
    · simp [Recs.get, h1, ih]

theorem Recs.get_put_ne {α : Type} (d : α) (m : List (Nat × α)) {k l : Nat} (v : α) (h : l ≠ k) :
    Recs.get d (Recs.put m k v) l = Recs.get d m l := by
  induction m with
  | nil => simp [Recs.put, Recs.get, h.symm]
  | cons p m ih =>
    obtain ⟨j, w⟩ := p
    simp only [Recs.put]
    split_ifs with h1 h2
    · subst h1; simp [Recs.get, h.symm]
    · simp [Recs.get, h.symm]
    · simp only [Recs.get, ih]

theorem Recs.put_put {α : Type} (m : List (Nat × α)) (k : Nat) (v w : α) :
    Recs.put (Recs.put m k v) k w = Recs.put m k w := by
  induction m with
  | nil => simp [Recs.put]
  | cons p m ih =>
    obtain ⟨j, u⟩ := p
    simp only [Recs.put]
    split_ifs with h1 h2
    · simp [Recs.put]
    · simp [Recs.put]
    · simp [Recs.put, h1, h2, ih]

/-- A list made from the entries is that of the new entry, where every old one gives nothing. -/
theorem Recs.flatMap_put {α β : Type} (f : Nat × α → List β) (m : List (Nat × α)) (k : Nat) (v : α)
    (h : ∀ p ∈ m, f p = []) : (Recs.put m k v).flatMap f = f (k, v) := by
  induction m with
  | nil => simp [Recs.put]
  | cons p m ih =>
    obtain ⟨j, u⟩ := p
    have h0 : ∀ q ∈ m, f q = [] := fun q hq => h q (List.mem_cons_of_mem _ hq)
    have hm : m.flatMap f = [] := List.flatMap_eq_nil_iff.mpr h0
    simp only [Recs.put]
    split_ifs with h1 h2
    · simp [hm]
    · simp [hm, h (j, u) (List.mem_cons_self ..)]
    · simp [ih h0, h (j, u) (List.mem_cons_self ..)]

theorem Recs.mem_put {α : Type} {m : List (Nat × α)} {k : Nat} {v : α} {p : Nat × α} (h : p ∈ Recs.put m k v) :
    p = (k, v) ∨ p ∈ m := by
  induction m with
  | nil => simpa [Recs.put] using h
  | cons q m ih =>
    obtain ⟨j, u⟩ := q
    simp only [Recs.put] at h
    split_ifs at h with h1 h2
    · rcases List.mem_cons.mp h with h | h
      · exact .inl h
      · exact .inr (List.mem_cons_of_mem _ h)
    · rcases List.mem_cons.mp h with h | h
      · exact .inl h
      · exact .inr h
    · rcases List.mem_cons.mp h with h | h
      · exact .inr (h ▸ List.mem_cons_self ..)
      · rcases ih h with h | h
        · exact .inl h
        · exact .inr (List.mem_cons_of_mem _ h)

/-! ### Tables -/

variable {α : Type} [DecidableEq α]

/-- An index below every listed one reads as the default. -/
theorem Tab.get_low {d : α} {m : Tab α} {lo k : Nat} (h : Tab.wfFrom d (some lo) m = true) (hk : k ≤ lo) :
    Tab.get d m k = d := by
  induction m generalizing lo with
  | nil => rfl
  | cons p m ih =>
    obtain ⟨j, v⟩ := p
    simp only [Tab.wfFrom, Bool.and_eq_true, decide_eq_true_eq] at h
    have hj : j ≠ k := by omega
    simp only [Tab.get, beq_iff_eq, hj, if_false]
    exact ih h.2 (by omega)

/-- Rising from a lower bound is rising. -/
theorem Tab.wfFrom_mono {d : α} {m : Tab α} {lo lo' : Nat} (h : Tab.wfFrom d (some lo) m = true) (hl : lo' ≤ lo) :
    Tab.wfFrom d (some lo') m = true := by
  cases m with
  | nil => rfl
  | cons p m =>
    obtain ⟨j, v⟩ := p
    simp only [Tab.wfFrom, Bool.and_eq_true, decide_eq_true_eq] at h ⊢
    exact ⟨⟨by omega, h.1.2⟩, h.2⟩

theorem Tab.wfFrom_none {d : α} {m : Tab α} {lo : Nat} (h : Tab.wfFrom d (some lo) m = true) :
    Tab.wfFrom d none m = true := by
  cases m with
  | nil => rfl
  | cons p m =>
    obtain ⟨j, v⟩ := p
    simp only [Tab.wfFrom, Bool.and_eq_true, decide_eq_true_eq] at h ⊢
    exact ⟨⟨trivial, h.1.2⟩, h.2⟩

theorem Tab.wfFrom_set {d : α} {m : Tab α} {lo k : Nat} (v : α) (h : Tab.wfFrom d (some lo) m = true) (hk : lo < k) :
    Tab.wfFrom d (some lo) (Tab.set d m k v) = true := by
  induction m generalizing lo with
  | nil =>
    by_cases hv : v = d
    · simp [Tab.set, hv, Tab.wfFrom]
    · simp [Tab.set, hv, Tab.wfFrom, hk]
  | cons p m ih =>
    obtain ⟨j, w⟩ := p
    have h' := h
    simp only [Tab.wfFrom, Bool.and_eq_true, decide_eq_true_eq] at h
    obtain ⟨⟨hj, hw⟩, hm⟩ := h
    simp only [Tab.set]
    split_ifs with h1 h2 h3 h4
    · exact h'
    · simp only [Tab.wfFrom, Bool.and_eq_true, decide_eq_true_eq]
      exact ⟨⟨hk, by simpa using h2⟩, ⟨h1, hw⟩, hm⟩
    · exact Tab.wfFrom_mono hm (by omega)
    · simp only [Tab.wfFrom, Bool.and_eq_true, decide_eq_true_eq]
      exact ⟨⟨hk, by simpa using h4⟩, h3 ▸ hm⟩
    · simp only [Tab.wfFrom, Bool.and_eq_true, decide_eq_true_eq]
      exact ⟨⟨hj, hw⟩, ih hm (by omega)⟩

/-- Writing a table keeps its canonical form. -/
theorem Tab.wf_set {d : α} {m : Tab α} (k : Nat) (v : α) (h : Tab.wf d m = true) : Tab.wf d (Tab.set d m k v) = true := by
  cases m with
  | nil =>
    by_cases hv : v = d
    · simp [Tab.set, hv, Tab.wf, Tab.wfFrom]
    · simp [Tab.set, hv, Tab.wf, Tab.wfFrom]
  | cons p m =>
    obtain ⟨j, w⟩ := p
    have h' := h
    simp only [Tab.wf, Tab.wfFrom, Bool.and_eq_true, true_and] at h
    obtain ⟨hw, hm⟩ := h
    simp only [Tab.set]
    split_ifs with h1 h2 h3 h4
    · exact h'
    · simp only [Tab.wf, Tab.wfFrom, Bool.and_eq_true, decide_eq_true_eq, true_and]
      exact ⟨by simpa using h2, ⟨h1, hw⟩, hm⟩
    · exact Tab.wfFrom_none hm
    · simp only [Tab.wf, Tab.wfFrom, Bool.and_eq_true, true_and]
      exact ⟨by simpa using h4, h3 ▸ hm⟩
    · simp only [Tab.wf, Tab.wfFrom, Bool.and_eq_true, true_and]
      exact ⟨hw, Tab.wfFrom_set v hm (by omega)⟩

/-- Read after write in a table with a head, given the law for its tail. -/
theorem Tab.get_set_cons {d : α} {m : Tab α} {j : Nat} {w : α} (k l : Nat) (v : α)
    (hm : Tab.wfFrom d (some j) m = true)
    (ih : Tab.get d (Tab.set d m k v) l = if l = k then v else Tab.get d m l) :
    Tab.get d (Tab.set d ((j, w) :: m) k v) l = if l = k then v else Tab.get d ((j, w) :: m) l := by
  by_cases hk : k < j
  · by_cases hv : v = d
    · by_cases hl : l = k
      · subst hl
        have : j ≠ l := by omega
        simp [Tab.set, hk, hv, Tab.get, this, Tab.get_low hm (by omega : l ≤ j)]
      · simp [Tab.set, hk, hv, hl]
    · by_cases hl : l = k
      · subst hl; simp [Tab.set, hk, hv, Tab.get]
      · simp [Tab.set, hk, hv, hl, Tab.get, Ne.symm hl]
  · by_cases hkj : k = j
    · subst hkj
      by_cases hv : v = d
      · by_cases hl : l = k
        · subst hl; simp [Tab.set, hv, Tab.get_low hm (Nat.le_refl _)]
        · simp [Tab.set, hv, Tab.get, hl, Ne.symm hl]
      · by_cases hl : l = k
        · subst hl; simp [Tab.set, hv, Tab.get]
        · simp [Tab.set, hv, Tab.get, hl, Ne.symm hl]
    · simp only [Tab.set, hk, hkj, if_false, Tab.get, ih]
      by_cases hl : l = k
      · subst hl
        have : j ≠ l := fun h => hkj h.symm
        simp [this]
      · simp [hl]

theorem Tab.get_set_nil {d : α} (k l : Nat) (v : α) :
    Tab.get d (Tab.set d ([] : Tab α) k v) l = if l = k then v else d := by
  by_cases hv : v = d
  · simp [Tab.set, hv, Tab.get]
  · by_cases hl : l = k
    · subst hl; simp [Tab.set, hv, Tab.get]
    · simp [Tab.set, hv, Tab.get, hl, Ne.symm hl]

theorem Tab.get_set_from {d : α} {m : Tab α} {lo : Nat} (k l : Nat) (v : α) (h : Tab.wfFrom d (some lo) m = true) :
    Tab.get d (Tab.set d m k v) l = if l = k then v else Tab.get d m l := by
  induction m generalizing lo with
  | nil => exact Tab.get_set_nil k l v
  | cons p m ih =>
    simp only [Tab.wfFrom, Bool.and_eq_true] at h
    exact Tab.get_set_cons k l v h.2 (ih h.2)

/-- Read after write: the written index gives the value, every other what it gave. -/
theorem Tab.get_set {d : α} {m : Tab α} (k l : Nat) (v : α) (h : Tab.wf d m = true) :
    Tab.get d (Tab.set d m k v) l = if l = k then v else Tab.get d m l := by
  cases m with
  | nil => exact Tab.get_set_nil k l v
  | cons p m =>
    simp only [Tab.wf, Tab.wfFrom, Bool.and_eq_true] at h
    exact Tab.get_set_cons k l v h.2 (Tab.get_set_from k l v h.2)

theorem Tab.wf_setList {d : α} (vs : List α) {m : Tab α} (k : Nat) (h : Tab.wf d m = true) :
    Tab.wf d (Tab.setList d m k vs) = true := by
  induction vs generalizing m k with
  | nil => exact h
  | cons v vs ih => exact ih (k + 1) (Tab.wf_set k v h)

/-- A list of values written from k on is read back, and every other index gives what it gave. -/
theorem Tab.get_setList {d : α} (vs : List α) {m : Tab α} (k l : Nat) (h : Tab.wf d m = true) :
    Tab.get d (Tab.setList d m k vs) l = if k ≤ l ∧ l < k + vs.length then vs.getD (l - k) d else Tab.get d m l := by
  induction vs generalizing m k with
  | nil => simp [Tab.setList, Nat.not_lt.mpr]
  | cons v vs ih =>
    simp only [Tab.setList, ih (k + 1) (Tab.wf_set k v h), Tab.get_set k l v h, List.length_cons]
    by_cases h1 : l = k
    · subst h1; simp
    · rw [if_neg h1]
      by_cases h3 : k + 1 ≤ l ∧ l < k + 1 + vs.length
      · have h2 : k ≤ l ∧ l < k + (vs.length + 1) := by omega
        have h4 : l - k = (l - (k + 1)) + 1 := by omega
        rw [if_pos h3, if_pos h2, h4, List.getD_cons_succ]
      · have h2 : ¬(k ≤ l ∧ l < k + (vs.length + 1)) := by omega
        rw [if_neg h3, if_neg h2]

/-! ### Byte memories -/

/-- Every write keeps the canonical form of a byte memory. -/
theorem Mem.wf_write {m : Mem} (a : Nat) (bs : List Byte) (h : Memory.wf m = true) : Memory.wf (m.write a bs) = true :=
  Tab.wf_setList bs a h

/-- A byte after a write: the byte written, or what the address gave. -/
theorem Mem.byte_write {m : Mem} (a b : Nat) (bs : List Byte) (h : Memory.wf m = true) :
    (m.write a bs).byte b = if a ≤ b ∧ b < a + bs.length then bs.getD (b - a) 0 else m.byte b :=
  Tab.get_setList bs a b h

end Sys2Proof.Machine
end

