-- ==== Sys2Proof/Laws/State.lean ====
section
/-! SUPPORT. What the updates of State leave as it was: one lemma for each field and update; and what they do to a core. -/

namespace Sys2Proof.Machine

/-! ### setCore -/

@[simp] theorem State.setCore_pending (s : State) (c : Nat) (x : Core) : (s.setCore c x).pending = s.pending := rfl
@[simp] theorem State.setCore_free (s : State) (c : Nat) (x : Core) : (s.setCore c x).free = s.free := rfl
@[simp] theorem State.setCore_landings (s : State) (c : Nat) (x : Core) : (s.setCore c x).landings = s.landings := rfl
@[simp] theorem State.setCore_clk (s : State) (c : Nat) (x : Core) : (s.setCore c x).clk = s.clk := rfl
@[simp] theorem State.setCore_groups (s : State) (c : Nat) (x : Core) : (s.setCore c x).groups = s.groups := rfl
@[simp] theorem State.setCore_steps (s : State) (c : Nat) (x : Core) : (s.setCore c x).steps = s.steps := rfl
@[simp] theorem State.setCore_images (s : State) (c : Nat) (x : Core) : (s.setCore c x).images = s.images := rfl
@[simp] theorem State.setCore_parts (s : State) (c : Nat) (x : Core) : (s.setCore c x).parts = s.parts := rfl
@[simp] theorem State.setCore_enabled (s : State) (c : Nat) (x : Core) : (s.setCore c x).enabled = s.enabled := rfl
@[simp] theorem State.setCore_passThrough (s : State) (c : Nat) (x : Core) : (s.setCore c x).passThrough = s.passThrough := rfl
@[simp] theorem State.setCore_pageGens (s : State) (c : Nat) (x : Core) : (s.setCore c x).pageGens = s.pageGens := rfl
@[simp] theorem State.setCore_funcs (s : State) (c : Nat) (x : Core) : (s.setCore c x).funcs = s.funcs := rfl
@[simp] theorem State.setCore_station (s : State) (c : Nat) (x : Core) : (s.setCore c x).station = s.station := rfl
@[simp] theorem State.setCore_faultLog (s : State) (c : Nat) (x : Core) : (s.setCore c x).faultLog = s.faultLog := rfl
@[simp] theorem State.setCore_faultCount (s : State) (c : Nat) (x : Core) : (s.setCore c x).faultCount = s.faultCount := rfl
@[simp] theorem State.setCore_kdq (s : State) (c : Nat) (x : Core) : (s.setCore c x).kdq = s.kdq := rfl
@[simp] theorem State.setCore_dbg (s : State) (c : Nat) (x : Core) : (s.setCore c x).dbg = s.dbg := rfl
@[simp] theorem State.setCore_dir (s : State) (c : Nat) (x : Core) : (s.setCore c x).dir = s.dir := rfl
@[simp] theorem State.setCore_readback (s : State) (c : Nat) (x : Core) : (s.setCore c x).readback = s.readback := rfl
@[simp] theorem State.setCore_hazards (s : State) (c : Nat) (x : Core) : (s.setCore c x).hazards = s.hazards := rfl
@[simp] theorem State.setCore_trace (s : State) (c : Nat) (x : Core) : (s.setCore c x).trace = s.trace := rfl
@[simp] theorem State.setCore_mesh (s : State) (c : Nat) (x : Core) : (s.setCore c x).mesh = s.mesh := rfl
@[simp] theorem State.setCore_fabric (s : State) (c : Nat) (x : Core) : (s.setCore c x).fabric = s.fabric := rfl
@[simp] theorem State.setCore_routes (s : State) (c : Nat) (x : Core) : (s.setCore c x).routes = s.routes := rfl
@[simp] theorem State.setCore_unroutable (s : State) (c : Nat) (x : Core) : (s.setCore c x).unroutable = s.unroutable := rfl
@[simp] theorem State.setCore_notices (s : State) (c : Nat) (x : Core) : (s.setCore c x).notices = s.notices := rfl
@[simp] theorem State.setCore_ports (s : State) (c : Nat) (x : Core) : (s.setCore c x).ports = s.ports := rfl
@[simp] theorem State.setCore_lasers (s : State) (c : Nat) (x : Core) : (s.setCore c x).lasers = s.lasers := rfl
@[simp] theorem State.setCore_net (s : State) (c : Nat) (x : Core) : (s.setCore c x).net = s.net := rfl
@[simp] theorem State.setCore_sec (s : State) (c : Nat) (x : Core) : (s.setCore c x).sec = s.sec := rfl
@[simp] theorem State.setCore_maint (s : State) (c : Nat) (x : Core) : (s.setCore c x).maint = s.maint := rfl
@[simp] theorem State.setCore_power (s : State) (c : Nat) (x : Core) : (s.setCore c x).power = s.power := rfl
@[simp] theorem State.setCore_sync (s : State) (c : Nat) (x : Core) : (s.setCore c x).sync = s.sync := rfl
@[simp] theorem State.setCore_pkg (s : State) (c : Nat) (x : Core) : (s.setCore c x).pkg = s.pkg := rfl
@[simp] theorem State.setCore_meshFaults (s : State) (c : Nat) (x : Core) : (s.setCore c x).meshFaults = s.meshFaults := rfl
@[simp] theorem State.setCore_clockFaults (s : State) (c : Nat) (x : Core) : (s.setCore c x).clockFaults = s.clockFaults := rfl
@[simp] theorem State.setCore_out (s : State) (c : Nat) (x : Core) : (s.setCore c x).out = s.out := rfl

/-! ### updCore -/

@[simp] theorem State.updCore_pending (s : State) (c : Nat) (f : Core → Core) : (s.updCore c f).pending = s.pending := rfl
@[simp] theorem State.updCore_free (s : State) (c : Nat) (f : Core → Core) : (s.updCore c f).free = s.free := rfl
@[simp] theorem State.updCore_landings (s : State) (c : Nat) (f : Core → Core) : (s.updCore c f).landings = s.landings := rfl
@[simp] theorem State.updCore_clk (s : State) (c : Nat) (f : Core → Core) : (s.updCore c f).clk = s.clk := rfl
@[simp] theorem State.updCore_groups (s : State) (c : Nat) (f : Core → Core) : (s.updCore c f).groups = s.groups := rfl
@[simp] theorem State.updCore_steps (s : State) (c : Nat) (f : Core → Core) : (s.updCore c f).steps = s.steps := rfl
@[simp] theorem State.updCore_images (s : State) (c : Nat) (f : Core → Core) : (s.updCore c f).images = s.images := rfl
@[simp] theorem State.updCore_parts (s : State) (c : Nat) (f : Core → Core) : (s.updCore c f).parts = s.parts := rfl
@[simp] theorem State.updCore_enabled (s : State) (c : Nat) (f : Core → Core) : (s.updCore c f).enabled = s.enabled := rfl
@[simp] theorem State.updCore_passThrough (s : State) (c : Nat) (f : Core → Core) : (s.updCore c f).passThrough = s.passThrough := rfl
@[simp] theorem State.updCore_pageGens (s : State) (c : Nat) (f : Core → Core) : (s.updCore c f).pageGens = s.pageGens := rfl
@[simp] theorem State.updCore_funcs (s : State) (c : Nat) (f : Core → Core) : (s.updCore c f).funcs = s.funcs := rfl
@[simp] theorem State.updCore_station (s : State) (c : Nat) (f : Core → Core) : (s.updCore c f).station = s.station := rfl
@[simp] theorem State.updCore_faultLog (s : State) (c : Nat) (f : Core → Core) : (s.updCore c f).faultLog = s.faultLog := rfl
@[simp] theorem State.updCore_faultCount (s : State) (c : Nat) (f : Core → Core) : (s.updCore c f).faultCount = s.faultCount := rfl
@[simp] theorem State.updCore_kdq (s : State) (c : Nat) (f : Core → Core) : (s.updCore c f).kdq = s.kdq := rfl
@[simp] theorem State.updCore_dbg (s : State) (c : Nat) (f : Core → Core) : (s.updCore c f).dbg = s.dbg := rfl
@[simp] theorem State.updCore_dir (s : State) (c : Nat) (f : Core → Core) : (s.updCore c f).dir = s.dir := rfl
@[simp] theorem State.updCore_readback (s : State) (c : Nat) (f : Core → Core) : (s.updCore c f).readback = s.readback := rfl
@[simp] theorem State.updCore_hazards (s : State) (c : Nat) (f : Core → Core) : (s.updCore c f).hazards = s.hazards := rfl
@[simp] theorem State.updCore_trace (s : State) (c : Nat) (f : Core → Core) : (s.updCore c f).trace = s.trace := rfl
@[simp] theorem State.updCore_mesh (s : State) (c : Nat) (f : Core → Core) : (s.updCore c f).mesh = s.mesh := rfl
@[simp] theorem State.updCore_fabric (s : State) (c : Nat) (f : Core → Core) : (s.updCore c f).fabric = s.fabric := rfl
@[simp] theorem State.updCore_routes (s : State) (c : Nat) (f : Core → Core) : (s.updCore c f).routes = s.routes := rfl
@[simp] theorem State.updCore_unroutable (s : State) (c : Nat) (f : Core → Core) : (s.updCore c f).unroutable = s.unroutable := rfl
@[simp] theorem State.updCore_notices (s : State) (c : Nat) (f : Core → Core) : (s.updCore c f).notices = s.notices := rfl
@[simp] theorem State.updCore_ports (s : State) (c : Nat) (f : Core → Core) : (s.updCore c f).ports = s.ports := rfl
@[simp] theorem State.updCore_lasers (s : State) (c : Nat) (f : Core → Core) : (s.updCore c f).lasers = s.lasers := rfl
@[simp] theorem State.updCore_net (s : State) (c : Nat) (f : Core → Core) : (s.updCore c f).net = s.net := rfl
@[simp] theorem State.updCore_sec (s : State) (c : Nat) (f : Core → Core) : (s.updCore c f).sec = s.sec := rfl
@[simp] theorem State.updCore_maint (s : State) (c : Nat) (f : Core → Core) : (s.updCore c f).maint = s.maint := rfl
@[simp] theorem State.updCore_power (s : State) (c : Nat) (f : Core → Core) : (s.updCore c f).power = s.power := rfl
@[simp] theorem State.updCore_sync (s : State) (c : Nat) (f : Core → Core) : (s.updCore c f).sync = s.sync := rfl
@[simp] theorem State.updCore_pkg (s : State) (c : Nat) (f : Core → Core) : (s.updCore c f).pkg = s.pkg := rfl
@[simp] theorem State.updCore_meshFaults (s : State) (c : Nat) (f : Core → Core) : (s.updCore c f).meshFaults = s.meshFaults := rfl
@[simp] theorem State.updCore_clockFaults (s : State) (c : Nat) (f : Core → Core) : (s.updCore c f).clockFaults = s.clockFaults := rfl
@[simp] theorem State.updCore_out (s : State) (c : Nat) (f : Core → Core) : (s.updCore c f).out = s.out := rfl

/-! ### updCtl -/

@[simp] theorem State.updCtl_pending (s : State) (c : Nat) (f : Ctl → Ctl) : (s.updCtl c f).pending = s.pending := rfl
@[simp] theorem State.updCtl_free (s : State) (c : Nat) (f : Ctl → Ctl) : (s.updCtl c f).free = s.free := rfl
@[simp] theorem State.updCtl_landings (s : State) (c : Nat) (f : Ctl → Ctl) : (s.updCtl c f).landings = s.landings := rfl
@[simp] theorem State.updCtl_clk (s : State) (c : Nat) (f : Ctl → Ctl) : (s.updCtl c f).clk = s.clk := rfl
@[simp] theorem State.updCtl_groups (s : State) (c : Nat) (f : Ctl → Ctl) : (s.updCtl c f).groups = s.groups := rfl
@[simp] theorem State.updCtl_steps (s : State) (c : Nat) (f : Ctl → Ctl) : (s.updCtl c f).steps = s.steps := rfl
@[simp] theorem State.updCtl_images (s : State) (c : Nat) (f : Ctl → Ctl) : (s.updCtl c f).images = s.images := rfl
@[simp] theorem State.updCtl_parts (s : State) (c : Nat) (f : Ctl → Ctl) : (s.updCtl c f).parts = s.parts := rfl
@[simp] theorem State.updCtl_enabled (s : State) (c : Nat) (f : Ctl → Ctl) : (s.updCtl c f).enabled = s.enabled := rfl
@[simp] theorem State.updCtl_passThrough (s : State) (c : Nat) (f : Ctl → Ctl) : (s.updCtl c f).passThrough = s.passThrough := rfl
@[simp] theorem State.updCtl_pageGens (s : State) (c : Nat) (f : Ctl → Ctl) : (s.updCtl c f).pageGens = s.pageGens := rfl
@[simp] theorem State.updCtl_funcs (s : State) (c : Nat) (f : Ctl → Ctl) : (s.updCtl c f).funcs = s.funcs := rfl
@[simp] theorem State.updCtl_station (s : State) (c : Nat) (f : Ctl → Ctl) : (s.updCtl c f).station = s.station := rfl
@[simp] theorem State.updCtl_faultLog (s : State) (c : Nat) (f : Ctl → Ctl) : (s.updCtl c f).faultLog = s.faultLog := rfl
@[simp] theorem State.updCtl_faultCount (s : State) (c : Nat) (f : Ctl → Ctl) : (s.updCtl c f).faultCount = s.faultCount := rfl
@[simp] theorem State.updCtl_kdq (s : State) (c : Nat) (f : Ctl → Ctl) : (s.updCtl c f).kdq = s.kdq := rfl
@[simp] theorem State.updCtl_dbg (s : State) (c : Nat) (f : Ctl → Ctl) : (s.updCtl c f).dbg = s.dbg := rfl
@[simp] theorem State.updCtl_dir (s : State) (c : Nat) (f : Ctl → Ctl) : (s.updCtl c f).dir = s.dir := rfl
@[simp] theorem State.updCtl_readback (s : State) (c : Nat) (f : Ctl → Ctl) : (s.updCtl c f).readback = s.readback := rfl
@[simp] theorem State.updCtl_hazards (s : State) (c : Nat) (f : Ctl → Ctl) : (s.updCtl c f).hazards = s.hazards := rfl
@[simp] theorem State.updCtl_trace (s : State) (c : Nat) (f : Ctl → Ctl) : (s.updCtl c f).trace = s.trace := rfl
@[simp] theorem State.updCtl_mesh (s : State) (c : Nat) (f : Ctl → Ctl) : (s.updCtl c f).mesh = s.mesh := rfl
@[simp] theorem State.updCtl_fabric (s : State) (c : Nat) (f : Ctl → Ctl) : (s.updCtl c f).fabric = s.fabric := rfl
@[simp] theorem State.updCtl_routes (s : State) (c : Nat) (f : Ctl → Ctl) : (s.updCtl c f).routes = s.routes := rfl
@[simp] theorem State.updCtl_unroutable (s : State) (c : Nat) (f : Ctl → Ctl) : (s.updCtl c f).unroutable = s.unroutable := rfl
@[simp] theorem State.updCtl_notices (s : State) (c : Nat) (f : Ctl → Ctl) : (s.updCtl c f).notices = s.notices := rfl
@[simp] theorem State.updCtl_ports (s : State) (c : Nat) (f : Ctl → Ctl) : (s.updCtl c f).ports = s.ports := rfl
@[simp] theorem State.updCtl_lasers (s : State) (c : Nat) (f : Ctl → Ctl) : (s.updCtl c f).lasers = s.lasers := rfl
@[simp] theorem State.updCtl_net (s : State) (c : Nat) (f : Ctl → Ctl) : (s.updCtl c f).net = s.net := rfl
@[simp] theorem State.updCtl_sec (s : State) (c : Nat) (f : Ctl → Ctl) : (s.updCtl c f).sec = s.sec := rfl
@[simp] theorem State.updCtl_maint (s : State) (c : Nat) (f : Ctl → Ctl) : (s.updCtl c f).maint = s.maint := rfl
@[simp] theorem State.updCtl_power (s : State) (c : Nat) (f : Ctl → Ctl) : (s.updCtl c f).power = s.power := rfl
@[simp] theorem State.updCtl_sync (s : State) (c : Nat) (f : Ctl → Ctl) : (s.updCtl c f).sync = s.sync := rfl
@[simp] theorem State.updCtl_pkg (s : State) (c : Nat) (f : Ctl → Ctl) : (s.updCtl c f).pkg = s.pkg := rfl
@[simp] theorem State.updCtl_meshFaults (s : State) (c : Nat) (f : Ctl → Ctl) : (s.updCtl c f).meshFaults = s.meshFaults := rfl
@[simp] theorem State.updCtl_clockFaults (s : State) (c : Nat) (f : Ctl → Ctl) : (s.updCtl c f).clockFaults = s.clockFaults := rfl
@[simp] theorem State.updCtl_out (s : State) (c : Nat) (f : Ctl → Ctl) : (s.updCtl c f).out = s.out := rfl

/-! ### updLane -/

@[simp] theorem State.updLane_pending (s : State) (c : Nat) (f : Lane → Lane) : (s.updLane c f).pending = s.pending := rfl
@[simp] theorem State.updLane_free (s : State) (c : Nat) (f : Lane → Lane) : (s.updLane c f).free = s.free := rfl
@[simp] theorem State.updLane_landings (s : State) (c : Nat) (f : Lane → Lane) : (s.updLane c f).landings = s.landings := rfl
@[simp] theorem State.updLane_clk (s : State) (c : Nat) (f : Lane → Lane) : (s.updLane c f).clk = s.clk := rfl
@[simp] theorem State.updLane_groups (s : State) (c : Nat) (f : Lane → Lane) : (s.updLane c f).groups = s.groups := rfl
@[simp] theorem State.updLane_steps (s : State) (c : Nat) (f : Lane → Lane) : (s.updLane c f).steps = s.steps := rfl
@[simp] theorem State.updLane_images (s : State) (c : Nat) (f : Lane → Lane) : (s.updLane c f).images = s.images := rfl
@[simp] theorem State.updLane_parts (s : State) (c : Nat) (f : Lane → Lane) : (s.updLane c f).parts = s.parts := rfl
@[simp] theorem State.updLane_enabled (s : State) (c : Nat) (f : Lane → Lane) : (s.updLane c f).enabled = s.enabled := rfl
@[simp] theorem State.updLane_passThrough (s : State) (c : Nat) (f : Lane → Lane) : (s.updLane c f).passThrough = s.passThrough := rfl
@[simp] theorem State.updLane_pageGens (s : State) (c : Nat) (f : Lane → Lane) : (s.updLane c f).pageGens = s.pageGens := rfl
@[simp] theorem State.updLane_funcs (s : State) (c : Nat) (f : Lane → Lane) : (s.updLane c f).funcs = s.funcs := rfl
@[simp] theorem State.updLane_station (s : State) (c : Nat) (f : Lane → Lane) : (s.updLane c f).station = s.station := rfl
@[simp] theorem State.updLane_faultLog (s : State) (c : Nat) (f : Lane → Lane) : (s.updLane c f).faultLog = s.faultLog := rfl
@[simp] theorem State.updLane_faultCount (s : State) (c : Nat) (f : Lane → Lane) : (s.updLane c f).faultCount = s.faultCount := rfl
@[simp] theorem State.updLane_kdq (s : State) (c : Nat) (f : Lane → Lane) : (s.updLane c f).kdq = s.kdq := rfl
@[simp] theorem State.updLane_dbg (s : State) (c : Nat) (f : Lane → Lane) : (s.updLane c f).dbg = s.dbg := rfl
@[simp] theorem State.updLane_dir (s : State) (c : Nat) (f : Lane → Lane) : (s.updLane c f).dir = s.dir := rfl
@[simp] theorem State.updLane_readback (s : State) (c : Nat) (f : Lane → Lane) : (s.updLane c f).readback = s.readback := rfl
@[simp] theorem State.updLane_hazards (s : State) (c : Nat) (f : Lane → Lane) : (s.updLane c f).hazards = s.hazards := rfl
@[simp] theorem State.updLane_trace (s : State) (c : Nat) (f : Lane → Lane) : (s.updLane c f).trace = s.trace := rfl
@[simp] theorem State.updLane_mesh (s : State) (c : Nat) (f : Lane → Lane) : (s.updLane c f).mesh = s.mesh := rfl
@[simp] theorem State.updLane_fabric (s : State) (c : Nat) (f : Lane → Lane) : (s.updLane c f).fabric = s.fabric := rfl
@[simp] theorem State.updLane_routes (s : State) (c : Nat) (f : Lane → Lane) : (s.updLane c f).routes = s.routes := rfl
@[simp] theorem State.updLane_unroutable (s : State) (c : Nat) (f : Lane → Lane) : (s.updLane c f).unroutable = s.unroutable := rfl
@[simp] theorem State.updLane_notices (s : State) (c : Nat) (f : Lane → Lane) : (s.updLane c f).notices = s.notices := rfl
@[simp] theorem State.updLane_ports (s : State) (c : Nat) (f : Lane → Lane) : (s.updLane c f).ports = s.ports := rfl
@[simp] theorem State.updLane_lasers (s : State) (c : Nat) (f : Lane → Lane) : (s.updLane c f).lasers = s.lasers := rfl
@[simp] theorem State.updLane_net (s : State) (c : Nat) (f : Lane → Lane) : (s.updLane c f).net = s.net := rfl
@[simp] theorem State.updLane_sec (s : State) (c : Nat) (f : Lane → Lane) : (s.updLane c f).sec = s.sec := rfl
@[simp] theorem State.updLane_maint (s : State) (c : Nat) (f : Lane → Lane) : (s.updLane c f).maint = s.maint := rfl
@[simp] theorem State.updLane_power (s : State) (c : Nat) (f : Lane → Lane) : (s.updLane c f).power = s.power := rfl
@[simp] theorem State.updLane_sync (s : State) (c : Nat) (f : Lane → Lane) : (s.updLane c f).sync = s.sync := rfl
@[simp] theorem State.updLane_pkg (s : State) (c : Nat) (f : Lane → Lane) : (s.updLane c f).pkg = s.pkg := rfl
@[simp] theorem State.updLane_meshFaults (s : State) (c : Nat) (f : Lane → Lane) : (s.updLane c f).meshFaults = s.meshFaults := rfl
@[simp] theorem State.updLane_clockFaults (s : State) (c : Nat) (f : Lane → Lane) : (s.updLane c f).clockFaults = s.clockFaults := rfl
@[simp] theorem State.updLane_out (s : State) (c : Nat) (f : Lane → Lane) : (s.updLane c f).out = s.out := rfl

/-! ### updVec -/

@[simp] theorem State.updVec_pending (s : State) (c : Nat) (f : Vec → Vec) : (s.updVec c f).pending = s.pending := rfl
@[simp] theorem State.updVec_free (s : State) (c : Nat) (f : Vec → Vec) : (s.updVec c f).free = s.free := rfl
@[simp] theorem State.updVec_landings (s : State) (c : Nat) (f : Vec → Vec) : (s.updVec c f).landings = s.landings := rfl
@[simp] theorem State.updVec_clk (s : State) (c : Nat) (f : Vec → Vec) : (s.updVec c f).clk = s.clk := rfl
@[simp] theorem State.updVec_groups (s : State) (c : Nat) (f : Vec → Vec) : (s.updVec c f).groups = s.groups := rfl
@[simp] theorem State.updVec_steps (s : State) (c : Nat) (f : Vec → Vec) : (s.updVec c f).steps = s.steps := rfl
@[simp] theorem State.updVec_images (s : State) (c : Nat) (f : Vec → Vec) : (s.updVec c f).images = s.images := rfl
@[simp] theorem State.updVec_parts (s : State) (c : Nat) (f : Vec → Vec) : (s.updVec c f).parts = s.parts := rfl
@[simp] theorem State.updVec_enabled (s : State) (c : Nat) (f : Vec → Vec) : (s.updVec c f).enabled = s.enabled := rfl
@[simp] theorem State.updVec_passThrough (s : State) (c : Nat) (f : Vec → Vec) : (s.updVec c f).passThrough = s.passThrough := rfl
@[simp] theorem State.updVec_pageGens (s : State) (c : Nat) (f : Vec → Vec) : (s.updVec c f).pageGens = s.pageGens := rfl
@[simp] theorem State.updVec_funcs (s : State) (c : Nat) (f : Vec → Vec) : (s.updVec c f).funcs = s.funcs := rfl
@[simp] theorem State.updVec_station (s : State) (c : Nat) (f : Vec → Vec) : (s.updVec c f).station = s.station := rfl
@[simp] theorem State.updVec_faultLog (s : State) (c : Nat) (f : Vec → Vec) : (s.updVec c f).faultLog = s.faultLog := rfl
@[simp] theorem State.updVec_faultCount (s : State) (c : Nat) (f : Vec → Vec) : (s.updVec c f).faultCount = s.faultCount := rfl
@[simp] theorem State.updVec_kdq (s : State) (c : Nat) (f : Vec → Vec) : (s.updVec c f).kdq = s.kdq := rfl
@[simp] theorem State.updVec_dbg (s : State) (c : Nat) (f : Vec → Vec) : (s.updVec c f).dbg = s.dbg := rfl
@[simp] theorem State.updVec_dir (s : State) (c : Nat) (f : Vec → Vec) : (s.updVec c f).dir = s.dir := rfl
@[simp] theorem State.updVec_readback (s : State) (c : Nat) (f : Vec → Vec) : (s.updVec c f).readback = s.readback := rfl
@[simp] theorem State.updVec_hazards (s : State) (c : Nat) (f : Vec → Vec) : (s.updVec c f).hazards = s.hazards := rfl
@[simp] theorem State.updVec_trace (s : State) (c : Nat) (f : Vec → Vec) : (s.updVec c f).trace = s.trace := rfl
@[simp] theorem State.updVec_mesh (s : State) (c : Nat) (f : Vec → Vec) : (s.updVec c f).mesh = s.mesh := rfl
@[simp] theorem State.updVec_fabric (s : State) (c : Nat) (f : Vec → Vec) : (s.updVec c f).fabric = s.fabric := rfl
@[simp] theorem State.updVec_routes (s : State) (c : Nat) (f : Vec → Vec) : (s.updVec c f).routes = s.routes := rfl
@[simp] theorem State.updVec_unroutable (s : State) (c : Nat) (f : Vec → Vec) : (s.updVec c f).unroutable = s.unroutable := rfl
@[simp] theorem State.updVec_notices (s : State) (c : Nat) (f : Vec → Vec) : (s.updVec c f).notices = s.notices := rfl
@[simp] theorem State.updVec_ports (s : State) (c : Nat) (f : Vec → Vec) : (s.updVec c f).ports = s.ports := rfl
@[simp] theorem State.updVec_lasers (s : State) (c : Nat) (f : Vec → Vec) : (s.updVec c f).lasers = s.lasers := rfl
@[simp] theorem State.updVec_net (s : State) (c : Nat) (f : Vec → Vec) : (s.updVec c f).net = s.net := rfl
@[simp] theorem State.updVec_sec (s : State) (c : Nat) (f : Vec → Vec) : (s.updVec c f).sec = s.sec := rfl
@[simp] theorem State.updVec_maint (s : State) (c : Nat) (f : Vec → Vec) : (s.updVec c f).maint = s.maint := rfl
@[simp] theorem State.updVec_power (s : State) (c : Nat) (f : Vec → Vec) : (s.updVec c f).power = s.power := rfl
@[simp] theorem State.updVec_sync (s : State) (c : Nat) (f : Vec → Vec) : (s.updVec c f).sync = s.sync := rfl
@[simp] theorem State.updVec_pkg (s : State) (c : Nat) (f : Vec → Vec) : (s.updVec c f).pkg = s.pkg := rfl
@[simp] theorem State.updVec_meshFaults (s : State) (c : Nat) (f : Vec → Vec) : (s.updVec c f).meshFaults = s.meshFaults := rfl
@[simp] theorem State.updVec_clockFaults (s : State) (c : Nat) (f : Vec → Vec) : (s.updVec c f).clockFaults = s.clockFaults := rfl
@[simp] theorem State.updVec_out (s : State) (c : Nat) (f : Vec → Vec) : (s.updVec c f).out = s.out := rfl

/-! ### updSp -/

@[simp] theorem State.updSp_pending (s : State) (c : Nat) (f : SPad → SPad) : (s.updSp c f).pending = s.pending := rfl
@[simp] theorem State.updSp_free (s : State) (c : Nat) (f : SPad → SPad) : (s.updSp c f).free = s.free := rfl
@[simp] theorem State.updSp_landings (s : State) (c : Nat) (f : SPad → SPad) : (s.updSp c f).landings = s.landings := rfl
@[simp] theorem State.updSp_clk (s : State) (c : Nat) (f : SPad → SPad) : (s.updSp c f).clk = s.clk := rfl
@[simp] theorem State.updSp_groups (s : State) (c : Nat) (f : SPad → SPad) : (s.updSp c f).groups = s.groups := rfl
@[simp] theorem State.updSp_steps (s : State) (c : Nat) (f : SPad → SPad) : (s.updSp c f).steps = s.steps := rfl
@[simp] theorem State.updSp_images (s : State) (c : Nat) (f : SPad → SPad) : (s.updSp c f).images = s.images := rfl
@[simp] theorem State.updSp_parts (s : State) (c : Nat) (f : SPad → SPad) : (s.updSp c f).parts = s.parts := rfl
@[simp] theorem State.updSp_enabled (s : State) (c : Nat) (f : SPad → SPad) : (s.updSp c f).enabled = s.enabled := rfl
@[simp] theorem State.updSp_passThrough (s : State) (c : Nat) (f : SPad → SPad) : (s.updSp c f).passThrough = s.passThrough := rfl
@[simp] theorem State.updSp_pageGens (s : State) (c : Nat) (f : SPad → SPad) : (s.updSp c f).pageGens = s.pageGens := rfl
@[simp] theorem State.updSp_funcs (s : State) (c : Nat) (f : SPad → SPad) : (s.updSp c f).funcs = s.funcs := rfl
@[simp] theorem State.updSp_station (s : State) (c : Nat) (f : SPad → SPad) : (s.updSp c f).station = s.station := rfl
@[simp] theorem State.updSp_faultLog (s : State) (c : Nat) (f : SPad → SPad) : (s.updSp c f).faultLog = s.faultLog := rfl
@[simp] theorem State.updSp_faultCount (s : State) (c : Nat) (f : SPad → SPad) : (s.updSp c f).faultCount = s.faultCount := rfl
@[simp] theorem State.updSp_kdq (s : State) (c : Nat) (f : SPad → SPad) : (s.updSp c f).kdq = s.kdq := rfl
@[simp] theorem State.updSp_dbg (s : State) (c : Nat) (f : SPad → SPad) : (s.updSp c f).dbg = s.dbg := rfl
@[simp] theorem State.updSp_dir (s : State) (c : Nat) (f : SPad → SPad) : (s.updSp c f).dir = s.dir := rfl
@[simp] theorem State.updSp_readback (s : State) (c : Nat) (f : SPad → SPad) : (s.updSp c f).readback = s.readback := rfl
@[simp] theorem State.updSp_hazards (s : State) (c : Nat) (f : SPad → SPad) : (s.updSp c f).hazards = s.hazards := rfl
@[simp] theorem State.updSp_trace (s : State) (c : Nat) (f : SPad → SPad) : (s.updSp c f).trace = s.trace := rfl
@[simp] theorem State.updSp_mesh (s : State) (c : Nat) (f : SPad → SPad) : (s.updSp c f).mesh = s.mesh := rfl
@[simp] theorem State.updSp_fabric (s : State) (c : Nat) (f : SPad → SPad) : (s.updSp c f).fabric = s.fabric := rfl
@[simp] theorem State.updSp_routes (s : State) (c : Nat) (f : SPad → SPad) : (s.updSp c f).routes = s.routes := rfl
@[simp] theorem State.updSp_unroutable (s : State) (c : Nat) (f : SPad → SPad) : (s.updSp c f).unroutable = s.unroutable := rfl
@[simp] theorem State.updSp_notices (s : State) (c : Nat) (f : SPad → SPad) : (s.updSp c f).notices = s.notices := rfl
@[simp] theorem State.updSp_ports (s : State) (c : Nat) (f : SPad → SPad) : (s.updSp c f).ports = s.ports := rfl
@[simp] theorem State.updSp_lasers (s : State) (c : Nat) (f : SPad → SPad) : (s.updSp c f).lasers = s.lasers := rfl
@[simp] theorem State.updSp_net (s : State) (c : Nat) (f : SPad → SPad) : (s.updSp c f).net = s.net := rfl
@[simp] theorem State.updSp_sec (s : State) (c : Nat) (f : SPad → SPad) : (s.updSp c f).sec = s.sec := rfl
@[simp] theorem State.updSp_maint (s : State) (c : Nat) (f : SPad → SPad) : (s.updSp c f).maint = s.maint := rfl
@[simp] theorem State.updSp_power (s : State) (c : Nat) (f : SPad → SPad) : (s.updSp c f).power = s.power := rfl
@[simp] theorem State.updSp_sync (s : State) (c : Nat) (f : SPad → SPad) : (s.updSp c f).sync = s.sync := rfl
@[simp] theorem State.updSp_pkg (s : State) (c : Nat) (f : SPad → SPad) : (s.updSp c f).pkg = s.pkg := rfl
@[simp] theorem State.updSp_meshFaults (s : State) (c : Nat) (f : SPad → SPad) : (s.updSp c f).meshFaults = s.meshFaults := rfl
@[simp] theorem State.updSp_clockFaults (s : State) (c : Nat) (f : SPad → SPad) : (s.updSp c f).clockFaults = s.clockFaults := rfl
@[simp] theorem State.updSp_out (s : State) (c : Nat) (f : SPad → SPad) : (s.updSp c f).out = s.out := rfl

/-! ### updWs -/

@[simp] theorem State.updWs_pending (s : State) (c : Nat) (f : WStore → WStore) : (s.updWs c f).pending = s.pending := rfl
@[simp] theorem State.updWs_free (s : State) (c : Nat) (f : WStore → WStore) : (s.updWs c f).free = s.free := rfl
@[simp] theorem State.updWs_landings (s : State) (c : Nat) (f : WStore → WStore) : (s.updWs c f).landings = s.landings := rfl
@[simp] theorem State.updWs_clk (s : State) (c : Nat) (f : WStore → WStore) : (s.updWs c f).clk = s.clk := rfl
@[simp] theorem State.updWs_groups (s : State) (c : Nat) (f : WStore → WStore) : (s.updWs c f).groups = s.groups := rfl
@[simp] theorem State.updWs_steps (s : State) (c : Nat) (f : WStore → WStore) : (s.updWs c f).steps = s.steps := rfl
@[simp] theorem State.updWs_images (s : State) (c : Nat) (f : WStore → WStore) : (s.updWs c f).images = s.images := rfl
@[simp] theorem State.updWs_parts (s : State) (c : Nat) (f : WStore → WStore) : (s.updWs c f).parts = s.parts := rfl
@[simp] theorem State.updWs_enabled (s : State) (c : Nat) (f : WStore → WStore) : (s.updWs c f).enabled = s.enabled := rfl
@[simp] theorem State.updWs_passThrough (s : State) (c : Nat) (f : WStore → WStore) : (s.updWs c f).passThrough = s.passThrough := rfl
@[simp] theorem State.updWs_pageGens (s : State) (c : Nat) (f : WStore → WStore) : (s.updWs c f).pageGens = s.pageGens := rfl
@[simp] theorem State.updWs_funcs (s : State) (c : Nat) (f : WStore → WStore) : (s.updWs c f).funcs = s.funcs := rfl
@[simp] theorem State.updWs_station (s : State) (c : Nat) (f : WStore → WStore) : (s.updWs c f).station = s.station := rfl
@[simp] theorem State.updWs_faultLog (s : State) (c : Nat) (f : WStore → WStore) : (s.updWs c f).faultLog = s.faultLog := rfl
@[simp] theorem State.updWs_faultCount (s : State) (c : Nat) (f : WStore → WStore) : (s.updWs c f).faultCount = s.faultCount := rfl
@[simp] theorem State.updWs_kdq (s : State) (c : Nat) (f : WStore → WStore) : (s.updWs c f).kdq = s.kdq := rfl
@[simp] theorem State.updWs_dbg (s : State) (c : Nat) (f : WStore → WStore) : (s.updWs c f).dbg = s.dbg := rfl
@[simp] theorem State.updWs_dir (s : State) (c : Nat) (f : WStore → WStore) : (s.updWs c f).dir = s.dir := rfl
@[simp] theorem State.updWs_readback (s : State) (c : Nat) (f : WStore → WStore) : (s.updWs c f).readback = s.readback := rfl
@[simp] theorem State.updWs_hazards (s : State) (c : Nat) (f : WStore → WStore) : (s.updWs c f).hazards = s.hazards := rfl
@[simp] theorem State.updWs_trace (s : State) (c : Nat) (f : WStore → WStore) : (s.updWs c f).trace = s.trace := rfl
@[simp] theorem State.updWs_mesh (s : State) (c : Nat) (f : WStore → WStore) : (s.updWs c f).mesh = s.mesh := rfl
@[simp] theorem State.updWs_fabric (s : State) (c : Nat) (f : WStore → WStore) : (s.updWs c f).fabric = s.fabric := rfl
@[simp] theorem State.updWs_routes (s : State) (c : Nat) (f : WStore → WStore) : (s.updWs c f).routes = s.routes := rfl
@[simp] theorem State.updWs_unroutable (s : State) (c : Nat) (f : WStore → WStore) : (s.updWs c f).unroutable = s.unroutable := rfl
@[simp] theorem State.updWs_notices (s : State) (c : Nat) (f : WStore → WStore) : (s.updWs c f).notices = s.notices := rfl
@[simp] theorem State.updWs_ports (s : State) (c : Nat) (f : WStore → WStore) : (s.updWs c f).ports = s.ports := rfl
@[simp] theorem State.updWs_lasers (s : State) (c : Nat) (f : WStore → WStore) : (s.updWs c f).lasers = s.lasers := rfl
@[simp] theorem State.updWs_net (s : State) (c : Nat) (f : WStore → WStore) : (s.updWs c f).net = s.net := rfl
@[simp] theorem State.updWs_sec (s : State) (c : Nat) (f : WStore → WStore) : (s.updWs c f).sec = s.sec := rfl
@[simp] theorem State.updWs_maint (s : State) (c : Nat) (f : WStore → WStore) : (s.updWs c f).maint = s.maint := rfl
@[simp] theorem State.updWs_power (s : State) (c : Nat) (f : WStore → WStore) : (s.updWs c f).power = s.power := rfl
@[simp] theorem State.updWs_sync (s : State) (c : Nat) (f : WStore → WStore) : (s.updWs c f).sync = s.sync := rfl
@[simp] theorem State.updWs_pkg (s : State) (c : Nat) (f : WStore → WStore) : (s.updWs c f).pkg = s.pkg := rfl
@[simp] theorem State.updWs_meshFaults (s : State) (c : Nat) (f : WStore → WStore) : (s.updWs c f).meshFaults = s.meshFaults := rfl
@[simp] theorem State.updWs_clockFaults (s : State) (c : Nat) (f : WStore → WStore) : (s.updWs c f).clockFaults = s.clockFaults := rfl
@[simp] theorem State.updWs_out (s : State) (c : Nat) (f : WStore → WStore) : (s.updWs c f).out = s.out := rfl

/-! ### updXfer -/

@[simp] theorem State.updXfer_pending (s : State) (c : Nat) (f : Xfer → Xfer) : (s.updXfer c f).pending = s.pending := rfl
@[simp] theorem State.updXfer_free (s : State) (c : Nat) (f : Xfer → Xfer) : (s.updXfer c f).free = s.free := rfl
@[simp] theorem State.updXfer_landings (s : State) (c : Nat) (f : Xfer → Xfer) : (s.updXfer c f).landings = s.landings := rfl
@[simp] theorem State.updXfer_clk (s : State) (c : Nat) (f : Xfer → Xfer) : (s.updXfer c f).clk = s.clk := rfl
@[simp] theorem State.updXfer_groups (s : State) (c : Nat) (f : Xfer → Xfer) : (s.updXfer c f).groups = s.groups := rfl
@[simp] theorem State.updXfer_steps (s : State) (c : Nat) (f : Xfer → Xfer) : (s.updXfer c f).steps = s.steps := rfl
@[simp] theorem State.updXfer_images (s : State) (c : Nat) (f : Xfer → Xfer) : (s.updXfer c f).images = s.images := rfl
@[simp] theorem State.updXfer_parts (s : State) (c : Nat) (f : Xfer → Xfer) : (s.updXfer c f).parts = s.parts := rfl
@[simp] theorem State.updXfer_enabled (s : State) (c : Nat) (f : Xfer → Xfer) : (s.updXfer c f).enabled = s.enabled := rfl
@[simp] theorem State.updXfer_passThrough (s : State) (c : Nat) (f : Xfer → Xfer) : (s.updXfer c f).passThrough = s.passThrough := rfl
@[simp] theorem State.updXfer_pageGens (s : State) (c : Nat) (f : Xfer → Xfer) : (s.updXfer c f).pageGens = s.pageGens := rfl
@[simp] theorem State.updXfer_funcs (s : State) (c : Nat) (f : Xfer → Xfer) : (s.updXfer c f).funcs = s.funcs := rfl
@[simp] theorem State.updXfer_station (s : State) (c : Nat) (f : Xfer → Xfer) : (s.updXfer c f).station = s.station := rfl
@[simp] theorem State.updXfer_faultLog (s : State) (c : Nat) (f : Xfer → Xfer) : (s.updXfer c f).faultLog = s.faultLog := rfl
@[simp] theorem State.updXfer_faultCount (s : State) (c : Nat) (f : Xfer → Xfer) : (s.updXfer c f).faultCount = s.faultCount := rfl
@[simp] theorem State.updXfer_kdq (s : State) (c : Nat) (f : Xfer → Xfer) : (s.updXfer c f).kdq = s.kdq := rfl
@[simp] theorem State.updXfer_dbg (s : State) (c : Nat) (f : Xfer → Xfer) : (s.updXfer c f).dbg = s.dbg := rfl
@[simp] theorem State.updXfer_dir (s : State) (c : Nat) (f : Xfer → Xfer) : (s.updXfer c f).dir = s.dir := rfl
@[simp] theorem State.updXfer_readback (s : State) (c : Nat) (f : Xfer → Xfer) : (s.updXfer c f).readback = s.readback := rfl
@[simp] theorem State.updXfer_hazards (s : State) (c : Nat) (f : Xfer → Xfer) : (s.updXfer c f).hazards = s.hazards := rfl
@[simp] theorem State.updXfer_trace (s : State) (c : Nat) (f : Xfer → Xfer) : (s.updXfer c f).trace = s.trace := rfl
@[simp] theorem State.updXfer_mesh (s : State) (c : Nat) (f : Xfer → Xfer) : (s.updXfer c f).mesh = s.mesh := rfl
@[simp] theorem State.updXfer_fabric (s : State) (c : Nat) (f : Xfer → Xfer) : (s.updXfer c f).fabric = s.fabric := rfl
@[simp] theorem State.updXfer_routes (s : State) (c : Nat) (f : Xfer → Xfer) : (s.updXfer c f).routes = s.routes := rfl
@[simp] theorem State.updXfer_unroutable (s : State) (c : Nat) (f : Xfer → Xfer) : (s.updXfer c f).unroutable = s.unroutable := rfl
@[simp] theorem State.updXfer_notices (s : State) (c : Nat) (f : Xfer → Xfer) : (s.updXfer c f).notices = s.notices := rfl
@[simp] theorem State.updXfer_ports (s : State) (c : Nat) (f : Xfer → Xfer) : (s.updXfer c f).ports = s.ports := rfl
@[simp] theorem State.updXfer_lasers (s : State) (c : Nat) (f : Xfer → Xfer) : (s.updXfer c f).lasers = s.lasers := rfl
@[simp] theorem State.updXfer_net (s : State) (c : Nat) (f : Xfer → Xfer) : (s.updXfer c f).net = s.net := rfl
@[simp] theorem State.updXfer_sec (s : State) (c : Nat) (f : Xfer → Xfer) : (s.updXfer c f).sec = s.sec := rfl
@[simp] theorem State.updXfer_maint (s : State) (c : Nat) (f : Xfer → Xfer) : (s.updXfer c f).maint = s.maint := rfl
@[simp] theorem State.updXfer_power (s : State) (c : Nat) (f : Xfer → Xfer) : (s.updXfer c f).power = s.power := rfl
@[simp] theorem State.updXfer_sync (s : State) (c : Nat) (f : Xfer → Xfer) : (s.updXfer c f).sync = s.sync := rfl
@[simp] theorem State.updXfer_pkg (s : State) (c : Nat) (f : Xfer → Xfer) : (s.updXfer c f).pkg = s.pkg := rfl
@[simp] theorem State.updXfer_meshFaults (s : State) (c : Nat) (f : Xfer → Xfer) : (s.updXfer c f).meshFaults = s.meshFaults := rfl
@[simp] theorem State.updXfer_clockFaults (s : State) (c : Nat) (f : Xfer → Xfer) : (s.updXfer c f).clockFaults = s.clockFaults := rfl
@[simp] theorem State.updXfer_out (s : State) (c : Nat) (f : Xfer → Xfer) : (s.updXfer c f).out = s.out := rfl

/-! ### updDet -/

@[simp] theorem State.updDet_pending (s : State) (c : Nat) (f : Detect → Detect) : (s.updDet c f).pending = s.pending := rfl
@[simp] theorem State.updDet_free (s : State) (c : Nat) (f : Detect → Detect) : (s.updDet c f).free = s.free := rfl
@[simp] theorem State.updDet_landings (s : State) (c : Nat) (f : Detect → Detect) : (s.updDet c f).landings = s.landings := rfl
@[simp] theorem State.updDet_clk (s : State) (c : Nat) (f : Detect → Detect) : (s.updDet c f).clk = s.clk := rfl
@[simp] theorem State.updDet_groups (s : State) (c : Nat) (f : Detect → Detect) : (s.updDet c f).groups = s.groups := rfl
@[simp] theorem State.updDet_steps (s : State) (c : Nat) (f : Detect → Detect) : (s.updDet c f).steps = s.steps := rfl
@[simp] theorem State.updDet_images (s : State) (c : Nat) (f : Detect → Detect) : (s.updDet c f).images = s.images := rfl
@[simp] theorem State.updDet_parts (s : State) (c : Nat) (f : Detect → Detect) : (s.updDet c f).parts = s.parts := rfl
@[simp] theorem State.updDet_enabled (s : State) (c : Nat) (f : Detect → Detect) : (s.updDet c f).enabled = s.enabled := rfl
@[simp] theorem State.updDet_passThrough (s : State) (c : Nat) (f : Detect → Detect) : (s.updDet c f).passThrough = s.passThrough := rfl
@[simp] theorem State.updDet_pageGens (s : State) (c : Nat) (f : Detect → Detect) : (s.updDet c f).pageGens = s.pageGens := rfl
@[simp] theorem State.updDet_funcs (s : State) (c : Nat) (f : Detect → Detect) : (s.updDet c f).funcs = s.funcs := rfl
@[simp] theorem State.updDet_station (s : State) (c : Nat) (f : Detect → Detect) : (s.updDet c f).station = s.station := rfl
@[simp] theorem State.updDet_faultLog (s : State) (c : Nat) (f : Detect → Detect) : (s.updDet c f).faultLog = s.faultLog := rfl
@[simp] theorem State.updDet_faultCount (s : State) (c : Nat) (f : Detect → Detect) : (s.updDet c f).faultCount = s.faultCount := rfl
@[simp] theorem State.updDet_kdq (s : State) (c : Nat) (f : Detect → Detect) : (s.updDet c f).kdq = s.kdq := rfl
@[simp] theorem State.updDet_dbg (s : State) (c : Nat) (f : Detect → Detect) : (s.updDet c f).dbg = s.dbg := rfl
@[simp] theorem State.updDet_dir (s : State) (c : Nat) (f : Detect → Detect) : (s.updDet c f).dir = s.dir := rfl
@[simp] theorem State.updDet_readback (s : State) (c : Nat) (f : Detect → Detect) : (s.updDet c f).readback = s.readback := rfl
@[simp] theorem State.updDet_hazards (s : State) (c : Nat) (f : Detect → Detect) : (s.updDet c f).hazards = s.hazards := rfl
@[simp] theorem State.updDet_trace (s : State) (c : Nat) (f : Detect → Detect) : (s.updDet c f).trace = s.trace := rfl
@[simp] theorem State.updDet_mesh (s : State) (c : Nat) (f : Detect → Detect) : (s.updDet c f).mesh = s.mesh := rfl
@[simp] theorem State.updDet_fabric (s : State) (c : Nat) (f : Detect → Detect) : (s.updDet c f).fabric = s.fabric := rfl
@[simp] theorem State.updDet_routes (s : State) (c : Nat) (f : Detect → Detect) : (s.updDet c f).routes = s.routes := rfl
@[simp] theorem State.updDet_unroutable (s : State) (c : Nat) (f : Detect → Detect) : (s.updDet c f).unroutable = s.unroutable := rfl
@[simp] theorem State.updDet_notices (s : State) (c : Nat) (f : Detect → Detect) : (s.updDet c f).notices = s.notices := rfl
@[simp] theorem State.updDet_ports (s : State) (c : Nat) (f : Detect → Detect) : (s.updDet c f).ports = s.ports := rfl
@[simp] theorem State.updDet_lasers (s : State) (c : Nat) (f : Detect → Detect) : (s.updDet c f).lasers = s.lasers := rfl
@[simp] theorem State.updDet_net (s : State) (c : Nat) (f : Detect → Detect) : (s.updDet c f).net = s.net := rfl
@[simp] theorem State.updDet_sec (s : State) (c : Nat) (f : Detect → Detect) : (s.updDet c f).sec = s.sec := rfl
@[simp] theorem State.updDet_maint (s : State) (c : Nat) (f : Detect → Detect) : (s.updDet c f).maint = s.maint := rfl
@[simp] theorem State.updDet_power (s : State) (c : Nat) (f : Detect → Detect) : (s.updDet c f).power = s.power := rfl
@[simp] theorem State.updDet_sync (s : State) (c : Nat) (f : Detect → Detect) : (s.updDet c f).sync = s.sync := rfl
@[simp] theorem State.updDet_pkg (s : State) (c : Nat) (f : Detect → Detect) : (s.updDet c f).pkg = s.pkg := rfl
@[simp] theorem State.updDet_meshFaults (s : State) (c : Nat) (f : Detect → Detect) : (s.updDet c f).meshFaults = s.meshFaults := rfl
@[simp] theorem State.updDet_clockFaults (s : State) (c : Nat) (f : Detect → Detect) : (s.updDet c f).clockFaults = s.clockFaults := rfl
@[simp] theorem State.updDet_out (s : State) (c : Nat) (f : Detect → Detect) : (s.updDet c f).out = s.out := rfl

/-! ### land -/

@[simp] theorem State.land_pending (s : State) (k p c : Nat) (e : LandEff) : (s.land k p c e).pending = s.pending := rfl
@[simp] theorem State.land_free (s : State) (k p c : Nat) (e : LandEff) : (s.land k p c e).free = s.free := rfl
@[simp] theorem State.land_cores (s : State) (k p c : Nat) (e : LandEff) : (s.land k p c e).cores = s.cores := rfl
@[simp] theorem State.land_clk (s : State) (k p c : Nat) (e : LandEff) : (s.land k p c e).clk = s.clk := rfl
@[simp] theorem State.land_groups (s : State) (k p c : Nat) (e : LandEff) : (s.land k p c e).groups = s.groups := rfl
@[simp] theorem State.land_steps (s : State) (k p c : Nat) (e : LandEff) : (s.land k p c e).steps = s.steps := rfl
@[simp] theorem State.land_images (s : State) (k p c : Nat) (e : LandEff) : (s.land k p c e).images = s.images := rfl
@[simp] theorem State.land_parts (s : State) (k p c : Nat) (e : LandEff) : (s.land k p c e).parts = s.parts := rfl
@[simp] theorem State.land_enabled (s : State) (k p c : Nat) (e : LandEff) : (s.land k p c e).enabled = s.enabled := rfl
@[simp] theorem State.land_passThrough (s : State) (k p c : Nat) (e : LandEff) : (s.land k p c e).passThrough = s.passThrough := rfl
@[simp] theorem State.land_pageGens (s : State) (k p c : Nat) (e : LandEff) : (s.land k p c e).pageGens = s.pageGens := rfl
@[simp] theorem State.land_funcs (s : State) (k p c : Nat) (e : LandEff) : (s.land k p c e).funcs = s.funcs := rfl
@[simp] theorem State.land_station (s : State) (k p c : Nat) (e : LandEff) : (s.land k p c e).station = s.station := rfl
@[simp] theorem State.land_faultLog (s : State) (k p c : Nat) (e : LandEff) : (s.land k p c e).faultLog = s.faultLog := rfl
@[simp] theorem State.land_faultCount (s : State) (k p c : Nat) (e : LandEff) : (s.land k p c e).faultCount = s.faultCount := rfl
@[simp] theorem State.land_kdq (s : State) (k p c : Nat) (e : LandEff) : (s.land k p c e).kdq = s.kdq := rfl
@[simp] theorem State.land_dbg (s : State) (k p c : Nat) (e : LandEff) : (s.land k p c e).dbg = s.dbg := rfl
@[simp] theorem State.land_dir (s : State) (k p c : Nat) (e : LandEff) : (s.land k p c e).dir = s.dir := rfl
@[simp] theorem State.land_readback (s : State) (k p c : Nat) (e : LandEff) : (s.land k p c e).readback = s.readback := rfl
@[simp] theorem State.land_hazards (s : State) (k p c : Nat) (e : LandEff) : (s.land k p c e).hazards = s.hazards := rfl
@[simp] theorem State.land_trace (s : State) (k p c : Nat) (e : LandEff) : (s.land k p c e).trace = s.trace := rfl
@[simp] theorem State.land_mesh (s : State) (k p c : Nat) (e : LandEff) : (s.land k p c e).mesh = s.mesh := rfl
@[simp] theorem State.land_fabric (s : State) (k p c : Nat) (e : LandEff) : (s.land k p c e).fabric = s.fabric := rfl
@[simp] theorem State.land_routes (s : State) (k p c : Nat) (e : LandEff) : (s.land k p c e).routes = s.routes := rfl
@[simp] theorem State.land_unroutable (s : State) (k p c : Nat) (e : LandEff) : (s.land k p c e).unroutable = s.unroutable := rfl
@[simp] theorem State.land_notices (s : State) (k p c : Nat) (e : LandEff) : (s.land k p c e).notices = s.notices := rfl
@[simp] theorem State.land_ports (s : State) (k p c : Nat) (e : LandEff) : (s.land k p c e).ports = s.ports := rfl
@[simp] theorem State.land_lasers (s : State) (k p c : Nat) (e : LandEff) : (s.land k p c e).lasers = s.lasers := rfl
@[simp] theorem State.land_net (s : State) (k p c : Nat) (e : LandEff) : (s.land k p c e).net = s.net := rfl
@[simp] theorem State.land_sec (s : State) (k p c : Nat) (e : LandEff) : (s.land k p c e).sec = s.sec := rfl
@[simp] theorem State.land_maint (s : State) (k p c : Nat) (e : LandEff) : (s.land k p c e).maint = s.maint := rfl
@[simp] theorem State.land_power (s : State) (k p c : Nat) (e : LandEff) : (s.land k p c e).power = s.power := rfl
@[simp] theorem State.land_sync (s : State) (k p c : Nat) (e : LandEff) : (s.land k p c e).sync = s.sync := rfl
@[simp] theorem State.land_pkg (s : State) (k p c : Nat) (e : LandEff) : (s.land k p c e).pkg = s.pkg := rfl
@[simp] theorem State.land_meshFaults (s : State) (k p c : Nat) (e : LandEff) : (s.land k p c e).meshFaults = s.meshFaults := rfl
@[simp] theorem State.land_clockFaults (s : State) (k p c : Nat) (e : LandEff) : (s.land k p c e).clockFaults = s.clockFaults := rfl
@[simp] theorem State.land_out (s : State) (k p c : Nat) (e : LandEff) : (s.land k p c e).out = s.out := rfl

/-! ### landEnd -/

@[simp] theorem State.landEnd_pending (s : State) (t p c : Nat) (e : LandEff) : (s.landEnd t p c e).pending = s.pending := rfl
@[simp] theorem State.landEnd_free (s : State) (t p c : Nat) (e : LandEff) : (s.landEnd t p c e).free = s.free := rfl
@[simp] theorem State.landEnd_cores (s : State) (t p c : Nat) (e : LandEff) : (s.landEnd t p c e).cores = s.cores := rfl
@[simp] theorem State.landEnd_clk (s : State) (t p c : Nat) (e : LandEff) : (s.landEnd t p c e).clk = s.clk := rfl
@[simp] theorem State.landEnd_groups (s : State) (t p c : Nat) (e : LandEff) : (s.landEnd t p c e).groups = s.groups := rfl
@[simp] theorem State.landEnd_steps (s : State) (t p c : Nat) (e : LandEff) : (s.landEnd t p c e).steps = s.steps := rfl
@[simp] theorem State.landEnd_images (s : State) (t p c : Nat) (e : LandEff) : (s.landEnd t p c e).images = s.images := rfl
@[simp] theorem State.landEnd_parts (s : State) (t p c : Nat) (e : LandEff) : (s.landEnd t p c e).parts = s.parts := rfl
@[simp] theorem State.landEnd_enabled (s : State) (t p c : Nat) (e : LandEff) : (s.landEnd t p c e).enabled = s.enabled := rfl
@[simp] theorem State.landEnd_passThrough (s : State) (t p c : Nat) (e : LandEff) : (s.landEnd t p c e).passThrough = s.passThrough := rfl
@[simp] theorem State.landEnd_pageGens (s : State) (t p c : Nat) (e : LandEff) : (s.landEnd t p c e).pageGens = s.pageGens := rfl
@[simp] theorem State.landEnd_funcs (s : State) (t p c : Nat) (e : LandEff) : (s.landEnd t p c e).funcs = s.funcs := rfl
@[simp] theorem State.landEnd_station (s : State) (t p c : Nat) (e : LandEff) : (s.landEnd t p c e).station = s.station := rfl
@[simp] theorem State.landEnd_faultLog (s : State) (t p c : Nat) (e : LandEff) : (s.landEnd t p c e).faultLog = s.faultLog := rfl
@[simp] theorem State.landEnd_faultCount (s : State) (t p c : Nat) (e : LandEff) : (s.landEnd t p c e).faultCount = s.faultCount := rfl
@[simp] theorem State.landEnd_kdq (s : State) (t p c : Nat) (e : LandEff) : (s.landEnd t p c e).kdq = s.kdq := rfl
@[simp] theorem State.landEnd_dbg (s : State) (t p c : Nat) (e : LandEff) : (s.landEnd t p c e).dbg = s.dbg := rfl
@[simp] theorem State.landEnd_dir (s : State) (t p c : Nat) (e : LandEff) : (s.landEnd t p c e).dir = s.dir := rfl
@[simp] theorem State.landEnd_readback (s : State) (t p c : Nat) (e : LandEff) : (s.landEnd t p c e).readback = s.readback := rfl
@[simp] theorem State.landEnd_hazards (s : State) (t p c : Nat) (e : LandEff) : (s.landEnd t p c e).hazards = s.hazards := rfl
@[simp] theorem State.landEnd_trace (s : State) (t p c : Nat) (e : LandEff) : (s.landEnd t p c e).trace = s.trace := rfl
@[simp] theorem State.landEnd_mesh (s : State) (t p c : Nat) (e : LandEff) : (s.landEnd t p c e).mesh = s.mesh := rfl
@[simp] theorem State.landEnd_fabric (s : State) (t p c : Nat) (e : LandEff) : (s.landEnd t p c e).fabric = s.fabric := rfl
@[simp] theorem State.landEnd_routes (s : State) (t p c : Nat) (e : LandEff) : (s.landEnd t p c e).routes = s.routes := rfl
@[simp] theorem State.landEnd_unroutable (s : State) (t p c : Nat) (e : LandEff) : (s.landEnd t p c e).unroutable = s.unroutable := rfl
@[simp] theorem State.landEnd_notices (s : State) (t p c : Nat) (e : LandEff) : (s.landEnd t p c e).notices = s.notices := rfl
@[simp] theorem State.landEnd_ports (s : State) (t p c : Nat) (e : LandEff) : (s.landEnd t p c e).ports = s.ports := rfl
@[simp] theorem State.landEnd_lasers (s : State) (t p c : Nat) (e : LandEff) : (s.landEnd t p c e).lasers = s.lasers := rfl
@[simp] theorem State.landEnd_net (s : State) (t p c : Nat) (e : LandEff) : (s.landEnd t p c e).net = s.net := rfl
@[simp] theorem State.landEnd_sec (s : State) (t p c : Nat) (e : LandEff) : (s.landEnd t p c e).sec = s.sec := rfl
@[simp] theorem State.landEnd_maint (s : State) (t p c : Nat) (e : LandEff) : (s.landEnd t p c e).maint = s.maint := rfl
@[simp] theorem State.landEnd_power (s : State) (t p c : Nat) (e : LandEff) : (s.landEnd t p c e).power = s.power := rfl
@[simp] theorem State.landEnd_sync (s : State) (t p c : Nat) (e : LandEff) : (s.landEnd t p c e).sync = s.sync := rfl
@[simp] theorem State.landEnd_pkg (s : State) (t p c : Nat) (e : LandEff) : (s.landEnd t p c e).pkg = s.pkg := rfl
@[simp] theorem State.landEnd_meshFaults (s : State) (t p c : Nat) (e : LandEff) : (s.landEnd t p c e).meshFaults = s.meshFaults := rfl
@[simp] theorem State.landEnd_clockFaults (s : State) (t p c : Nat) (e : LandEff) : (s.landEnd t p c e).clockFaults = s.clockFaults := rfl
@[simp] theorem State.landEnd_out (s : State) (t p c : Nat) (e : LandEff) : (s.landEnd t p c e).out = s.out := rfl

/-! ### landStart -/

@[simp] theorem State.landStart_pending (s : State) (t p c : Nat) (e : LandEff) : (s.landStart t p c e).pending = s.pending := rfl
@[simp] theorem State.landStart_free (s : State) (t p c : Nat) (e : LandEff) : (s.landStart t p c e).free = s.free := rfl
@[simp] theorem State.landStart_cores (s : State) (t p c : Nat) (e : LandEff) : (s.landStart t p c e).cores = s.cores := rfl
@[simp] theorem State.landStart_clk (s : State) (t p c : Nat) (e : LandEff) : (s.landStart t p c e).clk = s.clk := rfl
@[simp] theorem State.landStart_groups (s : State) (t p c : Nat) (e : LandEff) : (s.landStart t p c e).groups = s.groups := rfl
@[simp] theorem State.landStart_steps (s : State) (t p c : Nat) (e : LandEff) : (s.landStart t p c e).steps = s.steps := rfl
@[simp] theorem State.landStart_images (s : State) (t p c : Nat) (e : LandEff) : (s.landStart t p c e).images = s.images := rfl
@[simp] theorem State.landStart_parts (s : State) (t p c : Nat) (e : LandEff) : (s.landStart t p c e).parts = s.parts := rfl
@[simp] theorem State.landStart_enabled (s : State) (t p c : Nat) (e : LandEff) : (s.landStart t p c e).enabled = s.enabled := rfl
@[simp] theorem State.landStart_passThrough (s : State) (t p c : Nat) (e : LandEff) : (s.landStart t p c e).passThrough = s.passThrough := rfl
@[simp] theorem State.landStart_pageGens (s : State) (t p c : Nat) (e : LandEff) : (s.landStart t p c e).pageGens = s.pageGens := rfl
@[simp] theorem State.landStart_funcs (s : State) (t p c : Nat) (e : LandEff) : (s.landStart t p c e).funcs = s.funcs := rfl
@[simp] theorem State.landStart_station (s : State) (t p c : Nat) (e : LandEff) : (s.landStart t p c e).station = s.station := rfl
@[simp] theorem State.landStart_faultLog (s : State) (t p c : Nat) (e : LandEff) : (s.landStart t p c e).faultLog = s.faultLog := rfl
@[simp] theorem State.landStart_faultCount (s : State) (t p c : Nat) (e : LandEff) : (s.landStart t p c e).faultCount = s.faultCount := rfl
@[simp] theorem State.landStart_kdq (s : State) (t p c : Nat) (e : LandEff) : (s.landStart t p c e).kdq = s.kdq := rfl
@[simp] theorem State.landStart_dbg (s : State) (t p c : Nat) (e : LandEff) : (s.landStart t p c e).dbg = s.dbg := rfl
@[simp] theorem State.landStart_dir (s : State) (t p c : Nat) (e : LandEff) : (s.landStart t p c e).dir = s.dir := rfl
@[simp] theorem State.landStart_readback (s : State) (t p c : Nat) (e : LandEff) : (s.landStart t p c e).readback = s.readback := rfl
@[simp] theorem State.landStart_hazards (s : State) (t p c : Nat) (e : LandEff) : (s.landStart t p c e).hazards = s.hazards := rfl
@[simp] theorem State.landStart_trace (s : State) (t p c : Nat) (e : LandEff) : (s.landStart t p c e).trace = s.trace := rfl
@[simp] theorem State.landStart_mesh (s : State) (t p c : Nat) (e : LandEff) : (s.landStart t p c e).mesh = s.mesh := rfl
@[simp] theorem State.landStart_fabric (s : State) (t p c : Nat) (e : LandEff) : (s.landStart t p c e).fabric = s.fabric := rfl
@[simp] theorem State.landStart_routes (s : State) (t p c : Nat) (e : LandEff) : (s.landStart t p c e).routes = s.routes := rfl
@[simp] theorem State.landStart_unroutable (s : State) (t p c : Nat) (e : LandEff) : (s.landStart t p c e).unroutable = s.unroutable := rfl
@[simp] theorem State.landStart_notices (s : State) (t p c : Nat) (e : LandEff) : (s.landStart t p c e).notices = s.notices := rfl
@[simp] theorem State.landStart_ports (s : State) (t p c : Nat) (e : LandEff) : (s.landStart t p c e).ports = s.ports := rfl
@[simp] theorem State.landStart_lasers (s : State) (t p c : Nat) (e : LandEff) : (s.landStart t p c e).lasers = s.lasers := rfl
@[simp] theorem State.landStart_net (s : State) (t p c : Nat) (e : LandEff) : (s.landStart t p c e).net = s.net := rfl
@[simp] theorem State.landStart_sec (s : State) (t p c : Nat) (e : LandEff) : (s.landStart t p c e).sec = s.sec := rfl
@[simp] theorem State.landStart_maint (s : State) (t p c : Nat) (e : LandEff) : (s.landStart t p c e).maint = s.maint := rfl
@[simp] theorem State.landStart_power (s : State) (t p c : Nat) (e : LandEff) : (s.landStart t p c e).power = s.power := rfl
@[simp] theorem State.landStart_sync (s : State) (t p c : Nat) (e : LandEff) : (s.landStart t p c e).sync = s.sync := rfl
@[simp] theorem State.landStart_pkg (s : State) (t p c : Nat) (e : LandEff) : (s.landStart t p c e).pkg = s.pkg := rfl
@[simp] theorem State.landStart_meshFaults (s : State) (t p c : Nat) (e : LandEff) : (s.landStart t p c e).meshFaults = s.meshFaults := rfl
@[simp] theorem State.landStart_clockFaults (s : State) (t p c : Nat) (e : LandEff) : (s.landStart t p c e).clockFaults = s.clockFaults := rfl
@[simp] theorem State.landStart_out (s : State) (t p c : Nat) (e : LandEff) : (s.landStart t p c e).out = s.out := rfl

/-! ### updGroup -/

@[simp] theorem State.updGroup_pending (s : State) (g : Nat) (f : Group → Group) : (s.updGroup g f).pending = s.pending := rfl
@[simp] theorem State.updGroup_free (s : State) (g : Nat) (f : Group → Group) : (s.updGroup g f).free = s.free := rfl
@[simp] theorem State.updGroup_landings (s : State) (g : Nat) (f : Group → Group) : (s.updGroup g f).landings = s.landings := rfl
@[simp] theorem State.updGroup_cores (s : State) (g : Nat) (f : Group → Group) : (s.updGroup g f).cores = s.cores := rfl
@[simp] theorem State.updGroup_clk (s : State) (g : Nat) (f : Group → Group) : (s.updGroup g f).clk = s.clk := rfl
@[simp] theorem State.updGroup_steps (s : State) (g : Nat) (f : Group → Group) : (s.updGroup g f).steps = s.steps := rfl
@[simp] theorem State.updGroup_images (s : State) (g : Nat) (f : Group → Group) : (s.updGroup g f).images = s.images := rfl
@[simp] theorem State.updGroup_parts (s : State) (g : Nat) (f : Group → Group) : (s.updGroup g f).parts = s.parts := rfl
@[simp] theorem State.updGroup_enabled (s : State) (g : Nat) (f : Group → Group) : (s.updGroup g f).enabled = s.enabled := rfl
@[simp] theorem State.updGroup_passThrough (s : State) (g : Nat) (f : Group → Group) : (s.updGroup g f).passThrough = s.passThrough := rfl
@[simp] theorem State.updGroup_pageGens (s : State) (g : Nat) (f : Group → Group) : (s.updGroup g f).pageGens = s.pageGens := rfl
@[simp] theorem State.updGroup_funcs (s : State) (g : Nat) (f : Group → Group) : (s.updGroup g f).funcs = s.funcs := rfl
@[simp] theorem State.updGroup_station (s : State) (g : Nat) (f : Group → Group) : (s.updGroup g f).station = s.station := rfl
@[simp] theorem State.updGroup_faultLog (s : State) (g : Nat) (f : Group → Group) : (s.updGroup g f).faultLog = s.faultLog := rfl
@[simp] theorem State.updGroup_faultCount (s : State) (g : Nat) (f : Group → Group) : (s.updGroup g f).faultCount = s.faultCount := rfl
@[simp] theorem State.updGroup_kdq (s : State) (g : Nat) (f : Group → Group) : (s.updGroup g f).kdq = s.kdq := rfl
@[simp] theorem State.updGroup_dbg (s : State) (g : Nat) (f : Group → Group) : (s.updGroup g f).dbg = s.dbg := rfl
@[simp] theorem State.updGroup_dir (s : State) (g : Nat) (f : Group → Group) : (s.updGroup g f).dir = s.dir := rfl
@[simp] theorem State.updGroup_readback (s : State) (g : Nat) (f : Group → Group) : (s.updGroup g f).readback = s.readback := rfl
@[simp] theorem State.updGroup_hazards (s : State) (g : Nat) (f : Group → Group) : (s.updGroup g f).hazards = s.hazards := rfl
@[simp] theorem State.updGroup_trace (s : State) (g : Nat) (f : Group → Group) : (s.updGroup g f).trace = s.trace := rfl
@[simp] theorem State.updGroup_mesh (s : State) (g : Nat) (f : Group → Group) : (s.updGroup g f).mesh = s.mesh := rfl
@[simp] theorem State.updGroup_fabric (s : State) (g : Nat) (f : Group → Group) : (s.updGroup g f).fabric = s.fabric := rfl
@[simp] theorem State.updGroup_routes (s : State) (g : Nat) (f : Group → Group) : (s.updGroup g f).routes = s.routes := rfl
@[simp] theorem State.updGroup_unroutable (s : State) (g : Nat) (f : Group → Group) : (s.updGroup g f).unroutable = s.unroutable := rfl
@[simp] theorem State.updGroup_notices (s : State) (g : Nat) (f : Group → Group) : (s.updGroup g f).notices = s.notices := rfl
@[simp] theorem State.updGroup_ports (s : State) (g : Nat) (f : Group → Group) : (s.updGroup g f).ports = s.ports := rfl
@[simp] theorem State.updGroup_lasers (s : State) (g : Nat) (f : Group → Group) : (s.updGroup g f).lasers = s.lasers := rfl
@[simp] theorem State.updGroup_net (s : State) (g : Nat) (f : Group → Group) : (s.updGroup g f).net = s.net := rfl
@[simp] theorem State.updGroup_sec (s : State) (g : Nat) (f : Group → Group) : (s.updGroup g f).sec = s.sec := rfl
@[simp] theorem State.updGroup_maint (s : State) (g : Nat) (f : Group → Group) : (s.updGroup g f).maint = s.maint := rfl
@[simp] theorem State.updGroup_power (s : State) (g : Nat) (f : Group → Group) : (s.updGroup g f).power = s.power := rfl
@[simp] theorem State.updGroup_sync (s : State) (g : Nat) (f : Group → Group) : (s.updGroup g f).sync = s.sync := rfl
@[simp] theorem State.updGroup_pkg (s : State) (g : Nat) (f : Group → Group) : (s.updGroup g f).pkg = s.pkg := rfl
@[simp] theorem State.updGroup_meshFaults (s : State) (g : Nat) (f : Group → Group) : (s.updGroup g f).meshFaults = s.meshFaults := rfl
@[simp] theorem State.updGroup_clockFaults (s : State) (g : Nat) (f : Group → Group) : (s.updGroup g f).clockFaults = s.clockFaults := rfl
@[simp] theorem State.updGroup_out (s : State) (g : Nat) (f : Group → Group) : (s.updGroup g f).out = s.out := rfl

/-! ### updStep -/

@[simp] theorem State.updStep_pending (s : State) (g : Nat) (f : StepRun → StepRun) : (s.updStep g f).pending = s.pending := rfl
@[simp] theorem State.updStep_free (s : State) (g : Nat) (f : StepRun → StepRun) : (s.updStep g f).free = s.free := rfl
@[simp] theorem State.updStep_landings (s : State) (g : Nat) (f : StepRun → StepRun) : (s.updStep g f).landings = s.landings := rfl
@[simp] theorem State.updStep_cores (s : State) (g : Nat) (f : StepRun → StepRun) : (s.updStep g f).cores = s.cores := rfl
@[simp] theorem State.updStep_clk (s : State) (g : Nat) (f : StepRun → StepRun) : (s.updStep g f).clk = s.clk := rfl
@[simp] theorem State.updStep_groups (s : State) (g : Nat) (f : StepRun → StepRun) : (s.updStep g f).groups = s.groups := rfl
@[simp] theorem State.updStep_images (s : State) (g : Nat) (f : StepRun → StepRun) : (s.updStep g f).images = s.images := rfl
@[simp] theorem State.updStep_parts (s : State) (g : Nat) (f : StepRun → StepRun) : (s.updStep g f).parts = s.parts := rfl
@[simp] theorem State.updStep_enabled (s : State) (g : Nat) (f : StepRun → StepRun) : (s.updStep g f).enabled = s.enabled := rfl
@[simp] theorem State.updStep_passThrough (s : State) (g : Nat) (f : StepRun → StepRun) : (s.updStep g f).passThrough = s.passThrough := rfl
@[simp] theorem State.updStep_pageGens (s : State) (g : Nat) (f : StepRun → StepRun) : (s.updStep g f).pageGens = s.pageGens := rfl
@[simp] theorem State.updStep_funcs (s : State) (g : Nat) (f : StepRun → StepRun) : (s.updStep g f).funcs = s.funcs := rfl
@[simp] theorem State.updStep_station (s : State) (g : Nat) (f : StepRun → StepRun) : (s.updStep g f).station = s.station := rfl
@[simp] theorem State.updStep_faultLog (s : State) (g : Nat) (f : StepRun → StepRun) : (s.updStep g f).faultLog = s.faultLog := rfl
@[simp] theorem State.updStep_faultCount (s : State) (g : Nat) (f : StepRun → StepRun) : (s.updStep g f).faultCount = s.faultCount := rfl
@[simp] theorem State.updStep_kdq (s : State) (g : Nat) (f : StepRun → StepRun) : (s.updStep g f).kdq = s.kdq := rfl
@[simp] theorem State.updStep_dbg (s : State) (g : Nat) (f : StepRun → StepRun) : (s.updStep g f).dbg = s.dbg := rfl
@[simp] theorem State.updStep_dir (s : State) (g : Nat) (f : StepRun → StepRun) : (s.updStep g f).dir = s.dir := rfl
@[simp] theorem State.updStep_readback (s : State) (g : Nat) (f : StepRun → StepRun) : (s.updStep g f).readback = s.readback := rfl
@[simp] theorem State.updStep_hazards (s : State) (g : Nat) (f : StepRun → StepRun) : (s.updStep g f).hazards = s.hazards := rfl
@[simp] theorem State.updStep_trace (s : State) (g : Nat) (f : StepRun → StepRun) : (s.updStep g f).trace = s.trace := rfl
@[simp] theorem State.updStep_mesh (s : State) (g : Nat) (f : StepRun → StepRun) : (s.updStep g f).mesh = s.mesh := rfl
@[simp] theorem State.updStep_fabric (s : State) (g : Nat) (f : StepRun → StepRun) : (s.updStep g f).fabric = s.fabric := rfl
@[simp] theorem State.updStep_routes (s : State) (g : Nat) (f : StepRun → StepRun) : (s.updStep g f).routes = s.routes := rfl
@[simp] theorem State.updStep_unroutable (s : State) (g : Nat) (f : StepRun → StepRun) : (s.updStep g f).unroutable = s.unroutable := rfl
@[simp] theorem State.updStep_notices (s : State) (g : Nat) (f : StepRun → StepRun) : (s.updStep g f).notices = s.notices := rfl
@[simp] theorem State.updStep_ports (s : State) (g : Nat) (f : StepRun → StepRun) : (s.updStep g f).ports = s.ports := rfl
@[simp] theorem State.updStep_lasers (s : State) (g : Nat) (f : StepRun → StepRun) : (s.updStep g f).lasers = s.lasers := rfl
@[simp] theorem State.updStep_net (s : State) (g : Nat) (f : StepRun → StepRun) : (s.updStep g f).net = s.net := rfl
@[simp] theorem State.updStep_sec (s : State) (g : Nat) (f : StepRun → StepRun) : (s.updStep g f).sec = s.sec := rfl
@[simp] theorem State.updStep_maint (s : State) (g : Nat) (f : StepRun → StepRun) : (s.updStep g f).maint = s.maint := rfl
@[simp] theorem State.updStep_power (s : State) (g : Nat) (f : StepRun → StepRun) : (s.updStep g f).power = s.power := rfl
@[simp] theorem State.updStep_sync (s : State) (g : Nat) (f : StepRun → StepRun) : (s.updStep g f).sync = s.sync := rfl
@[simp] theorem State.updStep_pkg (s : State) (g : Nat) (f : StepRun → StepRun) : (s.updStep g f).pkg = s.pkg := rfl
@[simp] theorem State.updStep_meshFaults (s : State) (g : Nat) (f : StepRun → StepRun) : (s.updStep g f).meshFaults = s.meshFaults := rfl
@[simp] theorem State.updStep_clockFaults (s : State) (g : Nat) (f : StepRun → StepRun) : (s.updStep g f).clockFaults = s.clockFaults := rfl
@[simp] theorem State.updStep_out (s : State) (g : Nat) (f : StepRun → StepRun) : (s.updStep g f).out = s.out := rfl

/-! ### updServe -/

@[simp] theorem State.updServe_pending (s : State) (g : Nat) (f : Serve → Serve) : (s.updServe g f).pending = s.pending := rfl
@[simp] theorem State.updServe_free (s : State) (g : Nat) (f : Serve → Serve) : (s.updServe g f).free = s.free := rfl
@[simp] theorem State.updServe_landings (s : State) (g : Nat) (f : Serve → Serve) : (s.updServe g f).landings = s.landings := rfl
@[simp] theorem State.updServe_cores (s : State) (g : Nat) (f : Serve → Serve) : (s.updServe g f).cores = s.cores := rfl
@[simp] theorem State.updServe_clk (s : State) (g : Nat) (f : Serve → Serve) : (s.updServe g f).clk = s.clk := rfl
@[simp] theorem State.updServe_steps (s : State) (g : Nat) (f : Serve → Serve) : (s.updServe g f).steps = s.steps := rfl
@[simp] theorem State.updServe_images (s : State) (g : Nat) (f : Serve → Serve) : (s.updServe g f).images = s.images := rfl
@[simp] theorem State.updServe_parts (s : State) (g : Nat) (f : Serve → Serve) : (s.updServe g f).parts = s.parts := rfl
@[simp] theorem State.updServe_enabled (s : State) (g : Nat) (f : Serve → Serve) : (s.updServe g f).enabled = s.enabled := rfl
@[simp] theorem State.updServe_passThrough (s : State) (g : Nat) (f : Serve → Serve) : (s.updServe g f).passThrough = s.passThrough := rfl
@[simp] theorem State.updServe_pageGens (s : State) (g : Nat) (f : Serve → Serve) : (s.updServe g f).pageGens = s.pageGens := rfl
@[simp] theorem State.updServe_funcs (s : State) (g : Nat) (f : Serve → Serve) : (s.updServe g f).funcs = s.funcs := rfl
@[simp] theorem State.updServe_station (s : State) (g : Nat) (f : Serve → Serve) : (s.updServe g f).station = s.station := rfl
@[simp] theorem State.updServe_faultLog (s : State) (g : Nat) (f : Serve → Serve) : (s.updServe g f).faultLog = s.faultLog := rfl
@[simp] theorem State.updServe_faultCount (s : State) (g : Nat) (f : Serve → Serve) : (s.updServe g f).faultCount = s.faultCount := rfl
@[simp] theorem State.updServe_kdq (s : State) (g : Nat) (f : Serve → Serve) : (s.updServe g f).kdq = s.kdq := rfl
@[simp] theorem State.updServe_dbg (s : State) (g : Nat) (f : Serve → Serve) : (s.updServe g f).dbg = s.dbg := rfl
@[simp] theorem State.updServe_dir (s : State) (g : Nat) (f : Serve → Serve) : (s.updServe g f).dir = s.dir := rfl
@[simp] theorem State.updServe_readback (s : State) (g : Nat) (f : Serve → Serve) : (s.updServe g f).readback = s.readback := rfl
@[simp] theorem State.updServe_hazards (s : State) (g : Nat) (f : Serve → Serve) : (s.updServe g f).hazards = s.hazards := rfl
@[simp] theorem State.updServe_trace (s : State) (g : Nat) (f : Serve → Serve) : (s.updServe g f).trace = s.trace := rfl
@[simp] theorem State.updServe_mesh (s : State) (g : Nat) (f : Serve → Serve) : (s.updServe g f).mesh = s.mesh := rfl
@[simp] theorem State.updServe_fabric (s : State) (g : Nat) (f : Serve → Serve) : (s.updServe g f).fabric = s.fabric := rfl
@[simp] theorem State.updServe_routes (s : State) (g : Nat) (f : Serve → Serve) : (s.updServe g f).routes = s.routes := rfl
@[simp] theorem State.updServe_unroutable (s : State) (g : Nat) (f : Serve → Serve) : (s.updServe g f).unroutable = s.unroutable := rfl
@[simp] theorem State.updServe_notices (s : State) (g : Nat) (f : Serve → Serve) : (s.updServe g f).notices = s.notices := rfl
@[simp] theorem State.updServe_ports (s : State) (g : Nat) (f : Serve → Serve) : (s.updServe g f).ports = s.ports := rfl
@[simp] theorem State.updServe_lasers (s : State) (g : Nat) (f : Serve → Serve) : (s.updServe g f).lasers = s.lasers := rfl
@[simp] theorem State.updServe_net (s : State) (g : Nat) (f : Serve → Serve) : (s.updServe g f).net = s.net := rfl
@[simp] theorem State.updServe_sec (s : State) (g : Nat) (f : Serve → Serve) : (s.updServe g f).sec = s.sec := rfl
@[simp] theorem State.updServe_maint (s : State) (g : Nat) (f : Serve → Serve) : (s.updServe g f).maint = s.maint := rfl
@[simp] theorem State.updServe_power (s : State) (g : Nat) (f : Serve → Serve) : (s.updServe g f).power = s.power := rfl
@[simp] theorem State.updServe_sync (s : State) (g : Nat) (f : Serve → Serve) : (s.updServe g f).sync = s.sync := rfl
@[simp] theorem State.updServe_pkg (s : State) (g : Nat) (f : Serve → Serve) : (s.updServe g f).pkg = s.pkg := rfl
@[simp] theorem State.updServe_meshFaults (s : State) (g : Nat) (f : Serve → Serve) : (s.updServe g f).meshFaults = s.meshFaults := rfl
@[simp] theorem State.updServe_clockFaults (s : State) (g : Nat) (f : Serve → Serve) : (s.updServe g f).clockFaults = s.clockFaults := rfl
@[simp] theorem State.updServe_out (s : State) (g : Nat) (f : Serve → Serve) : (s.updServe g f).out = s.out := rfl

/-! ### updSwap -/

@[simp] theorem State.updSwap_pending (s : State) (g : Nat) (f : Swap → Swap) : (s.updSwap g f).pending = s.pending := rfl
@[simp] theorem State.updSwap_free (s : State) (g : Nat) (f : Swap → Swap) : (s.updSwap g f).free = s.free := rfl
@[simp] theorem State.updSwap_landings (s : State) (g : Nat) (f : Swap → Swap) : (s.updSwap g f).landings = s.landings := rfl
@[simp] theorem State.updSwap_cores (s : State) (g : Nat) (f : Swap → Swap) : (s.updSwap g f).cores = s.cores := rfl
@[simp] theorem State.updSwap_clk (s : State) (g : Nat) (f : Swap → Swap) : (s.updSwap g f).clk = s.clk := rfl
@[simp] theorem State.updSwap_steps (s : State) (g : Nat) (f : Swap → Swap) : (s.updSwap g f).steps = s.steps := rfl
@[simp] theorem State.updSwap_images (s : State) (g : Nat) (f : Swap → Swap) : (s.updSwap g f).images = s.images := rfl
@[simp] theorem State.updSwap_parts (s : State) (g : Nat) (f : Swap → Swap) : (s.updSwap g f).parts = s.parts := rfl
@[simp] theorem State.updSwap_enabled (s : State) (g : Nat) (f : Swap → Swap) : (s.updSwap g f).enabled = s.enabled := rfl
@[simp] theorem State.updSwap_passThrough (s : State) (g : Nat) (f : Swap → Swap) : (s.updSwap g f).passThrough = s.passThrough := rfl
@[simp] theorem State.updSwap_pageGens (s : State) (g : Nat) (f : Swap → Swap) : (s.updSwap g f).pageGens = s.pageGens := rfl
@[simp] theorem State.updSwap_funcs (s : State) (g : Nat) (f : Swap → Swap) : (s.updSwap g f).funcs = s.funcs := rfl
@[simp] theorem State.updSwap_station (s : State) (g : Nat) (f : Swap → Swap) : (s.updSwap g f).station = s.station := rfl
@[simp] theorem State.updSwap_faultLog (s : State) (g : Nat) (f : Swap → Swap) : (s.updSwap g f).faultLog = s.faultLog := rfl
@[simp] theorem State.updSwap_faultCount (s : State) (g : Nat) (f : Swap → Swap) : (s.updSwap g f).faultCount = s.faultCount := rfl
@[simp] theorem State.updSwap_kdq (s : State) (g : Nat) (f : Swap → Swap) : (s.updSwap g f).kdq = s.kdq := rfl
@[simp] theorem State.updSwap_dbg (s : State) (g : Nat) (f : Swap → Swap) : (s.updSwap g f).dbg = s.dbg := rfl
@[simp] theorem State.updSwap_dir (s : State) (g : Nat) (f : Swap → Swap) : (s.updSwap g f).dir = s.dir := rfl
@[simp] theorem State.updSwap_readback (s : State) (g : Nat) (f : Swap → Swap) : (s.updSwap g f).readback = s.readback := rfl
@[simp] theorem State.updSwap_hazards (s : State) (g : Nat) (f : Swap → Swap) : (s.updSwap g f).hazards = s.hazards := rfl
@[simp] theorem State.updSwap_trace (s : State) (g : Nat) (f : Swap → Swap) : (s.updSwap g f).trace = s.trace := rfl
@[simp] theorem State.updSwap_mesh (s : State) (g : Nat) (f : Swap → Swap) : (s.updSwap g f).mesh = s.mesh := rfl
@[simp] theorem State.updSwap_fabric (s : State) (g : Nat) (f : Swap → Swap) : (s.updSwap g f).fabric = s.fabric := rfl
@[simp] theorem State.updSwap_routes (s : State) (g : Nat) (f : Swap → Swap) : (s.updSwap g f).routes = s.routes := rfl
@[simp] theorem State.updSwap_unroutable (s : State) (g : Nat) (f : Swap → Swap) : (s.updSwap g f).unroutable = s.unroutable := rfl
@[simp] theorem State.updSwap_notices (s : State) (g : Nat) (f : Swap → Swap) : (s.updSwap g f).notices = s.notices := rfl
@[simp] theorem State.updSwap_ports (s : State) (g : Nat) (f : Swap → Swap) : (s.updSwap g f).ports = s.ports := rfl
@[simp] theorem State.updSwap_lasers (s : State) (g : Nat) (f : Swap → Swap) : (s.updSwap g f).lasers = s.lasers := rfl
@[simp] theorem State.updSwap_net (s : State) (g : Nat) (f : Swap → Swap) : (s.updSwap g f).net = s.net := rfl
@[simp] theorem State.updSwap_sec (s : State) (g : Nat) (f : Swap → Swap) : (s.updSwap g f).sec = s.sec := rfl
@[simp] theorem State.updSwap_maint (s : State) (g : Nat) (f : Swap → Swap) : (s.updSwap g f).maint = s.maint := rfl
@[simp] theorem State.updSwap_power (s : State) (g : Nat) (f : Swap → Swap) : (s.updSwap g f).power = s.power := rfl
@[simp] theorem State.updSwap_sync (s : State) (g : Nat) (f : Swap → Swap) : (s.updSwap g f).sync = s.sync := rfl
@[simp] theorem State.updSwap_pkg (s : State) (g : Nat) (f : Swap → Swap) : (s.updSwap g f).pkg = s.pkg := rfl
@[simp] theorem State.updSwap_meshFaults (s : State) (g : Nat) (f : Swap → Swap) : (s.updSwap g f).meshFaults = s.meshFaults := rfl
@[simp] theorem State.updSwap_clockFaults (s : State) (g : Nat) (f : Swap → Swap) : (s.updSwap g f).clockFaults = s.clockFaults := rfl
@[simp] theorem State.updSwap_out (s : State) (g : Nat) (f : Swap → Swap) : (s.updSwap g f).out = s.out := rfl

/-! ### updFunc -/

@[simp] theorem State.updFunc_pending (s : State) (n : Nat) (f : Func → Func) : (s.updFunc n f).pending = s.pending := rfl
@[simp] theorem State.updFunc_free (s : State) (n : Nat) (f : Func → Func) : (s.updFunc n f).free = s.free := rfl
@[simp] theorem State.updFunc_landings (s : State) (n : Nat) (f : Func → Func) : (s.updFunc n f).landings = s.landings := rfl
@[simp] theorem State.updFunc_cores (s : State) (n : Nat) (f : Func → Func) : (s.updFunc n f).cores = s.cores := rfl
@[simp] theorem State.updFunc_clk (s : State) (n : Nat) (f : Func → Func) : (s.updFunc n f).clk = s.clk := rfl
@[simp] theorem State.updFunc_groups (s : State) (n : Nat) (f : Func → Func) : (s.updFunc n f).groups = s.groups := rfl
@[simp] theorem State.updFunc_steps (s : State) (n : Nat) (f : Func → Func) : (s.updFunc n f).steps = s.steps := rfl
@[simp] theorem State.updFunc_images (s : State) (n : Nat) (f : Func → Func) : (s.updFunc n f).images = s.images := rfl
@[simp] theorem State.updFunc_parts (s : State) (n : Nat) (f : Func → Func) : (s.updFunc n f).parts = s.parts := rfl
@[simp] theorem State.updFunc_enabled (s : State) (n : Nat) (f : Func → Func) : (s.updFunc n f).enabled = s.enabled := rfl
@[simp] theorem State.updFunc_passThrough (s : State) (n : Nat) (f : Func → Func) : (s.updFunc n f).passThrough = s.passThrough := rfl
@[simp] theorem State.updFunc_pageGens (s : State) (n : Nat) (f : Func → Func) : (s.updFunc n f).pageGens = s.pageGens := rfl
@[simp] theorem State.updFunc_station (s : State) (n : Nat) (f : Func → Func) : (s.updFunc n f).station = s.station := rfl
@[simp] theorem State.updFunc_faultLog (s : State) (n : Nat) (f : Func → Func) : (s.updFunc n f).faultLog = s.faultLog := rfl
@[simp] theorem State.updFunc_faultCount (s : State) (n : Nat) (f : Func → Func) : (s.updFunc n f).faultCount = s.faultCount := rfl
@[simp] theorem State.updFunc_kdq (s : State) (n : Nat) (f : Func → Func) : (s.updFunc n f).kdq = s.kdq := rfl
@[simp] theorem State.updFunc_dbg (s : State) (n : Nat) (f : Func → Func) : (s.updFunc n f).dbg = s.dbg := rfl
@[simp] theorem State.updFunc_dir (s : State) (n : Nat) (f : Func → Func) : (s.updFunc n f).dir = s.dir := rfl
@[simp] theorem State.updFunc_readback (s : State) (n : Nat) (f : Func → Func) : (s.updFunc n f).readback = s.readback := rfl
@[simp] theorem State.updFunc_hazards (s : State) (n : Nat) (f : Func → Func) : (s.updFunc n f).hazards = s.hazards := rfl
@[simp] theorem State.updFunc_trace (s : State) (n : Nat) (f : Func → Func) : (s.updFunc n f).trace = s.trace := rfl
@[simp] theorem State.updFunc_mesh (s : State) (n : Nat) (f : Func → Func) : (s.updFunc n f).mesh = s.mesh := rfl
@[simp] theorem State.updFunc_fabric (s : State) (n : Nat) (f : Func → Func) : (s.updFunc n f).fabric = s.fabric := rfl
@[simp] theorem State.updFunc_routes (s : State) (n : Nat) (f : Func → Func) : (s.updFunc n f).routes = s.routes := rfl
@[simp] theorem State.updFunc_unroutable (s : State) (n : Nat) (f : Func → Func) : (s.updFunc n f).unroutable = s.unroutable := rfl
@[simp] theorem State.updFunc_notices (s : State) (n : Nat) (f : Func → Func) : (s.updFunc n f).notices = s.notices := rfl
@[simp] theorem State.updFunc_ports (s : State) (n : Nat) (f : Func → Func) : (s.updFunc n f).ports = s.ports := rfl
@[simp] theorem State.updFunc_lasers (s : State) (n : Nat) (f : Func → Func) : (s.updFunc n f).lasers = s.lasers := rfl
@[simp] theorem State.updFunc_net (s : State) (n : Nat) (f : Func → Func) : (s.updFunc n f).net = s.net := rfl
@[simp] theorem State.updFunc_sec (s : State) (n : Nat) (f : Func → Func) : (s.updFunc n f).sec = s.sec := rfl
@[simp] theorem State.updFunc_maint (s : State) (n : Nat) (f : Func → Func) : (s.updFunc n f).maint = s.maint := rfl
@[simp] theorem State.updFunc_power (s : State) (n : Nat) (f : Func → Func) : (s.updFunc n f).power = s.power := rfl
@[simp] theorem State.updFunc_sync (s : State) (n : Nat) (f : Func → Func) : (s.updFunc n f).sync = s.sync := rfl
@[simp] theorem State.updFunc_pkg (s : State) (n : Nat) (f : Func → Func) : (s.updFunc n f).pkg = s.pkg := rfl
@[simp] theorem State.updFunc_meshFaults (s : State) (n : Nat) (f : Func → Func) : (s.updFunc n f).meshFaults = s.meshFaults := rfl
@[simp] theorem State.updFunc_clockFaults (s : State) (n : Nat) (f : Func → Func) : (s.updFunc n f).clockFaults = s.clockFaults := rfl
@[simp] theorem State.updFunc_out (s : State) (n : Nat) (f : Func → Func) : (s.updFunc n f).out = s.out := rfl

/-! ### updPort -/

@[simp] theorem State.updPort_pending (s : State) (p : Nat) (f : Port → Port) : (s.updPort p f).pending = s.pending := rfl
@[simp] theorem State.updPort_free (s : State) (p : Nat) (f : Port → Port) : (s.updPort p f).free = s.free := rfl
@[simp] theorem State.updPort_landings (s : State) (p : Nat) (f : Port → Port) : (s.updPort p f).landings = s.landings := rfl
@[simp] theorem State.updPort_cores (s : State) (p : Nat) (f : Port → Port) : (s.updPort p f).cores = s.cores := rfl
@[simp] theorem State.updPort_clk (s : State) (p : Nat) (f : Port → Port) : (s.updPort p f).clk = s.clk := rfl
@[simp] theorem State.updPort_groups (s : State) (p : Nat) (f : Port → Port) : (s.updPort p f).groups = s.groups := rfl
@[simp] theorem State.updPort_steps (s : State) (p : Nat) (f : Port → Port) : (s.updPort p f).steps = s.steps := rfl
@[simp] theorem State.updPort_images (s : State) (p : Nat) (f : Port → Port) : (s.updPort p f).images = s.images := rfl
@[simp] theorem State.updPort_parts (s : State) (p : Nat) (f : Port → Port) : (s.updPort p f).parts = s.parts := rfl
@[simp] theorem State.updPort_enabled (s : State) (p : Nat) (f : Port → Port) : (s.updPort p f).enabled = s.enabled := rfl
@[simp] theorem State.updPort_passThrough (s : State) (p : Nat) (f : Port → Port) : (s.updPort p f).passThrough = s.passThrough := rfl
@[simp] theorem State.updPort_pageGens (s : State) (p : Nat) (f : Port → Port) : (s.updPort p f).pageGens = s.pageGens := rfl
@[simp] theorem State.updPort_funcs (s : State) (p : Nat) (f : Port → Port) : (s.updPort p f).funcs = s.funcs := rfl
@[simp] theorem State.updPort_station (s : State) (p : Nat) (f : Port → Port) : (s.updPort p f).station = s.station := rfl
@[simp] theorem State.updPort_faultLog (s : State) (p : Nat) (f : Port → Port) : (s.updPort p f).faultLog = s.faultLog := rfl
@[simp] theorem State.updPort_faultCount (s : State) (p : Nat) (f : Port → Port) : (s.updPort p f).faultCount = s.faultCount := rfl
@[simp] theorem State.updPort_kdq (s : State) (p : Nat) (f : Port → Port) : (s.updPort p f).kdq = s.kdq := rfl
@[simp] theorem State.updPort_dbg (s : State) (p : Nat) (f : Port → Port) : (s.updPort p f).dbg = s.dbg := rfl
@[simp] theorem State.updPort_dir (s : State) (p : Nat) (f : Port → Port) : (s.updPort p f).dir = s.dir := rfl
@[simp] theorem State.updPort_readback (s : State) (p : Nat) (f : Port → Port) : (s.updPort p f).readback = s.readback := rfl
@[simp] theorem State.updPort_hazards (s : State) (p : Nat) (f : Port → Port) : (s.updPort p f).hazards = s.hazards := rfl
@[simp] theorem State.updPort_trace (s : State) (p : Nat) (f : Port → Port) : (s.updPort p f).trace = s.trace := rfl
@[simp] theorem State.updPort_mesh (s : State) (p : Nat) (f : Port → Port) : (s.updPort p f).mesh = s.mesh := rfl
@[simp] theorem State.updPort_fabric (s : State) (p : Nat) (f : Port → Port) : (s.updPort p f).fabric = s.fabric := rfl
@[simp] theorem State.updPort_routes (s : State) (p : Nat) (f : Port → Port) : (s.updPort p f).routes = s.routes := rfl
@[simp] theorem State.updPort_unroutable (s : State) (p : Nat) (f : Port → Port) : (s.updPort p f).unroutable = s.unroutable := rfl
@[simp] theorem State.updPort_notices (s : State) (p : Nat) (f : Port → Port) : (s.updPort p f).notices = s.notices := rfl
@[simp] theorem State.updPort_lasers (s : State) (p : Nat) (f : Port → Port) : (s.updPort p f).lasers = s.lasers := rfl
@[simp] theorem State.updPort_net (s : State) (p : Nat) (f : Port → Port) : (s.updPort p f).net = s.net := rfl
@[simp] theorem State.updPort_sec (s : State) (p : Nat) (f : Port → Port) : (s.updPort p f).sec = s.sec := rfl
@[simp] theorem State.updPort_maint (s : State) (p : Nat) (f : Port → Port) : (s.updPort p f).maint = s.maint := rfl
@[simp] theorem State.updPort_power (s : State) (p : Nat) (f : Port → Port) : (s.updPort p f).power = s.power := rfl
@[simp] theorem State.updPort_sync (s : State) (p : Nat) (f : Port → Port) : (s.updPort p f).sync = s.sync := rfl
@[simp] theorem State.updPort_pkg (s : State) (p : Nat) (f : Port → Port) : (s.updPort p f).pkg = s.pkg := rfl
@[simp] theorem State.updPort_meshFaults (s : State) (p : Nat) (f : Port → Port) : (s.updPort p f).meshFaults = s.meshFaults := rfl
@[simp] theorem State.updPort_clockFaults (s : State) (p : Nat) (f : Port → Port) : (s.updPort p f).clockFaults = s.clockFaults := rfl
@[simp] theorem State.updPort_out (s : State) (p : Nat) (f : Port → Port) : (s.updPort p f).out = s.out := rfl

/-! ### updPart -/

@[simp] theorem State.updPart_pending (s : State) (p : Nat) (f : Part → Part) : (s.updPart p f).pending = s.pending := rfl
@[simp] theorem State.updPart_free (s : State) (p : Nat) (f : Part → Part) : (s.updPart p f).free = s.free := rfl
@[simp] theorem State.updPart_landings (s : State) (p : Nat) (f : Part → Part) : (s.updPart p f).landings = s.landings := rfl
@[simp] theorem State.updPart_cores (s : State) (p : Nat) (f : Part → Part) : (s.updPart p f).cores = s.cores := rfl
@[simp] theorem State.updPart_clk (s : State) (p : Nat) (f : Part → Part) : (s.updPart p f).clk = s.clk := rfl
@[simp] theorem State.updPart_groups (s : State) (p : Nat) (f : Part → Part) : (s.updPart p f).groups = s.groups := rfl
@[simp] theorem State.updPart_steps (s : State) (p : Nat) (f : Part → Part) : (s.updPart p f).steps = s.steps := rfl
@[simp] theorem State.updPart_images (s : State) (p : Nat) (f : Part → Part) : (s.updPart p f).images = s.images := rfl
@[simp] theorem State.updPart_enabled (s : State) (p : Nat) (f : Part → Part) : (s.updPart p f).enabled = s.enabled := rfl
@[simp] theorem State.updPart_passThrough (s : State) (p : Nat) (f : Part → Part) : (s.updPart p f).passThrough = s.passThrough := rfl
@[simp] theorem State.updPart_pageGens (s : State) (p : Nat) (f : Part → Part) : (s.updPart p f).pageGens = s.pageGens := rfl
@[simp] theorem State.updPart_funcs (s : State) (p : Nat) (f : Part → Part) : (s.updPart p f).funcs = s.funcs := rfl
@[simp] theorem State.updPart_station (s : State) (p : Nat) (f : Part → Part) : (s.updPart p f).station = s.station := rfl
@[simp] theorem State.updPart_faultLog (s : State) (p : Nat) (f : Part → Part) : (s.updPart p f).faultLog = s.faultLog := rfl
@[simp] theorem State.updPart_faultCount (s : State) (p : Nat) (f : Part → Part) : (s.updPart p f).faultCount = s.faultCount := rfl
@[simp] theorem State.updPart_kdq (s : State) (p : Nat) (f : Part → Part) : (s.updPart p f).kdq = s.kdq := rfl
@[simp] theorem State.updPart_dbg (s : State) (p : Nat) (f : Part → Part) : (s.updPart p f).dbg = s.dbg := rfl
@[simp] theorem State.updPart_dir (s : State) (p : Nat) (f : Part → Part) : (s.updPart p f).dir = s.dir := rfl
@[simp] theorem State.updPart_readback (s : State) (p : Nat) (f : Part → Part) : (s.updPart p f).readback = s.readback := rfl
@[simp] theorem State.updPart_hazards (s : State) (p : Nat) (f : Part → Part) : (s.updPart p f).hazards = s.hazards := rfl
@[simp] theorem State.updPart_trace (s : State) (p : Nat) (f : Part → Part) : (s.updPart p f).trace = s.trace := rfl
@[simp] theorem State.updPart_mesh (s : State) (p : Nat) (f : Part → Part) : (s.updPart p f).mesh = s.mesh := rfl
@[simp] theorem State.updPart_fabric (s : State) (p : Nat) (f : Part → Part) : (s.updPart p f).fabric = s.fabric := rfl
@[simp] theorem State.updPart_routes (s : State) (p : Nat) (f : Part → Part) : (s.updPart p f).routes = s.routes := rfl
@[simp] theorem State.updPart_unroutable (s : State) (p : Nat) (f : Part → Part) : (s.updPart p f).unroutable = s.unroutable := rfl
@[simp] theorem State.updPart_notices (s : State) (p : Nat) (f : Part → Part) : (s.updPart p f).notices = s.notices := rfl
@[simp] theorem State.updPart_ports (s : State) (p : Nat) (f : Part → Part) : (s.updPart p f).ports = s.ports := rfl
@[simp] theorem State.updPart_lasers (s : State) (p : Nat) (f : Part → Part) : (s.updPart p f).lasers = s.lasers := rfl
@[simp] theorem State.updPart_net (s : State) (p : Nat) (f : Part → Part) : (s.updPart p f).net = s.net := rfl
@[simp] theorem State.updPart_sec (s : State) (p : Nat) (f : Part → Part) : (s.updPart p f).sec = s.sec := rfl
@[simp] theorem State.updPart_maint (s : State) (p : Nat) (f : Part → Part) : (s.updPart p f).maint = s.maint := rfl
@[simp] theorem State.updPart_power (s : State) (p : Nat) (f : Part → Part) : (s.updPart p f).power = s.power := rfl
@[simp] theorem State.updPart_sync (s : State) (p : Nat) (f : Part → Part) : (s.updPart p f).sync = s.sync := rfl
@[simp] theorem State.updPart_pkg (s : State) (p : Nat) (f : Part → Part) : (s.updPart p f).pkg = s.pkg := rfl
@[simp] theorem State.updPart_meshFaults (s : State) (p : Nat) (f : Part → Part) : (s.updPart p f).meshFaults = s.meshFaults := rfl
@[simp] theorem State.updPart_clockFaults (s : State) (p : Nat) (f : Part → Part) : (s.updPart p f).clockFaults = s.clockFaults := rfl
@[simp] theorem State.updPart_out (s : State) (p : Nat) (f : Part → Part) : (s.updPart p f).out = s.out := rfl

/-! ### updLaser -/

@[simp] theorem State.updLaser_pending (s : State) (k : Nat) (f : Laser → Laser) : (s.updLaser k f).pending = s.pending := rfl
@[simp] theorem State.updLaser_free (s : State) (k : Nat) (f : Laser → Laser) : (s.updLaser k f).free = s.free := rfl
@[simp] theorem State.updLaser_landings (s : State) (k : Nat) (f : Laser → Laser) : (s.updLaser k f).landings = s.landings := rfl
@[simp] theorem State.updLaser_cores (s : State) (k : Nat) (f : Laser → Laser) : (s.updLaser k f).cores = s.cores := rfl
@[simp] theorem State.updLaser_clk (s : State) (k : Nat) (f : Laser → Laser) : (s.updLaser k f).clk = s.clk := rfl
@[simp] theorem State.updLaser_groups (s : State) (k : Nat) (f : Laser → Laser) : (s.updLaser k f).groups = s.groups := rfl
@[simp] theorem State.updLaser_steps (s : State) (k : Nat) (f : Laser → Laser) : (s.updLaser k f).steps = s.steps := rfl
@[simp] theorem State.updLaser_images (s : State) (k : Nat) (f : Laser → Laser) : (s.updLaser k f).images = s.images := rfl
@[simp] theorem State.updLaser_parts (s : State) (k : Nat) (f : Laser → Laser) : (s.updLaser k f).parts = s.parts := rfl
@[simp] theorem State.updLaser_enabled (s : State) (k : Nat) (f : Laser → Laser) : (s.updLaser k f).enabled = s.enabled := rfl
@[simp] theorem State.updLaser_passThrough (s : State) (k : Nat) (f : Laser → Laser) : (s.updLaser k f).passThrough = s.passThrough := rfl
@[simp] theorem State.updLaser_pageGens (s : State) (k : Nat) (f : Laser → Laser) : (s.updLaser k f).pageGens = s.pageGens := rfl
@[simp] theorem State.updLaser_funcs (s : State) (k : Nat) (f : Laser → Laser) : (s.updLaser k f).funcs = s.funcs := rfl
@[simp] theorem State.updLaser_station (s : State) (k : Nat) (f : Laser → Laser) : (s.updLaser k f).station = s.station := rfl
@[simp] theorem State.updLaser_faultLog (s : State) (k : Nat) (f : Laser → Laser) : (s.updLaser k f).faultLog = s.faultLog := rfl
@[simp] theorem State.updLaser_faultCount (s : State) (k : Nat) (f : Laser → Laser) : (s.updLaser k f).faultCount = s.faultCount := rfl
@[simp] theorem State.updLaser_kdq (s : State) (k : Nat) (f : Laser → Laser) : (s.updLaser k f).kdq = s.kdq := rfl
@[simp] theorem State.updLaser_dbg (s : State) (k : Nat) (f : Laser → Laser) : (s.updLaser k f).dbg = s.dbg := rfl
@[simp] theorem State.updLaser_dir (s : State) (k : Nat) (f : Laser → Laser) : (s.updLaser k f).dir = s.dir := rfl
@[simp] theorem State.updLaser_readback (s : State) (k : Nat) (f : Laser → Laser) : (s.updLaser k f).readback = s.readback := rfl
@[simp] theorem State.updLaser_hazards (s : State) (k : Nat) (f : Laser → Laser) : (s.updLaser k f).hazards = s.hazards := rfl
@[simp] theorem State.updLaser_trace (s : State) (k : Nat) (f : Laser → Laser) : (s.updLaser k f).trace = s.trace := rfl
@[simp] theorem State.updLaser_mesh (s : State) (k : Nat) (f : Laser → Laser) : (s.updLaser k f).mesh = s.mesh := rfl
@[simp] theorem State.updLaser_fabric (s : State) (k : Nat) (f : Laser → Laser) : (s.updLaser k f).fabric = s.fabric := rfl
@[simp] theorem State.updLaser_routes (s : State) (k : Nat) (f : Laser → Laser) : (s.updLaser k f).routes = s.routes := rfl
@[simp] theorem State.updLaser_unroutable (s : State) (k : Nat) (f : Laser → Laser) : (s.updLaser k f).unroutable = s.unroutable := rfl
@[simp] theorem State.updLaser_notices (s : State) (k : Nat) (f : Laser → Laser) : (s.updLaser k f).notices = s.notices := rfl
@[simp] theorem State.updLaser_ports (s : State) (k : Nat) (f : Laser → Laser) : (s.updLaser k f).ports = s.ports := rfl
@[simp] theorem State.updLaser_net (s : State) (k : Nat) (f : Laser → Laser) : (s.updLaser k f).net = s.net := rfl
@[simp] theorem State.updLaser_sec (s : State) (k : Nat) (f : Laser → Laser) : (s.updLaser k f).sec = s.sec := rfl
@[simp] theorem State.updLaser_maint (s : State) (k : Nat) (f : Laser → Laser) : (s.updLaser k f).maint = s.maint := rfl
@[simp] theorem State.updLaser_power (s : State) (k : Nat) (f : Laser → Laser) : (s.updLaser k f).power = s.power := rfl
@[simp] theorem State.updLaser_sync (s : State) (k : Nat) (f : Laser → Laser) : (s.updLaser k f).sync = s.sync := rfl
@[simp] theorem State.updLaser_pkg (s : State) (k : Nat) (f : Laser → Laser) : (s.updLaser k f).pkg = s.pkg := rfl
@[simp] theorem State.updLaser_meshFaults (s : State) (k : Nat) (f : Laser → Laser) : (s.updLaser k f).meshFaults = s.meshFaults := rfl
@[simp] theorem State.updLaser_clockFaults (s : State) (k : Nat) (f : Laser → Laser) : (s.updLaser k f).clockFaults = s.clockFaults := rfl
@[simp] theorem State.updLaser_out (s : State) (k : Nat) (f : Laser → Laser) : (s.updLaser k f).out = s.out := rfl

/-! ### updNet -/

@[simp] theorem State.updNet_pending (s : State) (f : Net → Net) : (s.updNet f).pending = s.pending := rfl
@[simp] theorem State.updNet_free (s : State) (f : Net → Net) : (s.updNet f).free = s.free := rfl
@[simp] theorem State.updNet_landings (s : State) (f : Net → Net) : (s.updNet f).landings = s.landings := rfl
@[simp] theorem State.updNet_cores (s : State) (f : Net → Net) : (s.updNet f).cores = s.cores := rfl
@[simp] theorem State.updNet_clk (s : State) (f : Net → Net) : (s.updNet f).clk = s.clk := rfl
@[simp] theorem State.updNet_groups (s : State) (f : Net → Net) : (s.updNet f).groups = s.groups := rfl
@[simp] theorem State.updNet_steps (s : State) (f : Net → Net) : (s.updNet f).steps = s.steps := rfl
@[simp] theorem State.updNet_images (s : State) (f : Net → Net) : (s.updNet f).images = s.images := rfl
@[simp] theorem State.updNet_parts (s : State) (f : Net → Net) : (s.updNet f).parts = s.parts := rfl
@[simp] theorem State.updNet_enabled (s : State) (f : Net → Net) : (s.updNet f).enabled = s.enabled := rfl
@[simp] theorem State.updNet_passThrough (s : State) (f : Net → Net) : (s.updNet f).passThrough = s.passThrough := rfl
@[simp] theorem State.updNet_pageGens (s : State) (f : Net → Net) : (s.updNet f).pageGens = s.pageGens := rfl
@[simp] theorem State.updNet_funcs (s : State) (f : Net → Net) : (s.updNet f).funcs = s.funcs := rfl
@[simp] theorem State.updNet_station (s : State) (f : Net → Net) : (s.updNet f).station = s.station := rfl
@[simp] theorem State.updNet_faultLog (s : State) (f : Net → Net) : (s.updNet f).faultLog = s.faultLog := rfl
@[simp] theorem State.updNet_faultCount (s : State) (f : Net → Net) : (s.updNet f).faultCount = s.faultCount := rfl
@[simp] theorem State.updNet_kdq (s : State) (f : Net → Net) : (s.updNet f).kdq = s.kdq := rfl
@[simp] theorem State.updNet_dbg (s : State) (f : Net → Net) : (s.updNet f).dbg = s.dbg := rfl
@[simp] theorem State.updNet_dir (s : State) (f : Net → Net) : (s.updNet f).dir = s.dir := rfl
@[simp] theorem State.updNet_readback (s : State) (f : Net → Net) : (s.updNet f).readback = s.readback := rfl
@[simp] theorem State.updNet_hazards (s : State) (f : Net → Net) : (s.updNet f).hazards = s.hazards := rfl
@[simp] theorem State.updNet_trace (s : State) (f : Net → Net) : (s.updNet f).trace = s.trace := rfl
@[simp] theorem State.updNet_mesh (s : State) (f : Net → Net) : (s.updNet f).mesh = s.mesh := rfl
@[simp] theorem State.updNet_fabric (s : State) (f : Net → Net) : (s.updNet f).fabric = s.fabric := rfl
@[simp] theorem State.updNet_routes (s : State) (f : Net → Net) : (s.updNet f).routes = s.routes := rfl
@[simp] theorem State.updNet_unroutable (s : State) (f : Net → Net) : (s.updNet f).unroutable = s.unroutable := rfl
@[simp] theorem State.updNet_notices (s : State) (f : Net → Net) : (s.updNet f).notices = s.notices := rfl
@[simp] theorem State.updNet_ports (s : State) (f : Net → Net) : (s.updNet f).ports = s.ports := rfl
@[simp] theorem State.updNet_lasers (s : State) (f : Net → Net) : (s.updNet f).lasers = s.lasers := rfl
@[simp] theorem State.updNet_sec (s : State) (f : Net → Net) : (s.updNet f).sec = s.sec := rfl
@[simp] theorem State.updNet_maint (s : State) (f : Net → Net) : (s.updNet f).maint = s.maint := rfl
@[simp] theorem State.updNet_power (s : State) (f : Net → Net) : (s.updNet f).power = s.power := rfl
@[simp] theorem State.updNet_sync (s : State) (f : Net → Net) : (s.updNet f).sync = s.sync := rfl
@[simp] theorem State.updNet_pkg (s : State) (f : Net → Net) : (s.updNet f).pkg = s.pkg := rfl
@[simp] theorem State.updNet_meshFaults (s : State) (f : Net → Net) : (s.updNet f).meshFaults = s.meshFaults := rfl
@[simp] theorem State.updNet_clockFaults (s : State) (f : Net → Net) : (s.updNet f).clockFaults = s.clockFaults := rfl
@[simp] theorem State.updNet_out (s : State) (f : Net → Net) : (s.updNet f).out = s.out := rfl

/-! ### updMaint -/

@[simp] theorem State.updMaint_pending (s : State) (f : Maint → Maint) : (s.updMaint f).pending = s.pending := rfl
@[simp] theorem State.updMaint_free (s : State) (f : Maint → Maint) : (s.updMaint f).free = s.free := rfl
@[simp] theorem State.updMaint_landings (s : State) (f : Maint → Maint) : (s.updMaint f).landings = s.landings := rfl
@[simp] theorem State.updMaint_cores (s : State) (f : Maint → Maint) : (s.updMaint f).cores = s.cores := rfl
@[simp] theorem State.updMaint_clk (s : State) (f : Maint → Maint) : (s.updMaint f).clk = s.clk := rfl
@[simp] theorem State.updMaint_groups (s : State) (f : Maint → Maint) : (s.updMaint f).groups = s.groups := rfl
@[simp] theorem State.updMaint_steps (s : State) (f : Maint → Maint) : (s.updMaint f).steps = s.steps := rfl
@[simp] theorem State.updMaint_images (s : State) (f : Maint → Maint) : (s.updMaint f).images = s.images := rfl
@[simp] theorem State.updMaint_parts (s : State) (f : Maint → Maint) : (s.updMaint f).parts = s.parts := rfl
@[simp] theorem State.updMaint_enabled (s : State) (f : Maint → Maint) : (s.updMaint f).enabled = s.enabled := rfl
@[simp] theorem State.updMaint_passThrough (s : State) (f : Maint → Maint) : (s.updMaint f).passThrough = s.passThrough := rfl
@[simp] theorem State.updMaint_pageGens (s : State) (f : Maint → Maint) : (s.updMaint f).pageGens = s.pageGens := rfl
@[simp] theorem State.updMaint_funcs (s : State) (f : Maint → Maint) : (s.updMaint f).funcs = s.funcs := rfl
@[simp] theorem State.updMaint_station (s : State) (f : Maint → Maint) : (s.updMaint f).station = s.station := rfl
@[simp] theorem State.updMaint_faultLog (s : State) (f : Maint → Maint) : (s.updMaint f).faultLog = s.faultLog := rfl
@[simp] theorem State.updMaint_faultCount (s : State) (f : Maint → Maint) : (s.updMaint f).faultCount = s.faultCount := rfl
@[simp] theorem State.updMaint_kdq (s : State) (f : Maint → Maint) : (s.updMaint f).kdq = s.kdq := rfl
@[simp] theorem State.updMaint_dbg (s : State) (f : Maint → Maint) : (s.updMaint f).dbg = s.dbg := rfl
@[simp] theorem State.updMaint_dir (s : State) (f : Maint → Maint) : (s.updMaint f).dir = s.dir := rfl
@[simp] theorem State.updMaint_readback (s : State) (f : Maint → Maint) : (s.updMaint f).readback = s.readback := rfl
@[simp] theorem State.updMaint_hazards (s : State) (f : Maint → Maint) : (s.updMaint f).hazards = s.hazards := rfl
@[simp] theorem State.updMaint_trace (s : State) (f : Maint → Maint) : (s.updMaint f).trace = s.trace := rfl
@[simp] theorem State.updMaint_mesh (s : State) (f : Maint → Maint) : (s.updMaint f).mesh = s.mesh := rfl
@[simp] theorem State.updMaint_fabric (s : State) (f : Maint → Maint) : (s.updMaint f).fabric = s.fabric := rfl
@[simp] theorem State.updMaint_routes (s : State) (f : Maint → Maint) : (s.updMaint f).routes = s.routes := rfl
@[simp] theorem State.updMaint_unroutable (s : State) (f : Maint → Maint) : (s.updMaint f).unroutable = s.unroutable := rfl
@[simp] theorem State.updMaint_notices (s : State) (f : Maint → Maint) : (s.updMaint f).notices = s.notices := rfl
@[simp] theorem State.updMaint_ports (s : State) (f : Maint → Maint) : (s.updMaint f).ports = s.ports := rfl
@[simp] theorem State.updMaint_lasers (s : State) (f : Maint → Maint) : (s.updMaint f).lasers = s.lasers := rfl
@[simp] theorem State.updMaint_net (s : State) (f : Maint → Maint) : (s.updMaint f).net = s.net := rfl
@[simp] theorem State.updMaint_sec (s : State) (f : Maint → Maint) : (s.updMaint f).sec = s.sec := rfl
@[simp] theorem State.updMaint_power (s : State) (f : Maint → Maint) : (s.updMaint f).power = s.power := rfl
@[simp] theorem State.updMaint_sync (s : State) (f : Maint → Maint) : (s.updMaint f).sync = s.sync := rfl
@[simp] theorem State.updMaint_pkg (s : State) (f : Maint → Maint) : (s.updMaint f).pkg = s.pkg := rfl
@[simp] theorem State.updMaint_meshFaults (s : State) (f : Maint → Maint) : (s.updMaint f).meshFaults = s.meshFaults := rfl
@[simp] theorem State.updMaint_clockFaults (s : State) (f : Maint → Maint) : (s.updMaint f).clockFaults = s.clockFaults := rfl
@[simp] theorem State.updMaint_out (s : State) (f : Maint → Maint) : (s.updMaint f).out = s.out := rfl

/-! ### updPower -/

@[simp] theorem State.updPower_pending (s : State) (f : Power → Power) : (s.updPower f).pending = s.pending := rfl
@[simp] theorem State.updPower_free (s : State) (f : Power → Power) : (s.updPower f).free = s.free := rfl
@[simp] theorem State.updPower_landings (s : State) (f : Power → Power) : (s.updPower f).landings = s.landings := rfl
@[simp] theorem State.updPower_cores (s : State) (f : Power → Power) : (s.updPower f).cores = s.cores := rfl
@[simp] theorem State.updPower_clk (s : State) (f : Power → Power) : (s.updPower f).clk = s.clk := rfl
@[simp] theorem State.updPower_groups (s : State) (f : Power → Power) : (s.updPower f).groups = s.groups := rfl
@[simp] theorem State.updPower_steps (s : State) (f : Power → Power) : (s.updPower f).steps = s.steps := rfl
@[simp] theorem State.updPower_images (s : State) (f : Power → Power) : (s.updPower f).images = s.images := rfl
@[simp] theorem State.updPower_parts (s : State) (f : Power → Power) : (s.updPower f).parts = s.parts := rfl
@[simp] theorem State.updPower_enabled (s : State) (f : Power → Power) : (s.updPower f).enabled = s.enabled := rfl
@[simp] theorem State.updPower_passThrough (s : State) (f : Power → Power) : (s.updPower f).passThrough = s.passThrough := rfl
@[simp] theorem State.updPower_pageGens (s : State) (f : Power → Power) : (s.updPower f).pageGens = s.pageGens := rfl
@[simp] theorem State.updPower_funcs (s : State) (f : Power → Power) : (s.updPower f).funcs = s.funcs := rfl
@[simp] theorem State.updPower_station (s : State) (f : Power → Power) : (s.updPower f).station = s.station := rfl
@[simp] theorem State.updPower_faultLog (s : State) (f : Power → Power) : (s.updPower f).faultLog = s.faultLog := rfl
@[simp] theorem State.updPower_faultCount (s : State) (f : Power → Power) : (s.updPower f).faultCount = s.faultCount := rfl
@[simp] theorem State.updPower_kdq (s : State) (f : Power → Power) : (s.updPower f).kdq = s.kdq := rfl
@[simp] theorem State.updPower_dbg (s : State) (f : Power → Power) : (s.updPower f).dbg = s.dbg := rfl
@[simp] theorem State.updPower_dir (s : State) (f : Power → Power) : (s.updPower f).dir = s.dir := rfl
@[simp] theorem State.updPower_readback (s : State) (f : Power → Power) : (s.updPower f).readback = s.readback := rfl
@[simp] theorem State.updPower_hazards (s : State) (f : Power → Power) : (s.updPower f).hazards = s.hazards := rfl
@[simp] theorem State.updPower_trace (s : State) (f : Power → Power) : (s.updPower f).trace = s.trace := rfl
@[simp] theorem State.updPower_mesh (s : State) (f : Power → Power) : (s.updPower f).mesh = s.mesh := rfl
@[simp] theorem State.updPower_fabric (s : State) (f : Power → Power) : (s.updPower f).fabric = s.fabric := rfl
@[simp] theorem State.updPower_routes (s : State) (f : Power → Power) : (s.updPower f).routes = s.routes := rfl
@[simp] theorem State.updPower_unroutable (s : State) (f : Power → Power) : (s.updPower f).unroutable = s.unroutable := rfl
@[simp] theorem State.updPower_notices (s : State) (f : Power → Power) : (s.updPower f).notices = s.notices := rfl
@[simp] theorem State.updPower_ports (s : State) (f : Power → Power) : (s.updPower f).ports = s.ports := rfl
@[simp] theorem State.updPower_lasers (s : State) (f : Power → Power) : (s.updPower f).lasers = s.lasers := rfl
@[simp] theorem State.updPower_net (s : State) (f : Power → Power) : (s.updPower f).net = s.net := rfl
@[simp] theorem State.updPower_sec (s : State) (f : Power → Power) : (s.updPower f).sec = s.sec := rfl
@[simp] theorem State.updPower_maint (s : State) (f : Power → Power) : (s.updPower f).maint = s.maint := rfl
@[simp] theorem State.updPower_sync (s : State) (f : Power → Power) : (s.updPower f).sync = s.sync := rfl
@[simp] theorem State.updPower_pkg (s : State) (f : Power → Power) : (s.updPower f).pkg = s.pkg := rfl
@[simp] theorem State.updPower_meshFaults (s : State) (f : Power → Power) : (s.updPower f).meshFaults = s.meshFaults := rfl
@[simp] theorem State.updPower_clockFaults (s : State) (f : Power → Power) : (s.updPower f).clockFaults = s.clockFaults := rfl
@[simp] theorem State.updPower_out (s : State) (f : Power → Power) : (s.updPower f).out = s.out := rfl

/-! ### updClk -/

@[simp] theorem State.updClk_pending (s : State) (f : Clk → Clk) : (s.updClk f).pending = s.pending := rfl
@[simp] theorem State.updClk_free (s : State) (f : Clk → Clk) : (s.updClk f).free = s.free := rfl
@[simp] theorem State.updClk_landings (s : State) (f : Clk → Clk) : (s.updClk f).landings = s.landings := rfl
@[simp] theorem State.updClk_cores (s : State) (f : Clk → Clk) : (s.updClk f).cores = s.cores := rfl
@[simp] theorem State.updClk_groups (s : State) (f : Clk → Clk) : (s.updClk f).groups = s.groups := rfl
@[simp] theorem State.updClk_steps (s : State) (f : Clk → Clk) : (s.updClk f).steps = s.steps := rfl
@[simp] theorem State.updClk_images (s : State) (f : Clk → Clk) : (s.updClk f).images = s.images := rfl
@[simp] theorem State.updClk_parts (s : State) (f : Clk → Clk) : (s.updClk f).parts = s.parts := rfl
@[simp] theorem State.updClk_enabled (s : State) (f : Clk → Clk) : (s.updClk f).enabled = s.enabled := rfl
@[simp] theorem State.updClk_passThrough (s : State) (f : Clk → Clk) : (s.updClk f).passThrough = s.passThrough := rfl
@[simp] theorem State.updClk_pageGens (s : State) (f : Clk → Clk) : (s.updClk f).pageGens = s.pageGens := rfl
@[simp] theorem State.updClk_funcs (s : State) (f : Clk → Clk) : (s.updClk f).funcs = s.funcs := rfl
@[simp] theorem State.updClk_station (s : State) (f : Clk → Clk) : (s.updClk f).station = s.station := rfl
@[simp] theorem State.updClk_faultLog (s : State) (f : Clk → Clk) : (s.updClk f).faultLog = s.faultLog := rfl
@[simp] theorem State.updClk_faultCount (s : State) (f : Clk → Clk) : (s.updClk f).faultCount = s.faultCount := rfl
@[simp] theorem State.updClk_kdq (s : State) (f : Clk → Clk) : (s.updClk f).kdq = s.kdq := rfl
@[simp] theorem State.updClk_dbg (s : State) (f : Clk → Clk) : (s.updClk f).dbg = s.dbg := rfl
@[simp] theorem State.updClk_dir (s : State) (f : Clk → Clk) : (s.updClk f).dir = s.dir := rfl
@[simp] theorem State.updClk_readback (s : State) (f : Clk → Clk) : (s.updClk f).readback = s.readback := rfl
@[simp] theorem State.updClk_hazards (s : State) (f : Clk → Clk) : (s.updClk f).hazards = s.hazards := rfl
@[simp] theorem State.updClk_trace (s : State) (f : Clk → Clk) : (s.updClk f).trace = s.trace := rfl
@[simp] theorem State.updClk_mesh (s : State) (f : Clk → Clk) : (s.updClk f).mesh = s.mesh := rfl
@[simp] theorem State.updClk_fabric (s : State) (f : Clk → Clk) : (s.updClk f).fabric = s.fabric := rfl
@[simp] theorem State.updClk_routes (s : State) (f : Clk → Clk) : (s.updClk f).routes = s.routes := rfl
@[simp] theorem State.updClk_unroutable (s : State) (f : Clk → Clk) : (s.updClk f).unroutable = s.unroutable := rfl
@[simp] theorem State.updClk_notices (s : State) (f : Clk → Clk) : (s.updClk f).notices = s.notices := rfl
@[simp] theorem State.updClk_ports (s : State) (f : Clk → Clk) : (s.updClk f).ports = s.ports := rfl
@[simp] theorem State.updClk_lasers (s : State) (f : Clk → Clk) : (s.updClk f).lasers = s.lasers := rfl
@[simp] theorem State.updClk_net (s : State) (f : Clk → Clk) : (s.updClk f).net = s.net := rfl
@[simp] theorem State.updClk_sec (s : State) (f : Clk → Clk) : (s.updClk f).sec = s.sec := rfl
@[simp] theorem State.updClk_maint (s : State) (f : Clk → Clk) : (s.updClk f).maint = s.maint := rfl
@[simp] theorem State.updClk_power (s : State) (f : Clk → Clk) : (s.updClk f).power = s.power := rfl
@[simp] theorem State.updClk_sync (s : State) (f : Clk → Clk) : (s.updClk f).sync = s.sync := rfl
@[simp] theorem State.updClk_pkg (s : State) (f : Clk → Clk) : (s.updClk f).pkg = s.pkg := rfl
@[simp] theorem State.updClk_meshFaults (s : State) (f : Clk → Clk) : (s.updClk f).meshFaults = s.meshFaults := rfl
@[simp] theorem State.updClk_clockFaults (s : State) (f : Clk → Clk) : (s.updClk f).clockFaults = s.clockFaults := rfl
@[simp] theorem State.updClk_out (s : State) (f : Clk → Clk) : (s.updClk f).out = s.out := rfl

/-! ### updSec -/

@[simp] theorem State.updSec_pending (s : State) (f : Sec → Sec) : (s.updSec f).pending = s.pending := rfl
@[simp] theorem State.updSec_free (s : State) (f : Sec → Sec) : (s.updSec f).free = s.free := rfl
@[simp] theorem State.updSec_landings (s : State) (f : Sec → Sec) : (s.updSec f).landings = s.landings := rfl
@[simp] theorem State.updSec_cores (s : State) (f : Sec → Sec) : (s.updSec f).cores = s.cores := rfl
@[simp] theorem State.updSec_clk (s : State) (f : Sec → Sec) : (s.updSec f).clk = s.clk := rfl
@[simp] theorem State.updSec_groups (s : State) (f : Sec → Sec) : (s.updSec f).groups = s.groups := rfl
@[simp] theorem State.updSec_steps (s : State) (f : Sec → Sec) : (s.updSec f).steps = s.steps := rfl
@[simp] theorem State.updSec_images (s : State) (f : Sec → Sec) : (s.updSec f).images = s.images := rfl
@[simp] theorem State.updSec_parts (s : State) (f : Sec → Sec) : (s.updSec f).parts = s.parts := rfl
@[simp] theorem State.updSec_enabled (s : State) (f : Sec → Sec) : (s.updSec f).enabled = s.enabled := rfl
@[simp] theorem State.updSec_passThrough (s : State) (f : Sec → Sec) : (s.updSec f).passThrough = s.passThrough := rfl
@[simp] theorem State.updSec_pageGens (s : State) (f : Sec → Sec) : (s.updSec f).pageGens = s.pageGens := rfl
@[simp] theorem State.updSec_funcs (s : State) (f : Sec → Sec) : (s.updSec f).funcs = s.funcs := rfl
@[simp] theorem State.updSec_station (s : State) (f : Sec → Sec) : (s.updSec f).station = s.station := rfl
@[simp] theorem State.updSec_faultLog (s : State) (f : Sec → Sec) : (s.updSec f).faultLog = s.faultLog := rfl
@[simp] theorem State.updSec_faultCount (s : State) (f : Sec → Sec) : (s.updSec f).faultCount = s.faultCount := rfl
@[simp] theorem State.updSec_kdq (s : State) (f : Sec → Sec) : (s.updSec f).kdq = s.kdq := rfl
@[simp] theorem State.updSec_dbg (s : State) (f : Sec → Sec) : (s.updSec f).dbg = s.dbg := rfl
@[simp] theorem State.updSec_dir (s : State) (f : Sec → Sec) : (s.updSec f).dir = s.dir := rfl
@[simp] theorem State.updSec_readback (s : State) (f : Sec → Sec) : (s.updSec f).readback = s.readback := rfl
@[simp] theorem State.updSec_hazards (s : State) (f : Sec → Sec) : (s.updSec f).hazards = s.hazards := rfl
@[simp] theorem State.updSec_trace (s : State) (f : Sec → Sec) : (s.updSec f).trace = s.trace := rfl
@[simp] theorem State.updSec_mesh (s : State) (f : Sec → Sec) : (s.updSec f).mesh = s.mesh := rfl
@[simp] theorem State.updSec_fabric (s : State) (f : Sec → Sec) : (s.updSec f).fabric = s.fabric := rfl
@[simp] theorem State.updSec_routes (s : State) (f : Sec → Sec) : (s.updSec f).routes = s.routes := rfl
@[simp] theorem State.updSec_unroutable (s : State) (f : Sec → Sec) : (s.updSec f).unroutable = s.unroutable := rfl
@[simp] theorem State.updSec_notices (s : State) (f : Sec → Sec) : (s.updSec f).notices = s.notices := rfl
@[simp] theorem State.updSec_ports (s : State) (f : Sec → Sec) : (s.updSec f).ports = s.ports := rfl
@[simp] theorem State.updSec_lasers (s : State) (f : Sec → Sec) : (s.updSec f).lasers = s.lasers := rfl
@[simp] theorem State.updSec_net (s : State) (f : Sec → Sec) : (s.updSec f).net = s.net := rfl
@[simp] theorem State.updSec_maint (s : State) (f : Sec → Sec) : (s.updSec f).maint = s.maint := rfl
@[simp] theorem State.updSec_power (s : State) (f : Sec → Sec) : (s.updSec f).power = s.power := rfl
@[simp] theorem State.updSec_sync (s : State) (f : Sec → Sec) : (s.updSec f).sync = s.sync := rfl
@[simp] theorem State.updSec_pkg (s : State) (f : Sec → Sec) : (s.updSec f).pkg = s.pkg := rfl
@[simp] theorem State.updSec_meshFaults (s : State) (f : Sec → Sec) : (s.updSec f).meshFaults = s.meshFaults := rfl
@[simp] theorem State.updSec_clockFaults (s : State) (f : Sec → Sec) : (s.updSec f).clockFaults = s.clockFaults := rfl
@[simp] theorem State.updSec_out (s : State) (f : Sec → Sec) : (s.updSec f).out = s.out := rfl

/-! ### updSync -/

@[simp] theorem State.updSync_pending (s : State) (f : Sync → Sync) : (s.updSync f).pending = s.pending := rfl
@[simp] theorem State.updSync_free (s : State) (f : Sync → Sync) : (s.updSync f).free = s.free := rfl
@[simp] theorem State.updSync_landings (s : State) (f : Sync → Sync) : (s.updSync f).landings = s.landings := rfl
@[simp] theorem State.updSync_cores (s : State) (f : Sync → Sync) : (s.updSync f).cores = s.cores := rfl
@[simp] theorem State.updSync_clk (s : State) (f : Sync → Sync) : (s.updSync f).clk = s.clk := rfl
@[simp] theorem State.updSync_groups (s : State) (f : Sync → Sync) : (s.updSync f).groups = s.groups := rfl
@[simp] theorem State.updSync_steps (s : State) (f : Sync → Sync) : (s.updSync f).steps = s.steps := rfl
@[simp] theorem State.updSync_images (s : State) (f : Sync → Sync) : (s.updSync f).images = s.images := rfl
@[simp] theorem State.updSync_parts (s : State) (f : Sync → Sync) : (s.updSync f).parts = s.parts := rfl
@[simp] theorem State.updSync_enabled (s : State) (f : Sync → Sync) : (s.updSync f).enabled = s.enabled := rfl
@[simp] theorem State.updSync_passThrough (s : State) (f : Sync → Sync) : (s.updSync f).passThrough = s.passThrough := rfl
@[simp] theorem State.updSync_pageGens (s : State) (f : Sync → Sync) : (s.updSync f).pageGens = s.pageGens := rfl
@[simp] theorem State.updSync_funcs (s : State) (f : Sync → Sync) : (s.updSync f).funcs = s.funcs := rfl
@[simp] theorem State.updSync_station (s : State) (f : Sync → Sync) : (s.updSync f).station = s.station := rfl
@[simp] theorem State.updSync_faultLog (s : State) (f : Sync → Sync) : (s.updSync f).faultLog = s.faultLog := rfl
@[simp] theorem State.updSync_faultCount (s : State) (f : Sync → Sync) : (s.updSync f).faultCount = s.faultCount := rfl
@[simp] theorem State.updSync_kdq (s : State) (f : Sync → Sync) : (s.updSync f).kdq = s.kdq := rfl
@[simp] theorem State.updSync_dbg (s : State) (f : Sync → Sync) : (s.updSync f).dbg = s.dbg := rfl
@[simp] theorem State.updSync_dir (s : State) (f : Sync → Sync) : (s.updSync f).dir = s.dir := rfl
@[simp] theorem State.updSync_readback (s : State) (f : Sync → Sync) : (s.updSync f).readback = s.readback := rfl
@[simp] theorem State.updSync_hazards (s : State) (f : Sync → Sync) : (s.updSync f).hazards = s.hazards := rfl
@[simp] theorem State.updSync_trace (s : State) (f : Sync → Sync) : (s.updSync f).trace = s.trace := rfl
@[simp] theorem State.updSync_mesh (s : State) (f : Sync → Sync) : (s.updSync f).mesh = s.mesh := rfl
@[simp] theorem State.updSync_fabric (s : State) (f : Sync → Sync) : (s.updSync f).fabric = s.fabric := rfl
@[simp] theorem State.updSync_routes (s : State) (f : Sync → Sync) : (s.updSync f).routes = s.routes := rfl
@[simp] theorem State.updSync_unroutable (s : State) (f : Sync → Sync) : (s.updSync f).unroutable = s.unroutable := rfl
@[simp] theorem State.updSync_notices (s : State) (f : Sync → Sync) : (s.updSync f).notices = s.notices := rfl
@[simp] theorem State.updSync_ports (s : State) (f : Sync → Sync) : (s.updSync f).ports = s.ports := rfl
@[simp] theorem State.updSync_lasers (s : State) (f : Sync → Sync) : (s.updSync f).lasers = s.lasers := rfl
@[simp] theorem State.updSync_net (s : State) (f : Sync → Sync) : (s.updSync f).net = s.net := rfl
@[simp] theorem State.updSync_sec (s : State) (f : Sync → Sync) : (s.updSync f).sec = s.sec := rfl
@[simp] theorem State.updSync_maint (s : State) (f : Sync → Sync) : (s.updSync f).maint = s.maint := rfl
@[simp] theorem State.updSync_power (s : State) (f : Sync → Sync) : (s.updSync f).power = s.power := rfl
@[simp] theorem State.updSync_pkg (s : State) (f : Sync → Sync) : (s.updSync f).pkg = s.pkg := rfl
@[simp] theorem State.updSync_meshFaults (s : State) (f : Sync → Sync) : (s.updSync f).meshFaults = s.meshFaults := rfl
@[simp] theorem State.updSync_clockFaults (s : State) (f : Sync → Sync) : (s.updSync f).clockFaults = s.clockFaults := rfl
@[simp] theorem State.updSync_out (s : State) (f : Sync → Sync) : (s.updSync f).out = s.out := rfl

/-! ### ctl -/

@[simp] theorem State.ctl_pending (s : State) (m : CtlMsg) : (s.ctl m).pending = s.pending := rfl
@[simp] theorem State.ctl_free (s : State) (m : CtlMsg) : (s.ctl m).free = s.free := rfl
@[simp] theorem State.ctl_landings (s : State) (m : CtlMsg) : (s.ctl m).landings = s.landings := rfl
@[simp] theorem State.ctl_cores (s : State) (m : CtlMsg) : (s.ctl m).cores = s.cores := rfl
@[simp] theorem State.ctl_clk (s : State) (m : CtlMsg) : (s.ctl m).clk = s.clk := rfl
@[simp] theorem State.ctl_groups (s : State) (m : CtlMsg) : (s.ctl m).groups = s.groups := rfl
@[simp] theorem State.ctl_steps (s : State) (m : CtlMsg) : (s.ctl m).steps = s.steps := rfl
@[simp] theorem State.ctl_images (s : State) (m : CtlMsg) : (s.ctl m).images = s.images := rfl
@[simp] theorem State.ctl_parts (s : State) (m : CtlMsg) : (s.ctl m).parts = s.parts := rfl
@[simp] theorem State.ctl_enabled (s : State) (m : CtlMsg) : (s.ctl m).enabled = s.enabled := rfl
@[simp] theorem State.ctl_passThrough (s : State) (m : CtlMsg) : (s.ctl m).passThrough = s.passThrough := rfl
@[simp] theorem State.ctl_pageGens (s : State) (m : CtlMsg) : (s.ctl m).pageGens = s.pageGens := rfl
@[simp] theorem State.ctl_funcs (s : State) (m : CtlMsg) : (s.ctl m).funcs = s.funcs := rfl
@[simp] theorem State.ctl_station (s : State) (m : CtlMsg) : (s.ctl m).station = s.station := rfl
@[simp] theorem State.ctl_faultLog (s : State) (m : CtlMsg) : (s.ctl m).faultLog = s.faultLog := rfl
@[simp] theorem State.ctl_faultCount (s : State) (m : CtlMsg) : (s.ctl m).faultCount = s.faultCount := rfl
@[simp] theorem State.ctl_kdq (s : State) (m : CtlMsg) : (s.ctl m).kdq = s.kdq := rfl
@[simp] theorem State.ctl_dbg (s : State) (m : CtlMsg) : (s.ctl m).dbg = s.dbg := rfl
@[simp] theorem State.ctl_dir (s : State) (m : CtlMsg) : (s.ctl m).dir = s.dir := rfl
@[simp] theorem State.ctl_readback (s : State) (m : CtlMsg) : (s.ctl m).readback = s.readback := rfl
@[simp] theorem State.ctl_hazards (s : State) (m : CtlMsg) : (s.ctl m).hazards = s.hazards := rfl
@[simp] theorem State.ctl_trace (s : State) (m : CtlMsg) : (s.ctl m).trace = s.trace := rfl
@[simp] theorem State.ctl_mesh (s : State) (m : CtlMsg) : (s.ctl m).mesh = s.mesh := rfl
@[simp] theorem State.ctl_fabric (s : State) (m : CtlMsg) : (s.ctl m).fabric = s.fabric := rfl
@[simp] theorem State.ctl_routes (s : State) (m : CtlMsg) : (s.ctl m).routes = s.routes := rfl
@[simp] theorem State.ctl_unroutable (s : State) (m : CtlMsg) : (s.ctl m).unroutable = s.unroutable := rfl
@[simp] theorem State.ctl_notices (s : State) (m : CtlMsg) : (s.ctl m).notices = s.notices := rfl
@[simp] theorem State.ctl_ports (s : State) (m : CtlMsg) : (s.ctl m).ports = s.ports := rfl
@[simp] theorem State.ctl_lasers (s : State) (m : CtlMsg) : (s.ctl m).lasers = s.lasers := rfl
@[simp] theorem State.ctl_net (s : State) (m : CtlMsg) : (s.ctl m).net = s.net := rfl
@[simp] theorem State.ctl_sec (s : State) (m : CtlMsg) : (s.ctl m).sec = s.sec := rfl
@[simp] theorem State.ctl_maint (s : State) (m : CtlMsg) : (s.ctl m).maint = s.maint := rfl
@[simp] theorem State.ctl_power (s : State) (m : CtlMsg) : (s.ctl m).power = s.power := rfl
@[simp] theorem State.ctl_sync (s : State) (m : CtlMsg) : (s.ctl m).sync = s.sync := rfl
@[simp] theorem State.ctl_pkg (s : State) (m : CtlMsg) : (s.ctl m).pkg = s.pkg := rfl
@[simp] theorem State.ctl_meshFaults (s : State) (m : CtlMsg) : (s.ctl m).meshFaults = s.meshFaults := rfl
@[simp] theorem State.ctl_clockFaults (s : State) (m : CtlMsg) : (s.ctl m).clockFaults = s.clockFaults := rfl

/-! ### mgt -/

@[simp] theorem State.mgt_pending (s : State) (m : MgtMsg) : (s.mgt m).pending = s.pending := rfl
@[simp] theorem State.mgt_free (s : State) (m : MgtMsg) : (s.mgt m).free = s.free := rfl
@[simp] theorem State.mgt_landings (s : State) (m : MgtMsg) : (s.mgt m).landings = s.landings := rfl
@[simp] theorem State.mgt_cores (s : State) (m : MgtMsg) : (s.mgt m).cores = s.cores := rfl
@[simp] theorem State.mgt_clk (s : State) (m : MgtMsg) : (s.mgt m).clk = s.clk := rfl
@[simp] theorem State.mgt_groups (s : State) (m : MgtMsg) : (s.mgt m).groups = s.groups := rfl
@[simp] theorem State.mgt_steps (s : State) (m : MgtMsg) : (s.mgt m).steps = s.steps := rfl
@[simp] theorem State.mgt_images (s : State) (m : MgtMsg) : (s.mgt m).images = s.images := rfl
@[simp] theorem State.mgt_parts (s : State) (m : MgtMsg) : (s.mgt m).parts = s.parts := rfl
@[simp] theorem State.mgt_enabled (s : State) (m : MgtMsg) : (s.mgt m).enabled = s.enabled := rfl
@[simp] theorem State.mgt_passThrough (s : State) (m : MgtMsg) : (s.mgt m).passThrough = s.passThrough := rfl
@[simp] theorem State.mgt_pageGens (s : State) (m : MgtMsg) : (s.mgt m).pageGens = s.pageGens := rfl
@[simp] theorem State.mgt_funcs (s : State) (m : MgtMsg) : (s.mgt m).funcs = s.funcs := rfl
@[simp] theorem State.mgt_station (s : State) (m : MgtMsg) : (s.mgt m).station = s.station := rfl
@[simp] theorem State.mgt_faultLog (s : State) (m : MgtMsg) : (s.mgt m).faultLog = s.faultLog := rfl
@[simp] theorem State.mgt_faultCount (s : State) (m : MgtMsg) : (s.mgt m).faultCount = s.faultCount := rfl
@[simp] theorem State.mgt_kdq (s : State) (m : MgtMsg) : (s.mgt m).kdq = s.kdq := rfl
@[simp] theorem State.mgt_dbg (s : State) (m : MgtMsg) : (s.mgt m).dbg = s.dbg := rfl
@[simp] theorem State.mgt_dir (s : State) (m : MgtMsg) : (s.mgt m).dir = s.dir := rfl
@[simp] theorem State.mgt_readback (s : State) (m : MgtMsg) : (s.mgt m).readback = s.readback := rfl
@[simp] theorem State.mgt_hazards (s : State) (m : MgtMsg) : (s.mgt m).hazards = s.hazards := rfl
@[simp] theorem State.mgt_trace (s : State) (m : MgtMsg) : (s.mgt m).trace = s.trace := rfl
@[simp] theorem State.mgt_mesh (s : State) (m : MgtMsg) : (s.mgt m).mesh = s.mesh := rfl
@[simp] theorem State.mgt_fabric (s : State) (m : MgtMsg) : (s.mgt m).fabric = s.fabric := rfl
@[simp] theorem State.mgt_routes (s : State) (m : MgtMsg) : (s.mgt m).routes = s.routes := rfl
@[simp] theorem State.mgt_unroutable (s : State) (m : MgtMsg) : (s.mgt m).unroutable = s.unroutable := rfl
@[simp] theorem State.mgt_notices (s : State) (m : MgtMsg) : (s.mgt m).notices = s.notices := rfl
@[simp] theorem State.mgt_ports (s : State) (m : MgtMsg) : (s.mgt m).ports = s.ports := rfl
@[simp] theorem State.mgt_lasers (s : State) (m : MgtMsg) : (s.mgt m).lasers = s.lasers := rfl
@[simp] theorem State.mgt_net (s : State) (m : MgtMsg) : (s.mgt m).net = s.net := rfl
@[simp] theorem State.mgt_sec (s : State) (m : MgtMsg) : (s.mgt m).sec = s.sec := rfl
@[simp] theorem State.mgt_maint (s : State) (m : MgtMsg) : (s.mgt m).maint = s.maint := rfl
@[simp] theorem State.mgt_power (s : State) (m : MgtMsg) : (s.mgt m).power = s.power := rfl
@[simp] theorem State.mgt_sync (s : State) (m : MgtMsg) : (s.mgt m).sync = s.sync := rfl
@[simp] theorem State.mgt_pkg (s : State) (m : MgtMsg) : (s.mgt m).pkg = s.pkg := rfl
@[simp] theorem State.mgt_meshFaults (s : State) (m : MgtMsg) : (s.mgt m).meshFaults = s.meshFaults := rfl
@[simp] theorem State.mgt_clockFaults (s : State) (m : MgtMsg) : (s.mgt m).clockFaults = s.clockFaults := rfl

/-! ### use -/

@[simp] theorem State.use_pending (s : State) (t c k o : Nat) (e : Option QEntry) (l : List Access) : (s.use t c k o e l).pending = s.pending := rfl
@[simp] theorem State.use_free (s : State) (t c k o : Nat) (e : Option QEntry) (l : List Access) : (s.use t c k o e l).free = s.free := rfl
@[simp] theorem State.use_landings (s : State) (t c k o : Nat) (e : Option QEntry) (l : List Access) : (s.use t c k o e l).landings = s.landings := rfl
@[simp] theorem State.use_cores (s : State) (t c k o : Nat) (e : Option QEntry) (l : List Access) : (s.use t c k o e l).cores = s.cores := rfl
@[simp] theorem State.use_groups (s : State) (t c k o : Nat) (e : Option QEntry) (l : List Access) : (s.use t c k o e l).groups = s.groups := rfl
@[simp] theorem State.use_steps (s : State) (t c k o : Nat) (e : Option QEntry) (l : List Access) : (s.use t c k o e l).steps = s.steps := rfl
@[simp] theorem State.use_images (s : State) (t c k o : Nat) (e : Option QEntry) (l : List Access) : (s.use t c k o e l).images = s.images := rfl
@[simp] theorem State.use_parts (s : State) (t c k o : Nat) (e : Option QEntry) (l : List Access) : (s.use t c k o e l).parts = s.parts := rfl
@[simp] theorem State.use_enabled (s : State) (t c k o : Nat) (e : Option QEntry) (l : List Access) : (s.use t c k o e l).enabled = s.enabled := rfl
@[simp] theorem State.use_passThrough (s : State) (t c k o : Nat) (e : Option QEntry) (l : List Access) : (s.use t c k o e l).passThrough = s.passThrough := rfl
@[simp] theorem State.use_pageGens (s : State) (t c k o : Nat) (e : Option QEntry) (l : List Access) : (s.use t c k o e l).pageGens = s.pageGens := rfl
@[simp] theorem State.use_funcs (s : State) (t c k o : Nat) (e : Option QEntry) (l : List Access) : (s.use t c k o e l).funcs = s.funcs := rfl
@[simp] theorem State.use_station (s : State) (t c k o : Nat) (e : Option QEntry) (l : List Access) : (s.use t c k o e l).station = s.station := rfl
@[simp] theorem State.use_faultLog (s : State) (t c k o : Nat) (e : Option QEntry) (l : List Access) : (s.use t c k o e l).faultLog = s.faultLog := rfl
@[simp] theorem State.use_faultCount (s : State) (t c k o : Nat) (e : Option QEntry) (l : List Access) : (s.use t c k o e l).faultCount = s.faultCount := rfl
@[simp] theorem State.use_kdq (s : State) (t c k o : Nat) (e : Option QEntry) (l : List Access) : (s.use t c k o e l).kdq = s.kdq := rfl
@[simp] theorem State.use_dbg (s : State) (t c k o : Nat) (e : Option QEntry) (l : List Access) : (s.use t c k o e l).dbg = s.dbg := rfl
@[simp] theorem State.use_dir (s : State) (t c k o : Nat) (e : Option QEntry) (l : List Access) : (s.use t c k o e l).dir = s.dir := rfl
@[simp] theorem State.use_readback (s : State) (t c k o : Nat) (e : Option QEntry) (l : List Access) : (s.use t c k o e l).readback = s.readback := rfl
@[simp] theorem State.use_hazards (s : State) (t c k o : Nat) (e : Option QEntry) (l : List Access) : (s.use t c k o e l).hazards = s.hazards := rfl
@[simp] theorem State.use_trace (s : State) (t c k o : Nat) (e : Option QEntry) (l : List Access) : (s.use t c k o e l).trace = s.trace := rfl
@[simp] theorem State.use_mesh (s : State) (t c k o : Nat) (e : Option QEntry) (l : List Access) : (s.use t c k o e l).mesh = s.mesh := rfl
@[simp] theorem State.use_fabric (s : State) (t c k o : Nat) (e : Option QEntry) (l : List Access) : (s.use t c k o e l).fabric = s.fabric := rfl
@[simp] theorem State.use_routes (s : State) (t c k o : Nat) (e : Option QEntry) (l : List Access) : (s.use t c k o e l).routes = s.routes := rfl
@[simp] theorem State.use_unroutable (s : State) (t c k o : Nat) (e : Option QEntry) (l : List Access) : (s.use t c k o e l).unroutable = s.unroutable := rfl
@[simp] theorem State.use_notices (s : State) (t c k o : Nat) (e : Option QEntry) (l : List Access) : (s.use t c k o e l).notices = s.notices := rfl
@[simp] theorem State.use_ports (s : State) (t c k o : Nat) (e : Option QEntry) (l : List Access) : (s.use t c k o e l).ports = s.ports := rfl
@[simp] theorem State.use_lasers (s : State) (t c k o : Nat) (e : Option QEntry) (l : List Access) : (s.use t c k o e l).lasers = s.lasers := rfl
@[simp] theorem State.use_net (s : State) (t c k o : Nat) (e : Option QEntry) (l : List Access) : (s.use t c k o e l).net = s.net := rfl
@[simp] theorem State.use_sec (s : State) (t c k o : Nat) (e : Option QEntry) (l : List Access) : (s.use t c k o e l).sec = s.sec := rfl
@[simp] theorem State.use_maint (s : State) (t c k o : Nat) (e : Option QEntry) (l : List Access) : (s.use t c k o e l).maint = s.maint := rfl
@[simp] theorem State.use_power (s : State) (t c k o : Nat) (e : Option QEntry) (l : List Access) : (s.use t c k o e l).power = s.power := rfl
@[simp] theorem State.use_sync (s : State) (t c k o : Nat) (e : Option QEntry) (l : List Access) : (s.use t c k o e l).sync = s.sync := rfl
@[simp] theorem State.use_pkg (s : State) (t c k o : Nat) (e : Option QEntry) (l : List Access) : (s.use t c k o e l).pkg = s.pkg := rfl
@[simp] theorem State.use_meshFaults (s : State) (t c k o : Nat) (e : Option QEntry) (l : List Access) : (s.use t c k o e l).meshFaults = s.meshFaults := rfl
@[simp] theorem State.use_clockFaults (s : State) (t c k o : Nat) (e : Option QEntry) (l : List Access) : (s.use t c k o e l).clockFaults = s.clockFaults := rfl
@[simp] theorem State.use_out (s : State) (t c k o : Nat) (e : Option QEntry) (l : List Access) : (s.use t c k o e l).out = s.out := rfl

/-! ### touch -/

@[simp] theorem State.touch_pending (s : State) (r b : Nat) : (s.touch r b).pending = s.pending := rfl
@[simp] theorem State.touch_free (s : State) (r b : Nat) : (s.touch r b).free = s.free := rfl
@[simp] theorem State.touch_landings (s : State) (r b : Nat) : (s.touch r b).landings = s.landings := rfl
@[simp] theorem State.touch_cores (s : State) (r b : Nat) : (s.touch r b).cores = s.cores := rfl
@[simp] theorem State.touch_clk (s : State) (r b : Nat) : (s.touch r b).clk = s.clk := rfl
@[simp] theorem State.touch_groups (s : State) (r b : Nat) : (s.touch r b).groups = s.groups := rfl
@[simp] theorem State.touch_steps (s : State) (r b : Nat) : (s.touch r b).steps = s.steps := rfl
@[simp] theorem State.touch_images (s : State) (r b : Nat) : (s.touch r b).images = s.images := rfl
@[simp] theorem State.touch_parts (s : State) (r b : Nat) : (s.touch r b).parts = s.parts := rfl
@[simp] theorem State.touch_enabled (s : State) (r b : Nat) : (s.touch r b).enabled = s.enabled := rfl
@[simp] theorem State.touch_passThrough (s : State) (r b : Nat) : (s.touch r b).passThrough = s.passThrough := rfl
@[simp] theorem State.touch_pageGens (s : State) (r b : Nat) : (s.touch r b).pageGens = s.pageGens := rfl
@[simp] theorem State.touch_funcs (s : State) (r b : Nat) : (s.touch r b).funcs = s.funcs := rfl
@[simp] theorem State.touch_station (s : State) (r b : Nat) : (s.touch r b).station = s.station := rfl
@[simp] theorem State.touch_faultLog (s : State) (r b : Nat) : (s.touch r b).faultLog = s.faultLog := rfl
@[simp] theorem State.touch_faultCount (s : State) (r b : Nat) : (s.touch r b).faultCount = s.faultCount := rfl
@[simp] theorem State.touch_kdq (s : State) (r b : Nat) : (s.touch r b).kdq = s.kdq := rfl
@[simp] theorem State.touch_dbg (s : State) (r b : Nat) : (s.touch r b).dbg = s.dbg := rfl
@[simp] theorem State.touch_dir (s : State) (r b : Nat) : (s.touch r b).dir = s.dir := rfl
@[simp] theorem State.touch_readback (s : State) (r b : Nat) : (s.touch r b).readback = s.readback := rfl
@[simp] theorem State.touch_hazards (s : State) (r b : Nat) : (s.touch r b).hazards = s.hazards := rfl
@[simp] theorem State.touch_trace (s : State) (r b : Nat) : (s.touch r b).trace = s.trace := rfl
@[simp] theorem State.touch_mesh (s : State) (r b : Nat) : (s.touch r b).mesh = s.mesh := rfl
@[simp] theorem State.touch_fabric (s : State) (r b : Nat) : (s.touch r b).fabric = s.fabric := rfl
@[simp] theorem State.touch_routes (s : State) (r b : Nat) : (s.touch r b).routes = s.routes := rfl
@[simp] theorem State.touch_unroutable (s : State) (r b : Nat) : (s.touch r b).unroutable = s.unroutable := rfl
@[simp] theorem State.touch_notices (s : State) (r b : Nat) : (s.touch r b).notices = s.notices := rfl
@[simp] theorem State.touch_ports (s : State) (r b : Nat) : (s.touch r b).ports = s.ports := rfl
@[simp] theorem State.touch_lasers (s : State) (r b : Nat) : (s.touch r b).lasers = s.lasers := rfl
@[simp] theorem State.touch_net (s : State) (r b : Nat) : (s.touch r b).net = s.net := rfl
@[simp] theorem State.touch_sec (s : State) (r b : Nat) : (s.touch r b).sec = s.sec := rfl
@[simp] theorem State.touch_maint (s : State) (r b : Nat) : (s.touch r b).maint = s.maint := rfl
@[simp] theorem State.touch_power (s : State) (r b : Nat) : (s.touch r b).power = s.power := rfl
@[simp] theorem State.touch_sync (s : State) (r b : Nat) : (s.touch r b).sync = s.sync := rfl
@[simp] theorem State.touch_meshFaults (s : State) (r b : Nat) : (s.touch r b).meshFaults = s.meshFaults := rfl
@[simp] theorem State.touch_clockFaults (s : State) (r b : Nat) : (s.touch r b).clockFaults = s.clockFaults := rfl
@[simp] theorem State.touch_out (s : State) (r b : Nat) : (s.touch r b).out = s.out := rfl

/-! ### Cores -/

@[simp] theorem State.setCore_core (s : State) (c : Nat) (x : Core) : (s.setCore c x).core c = x :=
  Recs.get_put_self ..
theorem State.setCore_core_ne (s : State) {c d : Nat} (x : Core) (h : d ≠ c) : (s.setCore c x).core d = s.core d :=
  Recs.get_put_ne _ _ _ h
@[simp] theorem State.updCore_core (s : State) (c : Nat) (f : Core → Core) : (s.updCore c f).core c = f (s.core c) :=
  Recs.get_put_self ..
theorem State.updCore_core_ne (s : State) {c d : Nat} (f : Core → Core) (h : d ≠ c) : (s.updCore c f).core d = s.core d :=
  Recs.get_put_ne _ _ _ h

@[simp] theorem State.updCtl_core (s : State) (c : Nat) (f : Ctl → Ctl) :
    (s.updCtl c f).core c = { s.core c with ctl := f (s.core c).ctl } := Recs.get_put_self ..
theorem State.updCtl_core_ne (s : State) {c d : Nat} (f : Ctl → Ctl) (h : d ≠ c) :
    (s.updCtl c f).core d = s.core d := Recs.get_put_ne _ _ _ h
@[simp] theorem State.updLane_core (s : State) (c : Nat) (f : Lane → Lane) :
    (s.updLane c f).core c = { s.core c with lane := f (s.core c).lane } := Recs.get_put_self ..
theorem State.updLane_core_ne (s : State) {c d : Nat} (f : Lane → Lane) (h : d ≠ c) :
    (s.updLane c f).core d = s.core d := Recs.get_put_ne _ _ _ h
@[simp] theorem State.updVec_core (s : State) (c : Nat) (f : Vec → Vec) :
    (s.updVec c f).core c = { s.core c with vec := f (s.core c).vec } := Recs.get_put_self ..
theorem State.updVec_core_ne (s : State) {c d : Nat} (f : Vec → Vec) (h : d ≠ c) :
    (s.updVec c f).core d = s.core d := Recs.get_put_ne _ _ _ h
@[simp] theorem State.updSp_core (s : State) (c : Nat) (f : SPad → SPad) :
    (s.updSp c f).core c = { s.core c with sp := f (s.core c).sp } := Recs.get_put_self ..
theorem State.updSp_core_ne (s : State) {c d : Nat} (f : SPad → SPad) (h : d ≠ c) :
    (s.updSp c f).core d = s.core d := Recs.get_put_ne _ _ _ h
@[simp] theorem State.updWs_core (s : State) (c : Nat) (f : WStore → WStore) :
    (s.updWs c f).core c = { s.core c with ws := f (s.core c).ws } := Recs.get_put_self ..
theorem State.updWs_core_ne (s : State) {c d : Nat} (f : WStore → WStore) (h : d ≠ c) :
    (s.updWs c f).core d = s.core d := Recs.get_put_ne _ _ _ h
@[simp] theorem State.updXfer_core (s : State) (c : Nat) (f : Xfer → Xfer) :
    (s.updXfer c f).core c = { s.core c with xfer := f (s.core c).xfer } := Recs.get_put_self ..
theorem State.updXfer_core_ne (s : State) {c d : Nat} (f : Xfer → Xfer) (h : d ≠ c) :
    (s.updXfer c f).core d = s.core d := Recs.get_put_ne _ _ _ h
@[simp] theorem State.updDet_core (s : State) (c : Nat) (f : Detect → Detect) :
    (s.updDet c f).core c = { s.core c with det := f (s.core c).det } := Recs.get_put_self ..
theorem State.updDet_core_ne (s : State) {c d : Nat} (f : Detect → Detect) (h : d ≠ c) :
    (s.updDet c f).core d = s.core d := Recs.get_put_ne _ _ _ h

@[simp] theorem State.land_core (s : State) (k p c : Nat) (e : LandEff) (d : Nat) : (s.land k p c e).core d = s.core d := rfl
@[simp] theorem State.landEnd_core (s : State) (t p c : Nat) (e : LandEff) (d : Nat) :
    (s.landEnd t p c e).core d = s.core d := rfl
@[simp] theorem State.landStart_core (s : State) (t p c : Nat) (e : LandEff) (d : Nat) :
    (s.landStart t p c e).core d = s.core d := rfl
@[simp] theorem State.use_core (s : State) (t c k o : Nat) (e : Option QEntry) (l : List Access) (d : Nat) :
    (s.use t c k o e l).core d = s.core d := rfl
/-- Of the clock a note of accesses changes the accesses noted alone. -/
theorem State.use_clk (s : State) (t c k o : Nat) (e : Option QEntry) (l : List Access) :
    (s.use t c k o e l).clk = { s.clk with uses := s.clk.uses ++ l.map (fun a => ⟨t, c, k, o, a, e⟩) } := rfl
theorem State.land_landings (s : State) (k p c : Nat) (e : LandEff) :
    (s.land k p c e).landings = Landing.insert ⟨k, p, c, e⟩ s.landings := rfl

/-- One core after another update of the same core. -/
theorem State.setCore_setCore (s : State) (c : Nat) (x y : Core) : (s.setCore c x).setCore c y = s.setCore c y := by
  simp [State.setCore, Recs.put_put]

/-- What is put in flight is in flight. -/
theorem Landing.mem_insert (l m : Landing) (ls : List Landing) : m ∈ Landing.insert l ls ↔ m = l ∨ m ∈ ls := by
  induction ls with
  | nil => simp [Landing.insert]
  | cons a as ih =>
    simp only [Landing.insert]
    split_ifs <;> simp [ih, or_left_comm]

/-! ### Records of the other tables -/

@[simp] theorem State.updGroup_group (s : State) (g : Nat) (f : Group → Group) : (s.updGroup g f).group g = f (s.group g) :=
  Recs.get_put_self ..
@[simp] theorem State.updStep_step (s : State) (g : Nat) (f : StepRun → StepRun) : (s.updStep g f).step' g = f (s.step' g) :=
  Recs.get_put_self ..
@[simp] theorem State.updFunc_func (s : State) (n : Nat) (f : Func → Func) : (s.updFunc n f).func n = f (s.func n) :=
  Recs.get_put_self ..
@[simp] theorem State.updPort_port (s : State) (p : Nat) (f : Port → Port) : (s.updPort p f).port p = f (s.port p) :=
  Recs.get_put_self ..
@[simp] theorem State.updPart_part (s : State) (p : Nat) (f : Part → Part) : (s.updPart p f).part p = f (s.part p) :=
  Recs.get_put_self ..

end Sys2Proof.Machine
end

