-- ==== Sys2Proof/Laws/Issue.lean ====
section
/-! SUPPORT. The path of a word through its control core: what a decoded timed word leads to when it issues at once. -/

namespace Sys2Proof.Machine

/-- A word's meaning is its decoding on its core. -/
theorem exec_word {i : Instr} {c : CoreId} (h : wordCore i = some c) (s : State) : exec i s = execWord c i s := by
  cases i <;> simp [wordCore] at h <;> subst h <;> rfl

/-- With no entry queued nothing issues. -/
theorem State.nextEntry_noQueue (s : State) (h : s.NoQueue) : s.nextEntry = none := by
  unfold State.nextEntry
  have : (s.cores.filter (fun (p : Nat × Core) => s.isEnabled p.1 && !p.2.ctl.preStart)).flatMap (fun (p : Nat × Core) =>
      [Engine.lane, .vector, .move].filterMap (fun e => (p.2.ctl.queue e).head?.map (fun q => (p.1, e, q)))) = [] := by
    rw [List.flatMap_eq_nil_iff]
    intro p hp
    obtain ⟨h1, h2, h3⟩ := h p (List.mem_of_mem_filter hp)
    simp [Ctl.queue, h1, h2, h3]
  simp only [this, List.foldl_nil]

theorem State.pump_noQueue (s : State) (n : Nat) (h : s.NoQueue) : State.pump n s = s := by
  cases n with
  | zero => rfl
  | succ n => simp [State.pump, State.nextEntry_noQueue s h]

/-- A list made from the entries that pass a test. -/
theorem flatMap_filter_ite {α β : Type} (p : α → Bool) (f : α → List β) (l : List α) :
    (l.filter p).flatMap f = l.flatMap (fun x => if p x then f x else []) := by
  induction l with
  | nil => rfl
  | cons x l ih => cases hp : p x <;> simp [hp, ih]

/-- The queues of an enabled core whose step runs and whose engine `eng` holds the one entry e. -/
theorem State.nextEntry_one (s : State) (c : Nat) (x : Core) (eng : Engine) (e : QEntry) (h : s.NoQueue)
    (hx : x.ctl.laneQ = [] ∧ x.ctl.vecQ = [] ∧ x.ctl.moveQ = []) (hen : s.isEnabled c = true) (hpre : x.ctl.preStart = false) :
    (s.setCore c { x with ctl := x.ctl.setQueue eng [e] }).nextEntry = some (c, eng, e) := by
  obtain ⟨h1, h2, h3⟩ := hx
  have hh : [Engine.lane, .vector, .move].filterMap (fun g =>
      (((x.ctl.setQueue eng [e]).queue g).head?).map (fun q => (c, g, q))) = [(c, eng, e)] := by
    cases eng <;> simp [List.filterMap_cons, Ctl.queue, Ctl.setQueue, h1, h2, h3]
  have hp : (x.ctl.setQueue eng [e]).preStart = false := by cases eng <;> exact hpre
  have hen' : (s.setCore c { x with ctl := x.ctl.setQueue eng [e] }).isEnabled c = true := hen
  unfold State.nextEntry
  rw [flatMap_filter_ite]
  unfold State.setCore at hen' ⊢
  rw [Recs.flatMap_put]
  · simp only [hen', hp, hh, Bool.not_false, Bool.and_true, if_true, List.foldl_cons, List.foldl_nil]
  · intro p hp
    obtain ⟨h1, h2, h3⟩ := h p hp
    simp [Ctl.queue, h1, h2, h3]

/-- A core of a state without queued entries has none. -/
theorem State.noQueue_core (s : State) (c : Nat) (h : s.NoQueue) :
    (s.core c).ctl.laneQ = [] ∧ (s.core c).ctl.vecQ = [] ∧ (s.core c).ctl.moveQ = [] := by
  unfold State.core
  have : ∀ m : List (Nat × Core), (∀ p ∈ m, p.2.ctl.laneQ = [] ∧ p.2.ctl.vecQ = [] ∧ p.2.ctl.moveQ = []) →
      (Recs.get Core.reset m c).ctl.laneQ = [] ∧ (Recs.get Core.reset m c).ctl.vecQ = [] ∧
        (Recs.get Core.reset m c).ctl.moveQ = [] := by
    intro m
    induction m with
    | nil => intro _; exact ⟨rfl, rfl, rfl⟩
    | cons p m ih =>
      intro hm
      obtain ⟨j, v⟩ := p
      simp only [Recs.get]
      split_ifs
      · exact hm (j, v) (List.mem_cons_self ..)
      · exact ih (fun q hq => hm q (List.mem_cons_of_mem _ hq))
  exact this s.cores h

/-- A timed word that issues as it is decoded has its engine's effect at once, on the state in which the word is past. -/
theorem execWord_issues {s : State} {c : CoreId} {i : Instr} {sl : SlotId} {eng : Engine} (h : s.Issues c i sl)
    (he : engineOf i = some eng) (hq : ((s.decoded c i).fxOf (s.ctxOf c i) i).NoQueue) :
    execWord c i s = .next ((s.decoded c i).fxOf (s.ctxOf c i) i) := by
  obtain ⟨⟨hw, hp, hen, hd, hcur⟩, hnq, hpre, htick, hblock, -⟩ := h
  have hk := State.noQueue_core s c.val hnq
  have hqe : (s.core c.val).ctl.queue eng = [] := by
    obtain ⟨h1, h2, h3⟩ := hk
    cases eng <;> simp [Ctl.queue, h1, h2, h3]
  have hdec : s.decode c.val i = s.decodeNow c.val i := by simp [State.decode, hp, hen, hd]
  have hnow : s.decodeNow c.val i = (s.decoded c i).enqueue c.val (s.entryOf c i).tick (s.entryOf c i).offset i eng := by
    have : ¬(2 ^ 40 ≤ (s.core c.val).ctl.cursor + (wordDelta i).toNat) := by omega
    simp only [State.decodeNow, this, if_false, he]
    rfl
  -- the queue holds the entry alone
  have hx : (s.decoded c i).enqueue c.val (s.entryOf c i).tick (s.entryOf c i).offset i eng =
      (s.setCore c.val { (s.core c.val) with
        ctl := ((s.core c.val).ctl.past i).setQueue eng [s.entryOf c i] }).pumpAll := by
    have hq0 : ((s.decoded c i).core c.val).ctl.queue eng = [] := by
      simp only [State.decoded, State.updCtl_core]
      cases eng <;> exact hqe
    have hlen : ¬(queueDepth ≤ (((s.decoded c i).core c.val).ctl.queue eng).length) := by rw [hq0]; decide
    simp only [State.enqueue, hlen, if_false]
    congr 1
    simp only [State.decoded, State.updCtl, State.updCore, State.setCore_core, State.setCore_setCore]
    have : ((s.core c.val).ctl.past i).queue eng = [] := by cases eng <;> exact hqe
    rw [this]
    rfl
  have hpump : (s.setCore c.val { (s.core c.val) with
        ctl := ((s.core c.val).ctl.past i).setQueue eng [s.entryOf c i] }).pumpAll =
      (s.decoded c i).fxOf (s.ctxOf c i) i := by
    set q := s.setCore c.val { (s.core c.val) with
        ctl := ((s.core c.val).ctl.past i).setQueue eng [s.entryOf c i] } with hqdef
    have hfuel : ∃ n, q.pumpFuel = n + 1 := ⟨q.pumpFuel - 1, by unfold State.pumpFuel; omega⟩
    obtain ⟨n, hn⟩ := hfuel
    have hne : q.nextEntry = some (c.val, eng, s.entryOf c i) :=
      State.nextEntry_one s c.val { (s.core c.val) with ctl := (s.core c.val).ctl.past i } eng (s.entryOf c i) hnq hk hen hpre
    have hcore : q.core c.val = { (s.core c.val) with
        ctl := ((s.core c.val).ctl.past i).setQueue eng [s.entryOf c i] } := by simp [hqdef]
    have hs0 : (q.core c.val).ctl.s0 = (s.core c.val).ctl.s0 := by
      rw [hcore]; cases eng <;> rfl
    have hit : q.issueTick c.val (s.entryOf c i) = q.clk.tick := by
      unfold State.issueTick
      rw [hs0]
      exact Nat.max_eq_left htick
    have hmq : (q.core c.val).ctl.moveQ.filter (fun e => decide (e.tick < (s.entryOf c i).tick)) =
        (s.core c.val).ctl.moveQ.filter (fun e => decide (e.tick < (s.entryOf c i).tick)) := by
      rw [hcore]
      obtain ⟨h1, h2, h3⟩ := hk
      cases eng
      · rfl
      · rfl
      · simp [Ctl.setQueue, h3]
    have hb : q.blockItem c.val (s.entryOf c i) = none := by
      have h1 : (q.core c.val).xfer = (s.core c.val).xfer := by rw [hcore]
      have h2 : q.cellsOf c.val (s.entryOf c i) = s.cellsOf c.val (s.entryOf c i) := rfl
      have h3 : ∀ k, q.spaceShort c.val k (s.entryOf c i).tick = s.spaceShort c.val k (s.entryOf c i).tick := by
        intro k
        have hu : q.outUsed c.val = s.outUsed c.val := by
          unfold State.outUsed
          rw [h1]
          rfl
        unfold State.spaceShort State.cellsBefore
        rw [hu, hmq]
        rfl
      have h4 : ∀ k, q.transferLate c.val k (s.entryOf c i).tick = s.transferLate c.val k (s.entryOf c i).tick := by
        intro k
        unfold State.transferLate
        rw [h1, hmq]
      unfold State.blockItem at hblock ⊢
      simp only [h2, h3, h4]
      exact hblock
    have hdeq : q.updCtl c.val (fun k => k.setQueue eng ((k.queue eng).drop 1)) = s.decoded c i := by
      simp only [hqdef, State.updCtl, State.updCore, State.setCore_core, State.setCore_setCore, State.decoded]
      congr 2
      obtain ⟨h1, h2, h3⟩ := hk
      cases eng
      · simp [Ctl.setQueue, Ctl.queue, Ctl.past, ← h1]
      · simp [Ctl.setQueue, Ctl.queue, Ctl.past, ← h2]
      · simp [Ctl.setQueue, Ctl.queue, Ctl.past, ← h3]
    unfold State.pumpAll
    rw [hn]
    simp only [State.pump, hne, hit, Nat.lt_irrefl, if_false, hb, hdeq]
    exact State.pump_noQueue _ _ hq
  simp only [execWord, hw, if_true]
  rw [hdec, hnow, hx, hpump]

/-- A check that passes adds no reason. -/
theorem pickFail_snoc (l : List Fail) : pickFail (l ++ [none]) = pickFail l := by
  induction l with
  | nil => rfl
  | cons a l ih => cases a <;> simp [pickFail, ih]

/-- Issue in a free slot, all checks passing: the slot is taken and the effect follows. -/
theorem State.issueIn_free {s : State} {x : Ctx} {sl : SlotId} (occ : Nat) {fails : List Fail} (eff : State → State)
    (h1 : pickFail fails = none) (h2 : Tab.get 0 (s.core x.core).busy sl.idx ≤ x.tick) :
    s.issueIn x sl occ fails eff =
      eff ((s.updCore x.core (fun k => { k with busy := Tab.set 0 k.busy sl.idx (x.tick + occ) })).use
        x.tick x.core x.core 0 (some x.entry) (operandReads x.entry.instr)) := by
  have hh : s.slotHeld x sl = false := by simp [State.slotHeld, h2]
  simp [State.issueIn, State.takeSlot, hh, failIf, pickFail_snoc, h1]

/-- A word past, its slot taken: the core that has issued it. -/
theorem State.decoded_slot (s : State) (c : CoreId) (i : Instr) (sl : SlotId) (occ : Nat) :
    (s.decoded c i).updCore c.val (fun k => { k with busy := Tab.set 0 k.busy sl.idx (s.clk.tick + occ) }) =
      s.setCore c.val (s.issued c i sl occ) := by
  simp [State.decoded, State.updCtl, State.updCore, State.setCore_setCore, State.issued]

theorem State.noQueue_setCore {s : State} (h : s.NoQueue) (c : Nat) {x : Core}
    (hx : x.ctl.laneQ = [] ∧ x.ctl.vecQ = [] ∧ x.ctl.moveQ = []) : (s.setCore c x).NoQueue := by
  intro p hp
  rcases Recs.mem_put hp with h1 | h1
  · subst h1; exact hx
  · exact h p h1

theorem State.noQueue_congr {s t : State} (h : t.cores = s.cores) (hs : s.NoQueue) : t.NoQueue := by
  unfold State.NoQueue; rw [h]; exact hs

end Sys2Proof.Machine
end

