-- ==== Sys2Proof/Laws/Link.lean ====
section
/-! SUPPORT. What bytes and numbers say of each other, and what a link's frame says of its bytes: lengths, the CRC that it carries, and the
frame that a codeword's message gives (00 R5; 11 R259, R260). -/

namespace Sys2Proof

@[simp] theorem leBytes_length (n v : Nat) : (leBytes n v).length = n := by
  induction n generalizing v with
  | zero => rfl
  | succ n ih => simp [leBytes, ih]

@[simp] theorem sliceB_length (l : List Byte) (o n : Nat) : (sliceB l o n).length = n := by
  simp [sliceB]

/-- A number's low bytes hold it modulo their range. -/
theorem leNat_leBytes (n v : Nat) : leNat (leBytes n v) = v % 256 ^ n := by
  induction n generalizing v with
  | zero => simp [leBytes, leNat, Nat.mod_one]
  | succ n ih =>
    rw [leBytes, leNat, ih, BitVec.toNat_ofNat, show (256 : Nat) ^ (n + 1) = 2 ^ 8 * 256 ^ n by rw [Nat.pow_succ, Nat.mul_comm]; norm_num, Nat.mod_mul]
    norm_num

/-- Bytes come back from their number, whatever stands above them. -/
theorem leBytes_leNat (l : List Byte) (m : Nat) : leBytes l.length (leNat l + 256 ^ l.length * m) = l := by
  induction l generalizing m with
  | nil => rfl
  | cons b l ih =>
    have hb := b.isLt
    have e : leNat (b :: l) + 256 ^ (l.length + 1) * m = b.toNat + 256 * (leNat l + 256 ^ l.length * m) := by
      simp only [leNat]; ring
    simp only [List.length_cons, leBytes, e]
    congr 1
    · apply BitVec.eq_of_toNat_eq; simp; omega
    · rw [show (b.toNat + 256 * (leNat l + 256 ^ l.length * m)) / 256 = leNat l + 256 ^ l.length * m by omega, ih]

theorem leNat_lt (l : List Byte) : leNat l < 256 ^ l.length := by
  induction l with
  | nil => simp [leNat]
  | cons b l ih =>
    have hb := b.isLt
    simp only [leNat, List.length_cons, Nat.pow_succ]
    omega

/-- A slice that lies past a prefix is one of the rest. -/
theorem sliceB_append_right (a b : List Byte) : sliceB (a ++ b) a.length b.length = b := by
  simp [sliceB]

end Sys2Proof

namespace Sys2Proof.Machine

theorem ethBit_lt (n c : Nat) (h : c < 2 ^ 32) : ethBit n c < 2 ^ 32 := by
  induction n generalizing c with
  | zero => exact h
  | succ n ih =>
    unfold ethBit
    apply ih
    split
    · exact Nat.xor_lt_two_pow (by omega) (by norm_num)
    · omega

theorem ethBytes_lt (c : Nat) (l : List Byte) (h : c < 2 ^ 32) : ethBytes c l < 2 ^ 32 := by
  induction l generalizing c with
  | nil => exact h
  | cons b l ih =>
    have hb := b.isLt
    exact ih _ (ethBit_lt _ _ (Nat.xor_lt_two_pow h (by omega)))

/-- A CRC-32 has 32 bits. -/
theorem crc32_lt (l : List Byte) : crc32 l < 2 ^ 32 :=
  Nat.xor_lt_two_pow (ethBytes_lt _ _ (by norm_num)) (by norm_num)

@[simp] theorem frameHead_length (f : Frame) : (frameHead f).length = 508 := by simp [frameHead]

@[simp] theorem frameBytes_length (f : Frame) : (frameBytes f).length = 512 := by simp [frameBytes]

/-- A frame's bytes carry a good CRC (11 R260). -/
theorem frameCrcGood_frameBytes (f : Frame) : frameCrcGood (frameBytes f) = true := by
  have h : sliceB (frameBytes f) 508 4 = leBytes 4 (crc32 (frameHead f)) := by
    have := sliceB_append_right (frameHead f) (leBytes 4 (crc32 (frameHead f)))
    simpa [frameBytes] using this
  have t : (frameBytes f).take 508 = frameHead f := by simp [frameBytes]
  have c := crc32_lt (frameHead f)
  simp only [frameCrcGood, fieldN, h, t, leNat_leBytes, beq_iff_eq]
  exact Nat.mod_eq_of_lt (by simpa using c)

/-- The frame that stands first in the only message received (11 R259). -/
theorem nextFrame_of_bytes (k : Port) (bs : List Byte) (good : Bool) (hl : bs.length = 512) (hw : k.rxWords = [(leNat bs, good)])
    (hp : k.rxPos = 0) : k.nextFrame = some ((bs, good), { k with rxPos := 4096 }) := by
  have lt : leNat bs < 2 ^ 4096 := by
    have := leNat_lt bs
    rwa [hl, show (256 : Nat) = 2 ^ 8 by norm_num, ← Nat.pow_mul, show 8 * 512 = 4096 by norm_num] at this
  have b := leBytes_leNat bs 0
  rw [hl] at b
  simp only [Nat.mul_zero, Nat.add_zero] at b
  simp [Port.nextFrame, hw, hp, bitsN, Nat.mod_eq_of_lt lt, b]

end Sys2Proof.Machine
end

