-- ==== Sys2Proof/Machine/ReadOps.lean ====
section
/-! DEFINITION. What a read of BAR0 or of the BAR2 page returns, register by register (00 R4, R6, R7; 24 R529, R532 to R548; 18 Tables
18.9 to 18.12). No command of the table is a register read, so no command calls these operations; they say what each read gives in a state,
and what the latch of R529 keeps. A read that spans registers is the reads of its 32-bit words. -/

namespace Sys2Proof.Machine

/-- The half of a 64-bit register that lies at an offset. -/
def half (v o : Nat) : Nat := if o % 8 = 0 then v % 2 ^ 32 else v / 2 ^ 32 % 2 ^ 32

/-- The 32-bit word at an offset of bytes. -/
def wordOf (l : List Byte) (o : Nat) : Nat := fieldN l o 4

/-! ### Identity (Table 24.2) -/

/-- The identity block; FW_VERSION and FW_SVN read 0 in the firmware-recovery wait (R533). -/
def State.readIdentity (s : State) (r : Nat) : Nat :=
  match r with
  | 0x00 => (if s.maint.f272 then 0x0272 else 0x0256) + 2 ^ 16 * s.enabled.length
  | 0x04 => Config.stepping.toNat + 2 ^ 8 * fieldN Config.romVersion 0 1
  | 0x08 => s.maint.slotId % 16 + 2 ^ 4 * (s.maint.bootMode % 4)
  | 0x10 | 0x14 => wordOf (Config.sha512 Config.identityKey) (r - 0x10)
  | 0x18 => if s.sec.recovery then 0 else s.sec.running.version % 2 ^ 32
  | 0x1C => if s.sec.recovery then 0 else s.sec.running.svn % 2 ^ 32
  | 0x20 => s.sec.svnFloor % 2 ^ 32
  | 0x68 => s.maint.retired.length + 2 ^ 9 * b01 (decide (32 < s.maint.retired.length))
  | _ =>
    if 0x40 ≤ r ∧ r < 0x64 then
      (List.range 32).foldl (fun n i => n + 2 ^ i * b01 (s.isEnabled (8 * (r - 0x40) + i))) 0
    else 0

/-! ### Package control, power, station time (Tables 24.3 to 24.5) -/

/-- The directory's fields, which its owner reads too. -/
def State.readDir (s : State) (r : Nat) : Nat :=
  match r with
  | 0x20 => s.dir.defRow.toNat
  | 0x24 => b01 s.dir.ready + 2 ^ 4 * s.dir.limit + 2 ^ 24 * s.dir.owner
  | _ => if 0x28 ≤ r ∧ r < 0x40 then Tab.get 0 s.dir.counts ((r - 0x28) / 4) else 0

/-- Package control; MAINT_CMD is write-only. -/
def State.readPkg (s : State) (f r : Nat) : Nat :=
  if 0x20 ≤ r ∧ r < 0x40 then (if f = 0 ∨ s.dir.owner = f then s.readDir r else 0)
  else if f ≠ 0 then 0
  else match r with
    | 0x00 => s.maintStatus
    | 0x10 => b01 s.pkg.refused + 2 ^ 8 * s.pkg.refusedAt
    | 0x18 => s.pkg.muteExp
    | _ => 0

/-- POWER_LIMIT and POWER_CONTROL (21 Tables 21.5, 21.7). -/
def PowerSet.limitWord (x : PowerSet) : Nat := x.plSust + 2 ^ 16 * x.plPeak

/-- POWER_CONTROL (21 Table 21.7). -/
def PowerSet.controlWord (x : PowerSet) : Nat :=
  x.fOp + 2 ^ 4 * x.fFloor + 2 ^ 8 * x.voiceMap.toNat + 2 ^ 24 * x.fixedFstep + 2 ^ 28 * x.fixedState + 2 ^ 32 * x.fixedVoicing

/-- BUDGET_STATUS (21 R488): a VF reads STATE only. -/
def State.budgetStatus (s : State) (f : Nat) : Nat :=
  let p := s.power
  if f ≠ 0 then p.budget
  else p.budget + 2 ^ 3 * p.partP.val + 2 ^ 6 * p.partT.val + 2 ^ 9 * p.partS.val + 2 ^ 12 * s.clk.fstep + 2 ^ 16 * satNat 255 p.tmax +
    2 ^ 24 * b01 p.emergency + 2 ^ 25 * b01 s.passThrough

/-- An entry of a frequency table (21 Table 21.9). -/
def freqWord (l : List (Nat × Nat)) (k : Nat) : Nat := match l.getD k (0, 0) with | (m, v) => m + 2 ^ 8 * v

/-- Power and clocks; FREQ_APPLY is write-only. -/
def State.readPower (s : State) (f r : Nat) : Nat :=
  if r = 0x10 then s.budgetStatus f
  else if f ≠ 0 then 0
  else if r = 0x00 then s.power.set.limitWord
  else if r = 0x08 ∨ r = 0x0C then half s.power.set.controlWord r
  else if 0x40 ≤ r ∧ r < 0x80 then freqWord s.power.freqStage ((r - 0x40) / 4)
  else if 0x80 ≤ r ∧ r < 0xC0 then freqWord s.power.freqStep ((r - 0x80) / 4)
  else if r = 0xC4 then s.power.freqResult
  else 0

/-- Station time; STATION_SET is write-only. -/
def State.readStation (s : State) (f r : Nat) : Nat :=
  if r < 0x08 then half s.station r
  else if r = 0x18 then b01 s.sync.synced + 2 * b01 s.sync.holdover + 4 * b01 s.isSource + 2 ^ 8 * satNat 255 s.sync.hops
  else if f = 0 ∧ r = 0x10 then (BitVec.ofInt 32 s.sync.rateAdj).toNat
  else 0

/-! ### Ports (Table 24.6) -/

/-- PORT_STATUS. -/
def Port.statusWord (k : Port) : Nat :=
  k.st.code + 2 ^ 3 * b01 k.miswired + 2 ^ 4 * k.lanes.toNat + 2 ^ 20 * laneCount (activeLanes k.txLanes) + 2 ^ 25 * b01 k.key

/-- SHARE_LO or SHARE_HI: the shares and STRICT bits of four tenants. -/
def Port.sharesWord (k : Port) (hi : Bool) : Nat :=
  let t0 := if hi then 4 else 0
  (List.range 4).foldl (fun n i => n + 2 ^ (16 * i) * (k.shares.getD (t0 + i) 0 + 2 ^ 15 * b01 (k.strict.getD (t0 + i) false))) 0

/-- A port block: a VF reads PORT_STATUS and the channel-off times. -/
def State.readPort (s : State) (f p r : Nat) : Nat :=
  let k := s.port p
  if r = 0x08 then k.statusWord
  else if 0xC0 ≤ r ∧ r < 0x100 then half (Tab.get 0 k.offTime ((r - 0xC0) / 8)) r
  else if f ≠ 0 then 0
  else if r = 0x00 then b01 k.enable + 2 * b01 k.encrypt + 2 ^ 2 * k.retune + 2 ^ 5 * k.rotate
  else if 0x10 ≤ r ∧ r < 0x20 then
    k.vcAlloc.getD ((r - 0x10) / 2) 0 % 2 ^ 16 + 2 ^ 16 * (k.vcAlloc.getD ((r - 0x10) / 2 + 1) 0 % 2 ^ 16)
  else if 0x20 ≤ r ∧ r < 0x30 then half (k.sharesWord (decide (0x28 ≤ r))) r
  else if 0x40 ≤ r ∧ r < 0x80 then half (Tab.get 0 k.rxCount ((r - 0x40) / 8)) r
  else if 0x80 ≤ r ∧ r < 0xC0 then half (Tab.get 0 k.txCount ((r - 0x80) / 8)) r
  else 0

/-! ### Route tables, partitions, security status, fault log (Tables 24.7 to 24.9; R537) -/

/-- Route tables; ROUTE_CMD is write-only. -/
def State.readRoute (s : State) (r : Nat) : Nat :=
  if r < 0x80 then wordOf s.net.shapeStage r
  else if r < 0x180 then Tab.get 0 s.net.fenceStage ((r - 0x80) / 4)
  else if r = 0x188 then (s.routeSlot 0).st + 2 ^ 2 * (s.routeSlot 1).st + 2 ^ 4 * s.net.result
  else if r = 0x190 then s.net.coordinator.toNat
  else if 0x200 ≤ r ∧ r < 0x280 then (if s.hasRoute then wordOf s.shape (r - 0x200) else 0)
  else 0

/-- PART_DESC (19 Table 19.4). -/
def Part.descWord (x : Part) : Nat :=
  x.first + 2 ^ 9 * x.count + 2 ^ 18 * x.tenant + 2 ^ 21 * x.vcen.toNat + 2 ^ 25 * b01 x.fixedStep + 2 ^ 26 * x.tdisp + 2 ^ 28 * b01 x.conf

/-- A partition block: a VF reads its own. -/
def State.readPart (s : State) (f p r : Nat) : Nat :=
  if f ≠ 0 ∧ f ≠ p then 0
  else if r = 0 then (s.part p).descWord
  else if r = 4 then (s.part p).flagExp
  else 0

/-- Security status: a VF reads the bits of its own partition. -/
def State.readSec (s : State) (f r : Nat) : Nat :=
  let bits (b : Nat → Bool) : Nat := (List.range 9).foldl (fun n p => n + 2 ^ p * b01 (b p && (f == 0 || f == p))) 0
  if r = 0 then bits (fun p => (s.part p).conf) + (if f = 0 then 2 ^ 9 * b01 s.dbg.en + 2 ^ 10 * b01 s.sec.recovery else 0)
  else if r = 4 ∧ f = 0 then b01 s.sec.linkIde + 2 * bits (fun p => s.sec.ideSel.contains p)
  else 0

/-- The 32 bytes of an entry of the fault log (20 Table 20.4). -/
def FaultEntry.bytes (e : FaultEntry) : List Byte :=
  leBytes 2 e.reason.toNat ++ leBytes 1 e.cls ++ leBytes 1 e.outcome ++ leBytes 4 e.group.toNat ++ leBytes 8 e.step.toNat ++
    leBytes 8 e.time ++ leBytes 2 e.unit.toNat ++ leBytes 2 e.sub.toNat ++ leBytes 4 e.detail.toNat

/-- The fault log: entry n ever written lies at index n mod 1,024, and FAULT_NEXT gives the next index and the saturating count. -/
def State.readFaults (s : State) (r : Nat) : Nat :=
  if r = 0x8000 then s.faultCount % 1024 + 2 ^ 10 * satNat (2 ^ 22 - 1) s.faultCount
  else if r < 0x8000 then
    let i := r / 32
    let oldest := s.faultCount - s.faultLog.length
    let n := (i + 1024 - oldest % 1024) % 1024
    match s.faultLog[n]? with
    | some e => wordOf e.bytes (r % 32)
    | none => 0
  else 0

/-! ### Function blocks (Tables 24.10, 24.11) -/

/-- RING_CTRL. -/
def Ring.ctrlWord (q : Ring) : Nat :=
  q.s + 2 ^ 5 * b01 q.en + 2 ^ 6 * b01 q.stopped + 2 ^ 8 * q.vector + 2 ^ 14 * q.countThr + 2 ^ 23 * q.timeThr + 2 ^ 33 * q.slot

/-- A function block at offset r. -/
def State.readFunc (s : State) (p r : Nat) : Nat :=
  let x := s.func p
  if r < 0x08 then half x.dbPage r
  else if r < 0x10 then half x.stPage r
  else if r = 0x10 then x.poll + 2 ^ 16 * x.dbVector
  else if 0x100 ≤ r ∧ r < 0x500 then
    let w := x.win ((r - 0x100) / 16)
    half (if r % 16 < 8 then w.base else w.len) r
  else if 0x1000 ≤ r ∧ r < 0x1C20 then
    let k := if r < 0x1400 then (r - 0x1000) / 16 else if r < 0x1800 then 64 + (r - 0x1400) / 16
      else if r < 0x1C00 then 128 + (r - 0x1800) / 16 else 192 + (r - 0x1C00) / 16
    half (if r % 16 < 8 then (x.ring k).base else (x.ring k).ctrlWord) r
  else 0

/-! ### Group slots (Table 24.12; R542 to R544) -/

/-- The 32 bytes of a budget entry (14 Table 14.6). -/
def Budget.bytes (b : Budget) : List Byte :=
  leBytes 4 b.allow ++ leBytes 4 b.used ++ leBytes 4 b.debt ++ leBytes 4 b.win ++ leBytes 4 b.ftg ++
    leBytes 1 (b01 b.valid + 2 * b01 b.paused) ++ [0, 0, 0] ++ leBytes 8 b.total

/-- REQ_DATA: a VF reads zeros for an entry whose FUNC is not that VF (R542); FUNC is byte 46 of the generation record (15 Table 15.1). -/
def State.readReqData (s : State) (f g r : Nat) : Nat :=
  let d := (s.group g).reqData
  if f ≠ 0 ∧ fieldN d 78 1 ≠ f then 0 else wordOf d r

/-- A group slot at offset r; a live field reads as it stands in force. -/
def State.readSlot (s : State) (f g r : Nat) : Nat :=
  let k := s.group g
  match r with
  | 0x00 => 2 ^ 2 * b01 k.formed + 2 ^ 3 * b01 k.solver + 2 ^ 4 * k.owner + 2 ^ 8 * b01 k.lead + 2 ^ 12 * k.formErr
  | 0x04 => k.id.toNat
  | 0x08 | 0x0C => half k.stepLast.toNat r
  | 0x10 | 0x14 => half k.salt.toNat r
  | 0x18 => k.leadAt.toNat
  | 0x20 => k.entries
  | 0x24 => k.kvWs
  | 0x28 => k.kvG
  | 0x30 => k.reserve + 2 ^ 16 * k.btTid.toNat + 2 ^ 28 * k.btRegion
  | 0x34 => k.propRegion + 2 ^ 4 * k.tpoint + 2 ^ 10 * k.inputWin + 2 ^ 16 * k.recoveryWin
  | 0x38 => k.eosId.toNat
  | 0x3C => k.serveEntry
  | 0x40 | 0x44 => half k.winT0 r
  | 0x48 | 0x4C => half k.winL r
  | 0x50 => k.loadSrc.toNat
  | 0x58 => b01 k.parity
  | 0x400 => k.memberCount
  | 0x404 => k.memIndex
  | 0x408 => (Recs.get (0 : Place) k.memData k.memIndex).toNat
  | 0x410 => k.reqIndex
  | 0x480 => k.budIndex
  | 0x500 => k.ssIndex
  | 0x708 | 0x70C => half k.seed.toNat r
  | _ =>
    if 0x60 ≤ r ∧ r < 0xA0 then
      match k.voices.getD ((r - 0x60) / 16) (1, 0, 0, 0) with
      | (b, t, p, d) => if r % 16 < 8 then half (b + 2 ^ 16 * t) r else half (p + 2 ^ 32 * d) r
    else if 0x100 ≤ r ∧ r < 0x220 then
      (List.range 4).foldl (fun n i => n + 2 ^ (8 * i) * (Tab.get 0 k.shards (r - 0x100 + i) % 256)) 0
    else if 0x420 ≤ r ∧ r < 0x480 then s.readReqData f g (r - 0x420)
    else if 0x4A0 ≤ r ∧ r < 0x4C0 then wordOf (Recs.get Budget.zero k.serve.budgets k.budIndex).bytes (r - 0x4A0)
    else if 0x600 ≤ r ∧ r < 0x700 then wordOf (Recs.get [] k.serve.stopSets k.ssIndex) (r - 0x600)
    else if 0x714 ≤ r ∧ r < 0x800 then (Tab.get 0 k.params ((r - 0x700) / 4)).toNat
    else 0

/-! ### Core windows (Table 24.13; R545, R546) -/

/-- A region descriptor (04 Table 4.3). -/
def Region.word (d : Region) : Nat :=
  d.first + 2 ^ 16 * d.count + 2 ^ 32 * d.kind + 2 ^ 35 * b01 d.mirror + 2 ^ 36 * d.partner

/-- The window of a core: 0 for a core that is not enabled; a VF reads the cores of its partition, with WS_CORR and SP_CORR 0. -/
def State.readCore (s : State) (f c r : Nat) : Nat :=
  let x := s.core c
  if !(s.isEnabled c) || (f != 0 && !(s.coresOf f).contains c) then 0
  else if r < 0x40 then half (Recs.get (⟨0, 0, 0, false, 0⟩ : Region) x.ws.regions (r / 8)).word r
  else if r < 0x140 then (Recs.get Circ.reset x.sp.circ ((r - 0x40) / 16)).bits / 2 ^ (32 * (r % 16 / 4)) % 2 ^ 32
  else if r = 0x140 then x.ctl.lastMark.toNat
  else if r = 0x144 then x.ctl.lastMarkTick.toNat
  else if r = 0x148 then x.ctl.skipCount
  else if f ≠ 0 then 0
  else if 0x200 ≤ r ∧ r < 0x300 then Tab.get 0 x.ws.corrected ((r - 0x200) / 4)
  else if r = 0x300 then x.sp.corrected
  else 0

/-! ### Readback and debug (R547, R548): 0 while any partition is locked -/

/-- The readback block. -/
def State.readReadback (s : State) (r : Nat) : Nat :=
  let b := s.readback
  if s.anyLocked then 0
  else if r < 0x08 then half (b.core + 2 ^ 9 * b.block + 2 ^ 32 * b.status) r
  else if 0x1000 ≤ r ∧ r < 0x2000 then wordOf b.data (r - 0x1000)
  else if 0x2000 ≤ r ∧ r < 0x2108 then wordOf b.record (r - 0x2000)
  else 0

/-- The debug block. -/
def State.readDebug (s : State) (r : Nat) : Nat :=
  let d := s.dbg
  if s.anyLocked then 0
  else if r < 0x08 then
    half (b01 d.en + 2 * b01 d.stopEn + 2 ^ 2 * d.stopCore + 2 ^ 16 * d.stopMark.toNat + 2 ^ 32 * d.stopOcc) r
  else if r = 0x08 then d.selCore + 2 ^ 9 * d.selSpace + 2 ^ 16 * d.selIndex
  else if 0x1000 ≤ r ∧ r < 0x1800 then wordOf d.data (r - 0x1000)
  else if 0x10000 ≤ r ∧ r < 0x11000 then
    match s.trace[(r - 0x10000) / 16]? with
    | some t => wordOf t.bytes (r % 16)
    | none => 0
  else if 0x20000 ≤ r then
    (List.range 4).foldl (fun n i => n + 2 ^ (8 * i) * (Tab.get (0 : Byte) d.perf (r - 0x20000 + i)).toNat) 0
  else 0

/-! ### The map (Table 24.1, R533) -/

/-- Whether a block reads as assigned to PF0 in the firmware-recovery wait and in pass-through mode (R533). -/
def State.readAssigned (s : State) (o : Nat) : Bool :=
  let always := decide (o < 0x1000) || (decide (0x40000 ≤ o) && decide (o < 0x59000))
  if s.sec.recovery then always
  else if s.passThrough then always || decide (o < 0x30000) || (decide (0x80000 ≤ o) && decide (o < 0x90000))
  else true

/-- The aligned 32-bit word at a BAR0 offset, as a function reads it; what is unassigned reads 0 (R7, R532). -/
def State.readWord (s : State) (f o : Nat) : Nat :=
  if !(s.readAssigned o) then 0
  else if o < 0x1000 then s.readIdentity o
  else if o < 0x2000 then s.readPkg f (o - 0x1000)
  else if o < 0x3000 then s.readPower f (o - 0x2000)
  else if o < 0x4000 then s.readStation f (o - 0x3000)
  else if 0x10000 ≤ o ∧ o < 0x18000 then s.readPort f (o / 0x1000 - 0x10) (o % 0x1000)
  else if 0x20000 ≤ o ∧ o < 0x21000 then (if f = 0 then s.readRoute (o - 0x20000) else 0)
  else if 0x30000 ≤ o ∧ o < 0x30900 then s.readPart f ((o - 0x30000) / 0x100) (o % 0x100)
  else if 0x40000 ≤ o ∧ o < 0x41000 then s.readSec f (o - 0x40000)
  else if 0x50000 ≤ o ∧ o < 0x59000 then (if f = 0 then s.readFaults (o - 0x50000) else 0)
  else if 0x80000 ≤ o ∧ o < 0x110000 then
    let p := (o - 0x80000) / 0x10000
    if f = 0 ∨ f = p then s.readFunc p ((o - 0x80000) % 0x10000) else 0
  else if 0x200000 ≤ o ∧ o < 0x300000 then
    let g := (o - 0x200000) / 0x10000
    if f = 0 ∨ ((s.group g).formed = true ∧ (s.group g).owner = f) then s.readSlot f g (o % 0x10000) else 0
  else if 0x400000 ≤ o ∧ o < 0x448000 then s.readCore f ((o - 0x400000) / 0x400) (o % 0x400)
  else if f ≠ 0 then 0
  else if 0x600000 ≤ o ∧ o < 0x603000 then s.readReadback (o - 0x600000)
  else if 0xC00000 ≤ o ∧ o < 0x1000000 then s.readDebug (o - 0xC00000)
  else 0

/-- 64-bit registers that the device updates, beside those of `wideReg` (R529). -/
def liveWide (o : Nat) : Bool :=
  o == 0x3000 || o == 0x600000 ||
    (decide (0x10000 ≤ o) && decide (o < 0x18000) && decide (0x40 ≤ o % 0x1000) && decide (o % 0x1000 < 0x100)) ||
    (decide (0x200000 ≤ o) && decide (o < 0x300000) && o % 0x10000 == 0x08) ||
    (decide (0x400000 ≤ o) && decide (o < 0x448000) && o % 0x400 == 0x140)

/-- The read of one aligned word: the lower half of a 64-bit register that the device updates latches the upper half, and the next read
of the upper half returns what was latched (R529). -/
def State.readLatched (s : State) (f o : Nat) : Nat × State :=
  let base := o / 8 * 8
  let key := 2 ^ 24 * f + base
  if !(liveWide base) then (s.readWord f o, s)
  else
    let rest := s.pkg.latched.filter (fun p => p.1 != key)
    if o = base then (s.readWord f o, { s with pkg := { s.pkg with latched := rest ++ [(key, s.readWord f (o + 4))] } })
    else match s.pkg.latched.find? (fun p => p.1 == key) with
      | some p => (p.2, { s with pkg := { s.pkg with latched := rest } })
      | none => (s.readWord f o, s)

/-- A word of the BAR2 page (18 Tables 18.9 to 18.12). -/
def State.readPage (s : State) (f o : Nat) : Nat :=
  let x := s.func f
  match o with
  | 0x010 => x.dbHost.toNat
  | 0x014 => x.dbMask.toNat
  | 0x018 => x.dbSp.toNat
  | 0x020 => x.mbo.len.toNat + 2 ^ 16 * x.mbo.dbbit.toNat + 2 ^ 25 * b01 x.mbo.full + 2 ^ 26 * b01 x.mbo.timeout
  | 0x024 => x.mbi.len.toNat + 2 ^ 16 * x.mbi.dbbit.toNat + 2 ^ 25 * b01 x.mbi.full + 2 ^ 26 * b01 x.mbi.withdrawn
  | 0x028 => x.mbTimeout
  | _ =>
    let bytes (t : Tab Byte) (r : Nat) : Nat := (List.range 4).foldl (fun n i => n + 2 ^ (8 * i) * (Tab.get (0 : Byte) t (r + i)).toNat) 0
    if 0x100 ≤ o ∧ o < 0x200 then bytes x.mbo.data (o - 0x100)
    else if 0x200 ≤ o ∧ o < 0x300 then bytes x.mbi.data (o - 0x200)
    else 0

/-- The bytes that a read of `n` bytes at `offset` returns: of words in rising order, each byte from its word. A function that is down
answers no read (22 R507). -/
def State.busRead (s : State) (f : Nat) (bar2 : Bool) (offset n : Nat) : List Byte × State :=
  let first := offset / 4
  let (ws, s) := (List.range ((offset + n + 3) / 4 - first)).foldl (fun (a : List Byte × State) i =>
    let o := 4 * (first + i)
    let (v, t) := if bar2 then (a.2.readPage f o, a.2) else a.2.readLatched f o
    (a.1 ++ leBytes 4 v, t)) (([] : List Byte), s)
  ((ws.drop (offset % 4)).take n, s)

/-! ### Output lands (23 R516, R520 to R522; 19 Table 19.5). Unpowered outputs are released, and the board's resistors hold them. -/

/-- ALERT# is driven low: an emergency, pass-through mode, or supply part-state 7 (23 R520). -/
def State.alertLow (s : State) : Bool :=
  s.power.vaux && (s.power.emergency || s.passThrough || s.power.partS.val == 7)

/-- THERMTRIP# is driven low (23 R521). -/
def State.thermtripLow (s : State) : Bool := s.power.vaux && s.power.thermtrip

/-- PWR_EN is high (21 R476). -/
def State.pwrEnHigh (s : State) : Bool := s.power.vaux && s.power.pwrEn

/-- LASER_EN[k] is high (23 R522). -/
def State.laserEnHigh (s : State) (k : Nat) : Bool := s.power.railFabric && (Recs.get Laser.reset s.lasers k).en

/-- The TAP is held in test-logic reset, with TDO high-impedance and the scan chains unreachable (19 Table 19.5). -/
def State.tapHeld (s : State) : Bool := s.anyLocked

end Sys2Proof.Machine
end

