-- ==== Sys2Proof/WellFormed.lean ====
section
/-! DEFINITION. Well-formed commands: every ZVIS word that a loader lets into a program (08 R172). The other commands
carry only operands of their own types, and each of them is well-formed. -/

namespace Sys2Proof

/-- A command that may be sent: a word that R172 rejects is in no program of an enabled core. -/
def WellFormed (n own : Nat) (i : Instr) : Bool := Machine.wordOk n own i

end Sys2Proof
end

