-- ==== Sys2Proof/Tests/Slice0.lean ====
section
/-! SUPPORT. Small states, the witnesses of the statements' hypotheses, and the checks of encodings and well-formedness. -/

namespace Sys2Proof.Tests
open Sys2Proof.Machine
set_option Elab.async false

/-! ### Small states -/


/-- An element program of one micro-operation. -/
def pr1 : EProg := ⟨[0], []⟩
/-- Core 0 of the small states: A1 to A5 and C0, C1 set, a region of each kind, a program, reduction states, a circular region. -/
def x0 : Core := { Core.reset with
  ctl := { Ctl.reset with regs := [(1, 64), (2, 7), (3, 0x20000001), (4, 512), (5, 0x40000200), (16, 1), (17, 40), (18, 2)]
                          loops := [⟨2, 3⟩] }
  ws := { WStore.reset with
    regions := [(0, ⟨0, 4, 1, false, 0⟩), (1, ⟨4, 4, 2, false, 0⟩), (2, ⟨8, 1, 3, false, 0⟩)]
    records := [(0, ⟨0, true, []⟩)], mem := [(0, 3), (64, 9)] }
  sp := { SPad.reset with circ := [(0, ⟨100, 8, 0, 4, 0, false, false, none⟩)], mem := [(320, 5)] }
  vec := { Vec.reset with
    progs := [(0, pr1)], regs := [(0, 0x3F800000), (1, 0x40000000), (320, 1), (640, 6), (641, 2)]
    red := [(1, { Red.empty with kind := 1 }), (2, { Red.empty with kind := 2 }), (5, { Red.empty with kind := 5 }),
      (6, { Red.empty with kind := 6, c := 0x3F800000, d := 0x40000000 }),
      (7, { Red.empty with kind := 6, sumPhase := true, c := 0x3F800000 })]
    topkK := 4 } }
/-- A shape record of two packages in X; this one lies at 0. -/
def shape2 : List Byte := [1, 0, 2, 1, 1, 0, 1] ++ List.replicate 121 0
/-- Two cores in partition 1, whose group in slot 0 has run a step; tick 100. -/
def w0 : State := { State.reset with
  enabled := [0, 1], cores := [(0, x0), (1, Core.reset)], clk := { Clk.reset with tick := 100 }
  parts := [(1, { Part.reset with first := 0, count := 2, tenant := 1 })]
  groups := [(0, { Group.reset with formed := true, owner := 1, kvWs := 1, kvG := 2, shards := [(0, 1), (1, 1)]
                                    members := [⟨0, 1, 2, [(0, 1)], true⟩, ⟨1, 1, 2, [(0, 1)], true⟩] })]
  steps := [(0, { StepRun.idle with phase := .ended, num := 3 })]
  routes := [(0, ⟨2, shape2, []⟩)], maint := { Maint.reset with running := 0, suspended := none }
  funcs := [(1, { Func.reset with windows := [(0, ⟨0x1000, 4096⟩)] })] }
/-- Core 0 with another control core. -/
def w0ctl (f : Ctl → Ctl) : State := w0.updCtl 0 f
/-- A command waits. -/
def wPending : State := { w0 with pending := [.nop 0 1] }
/-- The counter is held. -/
def wHeld : State := { w0 with clk := { w0.clk with holds := [.frequency] } }
/-- Core 0 has decoded HALT. -/
def wHalted : State := w0ctl (fun k => { k with dec := .halted })
/-- Core 0 waits at a WAITF. -/
def wWaiting : State := w0ctl (fun k => { k with dec := .waiting 1 1 5 })
/-- The last repetition of a loop. -/
def wLast : State := w0ctl (fun k => { k with loops := [⟨1, 3⟩] })
/-- Register 10 holds a record of a MAX state. -/
def wMerge : State := w0.updVec 0 (fun v => { v with regs := Tab.setList 0 v.regs 640 ({ Red.empty with kind := 2 }.record 0) })
/-- The control slot of core 0 is held up to tick 101. -/
def wBusy : State := w0.updCore 0 (fun x => { x with busy := [(7, 101)] })
/-- A SETF is queued for tick 101. -/
def xQueued : Core := { x0 with ctl := { x0.ctl with moveQ := [⟨.setf 0 0 1 9, 101, 0, []⟩] } }
/-- The rows of an absolute operand. -/
def at5 : RowsAt := ⟨[5], ⟨none, 5, false⟩⟩
/-- An open transfer of core 0. -/
def o9 : OpenTid :=
  { tid := 9, form := .data, rows := ⟨none, 5, false⟩, rcvd := 2, total := some 2, complete := true, offset := 0, opcode := 0x69
    head := none, digest := 0, discard := false, mismatch := false, faulty := false, want := 0, got := 0 }
/-- The state with that transfer open. -/
def w9 : State := w0.updXfer 0 (fun x => { x with tids := [o9] })
/-- A data cell for logical core 0 of this package, transfer 9, index 3. -/
def cell9 : Cell :=
  { dest := 0, core := 0, vc := 0, epoch := false, cls := 0, tenant := 1, tid := 9, index := 3, last := false, mark := .none
    payload := List.replicate 32 7 }
/-- Transfer 9 open without its total. -/
def o9open : OpenTid := { o9 with total := none, complete := false, rcvd := 1 }
/-- Transfer 9 with all its cells. -/
def o9met : OpenTid := { o9 with complete := false }
/-- Transfer 9 as a host read of 2 rows. -/
def o9host : OpenTid := { o9 with form := .hostrd, complete := false, total := none, rcvd := 0, want := 2 }
/-- A core's move engine replaced. -/
def w0x (f : Xfer → Xfer) : State := w0.updXfer 0 f
def w9open : State := w0x (fun x => { x with tids := [o9open] })
def w9met : State := w0x (fun x => { x with tids := [o9met] })
def w9host : State := w0x (fun x => { x with tids := [o9host] })
def w9wait : State := w0x (fun x => { x with tids := [o9open], waiting := [⟨8, 0, cell9⟩] })
/-- The head cell's payload of a write of page 0 of core 0. -/
def head9 : List Byte := List.replicate 32 0
/-- A KV-write context that is complete. -/
def kv9 : KvCtx := ⟨9, 1, [⟨8, 2, { cell9 with mark := .kvwr, index := 0, payload := head9 }⟩], 3, some 3⟩
def w9kv : State := w0x (fun x => { x with kvctx := [kv9] })
/-- A slot whose step runs. -/
def wRun : State := w0.updStep 0 (fun r => { r with phase := .running })
/-- No step concerns a core. -/
def wBare : State := { w0 with steps := [] }
def wReply : State := w0x (fun x => { x with replies := [{ cell9 with vc := 3 }], hostOut := [(9, 64, [])] })
def wOut : State := w0x (fun x => { x with outbound := [cell9] })
/-- Core 0 waits at a WAITF of flag 1 for 2; the flag has reached 3. -/
def wReached : State := w0ctl (fun k => { k with dec := .waiting 1 2 5, flags := [(1, 3)] })
/-- A word held for its full queue, the counter held. -/
def wFull : State := (w0ctl (fun k => { k with dec := .held (.setf 0 0 1 9) 300 })).addHold .frequency
def wDone : State := wBare.updCtl 0 (fun k => { k with dec := .halted })
def wDoneStep : State := w0ctl (fun k => { k with dec := .halted })
/-- A BOWG queued for tick 110. -/
def wBowg : State := w0ctl (fun k => { k with laneQ := [⟨.bowg 0 0 ⟨false, 0, 4⟩ 1 0 false 63 0 false 0, 110, 0, [(1, 64)]⟩] })
def wSeq : State := wBare.updDet 0 (fun d => { d with seqTimes := [0] })
def wLong : State := w0ctl (fun k => { k with cursor := 2 ^ 40 - 1 })
def wLate : State := { wRun with clk := { wRun.clk with late := [⟨.transfer 0 9 50, 34, none⟩] } }
def wArrived : State := { w0 with clk := { w0.clk with late := [⟨.transfer 0 9 50, 34, some 50⟩] } }
def wChange : State := { w0 with clk := { w0.clk with change := some (101, 3) } }
def wLoss : State := { w0 with clk := { w0.clk with holds := [.lockLoss, .frequency] } }
def w9late : State := w0x (fun x => { x with tids := [{ o9 with complete := false }] })
/-- Weight store of core 0 replaced. -/
def w0w (f : WStore → WStore) : State := w0.updWs 0 f
def wScrub : State :=
  w0w (fun w => { w with scrubNext := 100, records := [(100, { w.record 100 with crc := ({ w with records := [] }).crcOf 100 })] })
def wScrubKv : State := w0w (fun w => { w with scrubNext := 4 })
def wBad : State := w0w (fun w => { w with bad := [3071], mem := [(0, 3), (12582911, 9)] })
def wScrub1 : State := wScrub.updWs 0 (fun w => { w with scrubRows := [64 * 100 + 1] })
def wDirBad : State := w0w (fun w => { w with bad := [3071], regions := [(0, { Region.unused with kind := 3, first := 3071, count := 1 })] })
/-- A bad block of a mirrored table region of core 0, whose partner stands in block 50 of core 1. -/
def wMirror : State :=
  (w0w (fun w => { w with
    bad := [3071], regions := [(0, { Region.unused with kind := 4, first := 3071, count := 1, mirror := true, partner := 1 })] })).updWs 1
      (fun w => { w with
        regions := [(2, { Region.unused with kind := 4, first := 50, count := 1, partner := 0 })], mem := [(204807, 9)] })
def wSpare : State := w0w (fun w => { w with spareDue := [64 * 3 + 5], sparesUsed := [(5, 63)] })
/-- An open arbitration with no journal entry. -/
def wArb : State := wBare.updDet 0 (fun d => { d with arbOpen := some 40 })
def bowOp0 : BowOp := ⟨0, false, 1, 0, 0, 0, []⟩
def jr0 : Journal := ⟨40, 0, bowOp0, TuneSet.reset, 0, List.replicate 64 0, List.replicate 64 0, 0⟩
def sample0 : Sample := ⟨1, jr0, false⟩
def wArbJ : State := wArb.updLane 0 (fun l => { l with journal := [jr0], samples := [sample0] })
/-- Two MESH_CRC faults in the last hour. -/
def wMesh : State := { w0 with meshFaults := [0, 0] }
/-- The lead of slot 0 with a stopped step, its recovery done. -/
def wRetry : State := (w0.updGroup 0 (fun k => { k with lead := true })).updStep 0 (fun r => { r with retryDue := true })
/-- Port 0 of the small states. -/
def w0p (f : Port → Port) : State := w0.updPort 0 f
def wUp : State := w0p (fun k => { k with st := .up })
/-- A SILENT report about package 1 at the coordinator, in a line of four packages. -/
def shape4 : List Byte := [1, 0, 4, 1, 1, 0, 1] ++ List.replicate 121 0
def wLine : State := { w0 with routes := [(0, ⟨2, shape4, []⟩)] }
def wReported : State := { w0 with groups := [], routes := [(0, ⟨2, shape4, []⟩)], net := { w0.net with reports := [(1, 0, 0)] } }
def wRetire : State := { w0 with maint := { w0.maint with running := 6, arg := 1 } }
/-- Cell 9 waits on port 0 for CTL. -/
def cellCtl : Cell := { cell9 with vc := 1 }
def wSend : State := w0p (fun k => { k with st := .up, outq := [(1, ⟨8, 1, cellCtl⟩)] })
def wSealed : State :=
  w0p (fun k => { k with st := .up, outq := [(1, ⟨8, 1, cellCtl⟩)], policy := true, txKeys := ⟨some ⟨1, 0⟩, none⟩ })
def frame0 : Frame :=
  { seq := 0, ack := 65535, off := 0, type := 0, nak := false, enc := false, key := false, count := 1, cells := []
    lanes := 0, reserved := false, body := [], tag := [] }
def wReplay : State := w0p (fun k => { k with st := .up, resend := [frame0], buffer := [frame0] })
/-- Port 0 has received a frame, its bytes the first of a codeword that was correctable or not. -/
def wRx (f : Frame) (good : Bool) : State := w0p (fun k => { k with st := .up, rxWords := [(leNat (frameBytes f), good)] })
def frameIdle : Frame := { frame0 with type := 1, count := 0 }
def frameData : Frame := { frame0 with body := bodyOf [(1, cellCtl)] }
def wBuffered : State := w0p (fun k => { k with st := .up, buffer := [frame0] })
def wLit : State := { w0 with lasers := [(0, ⟨true, false, true⟩)], power := { w0.power with railFabric := true } }
def wLight : State := w0p (fun k => { k with st := .light })
def wTrain : State := w0p (fun k => { k with st := .train, lanes := 0xFFFF })
def wAlign : State := w0p (fun k => { k with st := .align })
def wHello : State := w0p (fun k => { k with st := .hello, lanes := 0xFFFF })
def hello1 : HelloRec := ⟨1, 1, shapeDigest shape2, false, false⟩
/-- Port 0 after a retraining, with keys or without a policy. -/
def wAgain : State := w0p (fun k => { k with st := .hello, retraining := true, retrainFails := 2, buffer := [frame0] })
def wPolicy : State := w0p (fun k => { k with st := .hello, policy := true, encrypt := true })
def wMiswired : State := w0p (fun k => { k with st := .hello, miswired := true })
def wLaser : State := { wLit with ports := [(0, { Port.reset with st := .up, lanes := 0xFFFF })] }
/-- A laser in fault whose port is enabled. -/
def wDark : State := { wLit with
  lasers := [(0, ⟨true, true, false⟩)], ports := [(0, { Port.reset with enable := true })] }
def wKey (r : Rotation) : State := w0p (fun k => { k with st := .up, policy := true, rotation := r })
/-- A frame under key 0 is unacknowledged while the rotation is asked for; a rotation whose sessions have failed twice. -/
def wOldKey : State := w0p (fun k => { k with
  st := .up, policy := true, rotation := .asked, txKeys := ⟨some ⟨0, 0⟩, none⟩, buffer := [{ frame0 with enc := true }] })
def wFails : State := w0p (fun k => { k with st := .up, policy := true, rotation := .renewing, sessionFails := 2 })
/-- A port that holds one receive key, and two of different sessions. -/
def wOneKey : State := w0p (fun k => { k with st := .up, policy := true, rxKeys := ⟨some ⟨1, 0⟩, none⟩ })
def wNewer : State := w0p (fun k => { k with st := .up, policy := true, rxKeys := ⟨some ⟨1, 0⟩, some ⟨0, 2⟩⟩ })
def wKeys : State := w0p (fun k => { k with st := .up, policy := true, rxKeys := ⟨some ⟨0, 1⟩, some ⟨0, 2⟩⟩ })
/-- A staged shape record that passes, and one that fails. -/
def w0n (f : Net → Net) : State := w0.updNet f
def wStage : State := { w0n (fun n => { n with shapeStage := shape2 }) with routes := [] }
def wBadStage : State := w0n (fun n => { n with shapeStage := List.replicate 128 0 })
def wOther : State := w0n (fun n => { n with shapeStage := shape2, coordinator := 1 })
def wCoord : State := w0n (fun n => { n with shapeStage := shape2 })
def wEpoch (f : Epoch → Epoch) : State := w0n (fun n => { n with epoch := f n.epoch })
/-- Group slot 0 replaced. -/
def w0g (f : Group → Group) : State := w0.updGroup 0 f
def wLead : State := w0g (fun k => { k with lead := true, solver := true })
def sub1 : SubRef := ⟨1, 0, 7⟩
/-- A drone visit of core 0 is due. -/
def wDrone : State := { wLead with station := 50000000000 }
/-- A solver group's step waits to start. -/
def wQueued : State :=
  { wLead.updServe 0 (fun v => { v with stepq := [(sub1, [0x10, 0, 5, 0], [])], gen := some ⟨1, []⟩ }) with
    images := [(0, { Image.empty with loaded := true, entries := [(5, 0, ⟨0, 10, 1, 1⟩)] })]
    funcs := [(1, { Func.reset with rings := [(193, { Ring.reset with en := true })] })], dir := { w0.dir with ready := true } }
def wStart : State :=
  { w0.updStep 0 (fun r => { r with phase := .starting, startCycle := 36, decodeAt := some 36, readyAt := some 92 }) with
    images := [(0, { Image.empty with loaded := true })], dir := { w0.dir with ready := true } }
def wReporting : State := { wLead with steps := [(0, { StepRun.idle with phase := .running, num := 3 })] }
def okReport : MemberReport := noReport
/-- Two prefill rows to commit. -/
def row0 : BatchRow := ⟨4, 9, 0, true, 2, 0, false⟩
def req0 : Req := { Req.empty with id := 9, state := .prefill, func := 1, unrun := [1, 2, 3] }
def wCommit : State :=
  (wLead.updStep 0 (fun r => { r with phase := .committing, batch := [row0, row0] })).updServe 0 (fun v => { v with reqs := [(4, req0)] })
def wCommitted : State := wLead.updStep 0 (fun r => { r with phase := .committing })
def wCancel : State := wLead.updServe 0 (fun v => { v with cancels := [(sub1, 9)] })
def wCancelled : State := wLead.updServe 0 (fun v => { v with cancels := [(sub1, 9)], reqs := [(4, req0)] })
def wFreeing (l : List Place) : State := w0.updServe 0 (fun v => { v with freeing := [(3, l)] })
def spilling (l : List Place) : Req := { req0 with state := .spilling, waitOn := l }
def reloading : Req := { req0 with state := .reloading, waitOn := [1], pages := [4] }
def w0req (r : Req) : State := wLead.updServe 0 (fun v => { v with reqs := [(4, r)] })
/-- Bucket block of core 0: a region of kind 3. -/
def kdJob0 : KdJob := { core := 0, put := false, del := false, tid := 9, row := 5, items := [[1, 0, 0, 0, 0, 0, 0, 0], [2, 0, 0, 0, 0, 0, 0, 0]], done := 0 }
def wLook : State := { w0 with kdq := [kdJob0] }
def wLookBad : State := { w0.updWs 0 (fun w => { w with bad := [8] }) with kdq := [kdJob0] }
def wPut : State := { w0 with kdq := [{ kdJob0 with put := true, items := [List.replicate 16 0, List.replicate 16 1] }] }
def wClear : State := { w0 with dir := { w0.dir with clearing := some (0, 0) } }
def subOf (l : List Byte) : Sub := ⟨0, l ++ List.replicate (64 - l.length) 0⟩
def w0sub (f : Nat) (x : Sub) : State := { w0 with funcs := [(f, { Func.reset with windows := [(0, ⟨0x1000, 4096⟩)], subs := [x] })] }
def dirSub : Sub := subOf [0x13, 0, 0, 0, 7, 0, 0, 0, 1]
def swapSub : Sub := subOf [0x12, 1]
/-- A manifest that checks 1 to 6 pass cannot be written out: SHA-512 and the signature are open. -/
def wSwap (f : Swap → Swap) : State := w0g (fun k => { k with lead := true, swap := f k.swap })
def wMember (f : Swap → Swap) : State := w0g (fun k => { k with swap := f k.swap })
def chunk0 : Chunk :=
  { layer := 0, enc := 0, dfmt := 0, square := false, transpose := false, formed := true, encLen := 2, rawLen := 4356, rb := 1, cb := 1
    core := 0, first := 0, fileOff := 0, srcHash := Config.sha512 [1, 2], placedHash := [], attempts := 1, verified := false, held := none, stream := 0 }
def wMembers : State := wMember id
def wChunk : State := wMember (fun w => { w with phase := .staging, chunks := [chunk0] })
def wStall : State := wMember (fun w => { w with phase := .staging, chunks := [chunk0], stalled := some (0, 2) })
/-- A function's first submission; the group in slot 0 is led and owned by function 1. -/
def wSub (x : Sub) : State :=
  { wLead.updGroup 0 (fun k => { k with solver := false, id := 5 }) with
    funcs := [(1, { Func.reset with windows := [(0, ⟨0x1000, 4096⟩)], subs := [x] })] }
def withGroup (l : List Byte) : Sub := ⟨0, l ++ List.replicate (56 - l.length) 0 ++ [5, 0, 0, 0, 0, 0, 0, 0]⟩
def wSubReq (x : Sub) (r : Req) : State := (wSub x).updServe 0 (fun v => { v with reqs := [(4, { r with id := 9 })] })
def idleReq : Req := { Req.empty with id := 9, state := .idle, func := 1 }
def spilledReq : Req := { Req.empty with id := 9, state := .spilled, func := 1 }
def stepSub : Sub := subOf [0x10, 0, 5, 0, 7, 0, 0, 0, 5]
def imageSub : Sub := subOf [0x11, 0, 0, 0, 7, 0, 0, 0, 5]
def file0 : ImageFile := ⟨[], false, 1, 1, 0, [], false, [], [], [], [], [], [], [], []⟩
def wUpF (f : Func → Func) : State :=
  { w0 with maint := { w0.maint with hostUp := true }, funcs := [(1, f { Func.reset with dbPage := 0x1000, stPage := 0x2000 })] }
def msg : List Byte := [0x30, 0, 0, 0, 1, 0, 0, 0]
/-- A member section of one formed chunk over the four weight blocks of core 0, placed for N = 2. -/
def section0 : List Byte :=
  [1, 0, 0, 0, 1, 0, 0, 0] ++ List.replicate 56 0 ++ [0, 0, 0, 64, 1, 0, 0, 0, 0x10, 0x44, 0, 0, 4, 0, 1, 0] ++ List.replicate 144 0 ++
    List.replicate 8 0
/-- A manifest for members with N 2 to 2 and one layer; member 0's section has 232 bytes. -/
def manifest0 : List Byte :=
  [0x4C, 0x4D, 0x50, 0x4B, 1, 0, 0, 0, 2, 0, 0, 0, 2, 0, 0, 0, 2, 0, 2, 0, 1, 0, 0, 0] ++ List.replicate 240 0 ++ [232]
def swapGood : Sub := subOf ([0x12, 1, 0, 0, 7, 0, 0, 0, 0, 0, 0, 0])
def wSwapFront : State :=
  { wSwap (fun w => w) with funcs := [(0, { Func.reset with windows := [(0, ⟨0x1000, 4096⟩)], subs := [swapGood] })] }
def wSwapServer : State := wSwapFront.updGroup 0 (fun k => { k with loadSrc := 1 })
def i3c : Asker := .i3c
def wBusyMaint : State := { w0 with maint := { w0.maint with running := 9 } }
def wFw : State := { w0 with maint := { w0.maint with running := 7 }, sec := { w0.sec with fwLen := some 300 } }
def wConf : State := { w0 with parts := [(1, { (w0.part 1) with tdisp := 1, conf := true })] }
def key0 : List Byte := 4 :: List.replicate 132 1
def wNext (n : Nat) : State := wLead.updSpill 0 (fun k => { k with next := true, waiting := [1], repeats := n })
def vf1 : Requester := .func 1
def wSpdm (n : Nat) : State := w0.setSpdm ⟨vf1, n, 0⟩
def wIdent (n : Nat) : State := (wSpdm n).updSec (fun x => { x with identity := true })
def wBound : State := { w0 with sec := { w0.sec with ideSel := [1] } }
def wLocked : State := { w0 with parts := [(1, { (w0.part 1) with tdisp := 1, conf := true })] }
def wSess : State := w0.setSpdm ⟨.func 0, 5, 0⟩
def wLimited (n : Nat) : State :=
  (w0p (fun k => { k with st := .limited, sessionFails := n })).updSec (fun x => { x with identity := true })
def wPower (f : Power → Power) (order : Nat) : State := { w0 with power := f w0.power, maint := { w0.maint with order := order } }
def wParent : State :=
  { w0p (fun k => { k with st := .up }) with sync := { w0.sync with synced := true }, net := { w0.net with coordinator := 1 } }
def wSource : State := { w0p (fun k => { k with st := .up }) with sync := { w0.sync with synced := true } }
def wPass : State := { w0 with passThrough := true, power := { w0.power with tmax := 95 } }
def wPause : State := { w0 with maint := { w0.maint with running := 7, pauseAsked := true, queue := [(6, 1)] } }
def wHostUp : State := { w0 with maint := { w0.maint with hostUp := true } }
def wSlots (f : Group → Group) : State := wHostUp.updGroup 0 f
def forming0 : Forming := ⟨[1, 2], 0, false, [], []⟩
def fields0 : GroupFields := ⟨0, false, 1, 4, 5, 0, 0, 0, 0, 0, 0, 0, 0, 0, 0⟩
/-- No step has run. -/
def wWatchdog : State := { w0 with steps := [] }
def wDronePass : State := wArbJ.updSp 0 (fun m => { m with unc := 3 })
def wEpochAck : State := wEpoch (fun e => { e with phase := .staging, waiting := [0, 1] })
def wEpochLate : State := wEpoch (fun e => { e with phase := .switching, waiting := [0, 1] })
def wWaveNext : State := wEpoch (fun e => { e with phase := .draining })
def wWaveLast : State := wEpoch (fun e => { e with phase := .draining, waves := 1 })
def wStagedFails : State := wSwap (fun w => { w with phase := .staging })
def wReleaseAll : State := wMember (fun w => { w with phase := .staging })
def wLoadedOne : State := wSwap (fun w => { w with phase := .loading })
def wRequest : State := wSub (withGroup [1])
def wCancelSub : State := wSub (withGroup [2])
def wContinueNo : State := wSub (withGroup [3])
def cont9 : Sub := withGroup ([3, 0, 0, 0, 7, 0, 0, 0, 9, 0, 0, 0] ++ List.replicate 12 0 ++ [1])
def spill9 : Sub := withGroup [4, 0, 0, 0, 7, 0, 0, 0, 9]
def reload9 : Sub := withGroup [5, 0, 0, 0, 7, 0, 0, 0, 9]
def release9 : Sub := withGroup [6, 0, 0, 0, 7, 0, 0, 0, 9]
def wStepTaken : State := (wSub stepSub).updGroup 0 (fun k => { k with solver := true })
def wKicked : State := wUpF (fun f => { f with poll := 4 })
def wKickedAgain : State := wUpF (fun f => { f with fetching := true })
def wFetched : State := wUpF (fun f => { f with fetching := true, rings := [(64, { Ring.reset with en := true, p := 2 })] })
def wThreshold : State := wUpF (fun f => { f with rings := [(64, { Ring.reset with en := true, p := 2, since := 1, timeThr := 8 })] })
def wSentFull : State := wUpF (fun f => { f with mbo := { f.mbo with full := true } })
def wMboRead : State := wUpF (fun f => { f with mbo := { f.mbo with full := true, len := 8, data := [(0, 0x30)] } })
def wDelivered : State := wUpF (fun f => { f with mbiWait := [msg] })
def wMbiBack : State := wUpF (fun f => { f with mbi := { f.mbi with full := true } })
def wDbClear : State := wUpF (fun f => { f with dbHost := 7 })
def wDbMaskRings : State := wUpF (fun f => { f with dbHost := 4 })
def slot1 : MgtSlot := ⟨1, true, false, [1]⟩
def wMgtFull : State := (wUpF id).updSec (fun x => { x with mgtSlots := [slot1] })
def wColdBad : State := wPower (fun p => { p with vana := true, vmain := true }) 9
def wVana : State := wPower (fun p => { p with vaux := true }) 2
def wVmain : State := wPower (fun p => { p with vaux := true, pwrEn := true }) 2
def wUngate : State := wPower (fun p => { p with railCore := true, ungated := [0] }) 3
def wTrip : State := wPower (fun p => { p with vaux := true }) 9
def wSampleHot : State := { (wPower (fun p => { p with vaux := true }) 9) with clk := { w0.clk with fstep := 14 } }
def wBudget : State := wPower (fun p => { p with vaux := true, p1ms := 1900 }) 9
def wDelayFirst : State := { wParent with sync := { wParent.sync with synced := false } }
def wSourceSynced : State := { w0 with power := { w0.power with railFabric := true } }
def wStationSet : State := { wHostUp with groups := [] }
def wStationNo : State := { wHostUp with sync := wParent.sync }
def wFreqBusy : State := { wHostUp with maint := { wHostUp.maint with running := 9 } }
def wFreqBad : State := { wHostUp with power := { wHostUp.power with freqStage := [] } }
def wFormRange : State := wSlots (fun k => { k with formed := false, lead := true })
def goodForm (k : Group) : Group := { k with formed := false, lead := true, winL := 1000000, memberCount := 2, memData := [(0, 0), (1, 1)] }
def wFormFuture : State := wSlots (fun k => { goodForm k with winT0 := 9 })
def wDissolved : State := wSlots (fun k => { k with lead := true })
def wDissolveNo : State := wSlots (fun k => { k with lead := true, serve := { k.serve with reqs := [(4, req0)] } })
def wMemberTakes : State := w0g (fun k => { k with formed := false })
def wFormLate : State := w0g (fun k => { k with forming := some forming0 })
def wFormFails : State := w0g (fun k => { k with forming := some { forming0 with repeats := 3 } })
def wDebugLocked : State := { wConf with maint := wHostUp.maint }
def wGoReads : State := { wHostUp with cores := [(0, { x0 with ws := { x0.ws with mem := [], records := [(0, { (x0.ws.record 0) with crc := ({ x0.ws with mem := [] }).crcOf 0 })] } })] }
def wVcAllocNo : State := { wUp with maint := wHostUp.maint }

/-- The core whose SETF for a later tick waits. -/
def wTimed : State := wHeld.setCore 0 { wHeld.core 0 with
  ctl := ((wHeld.core 0).ctl.past (.setf 0 200 1 1)).setQueue .move [wHeld.entryOf 0 (.setf 0 200 1 1)] }

/-- The held SETF as it enters its queue, and the core it has entered. -/
def eHeld : QEntry := ⟨.setf 0 0 1 9, 300, (wFull.core 0).ctl.offset - 1, (wFull.core 0).ctl.regs⟩
/-- The core that decodes on. -/
def wEntered : State := wFull.setCore 0 { wFull.core 0 with
  ctl := { (wFull.core 0).ctl.setQueue .move [eHeld] with dec := .decoding } }

/-- The KV layout of the group in slot 0. -/
def kv0 : KvLayout := { slot := 0, ws := 1, g := 2, shards := [(0, 1), (1, 1)] }

/-- No step, and held for a change of frequency or with its reference clock up. -/
def wStill : State := { w0 with steps := [] }
def wStillHeld : State := { wStill with clk := { wStill.clk with holds := [.frequency] } }
def wStillClocked : State := { wStill with power := { wStill.power with railFabric := true }, clk := { wStill.clk with refclk := true } }
/-- Cells of SIGNAL, of the running step and of the next, and those that have come for core 0. -/
def cellSig : Cell := { cell9 with mark := .signal, tid := 63, payload := leBytes 8 (w0.core 0).ctl.ran.toNat ++ List.replicate 24 0 }
def cellSigNext : Cell := { cellSig with payload := leBytes 8 ((w0.core 0).ctl.ran.toNat + 1) ++ List.replicate 24 0 }
def wMeshCells : State := { w0 with mesh := [⟨0, 0, cell9⟩, ⟨0, 1, cellSig⟩] }
def wMeshOpen : State := { w9open with mesh := [⟨8, 0, cell9⟩] }
def wMeshNext : State := { w0 with mesh := [⟨1, 1, cellSigNext⟩] }
/-- A wait that has lasted past its bound. -/
def wTooLate : State := { wReached with clk := { wReached.clk with heldTotal := 2 ^ 30 } }
def wLateHeld : State := { wLate with clk := { wLate.clk with heldRun := 2 ^ 30 } }
def o9short : OpenTid := { o9 with complete := false }
/-- Directory jobs with one key left, a put at a bad bucket block, a directory to set ready, one that is written back. -/
def kdLast : KdJob := { kdJob0 with items := [[1, 0, 0, 0, 0, 0, 0, 0]] }
def kdPut0 : KdJob := { kdJob0 with put := true, items := [List.replicate 16 0, List.replicate 16 1] }
def wLookLast : State := { wLook with kdq := [kdLast] }
def wPutBad : State := { wPut with cores := wLookBad.cores }
def wDirReady : State := { w0 with dir := { w0.dir with ready := true }, pkg := { w0.pkg with fresh := [(0x1024, 1)] } }
def wWays : State := [0, 1, 2, 3].foldl (fun s i => s.setWay 0 i (BitVec.ofNat 8 i :: 0 :: List.replicate 12 0 ++ [1, 0])) w0
/-- A chunk whose decoded bytes fail, where it is expected. -/
def chunkBad : Chunk := { chunk0 with encLen := 1, srcHash := 0 :: Config.sha512 [1] }
def wChunkIdle : State := wChunk.updSwap 0 (fun w => { w with phase := .none })
def wChunkBad : State := wChunk.updSwap 0 (fun w => { w with chunks := [chunkBad] })
/-- An activity is paused; pass-through mode may be left. -/
def wSuspended : State := { w0 with maint := { w0.maint with suspended := some (7, 0) } }
def wLeave : State :=
  { wPass with
    power := { w0.power with tmax := 80, vaux := true, vana := true, vmain := true }, maint := { w0.maint with bootMode := 1 } }
/-- Slot 3 holds the id that slot 0 is to form under. -/
def wHoldsId : State :=
  { w0 with groups := (w0.groups.map (fun p => (p.1, { p.2 with formed := false }))) ++
      [(3, { Group.reset with formed := true, id := (w0.group 0).id })] }
def formingLast : Forming := { forming0 with repeats := 3 }
def wNoGroup : State := { wHostUp with groups := [] }
def wRefused : State := { wHostUp with pkg := { wHostUp.pkg with refused := true, fresh := [(0x1010, 1)] } }
def wHostIdle : State := { wHostUp with steps := [] }
def hello5 : HelloRec := { hello1 with place := 5 }
/-- A retraining, the port as it stands once a frame has been taken, a step that has met a fault. -/
def wRetrain : State := w0p (fun k => { k with st := .train, retraining := true, lanes := 0xF })
def rxLeft (f : Frame) (good : Bool) : Port := { (wRx f good).port 0 with rxPos := 4096 }
def badReport : MemberReport := { okReport with status := 2, skips := 3 }

/-- The CRC of a block depends on its bytes and its record's body alone. -/
theorem crcOf_agrees (w v : WStore) (b : Nat) (hm : w.mem = v.mem) (hb : (w.record b).body = (v.record b).body) :
    w.crcOf b = v.crcOf b := by
  simp [WStore.crcOf, WStore.block, hm, hb]

/-- Cutting out all of a slice gives it back. -/
theorem sliceB_whole (l : List Byte) (o n : Nat) : sliceB (sliceB l o n) 0 n = sliceB l o n := by
  have h : (sliceB l o n).length = n := by simp [sliceB]
  generalize sliceB l o n = t at h
  simp [sliceB, ← h]

/-- The HELLO of the neighbour fits, whatever SHA-512 gives for the shape record. -/
theorem hello_fits : wHello.helloOk 0 hello1 = true := by
  have hp : wHello.peer 0 = some 1 := by decide +kernel
  have hs : wHello.shape = shape2 := by decide +kernel
  have hd : sliceB hello1.digest 0 8 = shapeDigest shape2 := sliceB_whole _ 0 8
  have he : (wHello.port 0).policy = false := by decide +kernel
  simp only [State.helloOk, hp, hs, hd, he]
  simp [hello1]

/-! ### Words written out field by field from Tables 8.1 to 8.11, highest bits first -/

theorem test_decode_control :
    decodeZvis 3 (0#31 ++ 0xFFF#12 ++ 0#1 ++ 0xABC#12 ++ 0x02#8) = some (.loop 3 0xABC false 0xFFF) ∧
    decodeZvis 3 (0#34 ++ 9#4 ++ 62#6 ++ 1#12 ++ 0x08#8) = some (.signal 3 1 62 9) ∧
    decodeZvis 3 (0#28 ++ 0xF00D#16 ++ 0#12 ++ 0x0A#8) = some (.mark 3 0 0xF00D) := by
  decide +kernel

theorem test_decode_address :
    decodeZvis 3 (0#6 ++ 0xDEADBEEF#32 ++ 1#1 ++ 23#5 ++ 0#12 ++ 0x10#8) = some (.mova 3 0 23 true 0xDEADBEEF) ∧
    decodeZvis 3 (0#13 ++ 0#15 ++ 22#5 ++ 0#1 ++ 4#5 ++ 3#5 ++ 2#12 ++ 0x12#8) = some (.suba 3 2 3 4 false 22) ∧
    decodeZvis 3 (0#21 ++ 0xFED#12 ++ 7#5 ++ 1#1 ++ 8#5 ++ 0#12 ++ 0x16#8) = some (.lda 3 0 8 true 7 0xFED) := by
  decide +kernel

theorem test_decode_lane :
    decodeZvis 3 (0#17 ++ 62#6 ++ 6#4 ++ 1#1 ++ 5#4 ++ 0xABC#12 ++ 7#12 ++ 0x20#8) = some (.string 3 7 ⟨true, 5, 0xABC⟩ 6 62) ∧
    decodeZvis 3 (2#3 ++ 0x7E#8 ++ 0#1 ++ 3#2 ++ 30#6 ++ 1#1 ++ 9#4 ++ 2#2 ++ 4#4 ++ 17#13 ++ 0#12 ++ 0x23#8) =
      some (.bow 3 0 ⟨2, 4, 17⟩ 9 true 30 3 false 0x7E 2) ∧
    decodeZvis 3 (11#8 ++ 1#1 ++ 2#2 ++ 61#6 ++ 0#1 ++ 8#4 ++ 6#4 ++ 1#1 ++ 5#4 ++ 100#13 ++ 0#12 ++ 0x24#8) =
      some (.bowg 3 0 ⟨true, 5, 100⟩ 6 8 false 61 2 true 11) ∧
    decodeZvis 3 (0#27 ++ 1#1 ++ 4#3 ++ 10#4 ++ 30#5 ++ 13#4 ++ 0#12 ++ 0x27#8) = some (.drain 3 0 13 30 10 4 true) := by
  decide +kernel

theorem test_decode_vector :
    decodeZvis 3 (0#15 ++ 3#3 ++ 2#2 ++ 29#5 ++ 1#2 ++ 6#4 ++ 6143#13 ++ 0#12 ++ 0x40#8) = some (.vld 3 0 ⟨1, 6, 6143⟩ 29 2 3) ∧
    decodeZvis 3 (0#5 ++ 7#3 ++ 40#6 ++ 0#5 ++ 0#2 ++ 9#5 ++ 2#2 ++ 8#5 ++ 1#2 ++ 16#5 ++ 15#4 ++ 0#12 ++ 0x43#8) =
      some (.vprog 3 0 ⟨15, 16, 1, 2, 0, 8, 9, 0, 40, 7⟩) ∧
    decodeZvis 3 (0#6 ++ 0x81#8 ++ 1#1 ++ 3#3 ++ 2#2 ++ 1#1 ++ 5#4 ++ 21#5 ++ 0#1 ++ 1#2 ++ 1#1 ++ 6#4 ++ 19#5 ++ 0#1 ++ 0#12 ++ 0x44#8) =
      some (.vcvt 3 0 ⟨false, 19, 6, true, 1, false, 21, 5, true, 2, 3, true, 0x81⟩) ∧
    decodeZvis 3 (0#16 ++ 12#5 ++ 1#1 ++ 64#7 ++ 3#5 ++ 2#5 ++ 1#5 ++ 0#12 ++ 0x45#8) = some (.vperm 3 0 1 2 3 64 true 12) := by
  decide +kernel

theorem test_decode_reduction :
    decodeZvis 3 (0#8 ++ 5#4 ++ 0x82#8 ++ 1#2 ++ 1#1 ++ 8#4 ++ 62#6 ++ 17#5 ++ 6#3 ++ 1#3 ++ 0#12 ++ 0x46#8) =
      some (.vredAcc 3 0 6 17 62 8 true 1 0x82 5) ∧
    decodeZvis 3 (0#22 ++ 33#6 ++ 18#5 ++ 17#5 ++ 6#3 ++ 5#3 ++ 0#12 ++ 0x46#8) = some (.vredSmout 3 0 6 17 18 33) ∧
    decodeZvis 3 (0#15 ++ 0x82#8 ++ 2#2 ++ 1#1 ++ 7#4 ++ 33#6 ++ 18#5 ++ 5#3 ++ 0#12 ++ 0x47#8) =
      some (.vscan 3 0 5 18 33 7 true 2 0x82) ∧
    decodeZvis 3 (0#27 ++ 9#4 ++ 63#6 ++ 18#5 ++ 1#2 ++ 0#12 ++ 0x48#8) = some (.vtopkAcc 3 0 18 63 9) := by
  decide +kernel

theorem test_decode_move :
    decodeZvis 3 (0#6 ++ 2#3 ++ 0#5 ++ 5#3 ++ 31#5 ++ 4#3 ++ 3#2 ++ 15#4 ++ 8#13 ++ 0#12 ++ 0x60#8) =
      some (.spfill 3 0 ⟨3, 15, 8⟩ 4 31 5 0 2) ∧
    decodeZvis 3 (7#5 ++ 2#3 ++ 1#1 ++ 3#4 ++ 9#13 ++ 0#1 ++ 0#4 ++ 5#13 ++ 0#12 ++ 0x61#8) =
      some (.spcopy 3 0 ⟨false, 0, 5⟩ ⟨true, 3, 9⟩ 2 7) ∧
    decodeZvis 3 (0#1 ++ 2#2 ++ 5#4 ++ 6#13 ++ 63#6 ++ 1#1 ++ 1#1 ++ 4#4 ++ 0x801#12 ++ 0#12 ++ 0x62#8) =
      some (.wsrd 3 0 ⟨true, 4, 0x801⟩ true 63 ⟨2, 5, 6⟩) ∧
    decodeZvis 3 (0#1 ++ 0xABC#12 ++ 13#4 ++ 1#1 ++ 1#2 ++ 5#4 ++ 6#13 ++ 6#3 ++ 9#4 ++ 0#12 ++ 0x65#8) =
      some (.kvwrRemote 3 0 9 6 ⟨1, 5, 6⟩ 13 0xABC) := by
  decide +kernel

theorem test_decode_transfer :
    decodeZvis 3 (0xABC#12 ++ 11#4 ++ 3#2 ++ 9#4 ++ 5#3 ++ 2#2 ++ 7#4 ++ 6#13 ++ 0#12 ++ 0x66#8) =
      some (.send 3 0 ⟨2, 7, 6⟩ 5 9 3 11 0xABC) ∧
    decodeZvis 3 (0#18 ++ 0xABC#12 ++ 11#4 ++ 2#2 ++ 9#4 ++ 14#4 ++ 0#12 ++ 0x67#8) = some (.sendacc 3 0 14 9 2 11 0xABC) ∧
    decodeZvis 3 (0#25 ++ 14#4 ++ 0xABC#12 ++ 1#3 ++ 0#12 ++ 0x69#8) = some (.recvAccumulator 3 0 0xABC 14) ∧
    decodeZvis 3 (1#2 ++ 9#4 ++ 6#13 ++ 6143#13 ++ 287#9 ++ 4#3 ++ 0#12 ++ 0x69#8) = some (.recvOnDieRead 3 0 287 6143 ⟨1, 9, 6⟩) := by
  decide +kernel

theorem test_decode_service :
    decodeZvis 3 (0xABC#12 ++ 5#3 ++ 2#2 ++ 7#4 ++ 6#13 ++ 12#4 ++ 62#6 ++ 0#12 ++ 0x6B#8) = some (.hostwr 3 0 62 12 ⟨2, 7, 6⟩ 5 0xABC) ∧
    decodeZvis 3 (0#6 ++ 0xABC#12 ++ 12#4 ++ 5#3 ++ 2#2 ++ 7#4 ++ 6#13 ++ 0#12 ++ 0x6C#8) = some (.kdlook 3 0 ⟨2, 7, 6⟩ 5 12 0xABC) ∧
    decodeZvis 3 (0#9 ++ 0xABC#12 ++ 1#1 ++ 5#3 ++ 2#2 ++ 7#4 ++ 6#13 ++ 0#12 ++ 0x6D#8) = some (.kdput 3 0 ⟨2, 7, 6⟩ 5 true 0xABC) := by
  decide +kernel

/-- Reserved opcodes, reserved selectors and reserved bits name no instruction (08 R171, R172). -/
theorem test_decode_reserved :
    decodeZvis 3 (0#44 ++ 0#12 ++ 0x0B#8) = none ∧ decodeZvis 3 (0#41 ++ 6#3 ++ 0#12 ++ 0x46#8) = none ∧
    decodeZvis 3 (0#41 ++ 5#3 ++ 0#12 ++ 0x69#8) = none ∧ decodeZvis 3 (1#1 ++ 0#43 ++ 0#12 ++ 0x00#8) = none ∧
    decodeZvis 3 (0#13 ++ 0#15 ++ 24#5 ++ 0#1 ++ 4#5 ++ 3#5 ++ 2#12 ++ 0x12#8) = none := by
  decide +kernel

/-! ### Well-formedness: for each check a word that it refuses, beside one at the boundary that it lets pass (08 R172) -/

theorem test_illFormed_registers :
    WellFormed 2 0 (.mova 0 0 23 false 23) = true ∧ WellFormed 2 0 (.mova 0 0 24 false 23) = false ∧
    WellFormed 2 0 (.mova 0 0 23 false 24) = false ∧ WellFormed 2 0 (.adda 0 0 0 24 true 0) = false ∧
    WellFormed 2 0 (.adda 0 0 0 0 false 24) = false ∧ WellFormed 2 0 (.vperm 0 0 0 0 0 1 true 24) = false ∧
    WellFormed 2 0 (.spfill 0 0 ⟨0, 0, 0⟩ 0 0 0 24 0) = false := by
  decide +kernel

theorem test_illFormed_forms :
    WellFormed 2 0 (.vld 0 0 ⟨1, 1, 0⟩ 0 0 0) = true ∧ WellFormed 2 0 (.vld 0 0 ⟨0, 1, 0⟩ 0 0 0) = false ∧
    WellFormed 2 0 (.spcopy 0 0 ⟨false, 1, 0⟩ ⟨true, 1, 0⟩ 0 0) = false ∧
    WellFormed 2 0 (.wsrd 0 0 ⟨false, 1, 0⟩ true 0 ⟨0, 0, 0⟩) = false := by
  decide +kernel

theorem test_illFormed_codes :
    WellFormed 2 0 (.drain 0 0 0 0 10 0 false) = true ∧ WellFormed 2 0 (.drain 0 0 0 0 11 0 false) = false ∧
    WellFormed 2 0 (.string 0 0 ⟨true, 0, 0⟩ 11 0) = false ∧ WellFormed 2 0 (.vscan 0 0 0 0 0 0 false 3 0) = false ∧
    WellFormed 2 0 (.vprog 0 0 ⟨0, 0, 3, 0, 0, 0, 0, 0, 0, 0⟩) = false ∧
    WellFormed 2 0 (.vcvt 0 0 ⟨false, 0, 0, false, 0, false, 0, 0, false, 3, 0, false, 0⟩) = false ∧
    WellFormed 2 0 (.spfill 0 0 ⟨0, 0, 0⟩ 0 0 6 0 0) = false ∧ WellFormed 2 0 (.sendacc 0 0 0 0 3 0 0) = false := by
  decide +kernel

/-- Fields that are unused in the form selected are 0. -/
theorem test_illFormed_unused :
    WellFormed 2 0 (.loop 0 0 true 7) = true ∧ WellFormed 2 0 (.loop 0 0 true 8) = false ∧
    WellFormed 2 0 (.lda 0 0 0 false 0 64) = false ∧ WellFormed 2 0 (.lda 0 0 0 false 1 0) = false ∧
    WellFormed 2 0 (.bow 0 0 ⟨1, 0, 0⟩ 0 false 0 0 true 16 0) = false ∧ WellFormed 2 0 (.bowg 0 0 ⟨true, 0, 0⟩ 0 0 false 0 0 true 16) = false ∧
    WellFormed 2 0 (.window 0 0 0 true 1 0 0) = false ∧ WellFormed 2 0 (.window 0 0 0 false 0 1 0) = false ∧
    WellFormed 2 0 (.vprog 0 0 ⟨0, 0, 0, 0, 0, 1, 0, 0, 0, 0⟩) = false ∧ WellFormed 2 0 (.vprog 0 0 ⟨0, 0, 1, 0, 0, 0, 0, 0, 1, 0⟩) = false ∧
    WellFormed 2 0 (.vcvt 0 0 ⟨true, 16, 0, false, 0, false, 0, 0, false, 0, 0, false, 0⟩) = false ∧
    WellFormed 2 0 (.vredInit 0 0 0 0 2 false 1 0) = false ∧ WellFormed 2 0 (.vredInit 0 0 0 0 1 false 0 1) = false ∧
    WellFormed 2 0 (.wswr 0 0 ⟨true, 0, 0⟩ false 1 ⟨1, 0, 0⟩) = false := by
  decide +kernel

/-- An on-die read names an enabled core other than its own (05 R96). -/
theorem test_illFormed_onDieRead :
    WellFormed 2 0 (.recvOnDieRead 0 0 1 0 ⟨0, 0, 0⟩) = true ∧ WellFormed 2 0 (.recvOnDieRead 0 0 2 0 ⟨0, 0, 0⟩) = false ∧
    WellFormed 2 0 (.recvOnDieRead 0 0 0 0 ⟨0, 0, 0⟩) = false := by
  decide +kernel

/-! ### Published check values of the named algorithms, and roundings computed by hand -/

/-- The check value of CRC-32C, of the nine characters 1 to 9 (04 R74). -/
theorem test_crc32c : crc32c [0x31, 0x32, 0x33, 0x34, 0x35, 0x36, 0x37, 0x38, 0x39] = 0xE3069283 := by
  decide +kernel

/-- The known answer of Philox4x32-10 for a counter and a key of zeros. -/
theorem test_philox : (philox 0 0 ⟨0, 0, 0, 0⟩).word 0 = 0x6627E8D5 ∧ (philox 0 0 ⟨0, 0, 0, 0⟩).word 3 = 0x9B00DBD8 := by
  decide +kernel

/-- BF16 keeps 8 significant bits: 1 + 2^-8 lies halfway and goes to the even 1, 1 + 3 · 2^-8 to 1 + 2^-6 (02 Table 2.7). -/
theorem test_round_halves : (convert .bf16 .ne 0 false ((Fmt.fp32).decode 0x3F808000)).1 = 0x3F80 ∧
    (convert .bf16 .ne 0 false ((Fmt.fp32).decode 0x3F818000)).1 = 0x3F82 := by
  decide +kernel

/-! ### Witnesses: states and operands that meet the hypotheses of each statement, clause by clause -/

/-- States and operands that meet the hypotheses of `StepRunsTheFrontCommand`, clause by clause. -/
theorem wit_StepRunsTheFrontCommand :
    (wPending.pending = [Instr.nop 0 1]) := by
  decide +kernel

/-- No slot of the small states loads weights. -/
theorem small_loads_nothing (g : Nat) : (wStill.group g).swap.phase ≠ .loading := by 
  cases g with
  | zero => decide +kernel
  | succ n => exact fun h => SwapPhase.noConfusion h

/-- States and operands that meet the hypotheses of `IdleStepIsOneCycle`, clause by clause. -/
theorem wit_IdleStepIsOneCycle :
    (wStill.pending = [] ∧ wStill.Quiet ∧ wStill.clk.holds = []) ∧
    (wStillHeld.pending = [] ∧ wStillHeld.Quiet ∧ wStillHeld.clk.holds ≠ []) := by
  delta State.Quiet State.NoQueue
  and_intros <;> first | decide +kernel | exact small_loads_nothing

/-- States and operands that meet the hypotheses of `DecodeOfEncode`, clause by clause. -/
theorem wit_DecodeOfEncode :
    (wordCore (Instr.adda 0 4095 23 7 true 1048575) = some 0 ∧ staticOk (Instr.adda 0 4095 23 7 true 1048575) = true ∧
      encodeZvis (Instr.adda 0 4095 23 7 true 1048575) = some 2251798999990033) := by
  and_intros <;> decide +kernel

/-- States and operands that meet the hypotheses of `WordsThatAreNotDecoded`, clause by clause. -/
theorem wit_WordsThatAreNotDecoded :
    (wordCore (Instr.adda 0 0 24 0 true 0) = some 0 ∧ wordOk w0.n (w0.logical 0) (Instr.adda 0 0 24 0 true 0) = false) ∧
    (wordCore (Instr.nop 0 1) = some 0 ∧ wordOk wHalted.n (wHalted.logical 0) (Instr.nop 0 1) = true ∧
      ((wHalted.core 0).ctl.dec = DecState.halted ∨ wHalted.isEnabled 0 = false)) ∧
    (wordCore (Instr.nop 7 1) = some 7 ∧ wordOk w0.n (w0.logical 7) (Instr.nop 7 1) = true ∧
      ((w0.core 7).ctl.dec = DecState.halted ∨ w0.isEnabled 7 = false)) ∧
    (wordCore (Instr.nop 0 1) = some 0 ∧ wordOk wWaiting.n (wWaiting.logical 0) (Instr.nop 0 1) = true ∧ wWaiting.passThrough = false ∧
      wWaiting.isEnabled 0 = true ∧ (wWaiting.core 0).ctl = (wWaiting.core 0).ctl ∧
      ((∃ f n t, (wWaiting.core 0).ctl.dec = DecState.waiting f n t) ∨ ∃ j t, (wWaiting.core 0).ctl.dec = DecState.held j t)) := by
  and_intros <;> first | decide +kernel | exact Or.inl ⟨_, _, _, rfl⟩

/-- States and operands that meet the hypotheses of `TimedWordWaitsForItsTick`, clause by clause. -/
theorem wit_TimedWordWaitsForItsTick :
    (wordCore (Instr.setf 0 200 1 1) = some 0 ∧ w0.Decodes 0 (Instr.setf 0 200 1 1) ∧ engineOf (Instr.setf 0 200 1 1) = some Engine.move ∧
      w0.NoQueue ∧ (w0.clk.tick < (w0.core 0).ctl.s0 + (w0.entryOf 0 (Instr.setf 0 200 1 1)).tick ∨ (w0.core 0).ctl.preStart = true)) := by
  delta State.Decodes State.NoQueue
  and_intros <;> decide +kernel

/-- States and operands that meet the hypotheses of `QueuedEntryIssuesAtItsTick`, clause by clause. -/
theorem wit_QueuedEntryIssuesAtItsTick :
    ((QEntry.mk (Instr.setf 0 0 1 9) 101 0 []).instr = Instr.setf 0 0 1 9 ∧ wStill.pending = [] ∧ wStill.Quiet ∧ wStill.clk.holds = [] ∧
      wStill.isEnabled 0 = true ∧ xQueued.ctl.preStart = false ∧ xQueued.ctl.laneQ = [] ∧ xQueued.ctl.vecQ = [] ∧ xQueued.ctl.moveQ =
      [QEntry.mk (Instr.setf 0 0 1 9) 101 0 []] ∧ Tab.get 0 xQueued.busy SlotId.control.idx ≤ wStill.clk.tick + 1 ∧ xQueued.ctl.s0 +
      (QEntry.mk (Instr.setf 0 0 1 9) 101 0 []).tick = wStill.clk.tick + 1) := by
  delta State.Quiet State.NoQueue
  and_intros <;> first | decide +kernel | exact small_loads_nothing

/-- States and operands that meet the hypotheses of `AddressWordsComplete`, clause by clause. -/
theorem wit_AddressWordsComplete :
    (w0.Decodes 0 (.mova 0 5 23 true 9)) ∧
    (w0.Decodes 0 (.mova 0 5 23 false 1)) ∧
    (w0.Decodes 0 (.adda 0 5 23 1 false 2)) ∧
    (w0.Decodes 0 (.suba 0 5 23 1 true 1048575)) ∧
    (w0.Decodes 0 (.shla 0 5 0 1 false 2)) ∧
    (w0.Decodes 0 (.anda 0 5 0 1 false 2)) ∧
    (Tab.get 0 (w0.core 0).ctl.regs (2 % 32) ≠ 0 ∧ w0.Decodes 0 (.moda 0 5 0 1 false 2)) ∧
    (BitVec.toNat (Tab.get 0 (w0.core 0).ctl.regs 1) + 4031 < 4096 ∧ w0.Decodes 0 (.lda 0 5 0 true 1 4031)) ∧
    (w0.Decodes 0 (.lda 0 5 0 false 0 63)) ∧
    (BitVec.signExtend 32 (0 : BitVec 20) = 0 ∧ (w0.core 0).ctl.recs.length < 16 ∧ w0.Decodes 0 (.moda 0 5 0 1 true 0)) ∧
    (4096 ≤ BitVec.toNat (Tab.get 0 (w0.core 0).ctl.regs 1) + 4032 ∧ (w0.core 0).ctl.recs.length < 16 ∧
      w0.Decodes 0 (.lda 0 5 0 true 1 4032)) := by
  delta State.Decodes
  and_intros <;> decide +kernel

/-- States and operands that meet the hypotheses of `ControlWordsComplete`, clause by clause. -/
theorem wit_ControlWordsComplete :
    (w0.Decodes 0 (Instr.nop 0 0)) ∧
    (w0.Decodes 0 (Instr.halt 0 0)) ∧
    (((if false = true then Tab.get 0 (w0.core 0).ctl.regs (16 + 0) else 0) = 0) ∧ w0.Decodes 0 (Instr.loop 0 0 false 0)) ∧
    (((if false = true then Tab.get 0 (w0.core 0).ctl.regs (16 + 1) else 1) ≠ 0) ∧ w0.Decodes 0 (Instr.loop 0 0 false 1)) ∧
    ((w0.core 0).ctl.loops = [] ++ [LoopLevel.mk 2 3] ∧ (LoopLevel.mk 2 3).remaining ≠ 1 ∧ w0.Decodes 0 (Instr.endloop 0 0)) ∧
    (1 ≠ 0 ∧ w0.Decodes 0 (Instr.waitf 0 0 0 1)) ∧
    ((w0.core 0).ctl.recs.length < 16 ∧ w0.Decodes 0 (Instr.waitf 0 0 0 0)) ∧
    ((wLast.core 0).ctl.loops = [] ++ [LoopLevel.mk 1 3] ∧ (LoopLevel.mk 1 3).remaining = 1 ∧ wLast.Decodes 0 (Instr.endloop 0 0)) := by
  delta State.Decodes
  and_intros <;> decide +kernel

/-- States and operands that meet the hypotheses of `FlagWordsComplete`, clause by clause. -/
theorem wit_FlagWordsComplete :
    (w0.Issues 0 (.setf 0 5 63 255) .control) ∧
    (w0.Issues 0 (.incf 0 5 63) .control) ∧
    (w0.Issues 0 (.decf 0 5 63) .control) ∧
    (w0.Issues 0 (.signal 0 5 63 3) .control ∧ w0.destHere (Tab.get 0 (w0.core 0).ctl.regs 3) = true ∧
      destReserved (Tab.get 0 (w0.core 0).ctl.regs 3) = 0 ∧ w0.physOf (destCore (Tab.get 0 (w0.core 0).ctl.regs 3)) = some 1 ∧
      w0.partOf 1 = w0.partOf 0) ∧
    (w0.Issues 0 (.signal 0 5 63 4) .control ∧ w0.destHere (Tab.get 0 (w0.core 0).ctl.regs 4) = false ∧
      destReserved (Tab.get 0 (w0.core 0).ctl.regs 4) = 0 ∧ w0.placeOk (destPlace (Tab.get 0 (w0.core 0).ctl.regs 4)) = true) ∧
    (w0.Issues 0 (.signal 0 5 63 1) .control ∧ w0.destHere (Tab.get 0 (w0.core 0).ctl.regs 1) = true ∧
      destReserved (Tab.get 0 (w0.core 0).ctl.regs 1) = 0 ∧ w0.physOf (destCore (Tab.get 0 (w0.core 0).ctl.regs 1)) = none ∧
      (w0.core 0).ctl.recs.length < 16) ∧
    (w9.Issues 0 (.expect 0 5 9) .control ∧ o9 ∈ (w9.core 0).xfer.tids ∧ o9.tid = 9) ∧
    (w0.Issues 0 (.mark 0 5 60927) .control ∧ w0.dbg.en = false ∧ 60927 < 60928) := by
  delta State.Issues State.Decodes State.NoQueue
  and_intros <;> decide +kernel

/-- States and operands that meet the hypotheses of `LaneWordsComplete`, clause by clause. -/
theorem wit_LaneWordsComplete :
    ((w0.Issues 0 (if false = true then Instr.stringt 0 5 (Wb.mk false 0 0) 0 5 else Instr.string 0 5 (Wb.mk false 0 0) 0 5)
      SlotId.restring) ∧ resolveWb (w0.core 0).ctl.regs (Wb.mk false 0 0) = (0, none) ∧ isWeight 0 = true ∧ (false = true → 0 ≠ 6 ∧
      ((w0.core 0).ws.record 0).square = true) ∧ (w0.core 0).ws.kindOf 0 = 1 ∧ (w0.core 0).ws.blockBad 0 = false) ∧
    (w0.Issues 0 (Instr.swapt 0 5) SlotId.swap) ∧
    (w0.Issues 0 (Instr.bow 0 5 (Sr.mk 2 0 3) 0 false 5 0 false 1 0) SlotId.bow ∧ resolveSr (w0.core 0).sp (w0.core 0).ctl.regs (Sr.mk 2 0
      3) 1 = (RowsAt.mk [103] (RowRef.mk (some 0) 3 false), none) ∧ checkRelease (w0.core 0).sp (w0.core 0).ctl.regs (Sr.mk 2 0 3) 0 = none
      ∧ (0 = 3 → 5 < 32) ∧ (false = true → BitVec.toNat (Tab.get 0 (w0.core 0).ctl.regs (1 % 16)) ≤ 393214)) ∧
    (w0.Issues 0 (Instr.bowg 0 5 (Sa.mk false 0 6142) 0 0 false 5 0 false 1) SlotId.bow ∧ resolveSa (w0.core 0).ctl.regs (Sa.mk false 0
      6142) 2 = (6142, none) ∧ 0 ≠ 3 ∧ (false = true → BitVec.toNat (Tab.get 0 (w0.core 0).ctl.regs (1 % 16)) ≤ 393214)) ∧
    (w0.Issues 0 (Instr.zacc 0 5 0) SlotId.accumulator) ∧
    (w0.Issues 0 (Instr.window 0 5 0 true 0 0 5) SlotId.accumulator ∧ (-512 ≤ if true = true then BitVec.toInt ((w0.core 0).vec.elem 0 5)
      else 0) ∧ ((if true = true then BitVec.toInt ((w0.core 0).vec.elem 0 5) else 0) ≤ 511)) ∧
    (w0.Issues 0 (Instr.drain 0 5 0 0 8 0 false) SlotId.accumulator ∧ Fmt.ofCode 8 = some Fmt.fp32 ∧ drainTarget Fmt.fp32 = true ∧ RM.ofCode
      0 = some RM.ne ∧ (w0.core 0).lane.readBad 0 = false) := by
  delta State.Issues State.Decodes State.NoQueue
  and_intros <;> decide +kernel

/-- States and operands that meet the hypotheses of `StepEventsComplete`, clause by clause. -/
theorem wit_StepEventsComplete :
    ((w0.group 0).formed = true ∧ w0.passThrough = false ∧ (w0.spillKeys 0).next = false ∧ w0.clk.holds.contains Hold.replayStop = false ∧
      (w0.group 0).lead = false ∧ (w0.step' 0).onCores = false) ∧
    ((wDrone.group 0).formed = true ∧ wDrone.passThrough = false ∧ (wDrone.spillKeys 0).next = false ∧ wDrone.clk.holds.contains
      Hold.replayStop = false ∧ (wDrone.group 0).lead = true ∧ (wDrone.step' 0).busy = false ∧ (wDrone.step' 0).retryDue = false ∧
      (wDrone.group 0).saved = none ∧ (wDrone.group 0).serve.recover = [] ∧ wDrone.maint.running ≠ 6 ∧ wDrone.droneDue 0 = true ∧
      (wDrone.group 0).droneSlot = false) ∧
    ((wLead.group 0).formed = true ∧ wLead.passThrough = false ∧ (wLead.spillKeys 0).next = false ∧ wLead.clk.holds.contains Hold.replayStop
      = false ∧ (wLead.group 0).lead = true ∧ (wLead.step' 0).busy = false ∧ (wLead.step' 0).retryDue = false ∧ (wLead.group 0).saved = none
      ∧ (wLead.group 0).serve.recover = [] ∧ wLead.maint.running ≠ 6 ∧ wLead.droneDue 0 = false ∧ (wLead.group 0).solver = true ∧
      (wLead.group 0).live = [] ∧ (wLead.group 0).swap.phase = SwapPhase.none ∧ (wLead.group 0).serve.stepq = []) ∧
    ((wQueued.group 0).formed = true ∧ wQueued.passThrough = false ∧ (wQueued.spillKeys 0).next = false ∧ wQueued.clk.holds.contains
      Hold.replayStop = false ∧ (wQueued.group 0).lead = true ∧ (wQueued.step' 0).busy = false ∧ (wQueued.step' 0).retryDue = false ∧
      (wQueued.group 0).saved = none ∧ (wQueued.group 0).serve.recover = [] ∧ wQueued.maint.running ≠ 6 ∧ wQueued.droneDue 0 = false ∧
      (wQueued.group 0).solver = true ∧ (wQueued.group 0).live = [] ∧ (wQueued.group 0).swap.phase = SwapPhase.none ∧ (wQueued.group
      0).serve.stepq = [(sub1, [16, 0, 5, 0], [])] ∧ bitsN (fieldN [16, 0, 5, 0] 1 1) 1 0 = 0 ∧ (wQueued.group 0).stepLast ≠
      18446744073709551615 ∧ wQueued.canStart 0 = true ∧ (((wQueued.image 0).entries.any fun p => p.1 == fieldN [16, 0, 5, 0] 2 1) = true) ∧
      fieldN [] 236 4 = 0 ∧ (wQueued.group 0).serve.reqs.length ≤ (wQueued.group 0).entries) ∧
    ((wStart.group 0).formed = true ∧ wStart.passThrough = false ∧ (wStart.spillKeys 0).next = false ∧ wStart.clk.holds.contains
      Hold.replayStop = false ∧ (wStart.step' 0).phase = StepPhase.starting ∧ (wStart.step' 0).decodeAt = some 36 ∧ 36 + 64 ≤
      wStart.clk.tick + wStart.clk.heldTotal ∧ (wStart.step' 0).readyAt = some 92 ∧ 92 + 8 ≤ wStart.clk.tick + wStart.clk.heldTotal ∧
      (wStart.group 0).swap.phase = SwapPhase.none ∧ wStart.dir.ready = true ∧ wStart.dir.host = [] ∧ wStart.dir.clearing = none ∧
      wStart.enabled.Nodup ∧ wStart.NoQueue ∧ ∃ c ∈ wStart.coresOf (wStart.group 0).owner, (wStart.core c).ctl.finished = false ∧ (∀ c ∈
      wStart.coresOf (wStart.group 0).owner, (wStart.core c).xfer.waiting = [])) ∧
    ((wReporting.group 0).formed = true ∧ wReporting.passThrough = false ∧ (wReporting.spillKeys 0).next = false ∧
      wReporting.clk.holds.contains Hold.replayStop = false ∧ (wReporting.group 0).lead = true ∧ (wReporting.step' 0).live = true ∧ 1 ≠
      wReporting.place ∧ 1 ∉ (wReporting.step' 0).reports ∧ (1 ∈ List.map (fun x => x.place) (wReporting.group 0).members) ∧ okReport.status
      = 0 ∧ (0 ∈ List.map (fun x => x.place) (wReporting.group 0).members) ∧ 0 ∉ (wReporting.step' 0).reports ∧ 0 ≠ 1) ∧
    ((wReporting.group 0).formed = true ∧ wReporting.passThrough = false ∧ (wReporting.spillKeys 0).next = false ∧
      wReporting.clk.holds.contains Hold.replayStop = false ∧ (wReporting.group 0).lead = true ∧ (wReporting.step' 0).live = true ∧ 1 ≠
      wReporting.place ∧ 1 ∉ (wReporting.step' 0).reports ∧ (1 ∈ List.map (fun x => x.place) (wReporting.group 0).members) ∧
      badReport.status ≠ 0) ∧
    ((wCommit.group 0).formed = true ∧ wCommit.passThrough = false ∧ (wCommit.spillKeys 0).next = false ∧ wCommit.clk.holds.contains
      Hold.replayStop = false ∧ (wCommit.step' 0).phase = StepPhase.committing ∧ (wCommit.group 0).serve.cancels = [] ∧ (wCommit.step'
      0).batch[(wCommit.step' 0).commitPos]? = some row0 ∧ (wCommit.step' 0).commitPos + 1 < (wCommit.step' 0).batch.length ∧ row0.prefill =
      true ∧ row0.last = false ∧ (wCommit.step' 0).unreadable = false ∧ (wCommit.req 0 row0.entry).state ≠ ReqState.free ∧ (wCommit.req 0
      row0.entry).id = row0.id) ∧
    ((wCommitted.group 0).formed = true ∧ wCommitted.passThrough = false ∧ (wCommitted.spillKeys 0).next = false ∧
      wCommitted.clk.holds.contains Hold.replayStop = false ∧ (wCommitted.step' 0).phase = StepPhase.committing ∧ (wCommitted.group
      0).serve.cancels = [] ∧ (wCommitted.step' 0).batch = [] ∧ (wCommitted.group 0).serve.pauses = []) ∧
    ((wCancel.group 0).formed = true ∧ wCancel.passThrough = false ∧ (wCancel.spillKeys 0).next = false ∧ wCancel.clk.holds.contains
      Hold.replayStop = false ∧ (wCancel.group 0).serve.cancels = [(sub1, 9)] ∧ (wCancel.group 0).serve.find 9 = none ∧ ((wCancel.func
      sub1.func).recent.contains 9 = false)) ∧
    ((wCancelled.group 0).formed = true ∧ wCancelled.passThrough = false ∧ (wCancelled.spillKeys 0).next = false ∧
      wCancelled.clk.holds.contains Hold.replayStop = false ∧ (wCancelled.group 0).serve.cancels = [(sub1, 9)] ∧ (wCancelled.group
      0).serve.find 9 = some (4, req0) ∧ (req0.func = sub1.func) ∧ req0.state ≠ ReqState.spilling ∧ req0.state ≠ ReqState.reloading ∧
      req0.acancel = false) := by
  delta State.NoQueue
  and_intros <;> decide +kernel

/-- States and operands that meet the hypotheses of `PageEventsComplete`, clause by clause. -/
theorem wit_PageEventsComplete :
    ((w0.group 0).formed = true ∧ (w0.group 0).lead = false) ∧
    ((w0.group 0).formed = true ∧ (w0.group 0).lead = false) ∧
    ((w0.group 0).formed = true ∧ (w0.group 0).lead = false) ∧
    (((wFreeing [1]).group 0).formed = true ∧ (∀ y ∈ ([] : List (Nat × List Place)), y.1 ≠ 3) ∧
      ((wFreeing [1]).group 0).serve.freeing = [(3, [1])]) ∧
    (((wFreeing [1, 2]).group 0).formed = true ∧ (∀ y ∈ ([] : List (Nat × List Place)), y.1 ≠ 3) ∧ 2 ≠ 1 ∧
      ((wFreeing [1, 2]).group 0).serve.freeing = [(3, [1, 2])]) ∧
    (((w0req (spilling [1, 2])).group 0).formed = true ∧ ((w0req (spilling [1, 2])).group 0).lead = true ∧
      1 ≠ (w0req (spilling [1, 2])).place ∧ ((w0req (spilling [1, 2])).group 0).serve.find 9 = some (4, spilling [1, 2]) ∧
      (spilling [1, 2]).state = ReqState.spilling ∧ ((w0req (spilling [1, 2])).req 0 4).waitOn = [1, 2] ∧
      (spilling [1, 2]).waitOn = [1, 2] ∧ 2 ≠ 1 ∧ ((w0req (spilling [1, 2])).req 0 4).spillGens = none) ∧
    (((w0req (spilling [1])).group 0).formed = true ∧ ((w0req (spilling [1])).group 0).lead = true ∧ 1 ≠ (w0req (spilling [1])).place ∧
      ((w0req (spilling [1])).group 0).serve.find 9 = some (4, spilling [1]) ∧ (spilling [1]).state = ReqState.spilling ∧
      (w0req (spilling [1])).req 0 4 = spilling [1] ∧ (spilling [1]).waitOn = [1] ∧ (spilling [1]).spillGens = none ∧
      (spilling [1]).waitSub = none ∧ (spilling [1]).pages = [] ∧ (spilling [1]).cancelAfter = false ∧
      (∀ c ∈ ((w0req (spilling [1])).group 0).serve.conts, c.2.1 ≠ (spilling [1]).id)) ∧
    (((w0req reloading).group 0).formed = true ∧ ((w0req reloading).group 0).lead = true ∧ 1 ≠ (w0req reloading).place ∧
      ((w0req reloading).group 0).serve.find 9 = some (4, reloading) ∧ reloading.state = ReqState.reloading ∧
      (w0req reloading).req 0 4 = reloading ∧ reloading.waitOn = [1] ∧ reloading.waitSub = none ∧ reloading.cancelAfter = false ∧
      (∀ c ∈ ((w0req reloading).group 0).serve.conts, c.2.1 ≠ reloading.id)) := by
  and_intros <;> decide +kernel

/-- States and operands that meet the hypotheses of `DirEventsComplete`, clause by clause. -/
theorem wit_DirEventsComplete :
    (w0.dir.clearing = none ∧ w0.dirNb ≠ 0 ∧ w0.backgroundPaused = false ∧ w0.dirCount (w0.dir.visit % w0.dirNb) < 4) ∧
    (w0.passThrough = false ∧ (w0.dir.ready = true ∨ w0.freshBits 4132 = 0)) ∧
    (wLook.kdq = [kdJob0] ∧ kdJob0.put = false ∧ courseOf kdJob0.core = 0 ∧ kdJob0.items = [[1, 0, 0, 0, 0, 0, 0, 0], [2, 0, 0, 0, 0, 0, 0,
      0]] ∧ wLook.bucketBad (dirBuckets (max 1 wLook.dirNb) (BitVec.ofNat 64 (leNat [1, 0, 0, 0, 0, 0, 0, 0]))).1 = none ∧ wLook.bucketBad
      (dirBuckets (max 1 wLook.dirNb) (BitVec.ofNat 64 (leNat [1, 0, 0, 0, 0, 0, 0, 0]))).2 = none ∧ [[2, 0, 0, 0, 0, 0, 0, 0]] ≠ []) ∧
    (wLookBad.kdq = [kdJob0] ∧ kdJob0.put = false ∧ courseOf kdJob0.core = 0 ∧ kdJob0.items = [[1, 0, 0, 0, 0, 0, 0, 0], [2, 0, 0, 0, 0, 0,
      0, 0]] ∧ wLookBad.bucketBad (dirBuckets (max 1 wLookBad.dirNb) (BitVec.ofNat 64 (leNat [1, 0, 0, 0, 0, 0, 0, 0]))).1 = some (0, 8)) ∧
    (wPut.dir.clearing = none ∧ wPut.kdq = [kdPut0] ∧ kdPut0.put = true ∧ kdPut0.items = [List.replicate 16 0, List.replicate 16 1] ∧
      wPut.bucketBad (dirBuckets (max 1 wPut.dirNb) (wayKey (List.replicate 16 0))).1 = none ∧ wPut.bucketBad (dirBuckets (max 1 wPut.dirNb)
      (wayKey (List.replicate 16 0))).2 = none) ∧
    (wPutBad.dir.clearing = none ∧ wPutBad.kdq = [kdPut0] ∧ kdPut0.put = true ∧ kdPut0.items = [List.replicate 16 0, List.replicate 16 1] ∧
      wPutBad.bucketBad (dirBuckets (max 1 wPutBad.dirNb) (wayKey (List.replicate 16 0))).1 = some (0, 8)) ∧
    (wClear.dir.clearing = some (0, 0)) ∧
    ((w0sub 0 dirSub).front 0 19 = some dirSub ∧ 0 = (w0sub 0 dirSub).dir.owner ∧ fieldN dirSub.bytes 1 1 ≤ 1 ∧ 1 ≤ fieldN dirSub.bytes 8 4
      ∧ fieldN dirSub.bytes 8 4 ≤ 65535 ∧ dirSub.reservedZero [(1, 1), (8, 4), (40, 1), (48, 8)] = true ∧ (w0sub 0 dirSub).rangeOk 0 dirSub
      (16 * fieldN dirSub.bytes 8 4) = true) ∧
    ((w0sub 1 dirSub).front 1 19 = some dirSub ∧ 1 ≠ (w0sub 1 dirSub).dir.owner) ∧
    (wLookLast.kdq = [kdLast] ∧ kdLast.put = false ∧ courseOf kdLast.core = 0 ∧ kdLast.items = [[1, 0, 0, 0, 0, 0, 0, 0]] ∧
      wLookLast.bucketBad (dirBuckets (max 1 wLookLast.dirNb) (BitVec.ofNat 64 (leNat [1, 0, 0, 0, 0, 0, 0, 0]))).1 = none ∧
      wLookLast.bucketBad (dirBuckets (max 1 wLookLast.dirNb) (BitVec.ofNat 64 (leNat [1, 0, 0, 0, 0, 0, 0, 0]))).2 = none) ∧
    (wWays.dir.clearing = none ∧ wWays.dirNb ≠ 0 ∧ wWays.backgroundPaused = false ∧ 4 ≤ wWays.dirCount (wWays.dir.visit % wWays.dirNb) ∧
      (List.filter (fun w => decide (wWays.dirCount (otherBucket wWays.dirNb (wWays.dir.visit % wWays.dirNb) (wayKey (wWays.dirWay
      (wWays.dir.visit % wWays.dirNb) w))) ≤ 2)) (List.range 4) = [0, 1, 2, 3]) ∧ wWays.dirFree (otherBucket wWays.dirNb (wWays.dir.visit %
      wWays.dirNb) (wayKey (wWays.dirWay (wWays.dir.visit % wWays.dirNb) 0))) = some 0) := by
  and_intros <;> decide +kernel

/-- States and operands that meet the hypotheses of `LoadEventsComplete`, clause by clause. -/
theorem wit_LoadEventsComplete :
    (w0.passThrough = false ∧ (w0.group 0).formed = true ∧ (w0.group 0).lead = false ∧ w0.maintBusy = false ∧ w0.maint.suspended = none ∧
      [1, 2].length ≠ fieldN (sliceB [1, 2] (256 + 80 * w0.memberIndex 0) 80) 8 8) ∧
    (w0.passThrough = false ∧ (w0.group 0).formed = true ∧ (w0.group 0).lead = false ∧ w0.maintBusy = false ∧ w0.maint.suspended = none ∧
      section0.length = fieldN (sliceB manifest0 (256 + 80 * w0.memberIndex 0) 80) 8 8 ∧ w0.sectionChunks section0 (fieldN manifest0 16 2)
      (fieldN manifest0 20 2) = some ((wMembers.sectionChunks section0 2 1).getD [])) ∧
    (w0.passThrough = false ∧ (w0.group 0).swap.stalled = none) ∧
    ((w0sub 1 swapSub).passThrough = false ∧ (w0sub 1 swapSub).front 1 18 = some swapSub ∧ 1 ≠ 0) ∧
    (wSwapServer.passThrough = false ∧ wSwapServer.front 0 18 = some swapGood ∧ (List.find? (fun h => (wSwapServer.group h).formed &&
      (wSwapServer.group h).id == swapGood.id && (wSwapServer.group h).lead) (List.range 16) = some 0) ∧ wSwapServer.maintBusy = false ∧
      wSwapServer.maint.suspended = none ∧ fieldN swapGood.bytes 1 1 = 1 ∧ (wSwapServer.group 0).loadSrc.toNat % 2 = 1 ∧
      swapGood.reservedZero [(1, 1), (8, 8), (40, 1), (48, 16)] = true ∧ wSwapServer.rangeOk 0 swapGood [1, 2].length = true) ∧
    (wStagedFails.passThrough = false ∧ (wStagedFails.group 0).lead = true ∧ (wStagedFails.group 0).swap.phase = SwapPhase.staging ∧ 1 ∈
      wStagedFails.others 0 ∧ 1 ∉ (wStagedFails.group 0).swap.staged ∧ 1 ≠ 0) ∧
    (wStagedFails.passThrough = false ∧ (wStagedFails.group 0).lead = true ∧ (wStagedFails.group 0).swap.phase = SwapPhase.staging ∧ 1 ∈
      wStagedFails.others 0 ∧ 1 ∉ (wStagedFails.group 0).swap.staged ∧ 0 ∈ (wStagedFails.group 0).places ∧ 0 ∉ (wStagedFails.group
      0).swap.staged ∧ 0 ≠ 1) ∧
    (wLoadedOne.passThrough = false ∧ (wLoadedOne.group 0).lead = true ∧ (wLoadedOne.group 0).swap.phase = SwapPhase.loading ∧ 1 ∈
      wLoadedOne.others 0 ∧ 1 ∉ (wLoadedOne.group 0).swap.loadedBy ∧ 0 ∈ (wLoadedOne.group 0).places ∧ 0 ∉ (wLoadedOne.group
      0).swap.loadedBy ∧ 0 ≠ 1) ∧
    (wReleaseAll.passThrough = false ∧ (wReleaseAll.group 0).lead = false ∧ (wReleaseAll.group 0).swap.phase = SwapPhase.staging) ∧
    (wChunk.passThrough = false ∧ (wChunk.group 0).swap.chunk 0 = some chunk0 ∧ chunk0.attempts ≠ 0 ∧ chunk0.verified = false ∧ chunk0.held
      = none ∧ [1, 2].length = chunk0.encLen ∧ Config.sha512 [1, 2] = chunk0.srcHash ∧ ((wChunk.updSwap 0 fun w => Swap.mk w.phase w.policy
      w.limit w.nextGen w.nextDigest w.sub w.staged w.loadedBy w.lastOldRunning w.releasedAll w.released w.chunks w.inbox (if (Option.map
      (fun x => x.1) w.stalled == some 0) = true then none else w.stalled) w.section_ w.nmin).chunkFree 0 chunk0 = false)) ∧
    (wChunk.passThrough = false ∧ (wChunk.group 0).swap.chunk 0 = some chunk0 ∧ chunk0.attempts ≠ 0 ∧ chunk0.verified = false ∧ chunk0.held
      = none ∧ (Option.map (fun x => x.1) (wChunk.group 0).swap.stalled ≠ some 0)) ∧
    (wChunk.passThrough = false ∧ (wChunk.group 0).swap.chunk 0 = some chunk0 ∧ chunk0.attempts ≠ 0 ∧ chunk0.verified = false ∧ chunk0.held
      = none ∧ [1].length ≠ chunk0.encLen) ∧
    (wStall.passThrough = false ∧ (wStall.group 0).swap.stalled.isSome = true) ∧
    (wChunkIdle.passThrough = false ∧ (wChunkIdle.group 0).swap.chunk 0 = some chunk0 ∧ chunk0.attempts ≠ 0 ∧ chunk0.verified = false ∧
      chunk0.held = none ∧ [1, 2].length = chunk0.encLen ∧ Config.sha512 [1, 2] = chunk0.srcHash ∧ ((wChunkIdle.updSwap 0 fun w => Swap.mk
      w.phase w.policy w.limit w.nextGen w.nextDigest w.sub w.staged w.loadedBy w.lastOldRunning w.releasedAll w.released w.chunks w.inbox
      (if (Option.map (fun x => x.1) w.stalled == some 0) = true then none else w.stalled) w.section_ w.nmin).chunkFree 0 chunk0 = true)) ∧
    (wChunkBad.passThrough = false ∧ (wChunkBad.group 0).swap.chunk 0 = some chunkBad ∧ chunkBad.attempts ≠ 0 ∧ chunkBad.verified = false ∧
      chunkBad.held = none ∧ [1].length = chunkBad.encLen ∧ Config.sha512 [1] ≠ chunkBad.srcHash) := by
  and_intros <;> first | decide +kernel | rfl | exact (List.cons_ne_self _ _).symm

/-- States and operands that meet the hypotheses of `SubmissionsComplete`, clause by clause. -/
theorem wit_SubmissionsComplete :
    ((w0sub 1 (subOf [1])).front 1 1 = some (subOf [1]) ∧ ((w0sub 1 (subOf [1])).popSub 1).servingOf 1 (subOf [1]) = none) ∧
    (wRequest.front 1 1 = some (withGroup [1]) ∧ (wRequest.popSub 1).servingOf 1 (withGroup [1]) = some 0 ∧ fieldN (withGroup [1]).bytes 1 1
      < 4 ∧ fieldN (withGroup [1]).bytes 2 1 < 64 ∧ fieldN (withGroup [1]).bytes 12 2 < 16384 ∧ (withGroup [1]).reservedZero [(1, 3), (8,
      19), (28, 3), (32, 9), (48, 12)] = true ∧ (wRequest.popSub 1).rangeOk 1 (withGroup [1]) (4 * fieldN (withGroup [1]).bytes 24 3) =
      true) ∧
    (wCancelSub.front 1 2 = some (withGroup [2]) ∧ (wCancelSub.popSub 1).servingOf 1 (withGroup [2]) = some 0 ∧ (withGroup [2]).reservedZero
      [(8, 4), (56, 4)] = true) ∧
    (wContinueNo.front 1 3 = some (withGroup [3]) ∧ (wContinueNo.popSub 1).continueStatus 1 (withGroup [3]) = some 254) ∧
    ((wSubReq cont9 idleReq).front 1 3 = some cont9 ∧ ((wSubReq cont9 idleReq).popSub 1).continueStatus 1 cont9 = none ∧ ((wSubReq cont9
      idleReq).popSub 1).servingOf 1 cont9 = some 0 ∧ ((wSubReq cont9 idleReq).popSub 1).ownReq 1 0 cont9 = some (4, idleReq) ∧
      idleReq.state = ReqState.idle) ∧
    ((wSub spill9).front 1 4 = some spill9 ∧ ((wSub spill9).popSub 1).reqTarget 1 spill9 = Except.error 1) ∧
    ((wSubReq spill9 idleReq).front 1 4 = some spill9 ∧ ((wSubReq spill9 idleReq).popSub 1).reqTarget 1 spill9 = Except.ok (0, 4, idleReq) ∧
      idleReq.state = ReqState.idle) ∧
    ((wSubReq spill9 req0).front 1 4 = some spill9 ∧ ((wSubReq spill9 req0).popSub 1).reqTarget 1 spill9 = Except.ok (0, 4, req0) ∧
      req0.state ≠ ReqState.idle) ∧
    ((wSubReq reload9 spilledReq).front 1 5 = some reload9 ∧ ((wSubReq reload9 spilledReq).popSub 1).reqTarget 1 reload9 = Except.ok (0, 4,
      spilledReq) ∧ spilledReq.state = ReqState.spilled ∧ spilledReq.waitSub = none) ∧
    ((wSubReq reload9 idleReq).front 1 5 = some reload9 ∧ ((wSubReq reload9 idleReq).popSub 1).reqTarget 1 reload9 = Except.ok (0, 4,
      idleReq) ∧ idleReq.state ≠ ReqState.spilled) ∧
    ((wSubReq release9 idleReq).front 1 6 = some release9 ∧ ((wSubReq release9 idleReq).popSub 1).reqTarget 1 release9 = Except.ok (0, 4,
      idleReq) ∧ (idleReq.state = ReqState.idle ∨ idleReq.state = ReqState.spilled)) ∧
    ((wSubReq release9 req0).front 1 6 = some release9 ∧ ((wSubReq release9 req0).popSub 1).reqTarget 1 release9 = Except.ok (0, 4, req0) ∧
      req0.state ≠ ReqState.idle ∧ req0.state ≠ ReqState.spilled) ∧
    (wStepTaken.front 1 16 = some stepSub ∧ (List.find? (fun g => ((wStepTaken.popSub 1).group g).formed && ((wStepTaken.popSub 1).group
      g).lead && ((wStepTaken.popSub 1).group g).owner == 1 && ((wStepTaken.popSub 1).group g).id == stepSub.id) (List.range 16) = some 0) ∧
      ((wStepTaken.popSub 1).group 0).solver = true ∧ stepSub.reservedZero [(1, 3), (8, 4), (16, 16), (40, 1), (48, 8)] = true ∧ fieldN
      stepSub.bytes 1 1 = 0 ∧ fieldN stepSub.bytes 2 1 < 64 ∧ fieldN stepSub.bytes 24 8 = 0 ∧ (wStepTaken.popSub 1).rangeOk 1 stepSub (368 +
      32 * fieldN [1, 2] 236 4) = true) ∧
    ((w0sub 1 imageSub).front 1 17 = some imageSub ∧ 1 ≠ 0) ∧
    ((w0sub 0 imageSub).front 0 17 = some imageSub ∧ imageSub.reservedZero [(8, 4), (40, 1), (48, 16)] = true ∧ fieldN imageSub.bytes 56 8 =
      file0.raw.length ∧ ((w0sub 0 imageSub).popSub 0).rangeOk 0 imageSub (fieldN imageSub.bytes 56 8) = true ∧ (∀ h < 16, ((w0sub 0
      imageSub).step' h).holdsCores = false)) ∧
    ((((w0sub 0 imageSub).updStep 0 fun r => StepRun.mk StepPhase.running r.num r.entry r.voicing r.seed r.params r.s0 r.startCycle
      r.decodeAt r.stopDue r.final r.readyAt r.replay r.retry r.retryDue r.stops r.ticks r.held r.status r.reports r.gath r.batch r.input
      r.commitPos r.committed r.commitTime r.sub r.serving r.unreadable r.highest r.digests).front 0 17 = some imageSub) ∧
      imageSub.reservedZero [(8, 4), (40, 1), (48, 16)] = true ∧ fieldN imageSub.bytes 56 8 = file0.raw.length ∧ ((((w0sub 0
      imageSub).updStep 0 fun r => StepRun.mk StepPhase.running r.num r.entry r.voicing r.seed r.params r.s0 r.startCycle r.decodeAt
      r.stopDue r.final r.readyAt r.replay r.retry r.retryDue r.stops r.ticks r.held r.status r.reports r.gath r.batch r.input r.commitPos
      r.committed r.commitTime r.sub r.serving r.unreadable r.highest r.digests).popSub 0).rangeOk 0 imageSub (fieldN imageSub.bytes 56 8) =
      true) ∧ 0 < 16 ∧ ((((w0sub 0 imageSub).updStep 0 fun r => StepRun.mk StepPhase.running r.num r.entry r.voicing r.seed r.params r.s0
      r.startCycle r.decodeAt r.stopDue r.final r.readyAt r.replay r.retry r.retryDue r.stops r.ticks r.held r.status r.reports r.gath
      r.batch r.input r.commitPos r.committed r.commitTime r.sub r.serving r.unreadable r.highest r.digests).step' 0).holdsCores = true)) := by
  and_intros <;> decide +kernel

/-- States and operands that meet the hypotheses of `HostEventsComplete`, clause by clause. -/
theorem wit_HostEventsComplete :
    ((wKicked.funcUp 0 = true) ∧ ((wKicked.func 0).poll = 0) ∧ ((wKicked.func 0).waits = false)) ∧
    ((wKicked.funcUp 0 = true) ∧ bitN 32 5 = true ∧ bitsN 32 4 0 < 4) ∧
    ((wKicked.funcUp 1 = true) ∧ ((wKicked.func 1).pagesSet = true) ∧ ((wKicked.func 1).fetching = false) ∧ ((wKicked.func 1).poll ≠ 0)) ∧
    ((wKicked.funcUp 1 = true) ∧ bitN 103079231524 5 = true ∧ (((wKicked.func 1).ring 0).en = false) ∧ (((wKicked.func 1).ring 0).stopped =
      true) ∧ ((wKicked.func 1).pagesSet = true) ∧ wKicked.passThrough = false ∧ ((wKicked.func 1).waits = false) ∧ wKicked.sec.owed = [] ∧
      4 ≤ bitsN 103079231524 4 0 ∧ bitsN 103079231524 4 0 ≤ 16 ∧ 1 ≤ bitsN 103079231524 22 14 ∧ bitsN 103079231524 22 14 ≤ 256 ∧ bitsN
      103079231524 32 23 ≤ 1000 ∧ 12 ≤ bitsN 103079231524 37 33 ∧ bitsN 103079231524 37 33 ≤ 16) ∧
    ((wKickedAgain.funcUp 1 = true) ∧ ((wKickedAgain.func 1).pagesSet = true) ∧ ((wKickedAgain.func 1).fetching = true)) ∧
    ((wKickedAgain.funcUp 1 = true) ∧ ((wKickedAgain.func 1).fetching = true) ∧ ((wKickedAgain.func 1).noted = false) ∧ ((wKickedAgain.func
      1).waits = false) ∧ (∀ r ∈ (wKickedAgain.func 1).rings, r.1 < 64 → r.2.en = false)) ∧
    ((wThreshold.funcUp 1 = true) ∧ 64 ≤ 64 ∧ (((wThreshold.func 1).ring 64).en = true) ∧ (((wThreshold.func 1).ring 64).since ≠ 0) ∧
      (((wThreshold.func 1).ring 64).timeThr ≠ 0)) := by
  and_intros <;> decide +kernel

/-- States and operands that meet the hypotheses of `MailboxesComplete`, clause by clause. -/
theorem wit_MailboxesComplete :
    (((wUpF id).funcUp 0 = true) ∧ bitsN 17301512 27 24 = 1 ∧ (((wUpF id).func 0).mbo.full = false) ∧ 1 ≤ 17301512 % 512 ∧ 17301512 % 512 ≤
      256 ∧ 8 ≤ bitsN 17301512 20 16) ∧
    (((wUpF id).funcUp 0 = true) ∧ (((wUpF id).func 0).dbHost &&& ((wUpF id).func 0).dbMask &&& ~~~0 = 0)) ∧
    (((wUpF id).funcUp 0 = true) ∧ (List.find? (fun m => m.peer == 0) (wUpF id).sec.mgtSlots = none)) ∧
    ((wSentFull.funcUp 1 = true) ∧ bitsN 17301512 27 24 = 1 ∧ ((wSentFull.func 1).mbo.full = true)) ∧
    ((wMboRead.funcUp 1 = true) ∧ ((wMboRead.func 1).mbo.full = true) ∧ (mailboxTypes.contains (fieldN (Tab.getList 0 (wMboRead.func
      1).mbo.data 0 (wMboRead.func 1).mbo.len.toNat) 0 2) = true)) ∧
    ((wDelivered.funcUp 1 = true) ∧ ((wDelivered.func 1).mbiWait = [msg]) ∧ ((wDelivered.func 1).mbi.full = false) ∧ 1 ≤ msg.length ∧
      msg.length ≤ 256) ∧
    ((wMbiBack.funcUp 1 = true) ∧ ((wMbiBack.func 1).mbi.full = true)) ∧
    ((wDbClear.funcUp 1 = true) ∧ ((wDbClear.func 1).dbHost &&& (wDbClear.func 1).dbMask &&& ~~~0 ≠ 0)) ∧
    ((wMgtFull.funcUp 0 = true) ∧ wMgtFull.sec.mgtSlots = [slot1] ∧ slot1.full = true) := by
  and_intros <;> decide +kernel

/-- States and operands that meet the hypotheses of `FirmwareAndKeysComplete`, clause by clause. -/
theorem wit_FirmwareAndKeysComplete :
    (askerPf0 i3c = true ∧ w0.sec.recovery = false ∧ w0.sec.fwLen = none ∧ [44, 1, 0, 0].length = 4 ∧ 196 ≤ fieldN [44, 1, 0, 0] 0 4 ∧
      fieldN [44, 1, 0, 0] 0 4 ≤ 32 * 2 ^ 20 ∧ w0.maintBusy = false ∧ w0.maint.suspended = none) ∧
    (askerPf0 i3c = true ∧ 0 ≤ 1 ∧ (0 < if 0 = 0 then 8 else 4) ∧ key0.length = 133 ∧ fieldN key0 0 1 = 4 ∧ w0.anyLocked = false) ∧
    ((w0.group 0).formed = true ∧ (w0.group 0).lead = false ∧ 1 = ((w0.spillKeys 0).gen + 1) % 2 ^ 32) ∧
    ((askerPf0 (Asker.func 1) = false)) ∧
    (askerPf0 i3c = true ∧ wBusyMaint.sec.recovery = false ∧ wBusyMaint.sec.fwLen = none ∧ [44, 1, 0, 0].length = 4 ∧ 196 ≤ fieldN [44, 1,
      0, 0] 0 4 ∧ fieldN [44, 1, 0, 0] 0 4 ≤ 32 * 2 ^ 20 ∧ wBusyMaint.maintBusy = true) ∧
    (askerPf0 i3c = true ∧ wFw.maint.suspended = none ∧ wFw.sec.fwLen = some 300 ∧ 0 % 4 = 0 ∧ [44, 1, 0, 0].length ≤ 244 ∧ 0 + [44, 1, 0,
      0].length ≤ 300 ∧ 300 ≤ 32 * 2 ^ 20) ∧
    (askerPf0 i3c = true ∧ wFw.maint.suspended = none ∧ wFw.sec.fwLen = some 300 ∧ wFw.sec.recovery = false ∧ wFw.maint.running = 7) ∧
    (wFw.sec.fwLen.isSome = true ∧ wFw.maint.suspended = none ∧ wFw.maint.running = 7) ∧
    (wWatchdog.maint.running = 0 ∧ (∀ (g : ℕ), (wWatchdog.step' g).phase = StepPhase.none)) ∧
    (askerPf0 i3c = true ∧ 0 ≤ 1 ∧ (0 < if 0 = 0 then 8 else 4) ∧ key0.length = 133 ∧ fieldN key0 0 1 = 4 ∧ wConf.anyLocked = true) ∧
    (wLead.maintBusy = false ∧ wLead.maint.suspended = none ∧ askerPf0 i3c = true ∧ (List.find? (fun h => (wLead.group h).formed &&
      (wLead.group h).lead && (wLead.group h).id == (wLead.group 0).id) (List.range 16) = some 0)) ∧
    ((wLead.group 0).formed = true ∧ (wLead.group 0).lead = true) ∧
    (((wNext 0).group 0).lead = true ∧ ((wNext 0).spillKeys 0).next = true ∧ ((wNext 0).spillKeys 0).waiting ≠ [] ∧ ((wNext 0).spillKeys
      0).repeats < 3) ∧
    (((wNext 3).group 0).lead = true ∧ ((wNext 3).spillKeys 0).next = true ∧ ((wNext 3).spillKeys 0).waiting ≠ [] ∧ 3 ≤ ((wNext 3).spillKeys
      0).repeats ∧ (wNext 3).maint.running ≠ 4) := by
  and_intros <;> first | decide +kernel | (intro _; rfl)

/-- States and operands that meet the hypotheses of `SessionsComplete`, clause by clause. -/
theorem wit_SessionsComplete :
    ((w0.spdmOf vf1).phase ≠ 1) ∧
    ((w0.spdmOf vf1).phase ≠ 2) ∧
    (w0.sec.identity = false) ∧
    ((w0.spdmOf vf1).phase ≠ 5) ∧
    (w0.lockRefused 0 = true) ∧
    ((w0.part 0).tdisp ≠ 1) ∧
    ((w0.part 0).tdisp = 0) ∧
    (1 ≠ 0 ∧ (w0.part 1).conf = false) ∧
    (((wSpdm 1).spdmOf vf1).phase = 1) ∧
    (((wSpdm 2).spdmOf vf1).phase = 2) ∧
    ((wIdent 3).sec.identity = true ∧ 3 ≤ ((wIdent 3).spdmOf vf1).phase ∧ ((wIdent 3).spdmOf vf1).phase ≤ 5) ∧
    ((wIdent 3).sec.identity = true ∧ ((wIdent 3).spdmOf vf1).phase = 3) ∧
    (((wIdent 4).spdmOf vf1).phase = 4) ∧
    (((wIdent 5).spdmOf vf1).phase = 5) ∧
    (((wLimited 0).port 0).st = PState.limited ∧ (wLimited 0).sec.identity = true) ∧
    (((wLimited 0).port 0).st = PState.limited ∧ ((wLimited 0).port 0).sessionFails < 2) ∧
    (((wLimited 2).port 0).st = PState.limited ∧ 2 ≤ ((wLimited 2).port 0).sessionFails) ∧
    (1 ≠ 0 ∧ (wBound.part 1).tdisp = 0 ∧ wBound.lockRefused 1 = false) ∧
    (1 ≠ 0 ∧ (wLocked.part 1).tdisp = 1) ∧
    (1 ≠ 0 ∧ (wLocked.part 1).conf = true) ∧
    (1 ≠ 0 ∧ ((wLocked.part 1).tdisp = 1 ∨ (wLocked.part 1).tdisp = 2)) ∧
    (((wSess.spdmOf (Requester.func 0)).phase = 5)) ∧
    (((wKey Rotation.renewing).port 0).st = PState.up ∧ ((wKey Rotation.renewing).port 0).policy = true) := by
  and_intros <;> decide +kernel

/-- States and operands that meet the hypotheses of `PowerComplete`, clause by clause. -/
theorem wit_PowerComplete :
    (w0.maint.order ≠ 1 ∧ w0.maint.order ≠ 2) ∧
    (w0.passThrough = false ∧ w0.liveSlots = [] ∧ w0.maint.running = 0) ∧
    ((∀ (p : PortId), (w0.port ↑p).enable = false)) ∧
    (wVana.maint.order = 2 ∧ wVana.power.vaux = true ∧ wVana.power.vmain = false) ∧
    (wVana.power.vaux = true ∧ wVana.passThrough = false ∧ 50 < 105 ∧ 50 ≤ 42000) ∧
    (wVana.power.vaux = true ∧ wVana.passThrough = false ∧ 110 ≤ 110 ∧ 50 ≤ 42000 ∧ wVana.liveSlots = [] ∧ wVana.maint.running = 0) ∧
    (wVmain.maint.order = 2 ∧ wVmain.power.vaux = true ∧ wVmain.power.pwrEn = true ∧ wVmain.sec.recovery = false ∧ wVmain.maint.badRecords =
      [] ∧ wVmain.maint.bootMode = 0 ∧ wVmain.power.thermtrip = false) ∧
    (wUngate.power.railCore = true ∧ wUngate.maint.order = 3 ∧ 8 * 0 + 1 = wUngate.power.ungated.length ∧ wUngate.power.ungated.length < 63) ∧
    (wSampleHot.power.vaux = true ∧ wSampleHot.passThrough = false ∧ 105 ≤ 105 ∧ 105 < 110 ∧ 50 ≤ 42000 ∧ wSampleHot.power.emergency = false
      ∧ wSampleHot.fixedStep = false ∧ wSampleHot.power.set.fFloor < wSampleHot.clk.fstep) := by
  and_intros <;> decide +kernel

/-- States and operands that meet the hypotheses of `StationTimeComplete`, clause by clause. -/
theorem wit_StationTimeComplete :
    (wSource.talks 0 = true ∧ wSource.sync.synced = true ∧ wSource.parentPort ≠ some 0) ∧
    (wParent.parentPort = some 0) ∧
    (wParent.parentPort = some 0) ∧
    (wSource.talks 0 = true ∧ wSource.sync.synced = true) ∧
    (wDelayFirst.parentPort = some 0 ∧ wDelayFirst.sync.synced = false) ∧
    (wParent.parentPort = some 0 ∧ wParent.sync.synced = true) ∧
    (wParent.sync.synced = true ∧ wParent.isSource = false) ∧
    (wSourceSynced.isSource = true ∧ wSourceSynced.power.railFabric = true) ∧
    ((wStationSet.funcUp 0 = true) ∧ wStationSet.isSource = true ∧ wStationSet.sync.synced = false ∧
      (∀ (g : ℕ), (wStationSet.group g).formed = false)) ∧
    ((wStationNo.funcUp 0 = true) ∧ (wStationNo.isSource = false ∨ wStationNo.sync.synced = true)) := by
  and_intros <;> first | decide +kernel | (intro _; rfl)

/-- States and operands that meet the hypotheses of `MaintenanceComplete`, clause by clause. -/
theorem wit_MaintenanceComplete :
    (askerPf0 i3c = true ∧ w0.passThrough = false ∧ w0.liveSlots = [] ∧ w0.maint.running = 0) ∧
    (askerPf0 i3c = true ∧ w0.maint.running = 0 ∧ w0.maint.suspended = none) ∧
    (askerPf0 i3c = true ∧ w0.maintBusy = false ∧ w0.maint.suspended = none) ∧
    (askerPf0 i3c = true ∧ (w0.maint.suspended = none ∨ w0.maint.running ≠ 0)) ∧
    ((askerPf0 (Asker.func 1) = false)) ∧
    (askerPf0 i3c = true ∧ wSuspended.maintBusy = true) ∧
    (askerPf0 i3c = true ∧ wSuspended.maint.suspended = some (7, 0) ∧ wSuspended.maint.running = 0) ∧
    (askerPf0 i3c = true ∧ wBusyMaint.maint.running ≠ 0) ∧
    (wBusyMaint.maint.running = 9 ∧ wBusyMaint.maint.queue = [] ∧ wBusyMaint.maint.suspended = none ∧ wBusyMaint.maint.dirty = false) ∧
    (askerPf0 i3c = true ∧ wPass.passThrough = true ∧ (95 ≤ wPass.power.tmax ∨ wPass.maint.tripped = true)) ∧
    (wPause.maint.queue = [(6, 1)] ∧ wPause.maint.pauseAsked = true ∧ wPause.maint.running = 7 ∧ wPause.maint.arg = 0) ∧
    ((wFreqBusy.funcUp 0 = true) ∧ wFreqBusy.maintBusy = true) ∧
    ((wHostUp.funcUp 0 = true) ∧ wHostUp.maintBusy = false ∧ wHostUp.maint.suspended = none ∧ freqTableOk wHostUp.power.freqStage = true ∧
      wHostUp.clk.change = none) ∧
    ((wFreqBad.funcUp 0 = true) ∧ wFreqBad.maintBusy = false ∧ wFreqBad.maint.suspended = none ∧ freqTableOk wFreqBad.power.freqStage =
      false) ∧
    (askerPf0 i3c = true ∧ wLeave.passThrough = true ∧ wLeave.power.tmax < 95 ∧ wLeave.maint.tripped = false ∧ wLeave.maint.badRecords = []
      ∧ wLeave.maint.leaving = none ∧ wLeave.power.vaux = true ∧ wLeave.power.vana = true ∧ wLeave.power.vmain = true ∧
      wLeave.power.thermtrip = false ∧ wLeave.sec.recovery = false) := by
  and_intros <;> decide +kernel

/-- States and operands that meet the hypotheses of `GroupSetUpComplete`, clause by clause. -/
theorem wit_GroupSetUpComplete :
    ((w0.group 0).lead = false ∧ (w0.group 0).id = fields0.id ∧ ((w0.group 0).formed = true ∨ w0.holdsId fields0.id = false)) ∧
    ((w0.group 1).lead = false ∧ (w0.group 1).id = fields0.id ∧ (w0.group 1).formed = false ∧ w0.holdsId fields0.id = true) ∧
    (wHostUp.slotsUp = true ∧ (wHostUp.group 0).lead = false) ∧
    (wFormRange.slotsUp = true ∧ (wFormRange.group 0).lead = true ∧ (wFormRange.group 0).formed = false ∧ (wFormRange.group 0).forming =
      none ∧ wFormRange.formRange 0 = true) ∧
    (wFormFuture.slotsUp = true ∧ (wFormFuture.group 0).lead = true ∧ (wFormFuture.group 0).formed = false ∧ (wFormFuture.group 0).forming =
      none ∧ wFormFuture.formRange 0 = false ∧ wFormFuture.station < (wFormFuture.group 0).winT0) ∧
    ((wSlots goodForm).slotsUp = true ∧ ((wSlots goodForm).group 0).lead = true ∧ ((wSlots goodForm).group 0).formed = false ∧ ((wSlots
      goodForm).group 0).forming = none ∧ (wSlots goodForm).formRange 0 = false ∧ ((wSlots goodForm).group 0).winT0 ≤ (wSlots
      goodForm).station ∧ (List.filter (fun x => x != (wSlots goodForm).place) ((wSlots goodForm).group 0).listed ≠ [])) ∧
    (wDissolved.slotsUp = true ∧ (wDissolved.group 0).lead = true ∧ (wDissolved.group 0).formed = true ∧ (wDissolved.step' 0).busy = false ∧
      (wDissolved.step' 0).retryDue = false ∧ (∀ r ∈ (wDissolved.group 0).serve.reqs, r.2.state = ReqState.free) ∧ wDissolved.others 0 ≠ []) ∧
    (wDissolveNo.slotsUp = true ∧ (wDissolveNo.group 0).lead = true ∧ (wDissolveNo.group 0).formed = true ∧ (wDissolveNo.step' 0).busy =
      false ∧ (wDissolveNo.step' 0).retryDue = false ∧ (4, req0) ∈ (wDissolveNo.group 0).serve.reqs ∧ (4, req0).2.state ≠ ReqState.free) ∧
    ((wFormLate.group 0).forming = some forming0 ∧ forming0.repeats < 3) ∧
    ((wFormLate.group 0).forming = some forming0 ∧ forming0.waiting = [1, 2] ∧ 2 ≠ 1) ∧
    ((wFormFails.group 0).forming = some formingLast ∧ 3 ≤ formingLast.repeats) := by
  and_intros <;> decide +kernel

/-- States and operands that meet the hypotheses of `RegistersComplete`, clause by clause. -/
theorem wit_RegistersComplete :
    (wGoReads.slotsUp = true ∧ wGoReads.anyLocked = false ∧ wGoReads.isEnabled 3 = false) ∧
    (wGoReads.slotsUp = true ∧ wGoReads.anyLocked = false ∧ wGoReads.isEnabled 0 = true ∧ 0 < wsBlocks ∧ (wGoReads.core 0).ws.kindOf 0 = 1 ∧
      (((wGoReads.updWs 0 fun w => w.correct 0).core 0).ws.blockBad 0 = false) ∧ (((wGoReads.updWs 0 fun w => w.correct 0).core 0).ws.crcOf
      0 = (((wGoReads.updWs 0 fun w => w.correct 0).core 0).ws.record 0).crc)) ∧
    (wGoReads.slotsUp = true ∧ wGoReads.anyLocked = false ∧ wGoReads.liveSlots = [] ∧ wGoReads.physOf (bitsN 0 8 0) = some 0 ∧ bitsN 0 11 9
      = 0 ∧ bitsN 0 31 16 < spRows) ∧
    ((wGoReads.funcUp 0 = true) ∧ wGoReads.sec.recovery = false ∧ wGoReads.passThrough = false ∧ wGoReads.freshBits 4112 = 0) ∧
    ((wGoReads.funcUp 0 = true) ∧ wGoReads.sec.recovery = false ∧ wGoReads.passThrough = false ∧ 1800 < bitsN 1900 10 0) ∧
    ((wGoReads.funcUp 0 = true) ∧ wGoReads.sec.recovery = false ∧ wGoReads.passThrough = false ∧ bitsN 0 4 0 < 16) ∧
    ((wGoReads.funcUp 0 = true) ∧ wGoReads.sec.recovery = false ∧ wGoReads.passThrough = false ∧ (wGoReads.group 0).formed = true) ∧
    ((wGoReads.funcUp 0 = true) ∧ wGoReads.sec.recovery = false ∧ wGoReads.passThrough = false ∧ (wGoReads.group 1).formed = false ∧
      wGoReads.pkg.halves = []) ∧
    (wDebugLocked.slotsUp = true ∧ wDebugLocked.anyLocked = true) ∧
    ((wVcAllocNo.funcUp 0 = true) ∧ wVcAllocNo.sec.recovery = false ∧ wVcAllocNo.passThrough = false ∧ (wVcAllocNo.port 0).st ≠ PState.down
      ∧ wVcAllocNo.pkg.halves = []) ∧
    ((wRefused.funcUp 0 = true) ∧ wRefused.sec.recovery = false ∧ wRefused.passThrough = false ∧ wRefused.freshBits 4112 ≠ 0) := by
  and_intros <;> first
    | decide +kernel
    | exact crcOf_agrees _ { x0.ws with mem := [] } 0 (by decide +kernel) (by decide +kernel)

/-- States and operands that meet the hypotheses of `VectorMoveWordsComplete`, clause by clause. -/
theorem wit_VectorMoveWordsComplete :
    (w0.Issues 0 (.vld 0 5 { mode := 2, reg := 0, value := 0 } 31 3 2) .memory ∧
      resolveSr (w0.core 0).sp (w0.core 0).ctl.regs { mode := 2, reg := 0, value := 0 } (3 + 1) = ({ rows := [100, 101, 102, 103], ref := { reg := some 0, pos := 0, tail := false } }, none) ∧
      checkRelease (w0.core 0).sp (w0.core 0).ctl.regs { mode := 2, reg := 0, value := 0 } 2 = none ∧
      (([100, 101, 102, 103].all fun q => !(w0.core 0).sp.rowBad q) = true)) ∧
    (w0.Issues 0 (.vst 0 5 { mode := 3, reg := 0, value := 0 } 0 3 2) .memory ∧
      resolveSr (w0.core 0).sp (w0.core 0).ctl.regs { mode := 3, reg := 0, value := 0 } (3 + 1) = ({ rows := [104, 105, 106, 107], ref := { reg := some 0, pos := 4, tail := true } }, none) ∧
      checkCommit (w0.core 0).sp (w0.core 0).ctl.regs { mode := 3, reg := 0, value := 0 } 2 = none) ∧
    (w0.Issues 0 (.vfill 0 5 7 8) .memory) ∧
    (w0.Issues 0 (.vperm 0 5 7 0 10 64 true 1) .element ∧ 1 ≤ 64 ∧ 64 ≤ 64) ∧
    (w0.Issues 0 (.vperm 0 5 7 0 10 0 true 1) .element ∧ (0 = 0 ∨ 64 < 0) ∧ (w0.core 0).ctl.recs.length < 16) ∧
    (w0.Issues 0 (.vperm 0 5 7 0 10 65 true 1) .element ∧ (65 = 0 ∨ 64 < 65) ∧ (w0.core 0).ctl.recs.length < 16) := by
  delta State.Issues State.Decodes State.NoQueue
  and_intros <;> decide +kernel

/-- States and operands that meet the hypotheses of `VprogCompletes`, clause by clause. -/
theorem wit_VprogCompletes :
    (w0.Issues 0 (.vprog 0 5 { p := 0, vd := 24, k0 := 1, k1 := 1, k2 := 1, s0 := 0, s1 := 0, s2 := 0, elem := 0, r := 7 }) .element ∧
      (List.find? (fun x => x.1 == 0) (w0.core 0).vec.progs = some (0, pr1)) ∧ pr1.ops ≠ [] ∧ 24 + 7 < 32 ∧ 0 + 7 < 32 ∧ 0 + 7 < 32 ∧
      0 + 7 < 32) := by
  delta State.Issues State.Decodes State.NoQueue
  and_intros <;> decide +kernel

/-- States and operands that meet the hypotheses of `VcvtCompletes`, clause by clause. -/
theorem wit_VcvtCompletes :
    (w0.Issues 0 (Instr.vcvt 0 5 (VcvtOp.mk false 0 8 false 0 false 7 6 true 0 0 false 0)) SlotId.element ∧ RM.ofCode (VcvtOp.mk false 0 8
      false 0 false 7 6 true 0 0 false 0).rm.toNat = some RM.ne ∧ (VcvtOp.mk false 0 8 false 0 false 7 6 true 0 0 false 0).sk = false ∧
      (VcvtOp.mk false 0 8 false 0 false 7 6 true 0 0 false 0).dk = false ∧ Fmt.ofCode (VcvtOp.mk false 0 8 false 0 false 7 6 true 0 0 false
      0).sfmt.toNat = some Fmt.fp32 ∧ Fmt.ofCode (VcvtOp.mk false 0 8 false 0 false 7 6 true 0 0 false 0).dfmt.toNat = some Fmt.bf16 ∧
      Fmt.fp32 ≠ Fmt.lacc ∧ Fmt.bf16 ≠ Fmt.lacc ∧ srcScaleBad (VcvtOp.mk false 0 8 false 0 false 7 6 true 0 0 false 0).ssc.toNat Fmt.fp32
      (VcvtOp.mk false 0 8 false 0 false 7 6 true 0 0 false 0).slay = false ∧ (((VcvtOp.mk false 0 8 false 0 false 7 6 true 0 0 false 0).dsc
      ≠ 0 → scalable Fmt.bf16 = true) ∧ ((VcvtOp.mk false 0 8 false 0 false 7 6 true 0 0 false 0).dsc = 2 → (VcvtOp.mk false 0 8 false 0
      false 7 6 true 0 0 false 0).dlay = true) ∧ (VcvtOp.mk false 0 8 false 0 false 7 6 true 0 0 false 0).dsc ≠ 3 ∧ ((VcvtOp.mk false 0 8
      false 0 false 7 6 true 0 0 false 0).dsc = 1 → (VcvtOp.mk false 0 8 false 0 false 7 6 true 0 0 false 0).imm ≠ 255))) ∧
    (w0.Issues 0 (Instr.vcvt 0 5 (VcvtOp.mk true 0 10 false 0 false 7 9 true 0 4 false 0)) SlotId.element ∧ RM.ofCode (VcvtOp.mk true 0 10
      false 0 false 7 9 true 0 4 false 0).rm.toNat = some RM.st ∧ (VcvtOp.mk true 0 10 false 0 false 7 9 true 0 4 false 0).sk = true ∧
      (VcvtOp.mk true 0 10 false 0 false 7 9 true 0 4 false 0).dk = false ∧ (VcvtOp.mk true 0 10 false 0 false 7 9 true 0 4 false 0).sfmt =
      10 ∧ (VcvtOp.mk true 0 10 false 0 false 7 9 true 0 4 false 0).ssc = 0 ∧ Fmt.ofCode (VcvtOp.mk true 0 10 false 0 false 7 9 true 0 4
      false 0).dfmt.toNat = some Fmt.int32 ∧ Fmt.int32 ≠ Fmt.lacc ∧ (((VcvtOp.mk true 0 10 false 0 false 7 9 true 0 4 false 0).dsc ≠ 0 →
      scalable Fmt.int32 = true) ∧ ((VcvtOp.mk true 0 10 false 0 false 7 9 true 0 4 false 0).dsc = 2 → (VcvtOp.mk true 0 10 false 0 false 7
      9 true 0 4 false 0).dlay = true) ∧ (VcvtOp.mk true 0 10 false 0 false 7 9 true 0 4 false 0).dsc ≠ 3 ∧ ((VcvtOp.mk true 0 10 false 0
      false 7 9 true 0 4 false 0).dsc = 1 → (VcvtOp.mk true 0 10 false 0 false 7 9 true 0 4 false 0).imm ≠ 255)) ∧ (w0.core 0).lane.readBad
      ((VcvtOp.mk true 0 10 false 0 false 7 9 true 0 4 false 0).s.toNat % 16) = false) ∧
    (w0.Issues 0 (Instr.vcvt 0 5 (VcvtOp.mk true 0 10 false 0 false 27 10 true 0 0 false 0)) SlotId.element ∧ RM.ofCode (VcvtOp.mk true 0 10
      false 0 false 27 10 true 0 0 false 0).rm.toNat = some RM.ne ∧ (VcvtOp.mk true 0 10 false 0 false 27 10 true 0 0 false 0).sk = true ∧
      (VcvtOp.mk true 0 10 false 0 false 27 10 true 0 0 false 0).dk = false ∧ (VcvtOp.mk true 0 10 false 0 false 27 10 true 0 0 false
      0).sfmt = 10 ∧ (VcvtOp.mk true 0 10 false 0 false 27 10 true 0 0 false 0).dfmt = 10 ∧ (VcvtOp.mk true 0 10 false 0 false 27 10 true 0
      0 false 0).ssc = 0 ∧ (VcvtOp.mk true 0 10 false 0 false 27 10 true 0 0 false 0).dsc = 0 ∧ (VcvtOp.mk true 0 10 false 0 false 27 10
      true 0 0 false 0).d.toNat ≤ 27 ∧ (w0.core 0).lane.readBad ((VcvtOp.mk true 0 10 false 0 false 27 10 true 0 0 false 0).s.toNat % 16) =
      false) ∧
    (w0.Issues 0 (Instr.vcvt 0 5 (VcvtOp.mk false 27 10 false 0 true 7 10 true 0 0 false 0)) SlotId.element ∧ RM.ofCode (VcvtOp.mk false 27
      10 false 0 true 7 10 true 0 0 false 0).rm.toNat = some RM.ne ∧ (VcvtOp.mk false 27 10 false 0 true 7 10 true 0 0 false 0).sk = false ∧
      (VcvtOp.mk false 27 10 false 0 true 7 10 true 0 0 false 0).dk = true ∧ (VcvtOp.mk false 27 10 false 0 true 7 10 true 0 0 false 0).sfmt
      = 10 ∧ (VcvtOp.mk false 27 10 false 0 true 7 10 true 0 0 false 0).dfmt = 10 ∧ (VcvtOp.mk false 27 10 false 0 true 7 10 true 0 0 false
      0).ssc = 0 ∧ (VcvtOp.mk false 27 10 false 0 true 7 10 true 0 0 false 0).dsc = 0 ∧ (VcvtOp.mk false 27 10 false 0 true 7 10 true 0 0
      false 0).s.toNat ≤ 27 ∧ (∀ j < 64, BitVec.toNat ((w0.core 0).vec.elem ((VcvtOp.mk false 27 10 false 0 true 7 10 true 0 0 false
      0).s.toNat + 4) j) % 1024 = BitVec.toNat ((w0.core 0).vec.elem ((VcvtOp.mk false 27 10 false 0 true 7 10 true 0 0 false 0).s.toNat +
      4) 0) % 1024)) ∧
    (w0.Issues 0 (Instr.vcvt 0 5 (VcvtOp.mk false 27 8 false 0 true 7 10 true 0 0 false 0)) SlotId.element ∧ RM.ofCode (VcvtOp.mk false 27 8
      false 0 true 7 10 true 0 0 false 0).rm.toNat = some RM.ne ∧ (VcvtOp.mk false 27 8 false 0 true 7 10 true 0 0 false 0).sk = false ∧
      (VcvtOp.mk false 27 8 false 0 true 7 10 true 0 0 false 0).dk = true ∧ Fmt.ofCode (VcvtOp.mk false 27 8 false 0 true 7 10 true 0 0
      false 0).sfmt.toNat = some Fmt.fp32 ∧ Fmt.fp32 ≠ Fmt.lacc ∧ (VcvtOp.mk false 27 8 false 0 true 7 10 true 0 0 false 0).dfmt = 10 ∧
      (VcvtOp.mk false 27 8 false 0 true 7 10 true 0 0 false 0).dsc = 0 ∧ srcScaleBad (VcvtOp.mk false 27 8 false 0 true 7 10 true 0 0 false
      0).ssc.toNat Fmt.fp32 (VcvtOp.mk false 27 8 false 0 true 7 10 true 0 0 false 0).slay = false) := by
  delta State.Issues State.Decodes State.NoQueue
  and_intros <;> decide +kernel

/-- States and operands that meet the hypotheses of `ReductionStateWordsComplete`, clause by clause. -/
theorem wit_ReductionStateWordsComplete :
    ((-512 ≤ if false = true then BitVec.toInt ((w0.core 0).vec.elem 0 0) else 0) ∧ ((if false = true then BitVec.toInt ((w0.core
      0).vec.elem 0 0) else 0) ≤ 511) ∧ w0.Issues 0 (Instr.vredInit 0 5 0 0 1 false 0 0) SlotId.reduction) ∧
    ((2 = 2 ∨ 2 = 3 ∨ 2 = 4 ∨ 2 = 5) ∧ w0.Issues 0 (Instr.vredInit 0 5 0 0 2 false 0 0) SlotId.reduction) ∧
    (finiteF32 ((w0.core 0).vec.elem 0 0) = true ∧ 0 < (cmpKey (BitVec.toNat ((w0.core 0).vec.elem 0 0))).getD 0 ∧ finiteF32 ((w0.core
      0).vec.elem 0 1) = true ∧ w0.Issues 0 (Instr.vredInit 0 5 0 0 6 false 0 0) SlotId.reduction) ∧
    (w0.Issues 0 (Instr.vtopkInit 0 5 0) SlotId.reduction) ∧
    (w0.Issues 0 (Instr.vtopkMerge 0 5 0) SlotId.reduction ∧ 0 < 31) ∧
    ((Recs.get Red.empty (w0.core 0).vec.red 6).kind = 6 ∧ (Recs.get Red.empty (w0.core 0).vec.red 6).sumPhase = false ∧ w0.Issues 0
      (Instr.vredPhase 0 5 6) SlotId.reduction) ∧
    ((Recs.get Red.empty (wMerge.core 0).vec.red 2).kind ≠ 0 ∧ (Recs.get Red.empty (wMerge.core 0).vec.red 2).kind = (Red.ofRecord
      ((wMerge.core 0).vec.reg 10)).kind ∧ (Recs.get Red.empty (wMerge.core 0).vec.red 2).sumPhase = (Red.ofRecord ((wMerge.core 0).vec.reg
      10)).sumPhase ∧ ((Recs.get Red.empty (wMerge.core 0).vec.red 2).kind = 6 → (Recs.get Red.empty (wMerge.core 0).vec.red 2).c =
      (Red.ofRecord ((wMerge.core 0).vec.reg 10)).c ∧ (Recs.get Red.empty (wMerge.core 0).vec.red 2).d = (Red.ofRecord ((wMerge.core
      0).vec.reg 10)).d) ∧ ((Recs.get Red.empty (wMerge.core 0).vec.red 2).kind = 1 → (Recs.get Red.empty (wMerge.core 0).vec.red 2).w =
      (Red.ofRecord ((wMerge.core 0).vec.reg 10)).w) ∧ wMerge.Issues 0 (Instr.vredMerge 0 5 2 10) SlotId.reduction) := by
  delta State.Issues State.Decodes State.NoQueue
  and_intros <;> decide +kernel

/-- States and operands that meet the hypotheses of `ReductionElementWordsComplete`, clause by clause. -/
theorem wit_ReductionElementWordsComplete :
    (w0.Issues 0 (.vredAcc 0 5 1 0 63 8 false 0 0 1) .reduction ∧ (Recs.get Red.empty (w0.core 0).vec.red 1).kind = 1 ∧
      Fmt.ofCode 8 = some Fmt.fp32 ∧ Fmt.fp32 ≠ Fmt.lacc ∧ srcScaleBad 0 Fmt.fp32 false = false) ∧
    (w0.Issues 0 (.vredAcc 0 5 2 0 63 8 false 0 0 1) .reduction ∧
      ((Recs.get Red.empty (w0.core 0).vec.red 2).kind = 2 ∨ (Recs.get Red.empty (w0.core 0).vec.red 2).kind = 3 ∨ (Recs.get Red.empty (w0.core 0).vec.red 2).kind = 4 ∨ (Recs.get Red.empty (w0.core 0).vec.red 2).kind = 6) ∧
      ((Recs.get Red.empty (w0.core 0).vec.red 2).kind = 4 → BitVec.toNat (Tab.get 0 (w0.core 0).ctl.regs 1) + 63 < 2 ^ 24)) ∧
    (w0.Issues 0 (.vredAcc 0 5 7 0 63 8 false 0 0 1) .reduction ∧
      ((Recs.get Red.empty (w0.core 0).vec.red 7).kind = 2 ∨ (Recs.get Red.empty (w0.core 0).vec.red 7).kind = 3 ∨ (Recs.get Red.empty (w0.core 0).vec.red 7).kind = 4 ∨ (Recs.get Red.empty (w0.core 0).vec.red 7).kind = 6) ∧
      ((Recs.get Red.empty (w0.core 0).vec.red 7).kind = 4 → BitVec.toNat (Tab.get 0 (w0.core 0).ctl.regs 1) + 63 < 2 ^ 24)) ∧
    (w0.Issues 0 (.vscan 0 5 5 0 63 8 false 0 0) .reduction ∧ (Recs.get Red.empty (w0.core 0).vec.red 5).kind = 5 ∧
      Fmt.ofCode 8 = some Fmt.fp32 ∧ Fmt.fp32 ≠ Fmt.lacc ∧ srcScaleBad 0 Fmt.fp32 false = false) ∧
    (w0.Issues 0 (.vtopkAcc 0 5 0 63 1) .reduction ∧ BitVec.toNat (Tab.get 0 (w0.core 0).ctl.regs 1) + 63 < 2 ^ 24) := by
  delta State.Issues State.Decodes State.NoQueue
  and_intros <;> decide +kernel

/-- States and operands that meet the hypotheses of `ReductionOutputWordsComplete`, clause by clause. -/
theorem wit_ReductionOutputWordsComplete :
    (w0.Issues 0 (.vredOut 0 5 2 0 4) .reduction ∧ RM.ofCode 4 = some RM.st) ∧
    (w0.Issues 0 (.vredSmout 0 5 7 0 0 63) .reduction ∧ (Recs.get Red.empty (w0.core 0).vec.red 7).kind = 6 ∧
      (Recs.get Red.empty (w0.core 0).vec.red 7).sumPhase = true) ∧
    (w0.Issues 0 (.vtopkOut 0 5 30) .reduction ∧ 30 < 31) := by
  delta State.Issues State.Decodes State.NoQueue
  and_intros <;> decide +kernel

/-- States and operands that meet the hypotheses of `WeightMoveWordsComplete`, clause by clause. -/
theorem wit_WeightMoveWordsComplete :
    (resolveWb (w0.core 0).ctl.regs { mode := false, reg := 0, value := 3 } = (3, none) ∧ 3 < wsBlocks ∧ (w0.core 0).ws.kindOf 3 = 1 ∧
      (w0.core 0).ws.blockBad 3 = false ∧
      w0.Issues 0 (.wsrd 0 5 { mode := false, reg := 0, value := 3 } true 63 { mode := 0, reg := 0, value := 6143 }) .local ∧
      resolveSr (w0.core 0).sp (w0.core 0).ctl.regs { mode := 0, reg := 0, value := 6143 } 1 = ({ rows := [6143], ref := { reg := none, pos := 6143, tail := false } }, none)) ∧
    (resolveWb (w0.core 0).ctl.regs { mode := false, reg := 0, value := 3 } = (3, none) ∧ 3 < wsBlocks ∧ (w0.core 0).ws.kindOf 3 = 1 ∧
      (w0.core 0).ws.blockBad 3 = false ∧
      w0.Issues 0 (.wsrd 0 5 { mode := false, reg := 0, value := 3 } false 0 { mode := 0, reg := 0, value := 6080 }) .local ∧
      resolveSr (w0.core 0).sp (w0.core 0).ctl.regs { mode := 0, reg := 0, value := 6080 } 64 = ((resolveSr x0.sp x0.ctl.regs { mode := 0, reg := 0, value := 6080 } 64).1, none)) ∧
    (resolveWb (w0.core 0).ctl.regs { mode := false, reg := 0, value := 3 } = (3, none) ∧ 3 < wsBlocks ∧ (w0.core 0).ws.kindOf 3 = 1 ∧
      (w0.core 0).ws.blockBad 3 = false ∧
      w0.Issues 0 (.wsrd 0 5 { mode := false, reg := 0, value := 3 } true 63 { mode := 3, reg := 0, value := 3 }) .local ∧
      resolveSr (w0.core 0).sp (w0.core 0).ctl.regs { mode := 3, reg := 0, value := 3 } 1 = ({ rows := [107], ref := { reg := some 0, pos := 7, tail := true } }, none)) ∧
    (resolveWb (w0.core 0).ctl.regs { mode := false, reg := 0, value := 3 } = (3, none) ∧ 3 < wsBlocks ∧ (w0.core 0).ws.kindOf 3 = 1 ∧
      (w0.core 0).ws.blockBad 3 = false ∧
      w0.Issues 0 (.wswr 0 5 { mode := false, reg := 0, value := 3 } true 63 { mode := 2, reg := 0, value := 3 }) .local ∧
      resolveSr (w0.core 0).sp (w0.core 0).ctl.regs { mode := 2, reg := 0, value := 3 } 1 = ({ rows := [103], ref := { reg := some 0, pos := 3, tail := false } }, none) ∧
      [103] = [103] ∧ (w0.core 0).sp.rowBad 103 = false) ∧
    (resolveWb (w0.core 0).ctl.regs { mode := false, reg := 0, value := 3 } = (3, none) ∧ 3 < wsBlocks ∧ (w0.core 0).ws.kindOf 3 = 1 ∧
      (w0.core 0).ws.blockBad 3 = false ∧
      w0.Issues 0 (.wswr 0 5 { mode := false, reg := 0, value := 3 } false 0 { mode := 0, reg := 0, value := 0 }) .local ∧
      resolveSr (w0.core 0).sp (w0.core 0).ctl.regs { mode := 0, reg := 0, value := 0 } 64 = ((resolveSr x0.sp x0.ctl.regs { mode := 0, reg := 0, value := 0 } 64).1, none) ∧
      (resolveSr x0.sp x0.ctl.regs { mode := 0, reg := 0, value := 0 } 64).1.rows.length = 64 ∧
      (((resolveSr x0.sp x0.ctl.regs { mode := 0, reg := 0, value := 0 } 64).1.rows.all fun q => !(w0.core 0).sp.rowBad q) = true)) := by
  delta State.Issues State.Decodes State.NoQueue
  and_intros <;> decide +kernel

/-- States and operands that meet the hypotheses of `ScratchpadRunWordsComplete`, clause by clause. -/
theorem wit_ScratchpadRunWordsComplete :
    (1 ≤ cnt (w0.core 0).ctl.regs 1 ∧ cnt (w0.core 0).ctl.regs 1 ≤ 6144 ∧
      w0.Issues 0 (.spfill 0 5 { mode := 0, reg := 0, value := 6104 } 1 31 0 1 0) .local ∧
      resolveSr (w0.core 0).sp (w0.core 0).ctl.regs { mode := 0, reg := 0, value := 6104 } (cnt (w0.core 0).ctl.regs 1) = ((resolveSr x0.sp x0.ctl.regs { mode := 0, reg := 0, value := 6104 } 40).1, none) ∧
      checkCommit (w0.core 0).sp (w0.core 0).ctl.regs { mode := 0, reg := 0, value := 6104 } 0 = none ∧
      (0 = 0 → 64 = Tab.get 0 (w0.core 0).ctl.regs 1) ∧ (0 = 1 → 64 = BitVec.ofNat 32 w0.clk.tick) ∧
      (0 = 2 → 64 = BitVec.ofNat 32 (w0.clk.tick / 2 ^ 32)) ∧ (0 = 3 → 64 = BitVec.ofNat 32 w0.station) ∧
      (0 = 4 → 64 = BitVec.ofNat 32 (w0.station / 2 ^ 32)) ∧ (0 = 5 → 64 = (w0.takeFree 32).1) ∧ 0 ≤ 5) ∧
    (1 ≤ cnt (w0.core 0).ctl.regs 2 ∧ cnt (w0.core 0).ctl.regs 2 ≤ 6144 ∧
      w0.Issues 0 (.spfill 0 5 { mode := 3, reg := 0, value := 0 } 2 31 3 0 2) .local ∧
      resolveSr (w0.core 0).sp (w0.core 0).ctl.regs { mode := 3, reg := 0, value := 0 } (cnt (w0.core 0).ctl.regs 2) = ({ rows := [104, 105], ref := { reg := some 0, pos := 4, tail := true } }, none) ∧
      checkCommit (w0.core 0).sp (w0.core 0).ctl.regs { mode := 3, reg := 0, value := 0 } 2 = none ∧
      (3 = 0 → 0 = Tab.get 0 (w0.core 0).ctl.regs 0) ∧ (3 = 1 → 0 = BitVec.ofNat 32 w0.clk.tick) ∧
      (3 = 2 → 0 = BitVec.ofNat 32 (w0.clk.tick / 2 ^ 32)) ∧ (3 = 3 → 0 = BitVec.ofNat 32 w0.station) ∧
      (3 = 4 → 0 = BitVec.ofNat 32 (w0.station / 2 ^ 32)) ∧ (3 = 5 → 0 = (w0.takeFree 32).1) ∧ 3 ≤ 5) ∧
    (1 ≤ cnt (w0.core 0).ctl.regs 2 ∧ cnt (w0.core 0).ctl.regs 2 ≤ 6144 ∧
      w0.Issues 0 (.spfill 0 5 { mode := 3, reg := 0, value := 0 } 2 31 5 0 2) .local ∧
      resolveSr (w0.core 0).sp (w0.core 0).ctl.regs { mode := 3, reg := 0, value := 0 } (cnt (w0.core 0).ctl.regs 2) = ({ rows := [104, 105], ref := { reg := some 0, pos := 4, tail := true } }, none) ∧
      checkCommit (w0.core 0).sp (w0.core 0).ctl.regs { mode := 3, reg := 0, value := 0 } 2 = none ∧
      (5 = 0 → (w0.takeFree 32).1 = Tab.get 0 (w0.core 0).ctl.regs 0) ∧ (5 = 1 → (w0.takeFree 32).1 = BitVec.ofNat 32 w0.clk.tick) ∧
      (5 = 2 → (w0.takeFree 32).1 = BitVec.ofNat 32 (w0.clk.tick / 2 ^ 32)) ∧ (5 = 3 → (w0.takeFree 32).1 = BitVec.ofNat 32 w0.station) ∧
      (5 = 4 → (w0.takeFree 32).1 = BitVec.ofNat 32 (w0.station / 2 ^ 32)) ∧ (5 = 5 → (w0.takeFree 32).1 = (w0.takeFree 32).1) ∧ 5 ≤ 5) ∧
    (1 ≤ cnt (w0.core 0).ctl.regs 1 ∧ cnt (w0.core 0).ctl.regs 1 ≤ 6144 ∧
      w0.Issues 0 (.spcopy 0 5 { mode := false, reg := 0, value := 0 } { mode := false, reg := 0, value := 1 } 1 0) .local ∧
      resolveSa (w0.core 0).ctl.regs { mode := false, reg := 0, value := 0 } (cnt (w0.core 0).ctl.regs 1) = (0, none) ∧
      resolveSa (w0.core 0).ctl.regs { mode := false, reg := 0, value := 1 } (cnt (w0.core 0).ctl.regs 1) = (1, none) ∧
      (((List.take (0 + 1) (if 0 < 1 then ((List.map (fun x => 1 + x) (List.range (cnt (w0.core 0).ctl.regs 1))).zip (List.map (fun x => 0 + x) (List.range (cnt (w0.core 0).ctl.regs 1)))).reverse else (List.map (fun x => 1 + x) (List.range (cnt (w0.core 0).ctl.regs 1))).zip (List.map (fun x => 0 + x) (List.range (cnt (w0.core 0).ctl.regs 1))))).all fun p => !(w0.core 0).sp.rowBad p.2) = true)) := by
  delta State.Issues State.Decodes State.NoQueue
  and_intros <;> first | decide +kernel | (intro _; rfl)

/-- States and operands that meet the hypotheses of `KvWordsComplete`, clause by clause. -/
theorem wit_KvWordsComplete :
    (w0.kvLayout 0 = some kv0 ∧ (Handle.ofWord (Tab.get 0 (w0.core 0).ctl.regs 0)).bad (pageBase kv0.g kv0.shards (w0.logical 0)) (kv0.g *
      Tab.get 0 kv0.shards (w0.logical 0)) = false ∧ resolveSr (w0.core 0).sp (w0.core 0).ctl.regs (Sr.mk 0 0 5) ((Handle.ofWord (Tab.get 0
      (w0.core 0).ctl.regs 0)).count * kv0.ws) = ((resolveSr x0.sp x0.ctl.regs (Sr.mk 0 0 5) 1).1, none) ∧ (((kv0.addrs (w0.core 0).ws
      (w0.logical 0) (Handle.ofWord (Tab.get 0 (w0.core 0).ctl.regs 0))).all fun a => !(w0.core 0).ws.rowBad a) = true) ∧ w0.Issues 0
      (Instr.kvrd 0 5 0 2 (Sr.mk 0 0 5)) SlotId.local ∧ w0.pageGen kv0.slot (kv0.groupOf (w0.logical 0) (Handle.ofWord (Tab.get 0 (w0.core
      0).ctl.regs 0)).page) ≠ cnt (w0.core 0).ctl.regs 2 % 65536) ∧
    (w0.kvLayout 0 = some kv0 ∧ (Handle.ofWord (Tab.get 0 (w0.core 0).ctl.regs 0)).bad (pageBase kv0.g kv0.shards (w0.logical 0)) (kv0.g *
      Tab.get 0 kv0.shards (w0.logical 0)) = false ∧ resolveSr (w0.core 0).sp (w0.core 0).ctl.regs (Sr.mk 0 0 5) ((Handle.ofWord (Tab.get 0
      (w0.core 0).ctl.regs 0)).count * kv0.ws) = ((resolveSr x0.sp x0.ctl.regs (Sr.mk 0 0 5) 1).1, none) ∧ (((kv0.addrs (w0.core 0).ws
      (w0.logical 0) (Handle.ofWord (Tab.get 0 (w0.core 0).ctl.regs 0))).all fun a => !(w0.core 0).ws.rowBad a) = true) ∧ w0.Issues 0
      (Instr.kvrd 0 5 0 3 (Sr.mk 0 0 5)) SlotId.local ∧ w0.pageGen kv0.slot (kv0.groupOf (w0.logical 0) (Handle.ofWord (Tab.get 0 (w0.core
      0).ctl.regs 0)).page) = cnt (w0.core 0).ctl.regs 3 % 65536) ∧
    (w0.kvLayout 0 = some kv0 ∧ (Handle.ofWord (Tab.get 0 (w0.core 0).ctl.regs 0)).bad (pageBase kv0.g kv0.shards (w0.logical 0)) (kv0.g *
      Tab.get 0 kv0.shards (w0.logical 0)) = false ∧ resolveSr (w0.core 0).sp (w0.core 0).ctl.regs (Sr.mk 0 0 5) ((Handle.ofWord (Tab.get 0
      (w0.core 0).ctl.regs 0)).count * kv0.ws) = ((resolveSr x0.sp x0.ctl.regs (Sr.mk 0 0 5) 1).1, none) ∧ (((kv0.addrs (w0.core 0).ws
      (w0.logical 0) (Handle.ofWord (Tab.get 0 (w0.core 0).ctl.regs 0))).all fun a => !(w0.core 0).ws.rowBad a) = true) ∧ Tab.get 0
      (Recs.get [] w0.pageGens kv0.slot) (kv0.groupOf (w0.logical 0) (Handle.ofWord (Tab.get 0 (w0.core 0).ctl.regs 0)).page) =
      (BitVec.setWidth 16 (Tab.get 0 (w0.core 0).ctl.regs (16 + 3))).toNat ∧ (((List.take 32 (resolveSr x0.sp x0.ctl.regs (Sr.mk 0 0 5)
      1).1.rows).all fun q => !(w0.core 0).sp.rowBad q) = true) ∧ w0.Issues 0 (Instr.kvwr 0 5 0 3 (Sr.mk 0 0 5)) SlotId.local) := by
  delta State.Issues State.Decodes State.NoQueue
  and_intros <;> decide +kernel

/-- States and operands that meet the hypotheses of `SendWordsComplete`, clause by clause. -/
theorem wit_SendWordsComplete :
    ((w0.Issues 0 (if false = true then Instr.sendxor 0 5 (Sr.mk 0 0 5) 2 0 0 0 5 else Instr.send 0 5 (Sr.mk 0 0 5) 2 0 0 0 5) SlotId.out) ∧
      (w0.sendFail (w0.ctxOf 0 (if false = true then Instr.sendxor 0 5 (Sr.mk 0 0 5) 2 0 0 0 5 else Instr.send 0 5 (Sr.mk 0 0 5) 2 0 0 0 5))
      (Tab.get 0 (w0.core 0).ctl.regs 0) = none) ∧ 1 ≤ cnt (w0.core 0).ctl.regs 2 ∧ cnt (w0.core 0).ctl.regs 2 ≤ 1024 ∧ resolveSr (w0.core
      0).sp (w0.core 0).ctl.regs (Sr.mk 0 0 5) (cnt (w0.core 0).ctl.regs 2) = ((resolveSr x0.sp x0.ctl.regs (Sr.mk 0 0 5) 2).1, none) ∧
      (w0.vcFail (w0.ctxOf 0 (if false = true then Instr.sendxor 0 5 (Sr.mk 0 0 5) 2 0 0 0 5 else Instr.send 0 5 (Sr.mk 0 0 5) 2 0 0 0 5)) 0
      = none) ∧ (((List.take 32 (resolveSr x0.sp x0.ctl.regs (Sr.mk 0 0 5) 2).1.rows).all fun q => !(w0.core 0).sp.rowBad q) = true)) ∧
    (w0.Issues 0 (Instr.sendacc 0 5 0 0 0 0 5) SlotId.out ∧ w0.sendFail (w0.ctxOf 0 (Instr.sendacc 0 5 0 0 0 0 5)) (Tab.get 0 (w0.core
      0).ctl.regs 0) = none ∧ (w0.core 0).lane.readBad 0 = false) := by
  delta State.Issues State.Decodes State.NoQueue
  and_intros <;> decide +kernel

/-- States and operands that meet the hypotheses of `ReceiveWordsComplete`, clause by clause. -/
theorem wit_ReceiveWordsComplete :
    (resolveSr (w0.core 0).sp (w0.core 0).ctl.regs { mode := 0, reg := 0, value := 5 } 1 = (at5, none) ∧
      w0.Issues 0 (.recvData 0 5 9 { mode := 0, reg := 0, value := 5 }) .into ∧ (((w0.core 0).xfer.tids.all fun x => x.tid != 9) = true) ∧
      (w0.core 0).xfer.tids.length < 64 ∧ (w0.core 0).xfer.waiting = []) ∧
    (w0.Issues 0 (.recvAccumulator 0 5 9 15) .into ∧ (((w0.core 0).xfer.tids.all fun x => x.tid != 9) = true) ∧
      (w0.core 0).xfer.tids.length < 64 ∧ (w0.core 0).xfer.waiting = []) ∧
    (resolveSr (w0.core 0).sp (w0.core 0).ctl.regs { mode := 0, reg := 0, value := 5 } 4 = ({ rows := [5, 6, 7, 8], ref := { reg := none, pos := 5, tail := false } }, none) ∧
      w0.Issues 0 (.recvFastAdd 0 5 9 { mode := 0, reg := 0, value := 5 }) .into ∧
      (((w0.core 0).xfer.tids.all fun x => x.tid != 9) = true) ∧ (w0.core 0).xfer.tids.length < 64 ∧ (w0.core 0).xfer.waiting = []) ∧
    (resolveSr (w0.core 0).sp (w0.core 0).ctl.regs { mode := 0, reg := 0, value := 5 } 1 = (at5, none) ∧
      w0.Issues 0 (.recvXor 0 5 9 { mode := 0, reg := 0, value := 5 }) .into ∧ (((w0.core 0).xfer.tids.all fun x => x.tid != 9) = true) ∧
      (w0.core 0).xfer.tids.length < 64 ∧ (w0.core 0).xfer.waiting = []) ∧
    (w0.Issues 0 (.recvOnDieRead 0 5 1 6143 { mode := 0, reg := 0, value := 5 }) .into ∧ 6143 < spRows ∧
      resolveSr (w0.core 0).sp (w0.core 0).ctl.regs { mode := 0, reg := 0, value := 5 } 1 = (at5, none) ∧ w0.physOf 1 = some 1 ∧ 1 ≠ 0 ∧
      w0.partOf 1 = w0.partOf 0 ∧ (w0.core 1).sp.rowBad 6143 = false) := by
  delta State.Issues State.Decodes State.NoQueue
  and_intros <;> decide +kernel

/-- States and operands that meet the hypotheses of `ServiceWordsComplete`, clause by clause. -/
theorem wit_ServiceWordsComplete :
    ((((w0.core 0).xfer.tids.all fun x => x.tid != 9) = true) ∧ (w0.core 0).xfer.tids.length < 64 ∧ (w0.core 0).xfer.waiting = [] ∧ 1 ≤ cnt
      (w0.core 0).ctl.regs 2 ∧ (((List.take 32 at5.rows).all fun q => !(w0.core 0).sp.rowBad q) = true) ∧ w0.Issues 0 (Instr.kdlook 0 9
      (Sr.mk 0 0 5) 2 0 9) SlotId.service ∧ cnt (w0.core 0).ctl.regs 2 ≤ 8192 ∧ BitVec.toNat (Tab.get 0 (w0.core 0).ctl.regs 0) + ceilDiv
      (cnt (w0.core 0).ctl.regs 2) 8 ≤ spRows ∧ w0.hasDir = true ∧ resolveSr (w0.core 0).sp (w0.core 0).ctl.regs (Sr.mk 0 0 5) (ceilDiv (cnt
      (w0.core 0).ctl.regs 2) 8) = (at5, none)) ∧
    ((((w0.core 0).xfer.tids.all fun x => x.tid != 9) = true) ∧ (w0.core 0).xfer.tids.length < 64 ∧ (w0.core 0).xfer.waiting = [] ∧ 1 ≤ cnt
      (w0.core 0).ctl.regs 2 ∧ (((List.take 32 at5.rows).all fun q => !(w0.core 0).sp.rowBad q) = true) ∧ w0.Issues 0 (Instr.kdput 0 9
      (Sr.mk 0 0 5) 2 false 9) SlotId.service ∧ cnt (w0.core 0).ctl.regs 2 ≤ 4096 ∧ w0.hasDir = true ∧ resolveSr (w0.core 0).sp (w0.core
      0).ctl.regs (Sr.mk 0 0 5) (ceilDiv (cnt (w0.core 0).ctl.regs 2) 4) = (at5, none)) ∧
    ((((w0.core 0).xfer.tids.all fun x => x.tid != 9) = true) ∧ (w0.core 0).xfer.tids.length < 64 ∧ (w0.core 0).xfer.waiting = [] ∧ 1 ≤ cnt
      (w0.core 0).ctl.regs 2 ∧ (((List.take 32 at5.rows).all fun q => !(w0.core 0).sp.rowBad q) = true) ∧ w0.Issues 0 (Instr.kvwrRemote 0 9
      0 2 (Sr.mk 0 0 5) 0 9) SlotId.out ∧ w0.kvLayout 0 = some kv0 ∧ (if w0.destHere (Tab.get 0 (w0.core 0).ctl.regs 0) = true then
      destReserved (Tab.get 0 (w0.core 0).ctl.regs 0) = 0 ∧ (1, 2, [(0, 1), (1, 1)]) = (kv0.ws, kv0.g, kv0.shards) ∧ w0.targetFail 0 0 =
      none else w0.destFail (Tab.get 0 (w0.core 0).ctl.regs 0) = none ∧ Option.map (fun m => (m.ws, m.g, m.shards)) (List.find? (fun x =>
      x.place == destPlace (Tab.get 0 (w0.core 0).ctl.regs 0)) (w0.group kv0.slot).members) = some (1, 2, [(0, 1), (1, 1)])) ∧ pageCore 2
      [(0, 1), (1, 1)] (Handle.ofWord (Tab.get 0 (w0.core 0).ctl.regs 0)).page = some 0 ∧ (Handle.ofWord (Tab.get 0 (w0.core 0).ctl.regs
      0)).bad 0 (pageBase 2 [(0, 1), (1, 1)] 288) = false ∧ (Handle.ofWord (Tab.get 0 (w0.core 0).ctl.regs 0)).count * 1 ≤ 1023 ∧ resolveSr
      (w0.core 0).sp (w0.core 0).ctl.regs (Sr.mk 0 0 5) ((Handle.ofWord (Tab.get 0 (w0.core 0).ctl.regs 0)).count * 1) = (at5, none)) ∧
    ((((w0.core 0).xfer.tids.all fun x => x.tid != 9) = true) ∧ (w0.core 0).xfer.tids.length < 64 ∧ (w0.core 0).xfer.waiting = [] ∧ 1 ≤ cnt
      (w0.core 0).ctl.regs 2 ∧ (((List.take 32 (RowsAt.mk [5, 6] (RowRef.mk none 5 false)).rows).all fun q => !(w0.core 0).sp.rowBad q) =
      true) ∧ w0.Issues 0 (Instr.hostrd 0 9 0 0 (Sr.mk 0 0 5) 2 9) SlotId.service ∧ cnt (w0.core 0).ctl.regs 2 ≤ 1024 ∧ BitVec.toNat
      (Tab.get 0 (w0.core 0).ctl.regs 0) % 64 = 0 ∧ (((w0.func (w0.ownerOf 0)).win 0).len ≠ 0) ∧ (BitVec.toNat (Tab.get 0 (w0.core
      0).ctl.regs 0) + 64 * cnt (w0.core 0).ctl.regs 2 ≤ ((w0.func (w0.ownerOf 0)).win 0).len) ∧ resolveSr (w0.core 0).sp (w0.core
      0).ctl.regs (Sr.mk 0 0 5) (cnt (w0.core 0).ctl.regs 2) = (RowsAt.mk [5, 6] (RowRef.mk none 5 false), none)) ∧
    ((((w0.core 0).xfer.tids.all fun x => x.tid != 9) = true) ∧ (w0.core 0).xfer.tids.length < 64 ∧ (w0.core 0).xfer.waiting = [] ∧ 1 ≤ cnt
      (w0.core 0).ctl.regs 2 ∧ (((List.take 32 (RowsAt.mk [5, 6] (RowRef.mk none 5 false)).rows).all fun q => !(w0.core 0).sp.rowBad q) =
      true) ∧ w0.Issues 0 (Instr.hostwr 0 9 0 0 (Sr.mk 0 0 5) 2 9) SlotId.service ∧ cnt (w0.core 0).ctl.regs 2 ≤ 1024 ∧ BitVec.toNat
      (Tab.get 0 (w0.core 0).ctl.regs 0) % 64 = 0 ∧ (((w0.func (w0.ownerOf 0)).win 0).len ≠ 0) ∧ (BitVec.toNat (Tab.get 0 (w0.core
      0).ctl.regs 0) + 64 * cnt (w0.core 0).ctl.regs 2 ≤ ((w0.func (w0.ownerOf 0)).win 0).len) ∧ resolveSr (w0.core 0).sp (w0.core
      0).ctl.regs (Sr.mk 0 0 5) (cnt (w0.core 0).ctl.regs 2) = (RowsAt.mk [5, 6] (RowRef.mk none 5 false), none)) := by
  delta State.Issues State.Decodes State.NoQueue
  and_intros <;> decide +kernel

/-- States and operands that meet the hypotheses of `LandedFlagChange`, clause by clause. -/
theorem wit_LandedFlagChange :
    (Tab.wf 0 (wReached.core 0).ctl.flags = true) ∧
    (Tab.wf 0 (w0.core 0).ctl.flags = true ∧ Tab.get 0 (w0.core 0).ctl.flags 1 = 0 ∧ (w0.core 0).ctl.recs.length < 16) := by
  and_intros <;> decide +kernel

/-- States and operands that meet the hypotheses of `LandedMemoryWrite`, clause by clause. -/
theorem wit_LandedMemoryWrite :
    (Memory.wf (w0.core 0).sp.mem = true) ∧
    (Memory.wf (w0.core 0).ws.mem = true ∧ 5 ≠ 0 / 4096) := by
  and_intros <;> decide +kernel

/-- States and operands that meet the hypotheses of `LandedRegisterWrite`, clause by clause. -/
theorem wit_LandedRegisterWrite :
    (Tab.wf 0 (w0.core 0).vec.regs = true) ∧
    (63 < 64) ∧
    (Tab.wf 0 (w0.core 0).lane.windows = true) := by
  and_intros <;> decide +kernel

/-- States and operands that meet the hypotheses of `SkippedWordsAreLogged`, clause by clause. -/
theorem wit_SkippedWordsAreLogged :
    (100 < Tab.get 0 (wBusy.core 0).busy SlotId.control.idx ∧ (wBusy.core 0).ctl.recs.length < 16) ∧
    ((((w0.core 0).xfer.tids.all fun x => x.tid != 9) = true) ∧ w0.Issues 0 (.expect 0 5 9) .control ∧ (w0.core 0).ctl.recs.length < 16) ∧
    (w0.Issues 0 (.vtopkOut 0 5 31) .reduction ∧ (w0.core 0).ctl.recs.length < 16) ∧
    ((((w9.core 0).xfer.tids.any fun x => x.tid == 9) = true) ∧ (w9.core 0).xfer.tids.length < 64 ∧
      w9.Issues 0 (.recvAccumulator 0 5 9 0) .into ∧ (w9.core 0).ctl.recs.length < 16) ∧
    (destReserved (Tab.get 0 (w0.core 0).ctl.regs 5) ≠ 0 ∧ w0.destHere (Tab.get 0 (w0.core 0).ctl.regs 5) = false ∧
      w0.Issues 0 (.signal 0 5 0 5) .control ∧ (w0.core 0).ctl.recs.length < 16) := by
  delta State.Issues State.Decodes State.NoQueue
  and_intros <;> decide +kernel

/-- States and operands that meet the hypotheses of `QueueIsFirstInFirstOut`, clause by clause. -/
theorem wit_QueueIsFirstInFirstOut :
    (step w0 = Host.Outcome.next w0.idle) := by
  rfl

/-- States and operands that meet the hypotheses of `MemoriesStayCanonical`, clause by clause. -/
theorem wit_MemoriesStayCanonical :
    (w0.memWf = true ∧ step w0 = Host.Outcome.next w0.idle) := by
  exact ⟨by decide +kernel, rfl⟩

/-- States and operands that meet the hypotheses of `ArrivalsComplete`, clause by clause. -/
theorem wit_ArrivalsComplete :
    (wMeshCells.passThrough = false ∧ (List.find? (fun x => x.port == 0 && x.cell.kind == CellKind.signal && x.cell.core == 0 &&
      x.cell.tenant == 1 && x.cell.tid == 63 && fieldN x.cell.payload 0 8 == 0) wMeshCells.mesh = some (InCell.mk 0 1 cellSig)) ∧
      wMeshCells.physOf 0 = some 0 ∧ 0 ≠ 511 ∧ (wMeshCells.part ((wMeshCells.partOf 0).getD 0)).tenant = 1 ∧ 0 = (wMeshCells.core
      0).ctl.ran) ∧
    (wMeshCells.passThrough = false ∧ InCell.mk (viaPort (Via.port 0)) 0 cell9 ∈ wMeshCells.mesh ∧ wMeshCells.physOf cell9.core.toNat = some
      0 ∧ cell9.core ≠ 511 ∧ cell9.dest = wMeshCells.place ∧ cell9.kind = CellKind.data ∧ cell9.last = false ∧ (wMeshCells.part
      ((wMeshCells.partOf 0).getD 0)).tenant = cell9.tenant.toNat ∧ (List.find? (fun x => x.tid == cell9.tid.toNat) (wMeshCells.core
      0).xfer.tids = none)) ∧
    (wMeshOpen.passThrough = false ∧ InCell.mk (viaPort Via.mesh) 0 cell9 ∈ wMeshOpen.mesh ∧ wMeshOpen.physOf cell9.core.toNat = some 0 ∧
      cell9.core ≠ 511 ∧ cell9.dest = wMeshOpen.place ∧ cell9.kind = CellKind.data ∧ cell9.last = false ∧ (wMeshOpen.part ((wMeshOpen.partOf
      0).getD 0)).tenant = cell9.tenant.toNat ∧ (List.find? (fun x => x.tid == cell9.tid.toNat) (wMeshOpen.core 0).xfer.tids = some o9open)
      ∧ o9open.form = TidForm.data ∧ o9open.discard = false ∧ o9open.total = none ∧ o9open.rows.reg = none ∧ o9open.rows.pos +
      cell9.index.toNat / 2 < spRows) ∧
    (wMeshNext.passThrough = false ∧ (List.find? (fun x => x.port == 1 && x.cell.kind == CellKind.signal && x.cell.core == 0 &&
      x.cell.tenant == 1 && x.cell.tid == 63 && fieldN x.cell.payload 0 8 == 1) wMeshNext.mesh = some (InCell.mk 1 1 cellSigNext)) ∧
      wMeshNext.physOf 0 = some 0 ∧ 0 ≠ 511 ∧ (wMeshNext.part ((wMeshNext.partOf 0).getD 0)).tenant = 1 ∧ 1 = BitVec.toNat (wMeshNext.core
      0).ctl.ran + 1 ∧ BitVec.toNat (Tab.get 0 (wMeshNext.core 0).ctl.pendSig 63) < 255) := by
  and_intros <;> decide +kernel

/-- States and operands that meet the hypotheses of `CompletionsComplete`, clause by clause. -/
theorem wit_CompletionsComplete :
    ((List.find? (fun x => x.tid == 9) (w9met.core 0).xfer.tids = some o9met) ∧ o9met.total = some o9met.rcvd ∧ o9met.complete = false ∧
      o9met.form = TidForm.data ∧ o9met.faulty = false ∧ o9met.rows.reg = none) ∧
    ((w9wait.core 0).xfer.waiting = [InCell.mk 8 0 cell9] ∧ (InCell.mk 8 0 cell9).cell.kind = CellKind.data ∧ (List.find? (fun x => x.tid ==
      (InCell.mk 8 0 cell9).cell.tid.toNat) (w9wait.core 0).xfer.tids = some o9open) ∧ o9open.form = TidForm.data ∧ o9open.discard = false ∧
      o9open.total = none ∧ o9open.rows.reg = none ∧ o9open.rows.pos + (InCell.mk 8 0 cell9).cell.index.toNat / 2 < spRows ∧ (InCell.mk 8 0
      cell9).cell.last = false) ∧
    ((List.find? (fun k => k.tid == 9 && k.total == some k.rcvd) (w9kv.core 0).xfer.kvctx = some kv9) ∧ kv9.head = some head9 ∧ (w9kv.core
      0).xfer.waiting = [] ∧ w9kv.kvLayout 0 = some kv0 ∧ (Handle.ofWord (BitVec.ofNat 32 (fieldN head9 0 4))).bad (pageBase kv0.g
      kv0.shards (w9kv.logical 0)) (kv0.g * Tab.get 0 kv0.shards (w9kv.logical 0)) = false ∧ w9kv.pageGen kv0.slot (kv0.groupOf
      (w9kv.logical 0) (Handle.ofWord (BitVec.ofNat 32 (fieldN head9 0 4))).page) = fieldN head9 4 2) ∧
    ((List.find? (fun o => o.tid == 9 && o.form == TidForm.hostrd && !o.complete) (w9host.core 0).xfer.tids = some o9host) ∧ o9host.rows.reg
      = none ∧ o9host.faulty = false ∧ (List.replicate 128 3).length = 64 * (o9host.want - 0) ∧ 0 ≤ o9host.want ∧ o9host.got = 0) := by
  and_intros <;> decide +kernel

/-- States and operands that meet the hypotheses of `LeavingAndFailedReadsComplete`, clause by clause. -/
theorem wit_LeavingAndFailedReadsComplete :
    (wBare.slotOf 0 = none) ∧
    (wRun.slotOf 0 = some 0 ∧ (wRun.step' 0).live = true) ∧
    ((wRun.step' 0).live = true) ∧
    (wReply.NoQueue ∧ (wReply.core 0).xfer.replies = [{ cell9 with vc := 3 }]) ∧
    (wOut.NoQueue ∧ (wOut.core 0).xfer.outbound = [cell9] ∧ (cell9.vc = 0 ∨ (wOut.core 0).xfer.replies = [])) ∧
    (wReply.NoQueue ∧ (wReply.core 0).xfer.hostOut = [(9, 64, [])]) := by
  delta State.NoQueue
  and_intros <;> decide +kernel

/-- States and operands that meet the hypotheses of `DecoderEventsComplete`, clause by clause. -/
theorem wit_DecoderEventsComplete :
    ((wReached.core 0).ctl.dec = DecState.waiting 1 2 5 ∧ 2 ≤ Tab.get 0 (wReached.core 0).ctl.flags 1 ∧ (wReached.core 0).ctl.stalled = [] ∧
      wReached.NoQueue) ∧
    ((wFull.core 0).ctl.dec = DecState.held (Instr.setf 0 0 1 9) 300 ∧ engineOf (Instr.setf 0 0 1 9) = some Engine.move ∧ (wFull.core
      0).ctl.stalled = [] ∧ wFull.NoQueue ∧ wEntered.mayReach (wEntered.issueTick 0 eHeld) = false) ∧
    ((wDone.core 0).ctl.dec = DecState.halted ∧ (wDone.core 0).ctl.finished = false ∧ (wDone.core 0).ctl.preStart = false ∧ (wDone.core
      0).ctl.laneQ = [] ∧ (wDone.core 0).ctl.vecQ = [] ∧ (wDone.core 0).ctl.moveQ = [] ∧ wDone.resultsOut 0 = false ∧ wDone.slotOf 0 = none) ∧
    ((wDoneStep.core 0).ctl.dec = DecState.halted ∧ (wDoneStep.core 0).ctl.finished = false ∧ (wDoneStep.core 0).ctl.preStart = false ∧
      (wDoneStep.core 0).ctl.laneQ = [] ∧ (wDoneStep.core 0).ctl.vecQ = [] ∧ (wDoneStep.core 0).ctl.moveQ = [] ∧ wDoneStep.resultsOut 0 =
      false ∧ wDoneStep.slotOf 0 = some 0) ∧
    ((wBowg.core 0).ctl.laneQ = [QEntry.mk (Instr.bowg 0 0 (Sa.mk false 0 4) 1 0 false 63 0 false 0) 110 0 [(1, 64)]] ∧ (resolveSa [(1, 64)]
      (Sa.mk false 0 4) 2).1 = 4 ∧ wBowg.clk.previews = [] ∧ (wBowg.core 0).ctl.s0 + 110 ≤ wBowg.clk.tick + 16 ∧ wBowg.clk.tick + 9 ≤
      (wBowg.core 0).ctl.s0 + 110 ∧ wBowg.bankTaken 0 (4 % 32) = false ∧ wBowg.bankTaken 0 ((4 + 1) % 32) = false ∧ (wBowg.core 0).sp.rowBad
      4 = false ∧ (wBowg.core 0).sp.rowBad (4 + 1) = false) := by
  delta State.NoQueue
  and_intros <;> decide +kernel

/-- States and operands that meet the hypotheses of `ControlFaultsComplete`, clause by clause. -/
theorem wit_ControlFaultsComplete :
    (w0.isEnabled 0 = true ∧ w0.passThrough = false ∧ (List.filter (fun t => decide (w0.station < t + 600000000000)) (w0.core
      0).det.seqTimes = [])) ∧
    (wSeq.isEnabled 0 = true ∧ wSeq.passThrough = false ∧ (List.filter (fun t => decide (wSeq.station < t + 600000000000)) (wSeq.core
      0).det.seqTimes ≠ [])) ∧
    (wLong.isEnabled 0 = true ∧ (wLong.core 0).ctl.dec = DecState.decoding ∧ 2 ^ 40 ≤ (wLong.core 0).ctl.cursor + 1) ∧
    ((wTooLate.core 0).ctl.dec = DecState.waiting 1 2 5 ∧ (wTooLate.core 0).ctl.waitFrom + wTooLate.flagBound 0 ≤ wTooLate.clk.tick +
      wTooLate.clk.heldTotal) := by
  and_intros <;> decide +kernel

/-- States and operands that meet the hypotheses of `MuteAndClockComplete`, clause by clause. -/
theorem wit_MuteAndClockComplete :
    (w0.clk.tick ≤ 101 ∧ 101 ≤ w0.clk.tick + 16) ∧
    (w0.clk.refclk = true ∧ w0.NoQueue) ∧
    ((List.find? (fun x => x.tid == 9) (w9late.core 0).xfer.tids = some o9short) ∧ o9short.complete = false ∧ (w9late.core 0).ctl.s0 + 0 -
      16 ≤ w9late.clk.tick ∧ w9late.clk.late = []) ∧
    (wChange.clk.change = some (101, 3) ∧ 101 ≤ wChange.clk.tick + 1) ∧
    (wLateHeld.clk.late = [LateItem.mk (CheckItem.transfer 0 9 50) 34 none] ∧ 34 + 7 ≤ wLateHeld.clk.tick ∧ 2 ^ wLateHeld.pkg.muteExp ≤
      wLateHeld.clk.heldRun ∧ wLateHeld.slotOf 0 = some 0 ∧ (wLateHeld.step' 0).onCores = true) := by
  delta State.NoQueue
  and_intros <;> decide +kernel

/-- States and operands that meet the hypotheses of `ScrubberComplete`, clause by clause. -/
theorem wit_ScrubberComplete :
    (wScrub.isEnabled 0 = true ∧ wScrub.passThrough = false ∧ wScrub.backgroundPaused = false ∧ 0 < 512 ∧ (wScrub.core 0).ws.errs = [] ∧
      (wScrub.core 0).ws.recErrs = [] ∧ (wScrub.core 0).ws.bad = [] ∧ (wScrub.core 0).ws.crcOf (wScrub.core 0).ws.scrubNext = ((wScrub.core
      0).ws.record (wScrub.core 0).ws.scrubNext).crc) ∧
    (wScrubKv.isEnabled 0 = true ∧ wScrubKv.passThrough = false ∧ wScrubKv.backgroundPaused = false ∧ (wScrubKv.core 0).ws.errs = [] ∧
      (wScrubKv.core 0).ws.bad = [] ∧ (wScrubKv.core 0).ws.kindOf (wScrubKv.core 0).ws.scrubNext = 2) ∧
    (wBad.isEnabled 0 = true ∧ wBad.passThrough = false ∧ wBad.backgroundPaused = false ∧ (wBad.core 0).ws.bad = [3071] ∧ Memory.wf
      (wBad.core 0).ws.mem = true ∧ ((wBad.core 0).ws.kindOf 3071 = 0 ∨ (wBad.core 0).ws.kindOf 3071 = 3 ∧ ([] : List Byte).length = 4096 ∨
      ((wBad.core 0).ws.kindOf 3071 = 4 ∨ (wBad.core 0).ws.kindOf 3071 = 5) ∧ wBad.bothBad 0 3071 = false)) ∧
    (wSpare.isEnabled 0 = true ∧ wSpare.passThrough = false ∧ wSpare.backgroundPaused = false ∧ 64 * 3 + 5 ∈ (wSpare.core 0).ws.spareDue ∧
      (wSpare.core 0).ws.blockBad 3 = false ∧ Tab.get 0 (wSpare.core 0).ws.sparesUsed 5 = 63 ∧ 63 < 64) := by
  and_intros <;> first
    | decide +kernel
    | exact crcOf_agrees _ { x0.ws with records := [] } 100 (by decide +kernel) (by decide +kernel)

/-- States and operands that meet the hypotheses of `CheckerEventsComplete`, clause by clause. -/
theorem wit_CheckerEventsComplete :
    ((wArbJ.core 0).det.arbOpen = some 40 ∧ wArbJ.slotOf 0 = none ∧ wArbJ.alternate 0 = some 1 ∧ wArbJ.NoQueue ∧ (((List.filter (fun j =>
      j.tick == 40) (wArbJ.core 0).lane.journal).all fun j => Tab.get 0 (wArbJ.core 0).ws.writes j.set.block == j.writes) = true) ∧ ([1] ≠
      List.flatMap (fun x => x.sums) (List.filter (fun j => j.tick == 40) (wArbJ.core 0).lane.journal)) ∧ (List.map residue [1] ≠
      List.flatMap (fun x => x.residues) (List.filter (fun j => j.tick == 40) (wArbJ.core 0).lane.journal))) ∧
    ((wArbJ.core 0).det.arbOpen = some 40 ∧ wArbJ.slotOf 0 = none ∧ wArbJ.alternate 0 = some 1 ∧ wArbJ.NoQueue ∧ (((List.filter (fun j =>
      j.tick == 40) (wArbJ.core 0).lane.journal).all fun j => Tab.get 0 (wArbJ.core 0).ws.writes j.set.block == j.writes) = true) ∧
      (List.replicate 64 0 = List.flatMap (fun x => x.sums) (List.filter (fun j => j.tick == 40) (wArbJ.core 0).lane.journal)) ∧ (wArbJ.core
      0).det.checkerFaults + 1 < 4 ∧ Tab.wf Acc.zero (wArbJ.core 0).lane.acc = true) ∧
    ((wArbJ.core 0).lane.samples = [sample0] ∧ sample0.checked = false ∧ sample0.entry.reference = sample0.entry.sums) ∧
    (wArbJ.isEnabled 0 = true ∧ wArbJ.passThrough = false ∧ wArbJ.backgroundPaused = false ∧ wArbJ.idleFor 0 = true ∧ (wArbJ.stepOf
      0).onCores = false) := by
  delta State.NoQueue
  and_intros <;> decide +kernel

/-- States and operands that meet the hypotheses of `PartFaultsComplete`, clause by clause. -/
theorem wit_PartFaultsComplete :
    (w0.passThrough = false ∧ w0.faultLog.length ≤ 1024) ∧
    (w0.passThrough = false ∧ w0.isEnabled 0 = true ∧ ((List.filter (fun t => decide (w0.station < t + 3600000000000)) w0.meshFaults).length
      < 2)) ∧
    (wMesh.passThrough = false ∧ wMesh.isEnabled 0 = true ∧ (2 ≤ (List.filter (fun t => decide (wMesh.station < t + 3600000000000))
      wMesh.meshFaults).length)) ∧
    (wLoss.passThrough = false ∧ (Hold.lockLoss ∈ wLoss.clk.holds ∨ Hold.frequency ∈ wLoss.clk.holds)) := by
  and_intros <;> decide +kernel

/-- States and operands that meet the hypotheses of `StopAndRetryComplete`, clause by clause. -/
theorem wit_StopAndRetryComplete :
    ((wRun.group 0).formed = true ∧ (wRun.group 0).lead = false ∧ (wRun.step' 0).live = true ∧ (wRun.step' 0).num = 3 ∧ 0 ≠ 7) ∧
    ((wRun.group 0).formed = true ∧ (wRun.group 0).lead = false ∧ (wRun.step' 0).live = true ∧ (wRun.step' 0).num = 3 ∧ 7 = 7) ∧
    (wRun.passThrough = false) ∧
    ((wRetry.group 0).formed = true ∧ (wRetry.group 0).lead = true ∧ (wRetry.step' 0).busy = false ∧ wRetry.recovered 0 = true ∧
      wRetry.passThrough = false ∧ (wRetry.step' 0).retryDue = true ∧ (wRetry.group 0).saved = none ∧ (wRetry.group 0).serve.recover = [] ∧
      (wRetry.step' 0).input = [] ∧ (wRetry.group 0).swap.lastOldRunning = false) := by
  and_intros <;> decide +kernel

/-- States and operands that meet the hypotheses of `LostPartsComplete`, clause by clause. -/
theorem wit_LostPartsComplete :
    (0 ≠ 1) ∧
    ((wUp.port 0).st = PState.up ∧ (wUp.port 0).silent = false ∧ wUp.meshPort 0 = true) ∧
    (wLine.hears 1 = true ∧ ((wLine.net.reports.all fun r => r.1 != 1) = true) ∧ 1 ∉ wLine.net.lost ∧ 1 < neighbourCount wLine.shape 1) ∧
    (wReported.hears 1 = true ∧ ((wReported.net.reports.any fun r => r.1 == 1) = true) ∧ 1 ∉ wReported.net.lost ∧ 1 ≠ wReported.place ∧ (∀
      (g : ℕ), (wReported.group g).formed = false)) ∧
    (wRetire.maint.running = 6 ∧ wRetire.maint.arg = 1 ∧ wRetire.isEnabled 1 = true ∧ (∀ (g : ℕ), (((wRetire.stopAll 176).retireCore
      1).image g).loaded = false)) := by
  and_intros <;> first | decide +kernel | (intro _; rfl)

/-- The next frame of a port that holds one whole frame. -/
theorem rx_next (f : Frame) (good : Bool) :
    (((wRx f good).port 0).pull []).1.nextFrame = some ((frameBytes f, good), rxLeft f good) :=
  nextFrame_of_bytes _ _ _ (frameBytes_length _) rfl rfl

/-- States and operands that meet the hypotheses of `FramesComplete`, clause by clause. -/
theorem wit_FramesComplete :
    ((wSend.port 0).st = PState.up ∧ (wSend.port 0).resend = [] ∧ (wSend.port 0).buffer = [] ∧ (wSend.port 0).realign = false ∧ (wSend.port
      0).farOff = 0 ∧ (wSend.port 0).starved = [] ∧ (wSend.port 0).outq = [(1, InCell.mk 8 1 cellCtl)] ∧ (InCell.mk 8 1 cellCtl).cell =
      cellCtl ∧ cellCtl.vc = 1 ∧ wSend.fabric = [] ∧ (wSend.port 0).keyFrames + 1 < 2 ^ 43 ∧ (wSend.port 0).policy = false) ∧
    ((wSend.port 0).st = PState.up ∧ ((wSend.port 0).pull []).1.nextFrame = none) ∧
    ((wSealed.port 0).st = PState.up ∧ (wSealed.port 0).resend = [] ∧ (wSealed.port 0).buffer = [] ∧ (wSealed.port 0).realign = false ∧
      (wSealed.port 0).farOff = 0 ∧ (wSealed.port 0).starved = [] ∧ (wSealed.port 0).outq = [(1, InCell.mk 8 1 cellCtl)] ∧ (InCell.mk 8 1
      cellCtl).cell = cellCtl ∧ cellCtl.vc = 1 ∧ wSealed.fabric = [] ∧ (wSealed.port 0).keyFrames + 1 < 2 ^ 43 ∧ (wSealed.port 0).policy =
      true ∧ (wSealed.port 0).txKeys.slot (wSealed.port 0).key = some (LinkKey.mk 1 0)) ∧
    ((wUp.port 0).st = PState.up ∧ (wUp.port 0).resend = [] ∧ (wUp.port 0).buffer = [] ∧ (wUp.port 0).realign = false ∧ (wUp.port 0).outq =
      []) ∧
    ((wReplay.port 0).st = PState.up ∧ (wReplay.port 0).resend = [frame0] ∧ (wReplay.port 0).realign = false) ∧
    ((wBuffered.port 0).st = PState.up ∧ (wBuffered.port 0).buffer ≠ [] ∧ (wBuffered.port 0).resend = [] ∧ (wBuffered.port 0).replayRun < 7
      ∧ (wBuffered.port 0).replayTimes = []) ∧
    (((wRx frameIdle true).port 0).st = PState.up ∧ (((wRx frameIdle true).port 0).pull []).1.nextFrame = some ((frameBytes frameIdle,
      true), rxLeft frameIdle true) ∧ frameCrcGood (frameBytes frameIdle) = true ∧ (frameOf (frameBytes frameIdle)).count ≤ 12 ∧ (frameOf
      (frameBytes frameIdle)).reserved = false ∧ (frameOf (frameBytes frameIdle)).nak = false ∧ (frameOf (frameBytes frameIdle)).lanes =
      ((wRx frameIdle true).port 0).farLanes ∧ ((wRx frameIdle true).port 0).buffer = [] ∧ ((wRx frameIdle true).port 0).rotation =
      Rotation.idle ∧ (frameOf (frameBytes frameIdle)).type = 1 ∧ (wRx frameIdle true).fabric = []) ∧
    (((wRx frameData true).port 0).st = PState.up ∧ (((wRx frameData true).port 0).pull []).1.nextFrame = some ((frameBytes frameData,
      true), rxLeft frameData true) ∧ frameCrcGood (frameBytes frameData) = true ∧ (frameOf (frameBytes frameData)).count ≤ 12 ∧ (frameOf
      (frameBytes frameData)).reserved = false ∧ (frameOf (frameBytes frameData)).nak = false ∧ (frameOf (frameBytes frameData)).lanes =
      ((wRx frameData true).port 0).farLanes ∧ ((wRx frameData true).port 0).buffer = [] ∧ ((wRx frameData true).port 0).rotation =
      Rotation.idle ∧ (frameOf (frameBytes frameData)).type = 0 ∧ 1 ≤ (frameOf (frameBytes frameData)).count ∧ (frameOf (frameBytes
      frameData)).enc = false ∧ ((wRx frameData true).port 0).policy = false ∧ (frameOf (frameBytes frameData)).seq = ((wRx frameData
      true).port 0).expect ∧ (frameOf (frameBytes frameData)).off = ((wRx frameData true).port 0).farOff) ∧
    (((wRx frameIdle false).port 0).st = PState.up ∧ (((wRx frameIdle false).port 0).pull []).1.nextFrame = some ((frameBytes frameIdle,
      false), rxLeft frameIdle false) ∧ (frameCrcGood (frameBytes frameIdle) = false ∨ false = false) ∧ ((wRx frameIdle false).port
      0).episode = false) := by
  and_intros <;> first
    | with_reducible exact frameCrcGood_frameBytes _
    | with_reducible exact rx_next _ _
    | with_reducible exact Or.inr rfl
    | decide +kernel

/-- States and operands that meet the hypotheses of `PortBringUpComplete`, clause by clause. -/
theorem wit_PortBringUpComplete :
    ((wLit.port 0).st = PState.down ∧ (wLit.laser (0 / 2)).good = true ∧ wLit.power.railFabric = true ∧ (wLit.peer 0).isSome = true) ∧
    ((wLit.laser 0).en = true ∧ (wLit.laser 0).good = true ∧ (wLit.port (2 * 0)).st = PState.down ∧ (wLit.port (2 * 0 + 1)).st =
      PState.down) ∧
    ((wLight.port 0).st = PState.light ∧ 4 ≤ laneCount 65535) ∧
    ((wTrain.port 0).st = PState.train ∧ (4 ≤ laneCount (if (wTrain.port 0).retraining = true then (wTrain.port 0).lanes ||| 65535 else
      (wTrain.port 0).lanes &&& 65535))) ∧
    (((wTrain.port 0).st = PState.train ∨ (wTrain.port 0).st = PState.align ∨ (wTrain.port 0).st = PState.hello) ∧ (wTrain.port 0).miswired
      = false ∧ ((wTrain.port 0).retraining = false ∨ (wTrain.port 0).retrainFails < 2)) ∧
    ((wTrain.port 0).st ≠ PState.down ∧ (wTrain.port 0).lanes.getLsbD 0 = true ∧ 4 ≤ laneCount ((wTrain.port 0).lanes &&& ~~~BitVec.ofNat 16
      (2 ^ 0))) ∧
    ((wAlign.port 0).st = PState.align) ∧
    ((wHello.port 0).st = PState.hello ∧ wHello.helloOk 0 hello1 = true ∧ (wHello.port 0).policy = false ∧ (wHello.port 0).retraining =
      false) ∧
    ((wHello.port 0).st = PState.hello ∧ wHello.helloOk 0 hello5 = false) ∧
    ((wAgain.port 0).st = PState.hello ∧ wAgain.helloOk 0 hello1 = true ∧ ((wAgain.port 0).policy = false ∨ ((wAgain.port 0).txKeys.slot
      (wAgain.port 0).key).isSome = true) ∧ (wAgain.port 0).retraining = true) ∧
    (((wAgain.port 0).st = PState.train ∨ (wAgain.port 0).st = PState.align ∨ (wAgain.port 0).st = PState.hello) ∧ (wAgain.port 0).miswired
      = false ∧ (wAgain.port 0).retraining = true ∧ 2 ≤ (wAgain.port 0).retrainFails) ∧
    ((wPolicy.port 0).st = PState.hello ∧ wPolicy.helloOk 0
    (have __src := hello1;
    HelloRec.mk __src.place __src.port __src.digest
      __src.epoch true) =
  true ∧ (wPolicy.port 0).policy = true ∧ (wPolicy.port 0).txKeys.slot (wPolicy.port 0).key = none ∧ (wPolicy.port
      0).retraining = false) ∧
    ((wMiswired.port 0).st = PState.hello ∧ (wMiswired.port 0).miswired = true) ∧
    ((wLaser.port 0).st = PState.up ∧ wLaser.backgroundPaused = false) ∧
    ((wLaser.laser 0).en = true ∧ (wLaser.laser 0).good = true ∧ ((wLaser.port (2 * 0)).st ≠ PState.down ∨ (wLaser.port (2 * 0 + 1)).st ≠
      PState.down)) := by
  and_intros <;> first
    | decide +kernel
    | exact hello_fits

/-- States and operands that meet the hypotheses of `LinkKeysComplete`, clause by clause. -/
theorem wit_LinkKeysComplete :
    (((wKey Rotation.idle).port 0).st = PState.up ∧ ((wKey Rotation.idle).port 0).policy = true ∧ ((wKey Rotation.idle).port 0).rotation =
      Rotation.idle) ∧
    (((wKey Rotation.idle).port 0).st = PState.up ∧ ((wKey Rotation.idle).port 0).policy = true ∧ ((wKey Rotation.idle).port 0).rxKeys.s0 =
      none) ∧
    (((wKey Rotation.asked).port 0).st = PState.up ∧ ((wKey Rotation.asked).port 0).policy = true ∧ ((wKey Rotation.asked).port 0).rotation
      = Rotation.asked) ∧
    (((wKey Rotation.asked).port 0).st = PState.up ∧ ((wKey Rotation.asked).port 0).policy = true ∧ ((wKey Rotation.asked).port 0).rotation
      ≠ Rotation.idle ∧ ((wKey Rotation.asked).port 0).sessionFails < 2) ∧
    (((wKey Rotation.busy).port 0).st = PState.up ∧ ((wKey Rotation.busy).port 0).policy = true ∧ ((wKey Rotation.busy).port 0).rotation =
      Rotation.busy) ∧
    (((wKey Rotation.retiring).port 0).st = PState.up ∧ ((wKey Rotation.retiring).port 0).policy = true ∧ ((wKey Rotation.retiring).port
      0).rotation = Rotation.retiring) ∧
    ((wFails.port 0).st = PState.up ∧ (wFails.port 0).policy = true ∧ (wFails.port 0).rotation ≠ Rotation.idle ∧ 2 ≤ (wFails.port
      0).sessionFails) ∧
    ((wOneKey.port 0).st = PState.up ∧ (wOneKey.port 0).policy = true ∧ (wOneKey.port 0).rxKeys.s0.isSome = true ∧ (wOneKey.port
      0).rxKeys.s1 = none) ∧
    ((wNewer.port 0).st = PState.up ∧ (wNewer.port 0).policy = true ∧ (wNewer.port 0).rxKeys.s0.isSome = true ∧ (wNewer.port
      0).rxKeys.s1.isSome = true) ∧
    ((wNewer.port 0).st = PState.up ∧ (wNewer.port 0).policy = true ∧ (wNewer.port 0).rxKeys = KeySlots.mk (some (LinkKey.mk 1 0)) (some
      (LinkKey.mk 0 2)) ∧ ((LinkKey.mk 0 2).session < (LinkKey.mk 1 0).session ∨ (LinkKey.mk 1 0).session = (LinkKey.mk 0 2).session ∧
      (LinkKey.mk 0 2).index < (LinkKey.mk 1 0).index)) ∧
    ((wKeys.port 0).st = PState.up ∧ (wKeys.port 0).policy = true ∧ (wKeys.port 0).rxKeys = KeySlots.mk (some (LinkKey.mk 0 1)) (some
      (LinkKey.mk 0 2)) ∧ ((LinkKey.mk 0 1).session < (LinkKey.mk 0 2).session ∨ (LinkKey.mk 0 1).session = (LinkKey.mk 0 2).session ∧
      (LinkKey.mk 0 1).index < (LinkKey.mk 0 2).index)) := by
  and_intros <;> decide +kernel

/-- States and operands that meet the hypotheses of `EveryCommandIsExecuted`, clause by clause. -/
theorem wit_EveryCommandIsExecuted :
    (wordCore .muteRelease = none) ∧
    (wordCore (.nop 0 1) = some 0 ∧ wordOk w0.n (w0.logical (0 : CoreId).val) (.nop 0 1) = true) ∧
    (wordCore (.adda 0 0 24 0 true 0) = some 0 ∧ wordOk w0.n (w0.logical (0 : CoreId).val) (.adda 0 0 24 0 true 0) = false) := by
  and_intros <;> decide +kernel

/-- States and operands that meet the hypotheses of `RouteEventsComplete`, clause by clause. -/
theorem wit_RouteEventsComplete :
    (shapeBad wStage.net.shapeStage = false ∧ wStage.hasRoute = false) ∧
    (shapeBad wBadStage.net.shapeStage = true) ∧
    (shapeBad wCoord.net.shapeStage = false ∧ wCoord.coordinating = true ∧ wCoord.maintBusy = false ∧ wCoord.maint.suspended = none) ∧
    (wOther.coordinating = false ∧ shapeBad wOther.net.shapeStage = false) ∧
    (wOther.coordinating = false) ∧
    (wOther.coordinating = false) ∧
    (wOther.coordinating = false) ∧
    (wOther.coordinating = false) ∧
    (wOther.coordinating = false) ∧
    (wEpochAck.net.epoch.phase = EpochPhase.staging ∧ wEpochAck.net.epoch.waiting = [0, 1] ∧ 0 ≠ 1) ∧
    (wEpochLate.net.epoch.phase = EpochPhase.switching ∧ wEpochLate.net.epoch.waiting ≠ [] ∧ wEpochLate.net.epoch.repeats < 3) ∧
    (wWaveNext.net.epoch.phase = EpochPhase.draining ∧
      ((wWaveNext.epochPeers.all fun p => [(0, 0, false), (1, 0, false)].any fun a => a.1 == p) = true) ∧
      (([(0, 0, false), (1, 0, false)].all fun a => a.2.1 == 0) = true) ∧ wWaveNext.oldCount = 0 ∧ wWaveNext.net.epoch.waves = 0) ∧
    (wWaveLast.net.epoch.phase = EpochPhase.draining ∧
      ((wWaveLast.epochPeers.all fun p => [(0, 0, false), (1, 0, false)].any fun a => a.1 == p) = true) ∧
      (([(0, 0, false), (1, 0, false)].all fun a => a.2.1 == 0) = true) ∧ wWaveLast.oldCount = 0 ∧ 1 ≤ wWaveLast.net.epoch.waves ∧
      wWaveLast.net.oldSeen = false ∧ (([(0, 0, false), (1, 0, false)].all fun a => !a.2.2) = true)) := by
  and_intros <;> decide +kernel

end Sys2Proof.Tests
end

section
/-! PROOF. What a landed vector result and a landed accumulator clear change and what they leave (02 R27; 06 R112, R116). -/

namespace Sys2Proof.Machine

/-! ### Clearing a range of a table -/

/-- A cleared range reads as the default, every other index as before; the table need not be canonical. -/
theorem Tab.get_clearRange {α : Type} (d : α) (m : Tab α) (lo hi k : Nat) :
    Tab.get d (Tab.clearRange m lo hi) k = if lo ≤ k ∧ k < hi then d else Tab.get d m k := by
  unfold Tab.clearRange
  induction m with
  | nil => simp [Tab.get]
  | cons p m ih =>
    obtain ⟨j, v⟩ := p
    by_cases hkept : j < lo ∨ hi ≤ j
    · by_cases hk : j = k
      · have hout : ¬(lo ≤ k ∧ k < hi) := by omega
        simp [hk ▸ hkept, hk, hout, Tab.get]
      · simp [hkept, hk, ih, Tab.get]
    · by_cases hk : j = k
      · have hin : lo ≤ k ∧ k < hi := by omega
        simp [hkept, ih, hin]
      · simp [hkept, hk, ih, Tab.get]

/-! ### Clearing an accumulator index -/

@[simp] theorem Lane.accAt_clear_self (l : Lane) (k : Nat) (w : Option Int) {j : Nat} (hj : j < 64) :
    (l.clear k w).accAt k j = Acc.zero := by
  have hin : 64 * k ≤ 64 * k + j ∧ 64 * k + j < 64 * k + 64 := by omega
  simp only [Lane.accAt, Lane.clear, Tab.get_clearRange, if_pos hin]

theorem Lane.accAt_clear_ne (l : Lane) {k n : Nat} (w : Option Int) {j : Nat} (hj : j < 64) (hn : n ≠ k) :
    (l.clear k w).accAt n j = l.accAt n j := by
  have hout : ¬(64 * k ≤ 64 * n + j ∧ 64 * n + j < 64 * k + 64) := by omega
  simp only [Lane.accAt, Lane.clear, Tab.get_clearRange, if_neg hout]

theorem Lane.win_clear_some (l : Lane) (k : Nat) (w : Int) (h : Tab.wf 0 l.windows = true) :
    (l.clear k (some w)).win k = w := by
  simp only [Lane.win, Lane.clear, Tab.get_set k k w h, if_true]

/-! ### The landings -/

theorem State.onlyCore_updCore (s : State) (c : Nat) (f : Core → Core) : s.OnlyCore (s.updCore c f) c :=
  ⟨fun _ hd => s.updCore_core_ne f hd, rfl⟩

theorem State.applyEff_vreg (s : State) (c t v first : Nat) (es : List W32) :
    s.applyEff c t (.vreg v first es) =
      s.updVec c (fun x => { x with regs := Tab.setList 0 x.regs (64 * v + first) es }) := rfl

theorem State.applyEff_accClear (s : State) (c t k : Nat) (w : Option Int) :
    s.applyEff c t (.accClear k w) = s.updLane c (fun l => l.clear k w) := rfl

/-! ### The obligation -/

/-- Settles O41: each landing updates its core alone; the elements read by the law of list writes, the accumulators by the law of
cleared ranges, the window by that of a single write. -/
theorem landedRegisterWrite : Obligations.LandedRegisterWrite := by
  unfold Obligations.LandedRegisterWrite
  intro s c T
  refine ⟨fun v first es n hwf => ?_, fun k w n j hj => ?_, fun k W hwf => ?_⟩
  · simp only [State.applyEff_vreg]
    refine ⟨?_, ?_, s.onlyCore_updCore c _, rfl⟩
    · rw [State.updVec_core]
      exact Tab.get_setList es _ n hwf
    · rw [State.updVec_core]
  · simp only [State.applyEff_accClear, State.updLane_core]
    exact ⟨Lane.accAt_clear_self _ k w hj, Lane.accAt_clear_ne _ w hj, rfl, s.onlyCore_updCore c _, rfl⟩
  · rw [State.applyEff_accClear, State.updLane_core]
    exact Lane.win_clear_some _ k W hwf

end Sys2Proof.Machine
end

section
/-! PROOF. Words that issue as they are decoded, as rules: what is put for their core and put in flight, the slot that is taken, and the
record of a check that fails (07 R166, R168; 08 R173). -/

namespace Sys2Proof.Machine

/-! ### One core put, results put in flight -/

/-- From s to t the record of core c has been put and `ls` put in flight. `Becomes` follows; what it does not say, the table of cores entry
by entry, is what keeps the queues empty. -/
structure State.Puts (s t : State) (c : Nat) (x : Core) (ls : List Landing) : Prop where
  cores : t.cores = Recs.put s.cores c x
  landings : t.landings = inFlightAfter s.landings ls
  only : s.CoresOnly t

section
variable {s t : State} {c : Nat} {x : Core} {ls : List Landing}

theorem State.CoresOnly.trans {u : State} (h : s.CoresOnly t) (hu : t.CoresOnly u) : s.CoresOnly u := by
  unfold State.CoresOnly at h hu ⊢
  rw [h] at hu
  exact hu

theorem State.Puts.setCore (s : State) (c : Nat) (x : Core) : s.Puts (s.setCore c x) c x [] := ⟨rfl, rfl, rfl⟩

theorem State.Puts.core (h : s.Puts t c x ls) : t.core c = x := by
  rw [State.core, h.cores, Recs.get_put_self]

theorem State.Puts.core_ne (h : s.Puts t c x ls) {d : Nat} (hd : d ≠ c) : t.core d = s.core d := by
  rw [State.core, h.cores, Recs.get_put_ne _ _ _ hd, State.core]

theorem State.Puts.becomes {c : CoreId} (h : s.Puts t c.val x ls) : s.Becomes t c x ls :=
  ⟨h.core, fun _ hd => h.core_ne hd, h.landings, h.only⟩

theorem State.Puts.noQueue (h : s.Puts t c x ls) (hs : s.NoQueue)
    (hx : x.ctl.laneQ = [] ∧ x.ctl.vecQ = [] ∧ x.ctl.moveQ = []) : t.NoQueue :=
  State.noQueue_congr (s := s.setCore c x) h.cores (State.noQueue_setCore hs c hx)

theorem State.Puts.updCore (h : s.Puts t c x ls) (f : Core → Core) : s.Puts (t.updCore c f) c (f x) ls where
  cores := by
    show Recs.put t.cores c (f (t.core c)) = _
    rw [h.core, h.cores, Recs.put_put]
  landings := h.landings
  only := h.only.trans rfl

theorem State.Puts.use (h : s.Puts t c x ls) (tick d k o : Nat) (e : Option QEntry) (l : List Access) :
    s.Puts (t.use tick d k o e l) c x ls where
  cores := h.cores
  landings := h.landings
  only := h.only.trans rfl

theorem State.Puts.land (h : s.Puts t c x ls) (key prio d : Nat) (e : LandEff) :
    s.Puts (t.land key prio d e) c x (ls ++ [⟨key, prio, d, e⟩]) where
  cores := h.cores
  landings := by rw [State.land_landings, h.landings, inFlightAfter, inFlightAfter, List.foldl_append]; rfl
  only := h.only.trans rfl

theorem State.Puts.draw (h : s.Puts t c x ls) : t.draw = s.draw := by
  have ho := h.only
  unfold State.CoresOnly at ho
  rw [ho]
  rfl

end

/-! ### The word that issues -/

@[simp] theorem State.decoded_core (s : State) (c : CoreId) (i : Instr) :
    (s.decoded c i).core c.val = { s.core c.val with ctl := (s.core c.val).ctl.past i } := State.updCtl_core ..

@[simp] theorem State.ctxOf_core (s : State) (c : CoreId) (i : Instr) : (s.ctxOf c i).core = c.val := rfl
@[simp] theorem State.ctxOf_tick (s : State) (c : CoreId) (i : Instr) : (s.ctxOf c i).tick = s.clk.tick := rfl
@[simp] theorem State.ctxOf_regs (s : State) (c : CoreId) (i : Instr) : (s.ctxOf c i).regs = (s.core c.val).ctl.regs := rfl

section
variable {s : State} {c : CoreId} {i : Instr} {sl : SlotId} {x : Core} {ls : List Landing}

theorem State.Issues.noQueue (h : s.Issues c i sl) : s.NoQueue := by
  obtain ⟨-, hnq, -⟩ := h
  exact hnq

/-- The slot of a word that issues is free when it does. -/
theorem State.Issues.slot_free (h : s.Issues c i sl) :
    Tab.get 0 ((s.decoded c i).core c.val).busy sl.idx ≤ (s.ctxOf c i).tick := by
  obtain ⟨-, -, -, -, -, hslot⟩ := h
  rw [State.decoded_core]
  exact hslot

theorem State.Issues.slotHeld (h : s.Issues c i sl) : (s.decoded c i).slotHeld (s.ctxOf c i) sl = false :=
  decide_eq_false (Nat.not_lt.mpr h.slot_free)

theorem State.Issues.takeSlot (h : s.Issues c i sl) (occ : Nat) :
    (s.decoded c i).takeSlot (s.ctxOf c i) sl occ = s.setCore c.val (s.issued c i sl occ) := by
  rw [State.takeSlot, h.slotHeld]
  exact State.decoded_slot s c i sl occ

/-- A timed word that issues as it is decoded answers what its effect puts, when that leaves the queues as they were. -/
theorem exec_of_puts {eng : Engine} (hc : wordCore i = some c) (he : engineOf i = some eng) (hi : s.Issues c i sl)
    (hp : s.Puts ((s.decoded c i).fxOf (s.ctxOf c i) i) c.val x ls)
    (hx : x.ctl.laneQ = (s.core c.val).ctl.laneQ ∧ x.ctl.vecQ = (s.core c.val).ctl.vecQ ∧ x.ctl.moveQ = (s.core c.val).ctl.moveQ) :
    ∃ t, exec i s = .next t ∧ s.Puts t c.val x ls := by
  obtain ⟨hl, hv, hm⟩ := hx
  obtain ⟨h1, h2, h3⟩ := State.noQueue_core s c.val hi.noQueue
  refine ⟨_, ?_, hp⟩
  rw [exec_word hc]
  exact execWord_issues hi he (hp.noQueue hi.noQueue ⟨hl.trans h1, hv.trans h2, hm.trans h3⟩)

theorem exec_becomes {eng : Engine} (hc : wordCore i = some c) (he : engineOf i = some eng) (hi : s.Issues c i sl)
    (hp : s.Puts ((s.decoded c i).fxOf (s.ctxOf c i) i) c.val x ls)
    (hx : x.ctl.laneQ = (s.core c.val).ctl.laneQ ∧ x.ctl.vecQ = (s.core c.val).ctl.vecQ ∧ x.ctl.moveQ = (s.core c.val).ctl.moveQ) :
    ∃ t, exec i s = .next t ∧ s.Becomes t c x ls :=
  let ⟨t, ht, hput⟩ := exec_of_puts hc he hi hp hx
  ⟨t, ht, hput.becomes⟩

/-- Every check passes: the slot is taken, and what the effect leads to from there is what the word leads to. -/
theorem State.Issues.issueIn_leads (hi : s.Issues c i sl) (R : State → Prop) {occ : Nat} {fails : List Fail} {eff : State → State}
    (hf : pickFail fails = none) (heff : ∀ t, s.Puts t c.val (s.issued c i sl occ) [] → R (eff t)) :
    R ((s.decoded c i).issueIn (s.ctxOf c i) sl occ fails eff) := by
  rw [State.issueIn_free occ eff hf hi.slot_free]
  refine heff _ (State.Puts.use ?_ _ _ _ _ _ _)
  show s.Puts ((s.decoded c i).updCore c.val (fun k => { k with busy := Tab.set 0 k.busy sl.idx (s.clk.tick + occ) })) _ _ _
  rw [State.decoded_slot]
  exact State.Puts.setCore ..

theorem State.Issues.issueIn_puts (hi : s.Issues c i sl) {occ : Nat} {fails : List Fail} {eff : State → State}
    (hf : pickFail fails = none) (heff : ∀ t, s.Puts t c.val (s.issued c i sl occ) [] → s.Puts (eff t) c.val x ls) :
    s.Puts ((s.decoded c i).issueIn (s.ctxOf c i) sl occ fails eff) c.val x ls :=
  hi.issueIn_leads (s.Puts · c.val x ls) hf heff

/-! ### A check that fails -/

/-- The control core once a skipped word has been counted and its record kept (07 R166, R168). -/
def Ctl.skipped (k : Ctl) (r : ExcRec) : Ctl :=
  { k with skipCount := satNat (2 ^ 32 - 1) (k.skipCount + 1), recs := k.recs ++ [r] }

/-- The record of the entry e of core c that a check has skipped. -/
def QEntry.skipRec (e : QEntry) (c : Nat) (why : Reason) (detail : W32) : ExcRec :=
  ⟨BitVec.ofNat 32 e.tick, e.offset, e.opcode, BitVec.ofNat 16 (c + 512 * e.source), why, detail⟩

/-- A record that still fits is kept. -/
theorem State.logExc_kept {s : State} {d : Nat} (h : (s.core d).ctl.recs.length < 16) (e : QEntry) (why : Reason) (n : Nat) :
    s.logExc d e.tick e.offset e.opcode e.source why n =
      s.updCtl d (fun k => k.skipped (e.skipRec d why (BitVec.ofNat 32 n))) := by
  simp only [State.logExc, State.updCtl, State.updCore, if_pos h]
  rfl

/-- A field that offends stands in the record. -/
theorem State.logEntry_field {s : State} {d : Nat} (h : (s.core d).ctl.recs.length < 16) (e : QEntry) {why : Reason} (n : Nat)
    (hd : detailOpen why = false) :
    s.logEntry d e why n = s.updCtl d (fun k => k.skipped (e.skipRec d why (BitVec.ofNat 32 n))) := by
  rw [State.logEntry, hd]
  exact State.logExc_kept h e why n

/-- Where no field offends the record holds an open value (log entry 5). -/
theorem State.logEntry_open {s : State} {d : Nat} (h : (s.core d).ctl.recs.length < 16) (e : QEntry) {why : Reason} (n : Nat)
    (hd : detailOpen why = true) :
    s.logEntry d e why n =
      ({ s with free := s.free + 1 } : State).updCtl d (fun k => k.skipped (e.skipRec d why (Config.freeWord 32 s.free))) := by
  have hkept := State.logExc_kept (s := { s with free := s.free + 1 }) h e why (Config.freeWord 32 s.free).toNat
  rw [BitVec.ofNat_toNat, BitVec.setWidth_eq] at hkept
  rw [State.logEntry, hd]
  exact hkept

/-- Core c once the word i has been skipped at issue: past, its slot held for `occ` ticks, its record kept. -/
def State.skipped (s : State) (c : CoreId) (i : Instr) (sl : SlotId) (occ : Nat) (why : Reason) (n : Nat) : Core :=
  { s.issued c i sl occ with
    ctl := ((s.core c.val).ctl.past i).skipped ((s.entryOf c i).skipRec c.val why (BitVec.ofNat 32 n)) }

/-- A check fails: the slot is taken, the record kept, and nothing else happens. -/
theorem State.Issues.issueIn_skips (hi : s.Issues c i sl) (hr : (s.core c.val).ctl.recs.length < 16) {occ : Nat} {fails : List Fail}
    {eff : State → State} {why : Reason} {n : Nat} (hf : pickFail fails = some (why, n)) (hd : detailOpen why = false) :
    s.Puts ((s.decoded c i).issueIn (s.ctxOf c i) sl occ fails eff) c.val (s.skipped c i sl occ why n) [] := by
  have hput := State.Puts.setCore s c.val (s.issued c i sl occ)
  have hlen : ((s.setCore c.val (s.issued c i sl occ)).core c.val).ctl.recs.length < 16 := by rw [hput.core]; exact hr
  simp only [State.issueIn, hi.slotHeld, hi.takeSlot, failIf, Bool.false_eq_true, if_false, pickFail_snoc, hf]
  show s.Puts (State.logEntry _ c.val (s.entryOf c i) why n) _ _ _
  rw [State.logEntry_field hlen _ _ hd]
  exact hput.updCore _

end

/-- A held slot is the one check that fails: the word is skipped with SLOT_BUSY and the slot stays as it is. -/
theorem State.issueIn_held {s : State} {y : Ctx} {sl : SlotId} (h : y.tick < Tab.get 0 (s.core y.core).busy sl.idx) (occ : Nat)
    (eff : State → State) : s.issueIn y sl occ [] eff = s.logEntry y.core y.entry .slotBusy 0 := by
  have hheld : s.slotHeld y sl = true := decide_eq_true h
  simp [State.issueIn, State.takeSlot, hheld, failIf, pickFail]

end Sys2Proof.Machine
end

section
/-! PROOF. The words of the lane row that issue: what each puts for its core and in flight (02 R27, R37 to R40; 03 R49, R50, R57 to R66). -/

namespace Sys2Proof.Machine

theorem failIf_eq_none_iff {b : Bool} {r : Reason} {d : Nat} : failIf b r d = none ↔ b = false := by cases b <;> simp [failIf]

/-- A block number that resolves without a fault lies in the weight store. -/
theorem resolveWb_lt {regs : Tab W32} {a : Wb} {b : Nat} (h : resolveWb regs a = (b, none)) : b < wsBlocks := by
  obtain ⟨rfl, hf⟩ := Prod.mk.inj h
  exact Nat.not_le.mp (of_decide_eq_false (failIf_eq_none_iff.mp hf))

section
variable {s : State} {c : CoreId} {i : Instr}

/-! ### Restrings and the exchange of the sets -/

theorem fxRestring_puts (hi : s.Issues c i .restring) {block : Wb} {fmt : BitVec 4} {l : BitVec 6} {trans : Bool} {b : Nat}
    (hb : resolveWb (s.core c.val).ctl.regs block = (b, none)) (hfmt : isWeight fmt.toNat = true)
    (htrans : trans = true → fmt ≠ 6 ∧ ((s.core c.val).ws.record b).square = true) (hkind : (s.core c.val).ws.kindOf b = 1)
    (hgood : (s.core c.val).ws.blockBad b = false) :
    s.Puts ((s.decoded c i).fxRestring (s.ctxOf c i) block fmt l trans) c.val
      { s.issued c i .restring 1 with ws := (s.core c.val).ws.correct b }
      [⟨2 * (s.clk.tick + 4), 0, c.val,
        .restring (mkTuneSet b ((s.core c.val).ws.block b) ((s.core c.val).ws.record b) fmt trans (l.toNat + 1))⟩] := by
  have hpair : (!isWeight fmt.toNat || (trans && fmt = 6)) = false := by
    cases trans with
    | false => rw [hfmt]; rfl
    | true => rw [hfmt, decide_eq_false (htrans rfl).1]; rfl
  have hsquare : (trans && b < wsBlocks && !((s.core c.val).ws.record b).square) = false := by
    cases trans with
    | false => rfl
    | true => rw [(htrans rfl).2, Bool.not_true, Bool.and_false]
  have hregion : checkKind (s.core c.val).ws b 1 = none := by
    simp [checkKind, Nat.not_le.mpr (resolveWb_lt hb), hkind, failIf]
  simp only [State.fxRestring, State.ctxOf_core, State.ctxOf_regs, State.decoded_core, hb]
  refine hi.issueIn_puts ?_ fun t ht => ?_
  · rw [hpair, hsquare, hregion]
    rfl
  · rw [if_neg (by rw [hgood]; decide)]
    exact (((ht.updCore fun x => { x with ws := x.ws.correct b }).land ..).use ..).use ..

theorem fxSwapt_puts (hi : s.Issues c i .swap) :
    s.Puts ((s.decoded c i).fxSwapt (s.ctxOf c i)) c.val
      { s.issued c i .swap 1 with lane := { (s.core c.val).lane with activeB := !(s.core c.val).lane.activeB } } [] :=
  hi.issueIn_puts rfl fun _ ht => ht.updCore fun x => { x with lane := { x.lane with activeB := !x.lane.activeB } }

/-! ### Bows -/

/-- The scratchpad of a word that issues is that of its core as the word is decoded. -/
@[simp] theorem State.spOf_decoded (s : State) (c : CoreId) (i : Instr) :
    (s.decoded c i).spOf (s.ctxOf c i) = (s.core c.val).sp := by
  rw [State.spOf, State.ctxOf_core, State.decoded_core]

theorem scaleFail_eq_none {regs : Tab W32} {ssrc : Bool} {scale : BitVec 8} (h : ssrc = true → scaleAddr regs scale ≤ 393214) :
    scaleFail regs ssrc scale = none := by
  cases ssrc with
  | false => rfl
  | true => exact failIf_eq_none_iff.mpr (decide_eq_false (Nat.not_lt.mpr (h rfl)))

theorem fxBow_puts (hi : s.Issues c i .bow) {data : Sr} {k : BitVec 4} {nib : Bool} {e : BitVec 6} {afmt : BitVec 2} {ssrc : Bool}
    {scale : BitVec 8} {rls : BitVec 3} {at_ : RowsAt}
    (hrow : resolveSr (s.core c.val).sp (s.core c.val).ctl.regs data 1 = (at_, none))
    (hrel : checkRelease (s.core c.val).sp (s.core c.val).ctl.regs data rls = none) (he : afmt = 3 → e.toNat < 32)
    (ha : ssrc = true → scaleAddr (s.core c.val).ctl.regs scale ≤ 393214) :
    let sp := (s.core c.val).sp
    let a := scaleAddr (s.core c.val).ctl.regs scale
    s.Puts ((s.decoded c i).fxBow (s.ctxOf c i) data k nib e afmt ssrc scale rls) c.val
      (s.issued c i .bow (if afmt = 3 then 2 else 1))
      [⟨2 * s.clk.tick + 1, 0, c.val, .bowTake
        ⟨k.toNat, nib, e.toNat + 1, afmt, if ssrc then sp.mem.byte a else scale, if ssrc then sp.mem.byte (a + 1) else scale,
          sp.row (at_.rows.headD 0)⟩
        none none (if rls = 0 then none else some (data.reg.toNat, cnt (s.core c.val).ctl.regs rls))
        (at_.rows ++ (if ssrc then [a / 64, (a + 1) / 64] else [])) (s.entryOf c i)⟩] := by
  have hfield : (decide (afmt = 3) && 31 < e.toNat) = false := by
    rw [Bool.and_eq_false_imp]
    intro h
    have := he (of_decide_eq_true h)
    exact decide_eq_false (by omega)
  simp only [State.fxBow, State.spOf_decoded, State.ctxOf_regs, hrow, hrel, scaleFail_eq_none ha, hfield, hi.slotHeld, hi.takeSlot,
    failIf, Bool.false_eq_true, if_false, pickFail]
  exact (State.Puts.setCore ..).land ..

theorem fxBowg_puts (hi : s.Issues c i .bow) {list : Sa} {base k : BitVec 4} {nib : Bool} {e : BitVec 6} {afmt : BitVec 2}
    {ssrc : Bool} {scale : BitVec 8} {row : Nat} (hrow : resolveSa (s.core c.val).ctl.regs list 2 = (row, none)) (hfmt : afmt ≠ 3)
    (ha : ssrc = true → scaleAddr (s.core c.val).ctl.regs scale ≤ 393214) :
    s.Puts ((s.decoded c i).fxBowg (s.ctxOf c i) list base k nib e afmt ssrc scale) c.val (s.issued c i .bow 2)
      [⟨2 * s.clk.tick + 1, 0, c.val, .bowTake ⟨k.toNat, nib, e.toNat + 1, afmt, scale, scale, []⟩
        (some ⟨Tab.get 0 (s.core c.val).ctl.regs base.toNat, (s.core c.val).sp.row row, row + 1,
          if ssrc then some (scaleAddr (s.core c.val).ctl.regs scale) else none, s.plannedFor c.val s.clk.tick⟩)
        none none [row] (s.entryOf c i)⟩] := by
  have hplan : (s.setCore c.val (s.issued c i .bow 2)).plannedFor c.val s.clk.tick = s.plannedFor c.val s.clk.tick := by
    unfold State.plannedFor
    rw [State.setCore_core]
    rfl
  simp only [State.fxBowg, State.spOf_decoded, State.ctxOf_core, State.ctxOf_tick, State.ctxOf_regs, hrow, scaleFail_eq_none ha,
    decide_eq_false hfmt, hi.slotHeld, hi.takeSlot, hplan, failIf, Bool.false_eq_true, if_false, pickFail]
  exact (State.Puts.setCore ..).land ..

/-! ### The accumulators -/

theorem fxZacc_puts (hi : s.Issues c i .accumulator) (k : BitVec 4) :
    s.Puts ((s.decoded c i).fxZacc (s.ctxOf c i) k) c.val (s.issued c i .accumulator 1)
      [⟨2 * s.clk.tick + 1, 1, c.val, .accClear k.toNat none⟩] :=
  hi.issueIn_puts rfl fun _ ht => (ht.land ..).use ..

theorem fxWindow_puts (hi : s.Issues c i .accumulator) (k : BitVec 4) {wsrc : Bool} {w : BitVec 10} {vs : BitVec 5} {e : BitVec 6}
    {W : Int} (hW : W = if wsrc then ((s.core c.val).vec.elem vs.toNat e.toNat).toInt else w.toInt) (hlo : -512 ≤ W) (hhi : W ≤ 511) :
    s.Puts ((s.decoded c i).fxWindow (s.ctxOf c i) k wsrc w vs e) c.val (s.issued c i .accumulator 1)
      [⟨2 * s.clk.tick + 1, 1, c.val, .accClear k.toNat (some W)⟩] := by
  have hrange : (W < -512 || 511 < W) = false := by
    rw [decide_eq_false (not_lt.mpr hlo), decide_eq_false (not_lt.mpr hhi)]
    rfl
  simp only [State.fxWindow, State.ctxOf_core, State.decoded_core, ← hW, hrange]
  exact hi.issueIn_puts rfl fun _ ht => (ht.land ..).use ..

/-! ### Draining -/

/-- As `Puts`, with the digests of the core left open. -/
def State.PutsFed (s t : State) (c : Nat) (x : Core) (ls : List Landing) : Prop :=
  ∃ ds, s.Puts t c { x with xfer := { x.xfer with digests := ds } } ls

/-- Feeding a digest changes the digests alone. -/
theorem State.Puts.feed {t : State} {d : Nat} {x : Core} {ls : List Landing} (h : s.Puts t d x ls) (regs : Tab W32) (v : Nat)
    (ints : Bool) (vals : List Nat) : s.PutsFed (t.feed d regs v ints vals) d x ls := by
  by_cases hq : tagPoint regs = 0
  · exact ⟨x.xfer.digests, by simpa only [State.feed, if_pos hq] using h⟩
  · simp only [State.feed, if_neg hq]
    exact ⟨_, h.updCore _⟩

theorem State.Issues.issueIn_putsFed {sl : SlotId} {x : Core} {ls : List Landing} (hi : s.Issues c i sl) {occ : Nat}
    {fails : List Fail} {eff : State → State} (hf : pickFail fails = none)
    (heff : ∀ t, s.Puts t c.val (s.issued c i sl occ) [] → s.PutsFed (eff t) c.val x ls) :
    s.PutsFed ((s.decoded c i).issueIn (s.ctxOf c i) sl occ fails eff) c.val x ls :=
  hi.issueIn_leads (s.PutsFed · c.val x ls) hf heff

/-- The rounding that a DRAIN writes for string j of index k, with what it met. -/
def State.drainOut (s : State) (c k : Nat) (fm : Fmt) (m : RM) (j : Nat) : Nat × RFlags :=
  roundOut fm m (if m == .st then s.draw c (s.core c).ctl.regs 1 0 j else 0) false 0 (s.accNow c k j)

/-- The core with the flags of a list of roundings in its status (10 Table 10.8). -/
def Core.exits (x : Core) (fl : List RFlags) : Core :=
  { x with ctl := { x.ctl with status := x.ctl.status ||| exitMask (RFlags.all fl) } }

theorem fxDrain_puts (hi : s.Issues c i .accumulator) {k : BitVec 4} {vd : BitVec 5} {fmt : BitVec 4} {rm : BitVec 3} {clr : Bool}
    {fm : Fmt} {m : RM} (hfm : Fmt.ofCode fmt.toNat = some fm) (htarget : drainTarget fm = true) (hm : RM.ofCode rm.toNat = some m)
    (hgood : (s.core c.val).lane.readBad k.toNat = false) :
    let out := s.drainOut c.val k.toNat fm m
    s.PutsFed ((s.decoded c i).fxDrain (s.ctxOf c i) k vd fmt rm clr) c.val
      ((s.issued c i .accumulator 1).exits ((List.range 64).map (fun j => (out j).2)))
      (⟨2 * (s.clk.tick + 2) + 1, 20, c.val, .vreg vd.toNat 0 ((List.range 64).map (fun j => BitVec.ofNat 32 (out j).1))⟩ ::
        (if clr then [⟨2 * s.clk.tick + 1, 1, c.val, .accClear k.toNat none⟩] else [])) := by
  intro out
  have hfmt : fmtFail fmt drainTarget = none := by simp [fmtFail, hfm, htarget, failIf]
  simp only [State.fxDrain, hfm, hm, Option.getD_some, State.ctxOf_core, State.ctxOf_regs]
  refine hi.issueIn_putsFed ?_ fun t ht => ?_
  · rw [hfmt]
    rfl
  · have hlane : (t.core c.val).lane = (s.core c.val).lane := by rw [ht.core]; rfl
    simp only [hlane, hgood, ht.draw, Bool.false_eq_true, if_false]
    obtain ⟨ds, hds⟩ := (ht.updCore fun x => x.exits ((List.range 64).map (fun j => (out j).2))).feed
      (s.core c.val).ctl.regs 0 false ((List.range 64).map (fun j => (out j).1))
    refine ⟨ds, ?_⟩
    cases clr with
    | false => exact (hds.land ..).use ..
    | true => exact (((hds.land ..).use ..).land ..).use ..

end
/-! ### The obligation -/

/-- Settles O11: each lane word issues with every check passed, and its effect is put as its rule above says.
A BF16 bow with SSRC 1 reads its scale pair too: the model's choice, log entry 93. -/
theorem laneWordsComplete : Obligations.LaneWordsComplete := by
  unfold Obligations.LaneWordsComplete
  intro s c δ T x r
  refine ⟨?string, ?swapt, ?bow, ?bowg, ?zacc, ?window, ?drain⟩
  case string =>
    intro block fmt l trans b i hi hb hfmt htrans hkind hgood
    have hput := fxRestring_puts (l := l) hi hb hfmt htrans hkind hgood
    cases trans with
    | false => exact exec_becomes rfl rfl hi hput ⟨rfl, rfl, rfl⟩
    | true => exact exec_becomes rfl rfl hi hput ⟨rfl, rfl, rfl⟩
  case swapt => exact fun hi => exec_becomes rfl rfl hi (fxSwapt_puts hi) ⟨rfl, rfl, rfl⟩
  case bow =>
    exact fun data k nib e afmt ssrc scale rls at_ hi hrow hrel he ha =>
      exec_becomes rfl rfl hi (fxBow_puts hi hrow hrel he ha) ⟨rfl, rfl, rfl⟩
  case bowg =>
    exact fun list base k nib e afmt ssrc scale row hi hrow hfmt ha =>
      exec_becomes rfl rfl hi (fxBowg_puts hi hrow hfmt ha) ⟨rfl, rfl, rfl⟩
  case zacc => exact fun k hi => exec_becomes rfl rfl hi (fxZacc_puts hi k) ⟨rfl, rfl, rfl⟩
  case window =>
    exact fun k wsrc w vs e hi hlo hhi => exec_becomes rfl rfl hi (fxWindow_puts hi k rfl hlo hhi) ⟨rfl, rfl, rfl⟩
  case drain =>
    intro k vd fmt rm clr fm m i out hi hfm htarget hm hgood
    obtain ⟨ds, hput⟩ := fxDrain_puts (vd := vd) (clr := clr) hi hfm htarget hm hgood
    obtain ⟨t, ht, hput⟩ := exec_of_puts rfl rfl hi hput ⟨rfl, rfl, rfl⟩
    refine ⟨t, ht, ?_, ?_⟩
    · rw [State.BecomesBut, hput.core]
      exact hput.becomes
    · rw [hput.core]
      rfl

end Sys2Proof.Machine
end

section
/-! PROOF. Words that are skipped at issue: the check that fails, its record, and nothing else (08 R173, R176, R180, R185, R188). -/

namespace Sys2Proof.Machine

section
variable {s : State} {c : CoreId} {i : Instr}

theorem fxExpect_skips (hi : s.Issues c i .control) (hr : (s.core c.val).ctl.recs.length < 16) {tid : BitVec 12}
    (htid : (s.core c.val).xfer.tids.all (·.tid != tid.toNat) = true) :
    s.Puts ((s.decoded c i).fxExpect (s.ctxOf c i) tid) c.val (s.skipped c i .control 1 .tidUnknown tid.toNat) [] := by
  have hnone : ((s.core c.val).xfer.tids.any (·.tid == tid.toNat)) = false := by
    rw [List.any_eq_not_all_not, Bool.not_eq_false']
    exact htid
  refine hi.issueIn_skips hr ?_ rfl
  rw [State.ctxOf_core, State.decoded_core, hnone]
  rfl

theorem fxVtopkOut_skips (hi : s.Issues c i .reduction) (hr : (s.core c.val).ctl.recs.length < 16) :
    s.Puts ((s.decoded c i).fxVtopkOut (s.ctxOf c i) 31) c.val (s.skipped c i .reduction 1 .badField 31) [] := by
  unfold State.fxVtopkOut
  exact hi.issueIn_skips hr rfl rfl

/-- An id that is open is busy; a table with room adds no second reason. -/
theorem fxRecvAcc_skips (hi : s.Issues c i .into) (hr : (s.core c.val).ctl.recs.length < 16) {tid : BitVec 12} (k : BitVec 4)
    (htid : (s.core c.val).xfer.tids.any (·.tid == tid.toNat) = true) (hroom : (s.core c.val).xfer.tids.length < 64) :
    s.Puts ((s.decoded c i).fxRecvAcc (s.ctxOf c i) tid k) c.val (s.skipped c i .into 1 .tidBusy tid.toNat) [] := by
  refine hi.issueIn_skips hr ?_ rfl
  rw [State.tidFail, State.ctxOf_core, State.decoded_core]
  simp only [htid, decide_eq_false (Nat.not_le.mpr hroom)]
  rfl

theorem fxSignal_skips (hi : s.Issues c i .control) (hr : (s.core c.val).ctl.recs.length < 16) (f : BitVec 6) {r : BitVec 4}
    (hres : destReserved (reg (s.core c.val).ctl.regs r.toNat) ≠ 0) (haway : s.destHere (reg (s.core c.val).ctl.regs r.toNat) = false) :
    s.Puts ((s.decoded c i).fxSignal (s.ctxOf c i) f r) c.val
      (s.skipped c i .control 1 .badDest (reg (s.core c.val).ctl.regs r.toNat).toNat) [] := by
  have haway' : (s.decoded c i).destHere (reg (s.core c.val).ctl.regs r.toNat) = false := haway
  simp only [State.fxSignal, State.ctxOf_regs, haway', Bool.false_eq_true, if_false]
  refine hi.issueIn_skips hr ?_ rfl
  rw [State.destFail, bne_iff_ne.mpr hres]
  rfl

end

/-! ### The obligation -/

/-- Settles O42: a held slot logs SLOT_BUSY with an open value; of the words that break a rule, each meets its check first. -/
theorem skippedWordsAreLogged : Obligations.SkippedWordsAreLogged := by
  unfold Obligations.SkippedWordsAreLogged
  intro s c δ x
  refine ⟨?held, ?expect, ?vtopk, ?recv, ?signal⟩
  case held =>
    intro y sl occ eff z hheld hr t
    have ht : t = ({ s with free := s.free + 1 } : State).updCtl y.core
        (fun k => k.skipped (y.entry.skipRec y.core .slotBusy (Config.freeWord 32 s.free))) :=
      (State.issueIn_held hheld occ eff).trans (State.logEntry_open hr y.entry 0 rfl)
    rw [ht, State.updCtl_core]
    exact ⟨rfl, State.onlyCore_updCore .., rfl⟩
  case expect => exact fun tid htid hi hr => exec_becomes rfl rfl hi (fxExpect_skips hi hr htid) ⟨rfl, rfl, rfl⟩
  case vtopk => exact fun hi hr => exec_becomes rfl rfl hi (fxVtopkOut_skips hi hr) ⟨rfl, rfl, rfl⟩
  case recv =>
    exact fun tid k htid hroom hi hr => exec_becomes rfl rfl hi (fxRecvAcc_skips hi hr k htid hroom) ⟨rfl, rfl, rfl⟩
  case signal =>
    exact fun f r hres haway hi hr => exec_becomes rfl rfl hi (fxSignal_skips hi hr f hres haway) ⟨rfl, rfl, rfl⟩

end Sys2Proof.Machine
end

section
/-! PROOF. What a logged fault leaves as it was (20 R474), and the weight store's own events: visits of the scrubber, restored blocks and
spare rows (04 R84 to R89). -/

namespace Sys2Proof.Machine

/-! ### A logged fault -/

/-- From s to t only the functions' rings and buffers and what leaves for the host have changed. -/
def State.HostOnly (s t : State) : Prop := t = { s with funcs := t.funcs, out := t.out }

theorem State.HostOnly.trans {s t u : State} (h : s.HostOnly t) (hu : t.HostOnly u) : s.HostOnly u := by
  unfold State.HostOnly at h hu ⊢
  rw [h] at hu
  exact hu

theorem State.writeIndex_hostOnly (s : State) (f k : Nat) (v : W32) : s.HostOnly (s.writeIndex f k v) := by
  unfold State.writeIndex
  split <;> rfl

theorem State.msix_hostOnly (s : State) (f v : Nat) : s.HostOnly (s.msix f v) := by
  unfold State.msix
  split <;> rfl

theorem State.updFunc_hostOnly (s : State) (f : Nat) (g : Func → Func) : s.HostOnly (s.updFunc f g) := rfl

theorem State.ringWrite_hostOnly (s : State) (f k : Nat) (bs : List Byte) : s.HostOnly (s.ringWrite f k bs) := by
  have hentry (a : Nat) (g : Func → Func) (v : W32) : s.HostOnly (((s.hostWrite f a bs).updFunc f g).writeIndex f k v) :=
    State.HostOnly.trans (t := (s.hostWrite f a bs).updFunc f g) rfl (State.writeIndex_hostOnly ..)
  unfold State.ringWrite
  dsimp only
  split
  · exact ((hentry _ _ _).trans (State.updFunc_hostOnly ..)).trans (State.msix_hostOnly ..)
  · exact hentry _ _ _

theorem State.raise_hostOnly (s : State) (f : Nat) (e : Event) : s.HostOnly (s.raise f e) := by
  unfold State.raise
  split
  · exact s.ringWrite_hostOnly ..
  · split <;> rfl

/-- The state with the entry e at the end of the fault log, which keeps the last 1,024, and n open values used. -/
def State.withFault (s : State) (e : FaultEntry) (n : Nat) : State :=
  { s with
    free := n
    faultLog := (if s.faultLog.length < 1024 then s.faultLog else s.faultLog.drop 1) ++ [e]
    faultCount := s.faultCount + 1 }

/-- A fault that touches no slot adds one entry with its reason and unit, and the event that tells of it is raised. -/
theorem State.logFault_adds (s : State) (reason : BitVec 16) (cls outcome : Nat) (step : W64) (unit sub : BitVec 16) (detail : Nat) :
    ∃ (e : FaultEntry) (n : Nat), e.reason = reason ∧ e.unit = unit ∧
      (s.withFault e n).HostOnly (s.logFault reason cls outcome none step unit sub detail) := by
  cases hgiven : detailGiven reason with
  | true =>
    refine ⟨⟨reason, cls, outcome, 0, step, s.station, unit, sub, BitVec.ofNat 32 detail⟩, s.free, rfl, rfl, ?_⟩
    simp only [State.logFault, hgiven, if_true]
    exact State.raise_hostOnly ..
  | false =>
    refine ⟨⟨reason, cls, outcome, 0, step, s.station, unit, sub, Config.freeWord 32 s.free⟩, s.free + 1, rfl, rfl, ?_⟩
    simp only [State.logFault, hgiven, Bool.false_eq_true, if_false]
    exact State.raise_hostOnly ..

/-- A logged fault changes no core and nothing in flight. -/
theorem State.Puts.logFault {s t : State} {c : Nat} {x : Core} {ls : List Landing} (h : s.Puts t c x ls) (reason : BitVec 16)
    (cls outcome : Nat) (step : W64) (unit sub : BitVec 16) (detail : Nat) :
    let u := t.logFault reason cls outcome none step unit sub detail
    (s.logged u).Puts u c x ls ∧ u.faultCount = s.faultCount + 1 ∧
      ∃ e, u.faultLog.getLast? = some e ∧ e.reason = reason ∧ e.unit = unit := by
  obtain ⟨e, n, hreason, hunit, hu⟩ := t.logFault_adds reason cls outcome step unit sub detail
  obtain ⟨hcores, hlandings, honly⟩ := h
  unfold State.HostOnly at hu
  unfold State.CoresOnly at honly
  dsimp only
  rw [hu]
  refine ⟨⟨hcores, hlandings, ?_⟩, ?_, e, List.getLast?_concat .., hreason, hunit⟩
  · rw [State.CoresOnly, honly]
    rfl
  · rw [honly]
    rfl

/-! ### A core's weight store -/

/-- The state with the weight store w at core c. -/
def State.setWs (s : State) (c : Nat) (w : WStore) : State := s.setCore c { s.core c with ws := w }

@[simp] theorem State.setWs_core (s : State) (c : Nat) (w : WStore) : (s.setWs c w).core c = { s.core c with ws := w } :=
  State.setCore_core ..

theorem State.updWs_eq_setWs (s : State) (c : Nat) (f : WStore → WStore) : s.updWs c f = s.setWs c (f (s.core c).ws) := rfl

@[simp] theorem State.setWs_setWs (s : State) (c : Nat) (w v : WStore) : (s.setWs c w).setWs c v = s.setWs c v := by
  rw [State.setWs, State.setWs_core, State.setWs, State.setCore_setCore, State.setWs]

theorem State.setWs_puts (s : State) (c : Nat) (w : WStore) : s.Puts (s.setWs c w) c { s.core c with ws := w } [] :=
  State.Puts.setCore ..

theorem State.Puts.onlyCore {s t : State} {c : Nat} {x : Core} {ls : List Landing} (h : s.Puts t c x ls) : s.OnlyCore t c :=
  ⟨fun _ hd => h.core_ne hd, h.only⟩

/-! ### A visit of the scrubber -/

/-- The weight store once the scrubber has visited its next block: what it meets latent, the errors counted and written back, and the bank
rows in which it has corrected (R84, R89). -/
def WStore.visited (w : WStore) (flips : List (Fin 545 × Bool)) (raced : List (BitVec 6)) : WStore :=
  let b := w.scrubNext
  let u := w.upset b flips
  let rows := u.singleRows b
  { (u.correct b).writeBack b (raced.map (·.toNat)) with
    scrubNext := (b + 1) % wsBlocks
    scrubRows := u.scrubRows.filter (fun r => r / 64 != b) ++ rows
    spareDue := u.spareDue ++ rows.filter (fun r => u.scrubRows.contains r && !u.spareDue.contains r) }

/-- What a visit finds latent adds to the errors alone. -/
theorem WStore.upset_eq (w : WStore) (b : Nat) (flips : List (Fin 545 × Bool)) :
    w.upset b flips = { w with errs := (w.upset b flips).errs, recErrs := (w.upset b flips).recErrs } := by
  induction flips generalizing w with
  | nil => rfl
  | cons f flips ih =>
    rw [WStore.upset, List.foldl_cons]
    split <;> exact ih _

/-- A visit leaves the bytes, the records, the regions and the list of blocks in restoration as they were. -/
theorem WStore.visited_frame (w : WStore) (flips : List (Fin 545 × Bool)) (raced : List (BitVec 6)) :
    let v := w.visited flips raced
    v.mem = w.mem ∧ v.records = w.records ∧ v.regions = w.regions ∧ v.bad = w.bad := by
  rw [WStore.visited, WStore.upset_eq]
  exact ⟨rfl, rfl, rfl, rfl⟩

theorem WStore.crcOf_congr {w v : WStore} (hmem : v.mem = w.mem) (hrec : v.records = w.records) (b : Nat) :
    v.crcOf b = w.crcOf b := by
  rw [WStore.crcOf, WStore.block, WStore.record, hmem, hrec]
  rfl

theorem WStore.kindOf_congr {w v : WStore} (h : v.regions = w.regions) (b : Nat) : v.kindOf b = w.kindOf b := by
  have hregion : v.region = w.region := by
    funext d
    rw [WStore.region, h, WStore.region]
  rw [WStore.kindOf, WStore.regionOf, hregion, WStore.kindOf, WStore.regionOf]

/-- A visit's operand names the banks in 6 bits, which hold the bank of every data word. -/
theorem contains_bank {n : Nat} (hn : n < 512) (raced : List (BitVec 6)) :
    (raced.map (·.toNat)).contains (n / 8) = decide (BitVec.ofNat 6 (n / 8) ∈ raced) := by
  have hbank : (BitVec.ofNat 6 (n / 8)).toNat = n / 8 := Nat.mod_eq_of_lt (by omega)
  rw [Bool.eq_iff_iff, List.contains_iff_mem, decide_eq_true_iff, List.mem_map]
  constructor
  · rintro ⟨v, hv, hvn⟩
    rwa [← hvn, BitVec.ofNat_toNat, BitVec.setWidth_eq]
  · exact fun h => ⟨_, h, hbank⟩

/-- A visit that finds nothing, in a store without errors, goes on to the next block. -/
theorem WStore.visited_nil {w : WStore} (he : w.errs = []) (hr : w.recErrs = []) (raced : List (BitVec 6)) :
    w.visited [] raced = { w with
      scrubNext := (w.scrubNext + 1) % wsBlocks, scrubRows := w.scrubRows.filter (fun r => r / 64 != w.scrubNext) } := by
  simp [WStore.visited, WStore.upset, WStore.singleRows, WStore.correct, WStore.writeBack, countBanks, he, hr]

section
variable {w : WStore} {b n : Nat}

/-- Block, bank row and bank of word n of block b, which is numbered 512 b + n (R81). -/
theorem blockWord_place (hn : n < 512) :
    (512 * b + n) / 512 = b ∧ (512 * b + n) / 8 = 64 * b + n / 8 ∧ (512 * b + n) % 512 / 8 = n / 8 := by omega

theorem WStore.upset_good (he : w.errs = []) {n : Fin 545} (hn : n.val < 512) (double : Bool) :
    w.upset b [(n, double)] = { w with errs := [(512 * b + n.val, if double then .double else .single)] } := by
  simp [WStore.upset, hn, upsetWord, he]

/-- The one bank row to correct is that of the one error. -/
theorem WStore.singleRows_one (he : w.errs = [(512 * b + n, .single)]) (hn : n < 512) : w.singleRows b = [64 * b + n / 8] := by
  obtain ⟨hblock, hrow, -⟩ := blockWord_place (b := b) hn
  simp [WStore.singleRows, he, hblock, hrow, List.eraseDups_cons]

theorem WStore.correct_one (he : w.errs = [(512 * b + n, .single)]) (hn : n < 512) :
    w.correct b = { w with corrected := Tab.upd 0 w.corrected (n / 8) (fun m => if m + 1 < 2 ^ 32 then m + 1 else 2 ^ 32 - 1) } := by
  obtain ⟨hblock, -, hbank⟩ := blockWord_place (b := b) hn
  have hsat : (fun m => satNat (2 ^ 32 - 1) (m + 1)) = fun m => if m + 1 < 2 ^ 32 then m + 1 else 2 ^ 32 - 1 := by
    funext m
    exact if_congr (by omega) rfl rfl
  have hhit : w.errs.filter (fun e => e.2 == .single && e.1 / 512 == b) = [(512 * b + n, .single)] := by simp [he, hblock]
  rw [WStore.correct, hhit, countBanks, List.foldl_cons, List.foldl_nil, hsat, hbank]

/-- The error is counted, and written back unless another write has reached its bank row. -/
theorem WStore.correct_writeBack_one (he : w.errs = [(512 * b + n, .single)]) (hr : w.recErrs = []) (hn : n < 512)
    (raced : List (BitVec 6)) :
    (w.correct b).writeBack b (raced.map (·.toNat)) = { w with
      errs := if BitVec.ofNat 6 (n / 8) ∈ raced then [(512 * b + n, .single)] else []
      corrected := Tab.upd 0 w.corrected (n / 8) (fun m => if m + 1 < 2 ^ 32 then m + 1 else 2 ^ 32 - 1) } := by
  obtain ⟨hblock, -, hbank⟩ := blockWord_place (b := b) hn
  rw [WStore.correct_one he hn, WStore.writeBack, he, hr, List.filter_cons, hbank, contains_bank hn]
  simp [hblock]

end

/-- A visit that finds one single-bit error counts it at its bank, writes it back unless the row is raced, and notes the bank row; one that
the last visit has corrected too is to take a spare row. -/
theorem WStore.visited_single {w : WStore} (he : w.errs = []) (hr : w.recErrs = []) {n : Fin 545} (hn : n.val < 512)
    (raced : List (BitVec 6)) :
    let b := w.scrubNext
    let row := 64 * b + n.val / 8
    w.visited [(n, false)] raced = { w with
      errs := if BitVec.ofNat 6 (n.val / 8) ∈ raced then [(512 * b + n.val, .single)] else []
      corrected := Tab.upd 0 w.corrected (n.val / 8) (fun m => if m + 1 < 2 ^ 32 then m + 1 else 2 ^ 32 - 1)
      scrubNext := (b + 1) % wsBlocks
      scrubRows := w.scrubRows.filter (fun r => r / 64 != b) ++ [row]
      spareDue := w.spareDue ++ [row].filter (fun r => w.scrubRows.contains r && !w.spareDue.contains r) } := by
  have hu := WStore.upset_good (b := w.scrubNext) he hn false
  have hue : (w.upset w.scrubNext [(n, false)]).errs = [(512 * w.scrubNext + n.val, .single)] := by rw [hu]; rfl
  have hur : (w.upset w.scrubNext [(n, false)]).recErrs = [] := by rw [hu]; exact hr
  rw [WStore.visited]
  dsimp only
  rw [WStore.singleRows_one hue hn, WStore.correct_writeBack_one hue hur hn, hu]

/-- A store whose errors are single-bit errors of data words has no bad block. -/
theorem WStore.blockBad_eq_false {w : WStore} (hbad : w.bad = []) (hr : w.recErrs = []) (he : ∀ e ∈ w.errs, e.2 = .single) (b : Nat) :
    w.blockBad b = false := by
  have hany : w.errs.any (fun e => e.2 == .double && e.1 / 512 == b) = false :=
    List.any_eq_false.mpr fun e hmem => by rw [he e hmem]; simp
  rw [WStore.blockBad, hbad, hr, hany]
  rfl

theorem WStore.blockBad_visited_single {w : WStore} (he : w.errs = []) (hr : w.recErrs = []) (hbad : w.bad = []) {n : Fin 545}
    (hn : n.val < 512) (raced : List (BitVec 6)) (b : Nat) : (w.visited [(n, false)] raced).blockBad b = false := by
  rw [WStore.visited_single he hr hn]
  apply WStore.blockBad_eq_false
  · exact hbad
  · exact hr
  · intro e hmem
    dsimp only at hmem
    split at hmem
    · rw [List.mem_singleton.mp hmem]
    · cases hmem

/-- A bank row that the last visit has corrected too is among those that are to take a spare row. -/
theorem mem_due_of_seen {row : Nat} {seen : List Nat} (due : List Nat) (h : row ∈ seen) :
    row ∈ due ++ [row].filter (fun r => seen.contains r && !due.contains r) := by
  by_cases hdue : row ∈ due
  · exact List.mem_append_left _ hdue
  · exact List.mem_append_right _ (by simp [h, hdue])

/-- An error that cannot be corrected stands after the visit as before it. -/
theorem WStore.blockBad_visited {w : WStore} {flips : List (Fin 545 × Bool)} (raced : List (BitVec 6)) {k : Nat}
    (h : (k, .double) ∈ (w.upset w.scrubNext flips).errs ∧ k / 512 = w.scrubNext ∨
      (k, .double) ∈ (w.upset w.scrubNext flips).recErrs ∧ k / 33 = w.scrubNext) :
    (w.visited flips raced).blockBad w.scrubNext = true := by
  simp only [WStore.blockBad, Bool.or_eq_true, List.any_eq_true]
  rcases h with ⟨hmem, hk⟩ | ⟨hmem, hk⟩
  · exact .inl (.inr ⟨(k, .double), List.mem_filter.mpr ⟨hmem, rfl⟩, by simp [hk]⟩)
  · exact .inr ⟨(k, .double), List.mem_filter.mpr ⟨hmem, rfl⟩, by simp [hk]⟩

/-- A double-bit error makes the block bad, be it in a data word or in the record. -/
theorem WStore.blockBad_visited_double (w : WStore) (n : Fin 545) (raced : List (BitVec 6)) :
    (w.visited [(n, true)] raced).blockBad w.scrubNext = true := by
  by_cases hn : n.val < 512
  · have hword : (512 * w.scrubNext + n.val, .double) ∈ (w.upset w.scrubNext [(n, true)]).errs := by
      simp [WStore.upset, hn, upsetWord]
    exact WStore.blockBad_visited raced (.inl ⟨hword, by omega⟩)
  · have hrec : (33 * w.scrubNext + (n.val - 512), .double) ∈ (w.upset w.scrubNext [(n, true)]).recErrs := by
      simp [WStore.upset, hn, upsetWord]
    exact WStore.blockBad_visited raced (.inr ⟨hrec, by omega⟩)

section
variable {s : State} {c : Nat} {flips : List (Fin 545 × Bool)} {raced : List (BitVec 6)}

/-- A visit to a block that no restoration waits for: where its words or its CRC are bad, the fault is logged and its restoration
begins. -/
theorem State.scrub_eq (h : (s.core c).ws.bad = []) :
    let b := (s.core c).ws.scrubNext
    let w := (s.core c).ws.visited flips raced
    let t := s.setWs c w
    s.scrub c flips raced = if w.blockBad b || w.crcOf b != (w.record b).crc then
      (t.logFault 0x0011 2 (if t.bothBad c b then 2 else 0) none 0 (BitVec.ofNat 16 c) 0xFFFF b).startRestore c b else t := by
  simp only [State.scrub, h, List.contains_nil, Bool.false_eq_true, if_false, State.updWs_eq_setWs, State.setWs_core, State.setWs_setWs]
  rfl

/-- A block without an uncorrectable error whose CRC agrees stays good, and the visit is all that has happened. -/
theorem State.scrub_good (h : (s.core c).ws.bad = [])
    (hgood : ((s.core c).ws.visited flips raced).blockBad (s.core c).ws.scrubNext = false)
    (hcrc : (s.core c).ws.crcOf (s.core c).ws.scrubNext = ((s.core c).ws.record (s.core c).ws.scrubNext).crc) :
    s.Puts (s.scrub c flips raced) c { s.core c with ws := (s.core c).ws.visited flips raced } [] := by
  obtain ⟨hmem, hrec, -⟩ := (s.core c).ws.visited_frame flips raced
  have hagrees : ((s.core c).ws.visited flips raced).crcOf (s.core c).ws.scrubNext =
      (((s.core c).ws.visited flips raced).record (s.core c).ws.scrubNext).crc := by
    rw [WStore.crcOf_congr hmem hrec, hcrc, WStore.record, WStore.record, hrec]
  rw [State.scrub_eq h, hgood, hagrees, bne_self_eq_false, Bool.or_false, if_neg Bool.false_ne_true]
  exact s.setWs_puts c _

/-- A KV page that is found uncorrectable is marked; nothing else is asked (Table 4.6). -/
theorem State.startRestore_kv {b : Nat} (hbad : (s.core c).ws.bad.contains b = false) (hkind : (s.core c).ws.kindOf b = 2) :
    s.startRestore c b = s.updWs c (fun w => { w with bad := w.bad ++ [b] }) := by
  have hkind' : ((s.updWs c (fun w => { w with bad := w.bad ++ [b] })).core c).ws.kindOf b = 2 := by
    rw [State.updWs_core]
    exact hkind
  simp only [State.startRestore, hbad, Bool.false_eq_true, if_false, hkind']

/-- A KV page in which a visit finds a double-bit error: the fault is logged, the block is marked, and its bytes stay. -/
theorem State.scrub_kv (h : (s.core c).ws.bad = []) (hkind : (s.core c).ws.kindOf (s.core c).ws.scrubNext = 2) (n : Fin 545) :
    let t := s.scrub c [(n, true)] raced
    let w := { (s.core c).ws.visited [(n, true)] raced with bad := [(s.core c).ws.scrubNext] }
    (s.logged t).Puts t c { s.core c with ws := w } [] ∧ t.faultCount = s.faultCount + 1 ∧
      ∃ e, t.faultLog.getLast? = some e ∧ e.reason = 0x0011 ∧ e.unit = BitVec.ofNat 16 c := by
  obtain ⟨-, -, hreg, hbad⟩ := (s.core c).ws.visited_frame [(n, true)] raced
  have hvisit := s.setWs_puts c ((s.core c).ws.visited [(n, true)] raced)
  dsimp only
  rw [State.scrub_eq h, WStore.blockBad_visited_double, Bool.true_or, if_pos rfl]
  generalize (if (s.setWs c ((s.core c).ws.visited [(n, true)] raced)).bothBad c (s.core c).ws.scrubNext then 2 else 0) = outcome
  obtain ⟨hputs, hcount, hlast⟩ := hvisit.logFault 0x0011 2 outcome 0 (BitVec.ofNat 16 c) 0xFFFF (s.core c).ws.scrubNext
  rw [State.startRestore_kv]
  · have hmark := hputs.updCore (fun x => { x with ws := { x.ws with bad := x.ws.bad ++ [(s.core c).ws.scrubNext] } })
    dsimp only at hmark
    rw [hbad, h, List.nil_append] at hmark
    exact ⟨hmark, hcount, hlast⟩
  · rw [hputs.core, hbad, h]
    rfl
  · rw [hputs.core, WStore.kindOf_congr hreg]
    exact hkind

end

theorem exec_scrubVisit {s : State} {c : CoreId} (hen : s.isEnabled c.val = true) (hpt : s.passThrough = false)
    (hbg : s.backgroundPaused = false) (finds : ScrubFinds) :
    exec (.scrubVisit c finds) s = .next (s.scrub c.val finds.flips finds.raced) :=
  if_pos (by rw [hen, hpt, hbg]; rfl)

/-- A forced access is a visit that costs a held cycle (R85). -/
theorem exec_scrubForcedAccess {s : State} {c : CoreId} (hen : s.isEnabled c.val = true) (hpt : s.passThrough = false)
    (hbg : s.backgroundPaused = false) (finds : ScrubFinds) :
    exec (.scrubForcedAccess c finds) s = .next
      (({ s with clk := { s.clk with conflicts := s.clk.conflicts ++ [(s.clk.tick, 1)] } } : State).scrub c.val finds.flips finds.raced) :=
  if_pos (by rw [hen, hpt, hbg]; rfl)

/-! ### The restoration of a block -/

theorem Tab.length_getList {α : Type} (d : α) (m : Tab α) (k n : Nat) : (Tab.getList d m k n).length = n := by
  induction n generalizing k with
  | zero => rfl
  | succ n ih => rw [Tab.getList, List.length_cons, ih]

theorem Tab.getD_getList {α : Type} (d : α) (m : Tab α) (k : Nat) {n i : Nat} (h : i < n) :
    (Tab.getList d m k n).getD i d = Tab.get d m (k + i) := by
  induction n generalizing k i with
  | zero => omega
  | succ n ih =>
    cases i with
    | zero => rfl
    | succ i => rw [Tab.getList, List.getD_cons_succ, ih (k + 1) (by omega), Nat.add_right_comm, Nat.add_assoc]

theorem sliceB_length_self (l : List Byte) : sliceB l 0 l.length = l := by simp [sliceB]

/-- Block b of core c has been given the bytes `bs` and is no longer in restoration. -/
def State.refilled (s : State) (c b : Nat) (bs : List Byte) : State :=
  (s.updWs c (fun w => w.write (4096 * b) bs)).restored c b

/-- Of the core's store a restored block's bytes are those given, every other block's as before; the rest of the package stays. -/
theorem State.refilled_spec {s : State} {c b : Nat} {bs : List Byte} (hlen : bs.length = 4096) (hbad : (s.core c).ws.bad = [b])
    (hwf : Memory.wf (s.core c).ws.mem = true) :
    let t := s.refilled c b bs
    (t.core c).ws.bad = [] ∧ s.Puts t c { s.core c with ws := (t.core c).ws } [] ∧
      (∀ a, a / 4096 ≠ b → (t.core c).ws.mem.byte a = (s.core c).ws.mem.byte a) ∧
      ∀ k, k < 4096 → (t.core c).ws.mem.byte (4096 * b + k) = bs.getD k 0 := by
  obtain ⟨w, ht, hwmem, hwbad⟩ : ∃ w, s.refilled c b bs = s.setWs c w ∧
      w.mem = (s.core c).ws.mem.write (4096 * b) bs ∧ w.bad = (s.core c).ws.bad.filter (· != b) := by
    rw [State.refilled, State.restored, State.updWs_eq_setWs, State.updWs_eq_setWs, State.setWs_core, State.setWs_setWs]
    exact ⟨_, rfl, rfl, rfl⟩
  dsimp only
  rw [ht, State.setWs_core]
  refine ⟨?_, s.setWs_puts c w, fun a ha => ?_, fun k hk => ?_⟩
  · rw [hwbad, hbad, List.filter_cons, List.filter_nil, bne_self_eq_false]
    rfl
  · have hout : ¬(4096 * b ≤ a ∧ a < 4096 * b + bs.length) := by omega
    rw [hwmem, Mem.byte_write _ _ _ hwf, if_neg hout]
  · have hin : 4096 * b ≤ 4096 * b + k ∧ 4096 * b + k < 4096 * b + bs.length := by omega
    rw [hwmem, Mem.byte_write _ _ _ hwf, if_pos hin, Nat.add_sub_cancel_left]

section
variable {s : State} {c : CoreId} {blk : Fin 3072} {data : RestoreData}

theorem execBlockRestoration_unassigned (hbad : (s.core c.val).ws.bad.contains blk.val = true)
    (hkind : (s.core c.val).ws.kindOf blk.val = 0) :
    execBlockRestoration c blk data s = .next (s.refilled c.val blk.val (List.replicate 4096 0)) := by
  simp only [execBlockRestoration, hbad, hkind, Bool.not_true, Bool.false_eq_true, if_false]
  rfl

theorem execBlockRestoration_directory (hbad : (s.core c.val).ws.bad.contains blk.val = true)
    (hkind : (s.core c.val).ws.kindOf blk.val = 3) :
    execBlockRestoration c blk data s = .next (s.refilled c.val blk.val (sliceB data.bytes 0 4096)) := by
  simp only [execBlockRestoration, hbad, hkind, Bool.not_true, Bool.false_eq_true, if_false]
  rfl

/-- A block of a mirrored region has a partner where its other copy is good, and takes the partner's bytes. -/
theorem execBlockRestoration_mirrored (hbad : (s.core c.val).ws.bad.contains blk.val = true)
    (hkind : (s.core c.val).ws.kindOf blk.val = 4 ∨ (s.core c.val).ws.kindOf blk.val = 5) (hgood : s.bothBad c.val blk.val = false) :
    ∃ d q, s.partnerBlock c.val blk.val = some (d, q) ∧
      execBlockRestoration c blk data s = .next (s.refilled c.val blk.val ((s.core d).ws.block q)) := by
  cases hpartner : s.partnerBlock c.val blk.val with
  | none => rcases hkind with hk | hk <;> simp [State.bothBad, hk, hpartner] at hgood
  | some p =>
    refine ⟨p.1, p.2, rfl, ?_⟩
    rcases hkind with hk | hk
    all_goals
      simp only [execBlockRestoration, hbad, hk, hgood, hpartner, Bool.not_true, Bool.false_eq_true, if_false]
      rfl

end

/-- A block is refilled with 4,096 bytes that follow from the kind of its region (Table 4.6). -/
theorem exec_blockRestoration {s : State} {c : CoreId} {blk : Fin 3072} {data : List Byte} (journal : List JournalRec)
    (hbad : (s.core c.val).ws.bad = [blk.val])
    (hkind : (s.core c.val).ws.kindOf blk.val = 0 ∨ ((s.core c.val).ws.kindOf blk.val = 3 ∧ data.length = 4096) ∨
      (((s.core c.val).ws.kindOf blk.val = 4 ∨ (s.core c.val).ws.kindOf blk.val = 5) ∧ s.bothBad c.val blk.val = false)) :
    ∃ bs : List Byte, bs.length = 4096 ∧ exec (.blockRestoration c blk ⟨data, journal⟩) s = .next (s.refilled c.val blk.val bs) ∧
      ∀ k, k < 4096 → ((s.core c.val).ws.kindOf blk.val = 0 → bs.getD k 0 = 0) ∧
        ((s.core c.val).ws.kindOf blk.val = 3 → bs.getD k 0 = data.getD k 0) ∧
        ∀ d q, (s.core c.val).ws.kindOf blk.val = 4 ∨ (s.core c.val).ws.kindOf blk.val = 5 →
          s.partnerBlock c.val blk.val = some (d, q) → bs.getD k 0 = (s.core d).ws.mem.byte (4096 * q + k) := by
  have hin : (s.core c.val).ws.bad.contains blk.val = true := by rw [hbad]; simp
  rcases hkind with h0 | ⟨h3, hlen⟩ | ⟨h45, hgood⟩
  · refine ⟨_, List.length_replicate .., execBlockRestoration_unassigned hin h0, fun k hk => ⟨fun _ => ?_, by omega, by omega⟩⟩
    rw [List.getD_replicate _ hk]
  · refine ⟨_, sliceB_length .., execBlockRestoration_directory hin h3, fun k _ => ⟨by omega, fun _ => ?_, by omega⟩⟩
    rw [← hlen, sliceB_length_self]
  · obtain ⟨d, q, hpartner, hexec⟩ := execBlockRestoration_mirrored (data := ⟨data, journal⟩) hin h45 hgood
    refine ⟨_, Tab.length_getList .., hexec, fun k hk => ⟨by omega, by omega, fun d' q' _ hp => ?_⟩⟩
    obtain ⟨rfl, rfl⟩ := Prod.mk.inj (Option.some.inj (hpartner.symm.trans hp))
    exact Tab.getD_getList _ _ _ hk

/-! ### Spare rows -/

/-- The weight store once the next spare row of a bank has taken the place of its row of a block. -/
def WStore.spared (w : WStore) (bank row : Nat) : WStore :=
  let n := Tab.get 0 w.sparesUsed bank
  { w with
    sparesUsed := Tab.set 0 w.sparesUsed bank (n + 1)
    spares := w.spares.filter (fun x => !(x.bank == bank && x.row == row)) ++ [⟨bank, row, n⟩]
    spareDue := w.spareDue.filter (· != 64 * row + bank) }

/-- A row that is due, while its bank has a spare row: the substitution is noted for the soundpost, and logged (R88, R89). -/
theorem exec_spareRowSubstitution {s : State} {c : CoreId} {bank : BitVec 6} {row : Fin 3072}
    (hdue : 64 * row.val + bank.toNat ∈ (s.core c.val).ws.spareDue) (hgood : (s.core c.val).ws.blockBad row.val = false)
    (hfree : Tab.get 0 (s.core c.val).ws.sparesUsed bank.toNat < 64) :
    let n := Tab.get 0 (s.core c.val).ws.sparesUsed bank.toNat
    let u := s.updMaint (fun m => { m with pendingSubs := m.pendingSubs ++ [(c.val, bank.toNat, row.val, n)] })
    exec (.spareRowSubstitution c bank row) s =
      .next ((u.setWs c.val ((s.core c.val).ws.spared bank.toNat row.val)).logFault 0x0013 2 0 none 0 (BitVec.ofNat 16 c.val)
        (BitVec.ofNat 16 bank.toNat) row.val) := by
  show execSpareRowSubstitution c bank row s = _
  have hin : (s.core c.val).ws.spareDue.contains (64 * row.val + bank.toNat) = true := by simpa using hdue
  simp only [execSpareRowSubstitution, hin, hgood, hfree, Bool.not_true, Bool.or_false, Bool.false_eq_true, if_false, if_true]
  rfl

/-! ### The obligation -/

/-- Settles O51: a visit is the store `visited` put in place and, where the block is bad, a logged fault and its mark; a restoration
refills the block; a substitution is the store `spared`, noted and logged. -/
theorem scrubberComplete : Obligations.ScrubberComplete := by
  unfold Obligations.ScrubberComplete
  intro s c raced journal w b hen hpt hbg
  refine ⟨?clean, ?single, ?double, ?forced, ?restore, ?spare⟩
  case clean =>
    intro he hr hbad hcrc
    have hv := WStore.visited_nil he hr raced
    have hgood : (w.visited [] raced).blockBad b = false := by
      rw [hv]
      exact WStore.blockBad_eq_false hbad hr (by simp [he]) b
    have hputs := State.scrub_good hbad hgood hcrc
    exact ⟨_, exec_scrubVisit hen hpt hbg _, by rw [hputs.core, hv], hputs.onlyCore, hputs.landings⟩
  case single =>
    intro n hn he hr hbad hcrc
    have hv := WStore.visited_single he hr hn raced
    have hgood := WStore.blockBad_visited_single he hr hbad hn raced b
    have hputs := State.scrub_good hbad hgood hcrc
    refine ⟨_, exec_scrubVisit hen hpt hbg _, ?_⟩
    rw [hputs.core, hv]
    exact ⟨rfl, List.mem_append_right _ (List.mem_singleton_self _), mem_due_of_seen w.spareDue, hputs.onlyCore, hputs.landings⟩
  case double =>
    intro n _ hbad hkind
    obtain ⟨hputs, hcount, e, hlast⟩ := s.scrub_kv (raced := raced) hbad hkind n
    have hmem := ((s.core c.val).ws.visited_frame [(n, true)] raced).1
    refine ⟨_, exec_scrubVisit hen hpt hbg _, ?_⟩
    rw [hputs.core]
    exact ⟨rfl, hmem, rfl, hputs.onlyCore, hputs.landings, hcount, e, hlast⟩
  case forced =>
    intro finds
    exact ⟨(exec_scrubForcedAccess hen hpt hbg finds).trans (exec_scrubVisit (by exact hen) (by exact hpt) (by exact hbg) finds).symm, _,
      exec_scrubForcedAccess hen hpt hbg finds⟩
  case restore =>
    intro blk data hbad hwf hkind
    obtain ⟨bs, hlen, hexec, hbs⟩ := exec_blockRestoration journal hbad hkind
    obtain ⟨hdone, hputs, hother, hbytes⟩ := State.refilled_spec hlen hbad hwf
    refine ⟨_, hexec, hdone, hputs.core, hputs.onlyCore, hputs.landings, hother, fun k hk => ?_⟩
    dsimp only
    rw [hbytes k hk]
    exact hbs k hk
  case spare =>
    intro bank row n key hdue hgood hn hfree
    subst hn
    have hputs := State.setWs_puts
      (s.updMaint (fun m => { m with pendingSubs := m.pendingSubs ++ [(c.val, bank.toNat, row.val, Tab.get 0 w.sparesUsed bank.toNat)] }))
      c.val (w.spared bank.toNat row.val)
    obtain ⟨hlog, hcount, -⟩ := hputs.logFault 0x0013 2 0 0 (BitVec.ofNat 16 c.val) (BitVec.ofNat 16 bank.toNat) row.val
    refine ⟨_, exec_spareRowSubstitution hdue hgood hfree, ?_⟩
    rw [hlog.core]
    exact ⟨List.mem_append_right _ (List.mem_singleton_self _), rfl, hlog.onlyCore, hlog.landings, hcount⟩

end Sys2Proof.Machine
end

section
/-! PROOF. A landed write of a weight-store block writes the block's record with it, and so corrects the record's words too (04 R74, R81,
R83): the frame of `LandedMemoryWrite` leaves that out. -/

namespace Sys2Proof.Machine

theorem State.applyEff_ws (s : State) (c t a : Nat) (bs : List Byte) :
    s.applyEff c t (.ws a bs) = s.updWs c (fun w => w.write a bs) := rfl

/-- What a write of a block's bytes changes: the bytes, the record, the error marks of both, and the count of the block's writes. -/
theorem WStore.write_frame (w : WStore) (a : Nat) (bs : List Byte) :
    w.write a bs = { w with
      mem := w.mem.write a bs
      errs := (w.write a bs).errs
      recErrs := w.recErrs.filter (fun e => e.1 / 33 != a / 4096)
      records := (w.write a bs).records
      writes := Tab.upd 0 w.writes (a / 4096) (· + 1) } := rfl

/-- A weight store as the self-test leaves it, but for a latent single-bit error in the first word of block 0's record (R81). -/
def recordUpset : WStore := WStore.reset.upset 0 [(512, false)]

/-- Refutes O40: a byte written at address 0 corrects the record's word that holds the CRC, where the statement lets the error marks of the
records stand as they were. -/
theorem not_landedMemoryWrite : ¬ Obligations.LandedMemoryWrite := by
  unfold Obligations.LandedMemoryWrite
  intro h
  have hcore : ((State.reset.setWs 0 recordUpset).core 0).ws = recordUpset := by rw [State.setWs_core]
  have hwf : Memory.wf ((State.reset.setWs 0 recordUpset).core 0).ws.mem = true := by rw [hcore]; rfl
  obtain ⟨-, hws⟩ := h (State.reset.setWs 0 recordUpset) 0 0 0 0 [0xFF]
  obtain ⟨-, -, -, -, hframe, -⟩ := hws hwf
  have hmarks := congrArg (·.ws.recErrs) hframe
  simp only [State.applyEff_ws, State.updWs_core, hcore] at hmarks
  rw [WStore.write_frame] at hmarks
  exact absurd hmarks (by decide)

end Sys2Proof.Machine
end

section
/-! PROOF. Transfers that complete by count, cells that are offered again, KV-write contexts and host reads: what each puts for its core and
in flight (05 R106; 08 R195, R199; 12 R296). -/

namespace Sys2Proof.Machine

section
variable {s t : State} {c : Nat} {x : Core} {ls : List Landing}

/-! ### A core's move engine -/

theorem State.updXfer_puts (s : State) (c : Nat) (f : Xfer → Xfer) :
    s.Puts (s.updXfer c f) c { s.core c with xfer := f (s.core c).xfer } [] := State.Puts.setCore ..

theorem State.Puts.updXfer (h : s.Puts t c x ls) (f : Xfer → Xfer) : s.Puts (t.updXfer c f) c { x with xfer := f x.xfer } ls :=
  h.updCore _

theorem State.Puts.landEnd (h : s.Puts t c x ls) (tick prio : Nat) (e : LandEff) :
    s.Puts (t.landEnd tick prio c e) c x (ls ++ [⟨2 * tick + 1, prio, c, e⟩]) := h.land ..

/-- A function applied to the open transfers of an id. -/
def Xfer.mapTid (m : Xfer) (tid : Nat) (f : OpenTid → OpenTid) : Xfer :=
  { m with tids := m.tids.map (fun p => if p.tid == tid then f p else p) }

theorem State.updTid_eq (s : State) (c tid : Nat) (f : OpenTid → OpenTid) :
    s.updTid c tid f = s.updXfer c (fun m => m.mapTid tid f) := rfl

theorem State.tidComplete_eq (s : State) (c tid : Nat) :
    s.tidComplete c tid = s.updXfer c (fun m => m.mapTid tid (fun p => { p with complete := true })) := rfl

/-- One change of a transfer after another, when the first keeps its id. -/
theorem Xfer.mapTid_mapTid (m : Xfer) (tid : Nat) {f : OpenTid → OpenTid} (g : OpenTid → OpenTid) (hf : ∀ p, (f p).tid = p.tid) :
    (m.mapTid tid f).mapTid tid g = m.mapTid tid (fun p => g (f p)) := by
  simp only [Xfer.mapTid, List.map_map]
  congr 1
  refine List.map_congr_left fun p _ => ?_
  by_cases hp : p.tid = tid <;> simp [hp, hf]

/-! ### Completion by count -/

/-- A transfer of absolute rows that is no contribution and not faulty completes, and nothing else follows. -/
theorem State.completeTid_rows {o : OpenTid} (hform : o.form = .data ∨ o.form = .hostrd) (hfaulty : o.faulty = false)
    (hreg : o.rows.reg = none) : s.completeTid c o = s.tidComplete c o.tid := by
  rcases hform with hf | hf <;> simp [State.completeTid, hf, hfaulty, hreg]

/-! ### Cells that are offered again -/

theorem State.retryWaiting_nil (h : (s.core c).xfer.waiting = []) :
    s.retryWaiting c = s.updXfer c (fun m => { m with waiting := [] }) := by
  rw [State.retryWaiting, h]
  rfl

theorem State.retryWaiting_one {w : InCell} (h : (s.core c).xfer.waiting = [w]) :
    s.retryWaiting c = (s.updXfer c (fun m => { m with waiting := [] })).cellAt c w := by
  rw [State.retryWaiting, h]
  rfl

theorem State.cellAt_data {w : InCell} {o : OpenTid} (hkind : w.cell.kind = .data)
    (ho : (s.core c).xfer.tids.find? (·.tid == w.cell.tid.toNat) = some o) : s.cellAt c w = s.takeCell c o w := by
  simp only [State.cellAt, hkind, ho]

/-- The landing of a data cell of an open transfer of absolute rows: its 32 bytes at its half row (11 R270). -/
def OpenTid.halfRow (o : OpenTid) (cell : Cell) : LandEff :=
  .bytes (64 * (o.rows.pos + cell.index.toNat / 2) + 32 * (cell.index.toNat % 2)) cell.payload

/-- A data cell that is not the last, of an open transfer of absolute rows: it is counted, and its half row put in flight for the end of the
tick. -/
theorem State.takeCell_row {w : InCell} {o : OpenTid} (hkind : w.cell.kind = .data) (hlast : w.cell.last = false) (hform : o.form = .data)
    (hdiscard : o.discard = false) (htotal : o.total = none) (hreg : o.rows.reg = none)
    (hrow : o.rows.pos + w.cell.index.toNat / 2 < spRows) :
    s.takeCell c o w = (s.updTid c o.tid (fun p => { p with rcvd := o.rcvd + 1, total := none })).landEnd s.clk.tick 13 c
      (o.halfRow w.cell) := by
  have hcount : countCell o.rcvd o.total w.cell = some (o.rcvd + 1, none) := by simp [countCell, htotal, hlast]
  have htarget : rowTarget (s.core c).sp o.rows (w.cell.index.toNat / 2) = .row (o.rows.pos + w.cell.index.toNat / 2) := by
    simp only [rowTarget, hreg, if_neg (Nat.not_le.mpr hrow)]
  simp only [State.takeCell, hcount, hform, hkind, TidForm.takes, hdiscard, State.takeRowCell, htarget, kindEff, OpenTid.halfRow,
    Bool.not_true, Bool.false_eq_true, if_false]

end

section
variable {s : State} {c : CoreId} {tid : BitVec 12}

theorem exec_transferComplete {o : OpenTid} (ho : (s.core c.val).xfer.tids.find? (·.tid == tid.toNat) = some o)
    (hmet : o.total = some o.rcvd) (hopen : o.complete = false) :
    exec (.transferComplete c tid) s = .next (s.completeTid c.val o) := by
  show execTransferComplete c tid s = _
  simp [execTransferComplete, ho, OpenTid.met, hmet, hopen]

theorem exec_waitingArrivalWrite : exec (.waitingArrivalWrite c) s = .next (s.retryWaiting c.val) := rfl

/-! ### KV-write contexts -/

/-- The reply that tells the sender of a KV write that its rows were written: status 0, on channel 3 (08 R195). -/
def State.kvWritten (s : State) (k : KvCtx) (tid : BitVec 12) (head : List Byte) : Cell :=
  let ret : W32 := BitVec.ofNat 32 (fieldN head 8 4)
  mkCell ret s.place (destCore ret) 3 0 0 k.tenant tid 0 1 .none [0]

theorem State.kvWritten_status (s : State) (k : KvCtx) (tid : BitVec 12) (head : List Byte) :
    let r := s.kvWritten k tid head
    r.vc = 3 ∧ r.kind = .data ∧ r.last = true ∧ fieldN r.payload 0 1 = 0 := by
  have hpayload : fieldN (sliceB [0] 0 32) 0 1 = 0 := by decide
  exact ⟨rfl, by simp [State.kvWritten, mkCell, Cell.kind], rfl, hpayload⟩

/-- A complete context whose handle and generation are right: its rows are put in flight, the reply waits in its queue, and the cells that
wait are offered again. -/
theorem exec_kvWriteContextComplete {k : KvCtx} {y : KvLayout} {head : List Byte} {h : Handle}
    (hk : (s.core c.val).xfer.kvctx.find? (fun k => k.tid == tid.toNat && k.total == some k.rcvd) = some k) (hhead : k.head = some head)
    (hy : s.kvLayout c.val = some y)
    (hh : Handle.ofWord (BitVec.ofNat 32 (fieldN head 0 4)) = h)
    (hbad : h.bad (pageBase y.g y.shards (s.logical c.val)) (y.g * Tab.get 0 y.shards (s.logical c.val)) = false)
    (hgen : s.pageGen y.slot (y.groupOf (s.logical c.val) h.page) = fieldN head 4 2) :
    exec (.kvWriteContextComplete c tid) s = .next
      ((((s.updXfer c.val (fun m => { m with kvctx := m.kvctx.filter (·.tid != k.tid) })).landEnd s.clk.tick 13 c.val
        (.wsRows ((y.addrs (s.core c.val).ws (s.logical c.val) h).zip k.rows))).updXfer c.val (fun m => { m with
          replies := m.replies ++ [s.kvWritten k tid head] })).retryWaiting c.val) := by
  show execKvWriteContextComplete c tid s = _
  simp only [execKvWriteContextComplete, hk, hhead, hy, hh, Option.getD_some, hbad, hgen, beq_self_eq_true, Bool.not_false, Bool.and_self,
    if_true, State.updXfer_core]
  rfl

/-! ### Host reads -/

/-- The rows of an open transfer of absolute rows that the bytes of a completion fill, from row `first` to the last (08 R199). -/
def OpenTid.rowsFrom (o : OpenTid) (first : Nat) (data : List Byte) : List (Nat × List Byte) :=
  (List.range (o.want - first)).map (fun i => (o.rows.pos + (first + i), sliceB data (64 * i) 64))

/-- An open transfer all of whose n rows have been read. -/
def OpenTid.allRead (n : Nat) (o : OpenTid) : OpenTid := { o with got := n, rcvd := 2 * n }

/-- A completion that brings all the rows of a host read that were still out: they are put in flight, and the transfer completes. -/
theorem exec_hostReadCompletion_last {first : BitVec 11} {data : List Byte} {o : OpenTid}
    (ho : (s.core c.val).xfer.tids.find? (fun o => o.tid == tid.toNat && o.form == .hostrd && !o.complete) = some o)
    (hreg : o.rows.reg = none) (hfaulty : o.faulty = false) (hlen : data.length = 64 * (o.want - first.toNat))
    (hfirst : first.toNat ≤ o.want) (hgot : o.got = first.toNat) :
    exec (.hostReadCompletion c tid first data) s = .next
      (((s.landEnd s.clk.tick 14 c.val (.rowList (o.rowsFrom first.toNat data))).updTid c.val o.tid (OpenTid.allRead o.want)).tidComplete
        c.val o.tid) := by
  have hform : o.form = .hostrd := by
    have hfound := List.find?_some ho
    simp only [Bool.and_eq_true, beq_iff_eq] at hfound
    obtain ⟨⟨-, hform⟩, -⟩ := hfound
    exact hform
  have hcount : min (data.length / 64) (o.want - first.toNat) = o.want - first.toNat := by omega
  have hsum : o.got + (o.want - first.toNat) = o.want := by omega
  show execHostReadCompletion c tid first data s = _
  simp only [execHostReadCompletion, ho, hcount, hsum, SPad.rowOf, hreg, Nat.le_refl, if_true]
  exact congrArg Host.Outcome.next (State.completeTid_rows (.inr hform) hfaulty hreg)

end

/-! ### The obligation -/

/-- Settles O46: each event is the update of its core's move engine and the landings that it puts in flight; a completed transfer has no
further consequence, and the one cell that waits is the one that is offered again. -/
theorem completionsComplete : Obligations.CompletionsComplete := by
  unfold Obligations.CompletionsComplete
  intro s c tid x
  refine ⟨?count, ?waiting, ?kv, ?host⟩
  case count =>
    intro o ho hmet hopen hform hfaulty hreg
    have hputs := s.updXfer_puts c.val (fun m => m.mapTid o.tid (fun p => { p with complete := true }))
    rw [← State.tidComplete_eq, ← State.completeTid_rows (.inl hform) hfaulty hreg] at hputs
    exact ⟨_, exec_transferComplete ho hmet hopen, hputs.core, hputs.onlyCore, hputs.landings⟩
  case waiting =>
    intro w hw hkind o ho hform hdiscard htotal hreg hrow hlast
    have hidle := s.updXfer_puts c.val (fun m => { m with waiting := [] })
    have hfind : ((s.updXfer c.val (fun m => { m with waiting := [] })).core c.val).xfer.tids.find? (·.tid == w.cell.tid.toNat) =
        some o := by
      rw [hidle.core]
      exact ho
    have hputs := (hidle.updXfer (fun m => m.mapTid o.tid (fun p => { p with rcvd := o.rcvd + 1, total := none }))).landEnd s.clk.tick 13
      (o.halfRow w.cell)
    have hexec := exec_waitingArrivalWrite (s := s) (c := c)
    rw [State.retryWaiting_one hw, State.cellAt_data hkind hfind, State.takeCell_row hkind hlast hform hdiscard htotal hreg hrow] at hexec
    exact ⟨_, hexec, hputs.onlyCore, hputs.core, hputs.landings⟩
  case kv =>
    intro k y head h l hk hhead hwait hy hbad hgen
    obtain ⟨hvc, hkind, hlast, hstatus⟩ := s.kvWritten_status k tid head
    have hsent := ((s.updXfer_puts c.val (fun m => { m with kvctx := m.kvctx.filter (·.tid != k.tid) })).landEnd s.clk.tick 13
      (.wsRows ((y.addrs (s.core c.val).ws l h).zip k.rows))).updXfer
        (fun m => { m with replies := m.replies ++ [s.kvWritten k tid head] })
    have hexec := exec_kvWriteContextComplete hk hhead hy rfl hbad hgen
    rw [State.retryWaiting_nil (by rw [hsent.core]; exact hwait)] at hexec
    have hputs := hsent.updXfer (fun m => { m with waiting := [] })
    refine ⟨_, _, hexec, hputs.landings, ?_, hvc, hkind, hlast, hstatus, hputs.onlyCore⟩
    rw [hputs.core, ← hwait]
  case host =>
    intro first data o ho hreg hfaulty hlen hfirst hgot
    have hputs := ((s.updXfer_puts c.val (fun m => m.mapTid o.tid (OpenTid.allRead o.want))).landEnd s.clk.tick 14
      (.rowList (o.rowsFrom first.toNat data))).updXfer (fun m => m.mapTid o.tid (fun p => { p with complete := true }))
    have htids := (s.core c.val).xfer.mapTid_mapTid o.tid (f := OpenTid.allRead o.want) (fun p => { p with complete := true })
      (fun _ => rfl)
    exact ⟨_, exec_hostReadCompletion_last ho hreg hfaulty hlen hfirst hgot, hputs.landings,
      hputs.core.trans (congrArg (fun m => { s.core c.val with xfer := m }) htids), hputs.onlyCore⟩

end Sys2Proof.Machine
end

section
/-! PROOF. Results, status bits and digests of the words of the vector engine, as rules for the state that they lead to, and the words that
move vectors (06 R116, R119, R130; 10 R242, Table 10.8). -/

namespace Sys2Proof.Machine

/-- The core with bits ORed into its sticky status (10 Table 10.8). -/
def Core.orStatus (x : Core) (m : BitVec 16) : Core := { x with ctl := { x.ctl with status := x.ctl.status ||| m } }

section
variable {s t : State} {x : Core} {ls : List Landing}

/-! ### What a vector word puts -/

theorem State.Puts.orStatus {c : Nat} (h : s.Puts t c x ls) (m : BitVec 16) : s.Puts (t.orStatus c m) c (x.orStatus m) ls :=
  h.updCore fun x => x.orStatus m

theorem State.Puts.landReg {y : Ctx} (h : s.Puts t y.core x ls) (usable prio v first : Nat) (es : List W32) :
    s.Puts (t.landReg y usable prio v first es) y.core x (ls ++ [⟨2 * (usable - 1) + 1, prio, y.core, .vreg v first es⟩]) :=
  (h.landEnd ..).use ..

theorem State.PutsFed.landReg {y : Ctx} (h : s.PutsFed t y.core x ls) (usable prio v first : Nat) (es : List W32) :
    s.PutsFed (t.landReg y usable prio v first es) y.core x
      (ls ++ [⟨2 * (usable - 1) + 1, prio, y.core, .vreg v first es⟩]) :=
  let ⟨ds, hds⟩ := h
  ⟨ds, hds.landReg ..⟩

/-- A word that leaves digests aside has fed none. -/
theorem State.Puts.fed {c : Nat} (h : s.Puts t c x ls) : s.PutsFed t c x ls := ⟨x.xfer.digests, h⟩

/-- The register and accumulator accesses that a word notes put nothing. -/
theorem State.Puts.foldl_use {c : Nat} (d k o : Nat) (e : Option QEntry) (us : List (Nat × List Access)) (h : s.Puts t c x ls) :
    s.Puts (us.foldl (fun s u => s.use u.1 d k o e u.2) t) c x ls := by
  induction us generalizing t with
  | nil => exact h
  | cons u us ih => exact ih (h.use ..)

/-! ### A word that leaves status and digests open -/

/-- A timed word that issues, has fed digests and has ORed `m` into the status, answers the rest of the core as `x`. -/
theorem exec_of_putsFed {c : CoreId} {i : Instr} {sl : SlotId} {eng : Engine} {m : BitVec 16} (hc : wordCore i = some c)
    (he : engineOf i = some eng) (hi : s.Issues c i sl)
    (hp : s.PutsFed ((s.decoded c i).fxOf (s.ctxOf c i) i) c.val (x.orStatus m) ls)
    (hx : x.ctl.laneQ = (s.core c.val).ctl.laneQ ∧ x.ctl.vecQ = (s.core c.val).ctl.vecQ ∧ x.ctl.moveQ = (s.core c.val).ctl.moveQ) :
    ∃ t, exec i s = .next t ∧ s.BecomesBut t c x ls ∧ (t.core c.val).ctl.status = x.ctl.status ||| m := by
  obtain ⟨ds, hput⟩ := hp
  obtain ⟨t, ht, hput⟩ := exec_of_puts hc he hi hput hx
  refine ⟨t, ht, ?_, ?_⟩
  · rw [State.BecomesBut, hput.core]
    exact hput.becomes
  · rw [hput.core]
    rfl

end

section
variable {s : State} {c : CoreId} {i : Instr}

/-- A word that issues leaves the vector engine as it was until its effect. -/
theorem State.Puts.vec_issued {t : State} {sl : SlotId} {occ : Nat} (h : s.Puts t c.val (s.issued c i sl occ) []) :
    (t.core c.val).vec = (s.core c.val).vec := by
  rw [h.core]
  rfl

/-! ### Moves between rows and registers -/

theorem fxVld_puts (hi : s.Issues c i .memory) {row : Sr} {vd : BitVec 5} {n : BitVec 2} {rls : BitVec 3} {at_ : RowsAt}
    (hrow : resolveSr (s.core c.val).sp (s.core c.val).ctl.regs row (n.toNat + 1) = (at_, none))
    (hrel : checkRelease (s.core c.val).sp (s.core c.val).ctl.regs row rls = none)
    (hgood : at_.rows.all (fun q => !(s.core c.val).sp.rowBad q) = true) :
    s.Puts ((s.decoded c i).fxVld (s.ctxOf c i) row vd n rls) c.val
      { s.issued c i .memory 1 with sp := (s.core c.val).sp.correct at_.rows }
      (⟨2 * (s.clk.tick + 2) + 1, 21, c.val, .vreg vd.toNat 0 (elemsOf (at_.rows.flatMap (s.core c.val).sp.row))⟩ ::
        (if rls = 0 then []
         else [⟨2 * s.clk.tick + 1, 30, c.val, .release row.reg.toNat (cnt (s.core c.val).ctl.regs rls) (s.entryOf c i)⟩])) := by
  have hfind : at_.rows.find? (s.core c.val).sp.rowBad = none := by simpa using hgood
  simp only [State.fxVld, State.spOf_decoded, State.ctxOf_regs, hrow, hrel]
  refine hi.issueIn_puts rfl fun t ht => ?_
  have hput := ((ht.updCore fun x => { x with sp := x.sp.correct at_.rows }).use s.clk.tick c.val c.val 2 (some (s.entryOf c i))
    (at_.rows.map .rowRead)).landReg (y := s.ctxOf c i) (s.clk.tick + 3) 21 vd.toNat 0 (elemsOf (at_.rows.flatMap (s.core c.val).sp.row))
  simp only [hfind]
  split
  · exact hput
  · exact hput.landEnd ..

theorem fxVst_puts (hi : s.Issues c i .memory) {row : Sr} {vs : BitVec 5} {n : BitVec 2} {cmt : BitVec 3} {at_ : RowsAt}
    (hrow : resolveSr (s.core c.val).sp (s.core c.val).ctl.regs row (n.toNat + 1) = (at_, none))
    (hcmt : checkCommit (s.core c.val).sp (s.core c.val).ctl.regs row cmt = none) :
    s.Puts ((s.decoded c i).fxVst (s.ctxOf c i) row vs n cmt) c.val (s.issued c i .memory 1)
      (⟨2 * s.clk.tick + 1, 10, c.val, .rowList (at_.rows.zipIdx.map
          (fun p => (p.1, sliceB (imageOf ((s.core c.val).vec.reg vs.toNat)) (64 * p.2) 64)))⟩ ::
        (if cmt = 0 then []
         else [⟨2 * s.clk.tick + 1, 31, c.val, .commit row.reg.toNat (cnt (s.core c.val).ctl.regs cmt) (s.entryOf c i)⟩])) := by
  simp only [State.fxVst, State.spOf_decoded, State.ctxOf_regs, hrow, hcmt]
  refine hi.issueIn_puts rfl fun t ht => ?_
  simp only [State.ctxOf_core, ht.vec_issued]
  have hput := (ht.landEnd s.clk.tick 10 (.rowList (at_.rows.zipIdx.map
    (fun p => (p.1, sliceB (imageOf ((s.core c.val).vec.reg vs.toNat)) (64 * p.2) 64))))).use s.clk.tick c.val c.val 1
    (some (s.entryOf c i)) (at_.rows.map .rowWrite)
  split
  · exact hput
  · exact hput.landEnd ..

theorem fxVfill_puts (hi : s.Issues c i .memory) (vd : BitVec 5) (imm : W32) :
    s.Puts ((s.decoded c i).fxVfill (s.ctxOf c i) vd imm) c.val (s.issued c i .memory 1)
      [⟨2 * s.clk.tick + 1, 21, c.val, .vreg vd.toNat 0 (List.replicate 64 imm)⟩] :=
  hi.issueIn_puts rfl fun _ ht => ht.landReg (y := s.ctxOf c i) ..

/-! ### Permutes -/

theorem fxVperm_puts (hi : s.Issues c i .element) {vl : BitVec 7} (hlo : 1 ≤ vl.toNat) (hhi : vl.toNat ≤ 64) (vd vs vi : BitVec 5)
    (fsel : Bool) (freg : BitVec 5) :
    let v := (s.core c.val).vec
    let fill : W32 := if fsel then Tab.get 0 (s.core c.val).ctl.regs freg.toNat else 0
    let idx (j : Nat) : Nat := (v.elem vi.toNat j).toNat
    s.Puts ((s.decoded c i).fxVperm (s.ctxOf c i) vd vs vi vl fsel freg) c.val
      ((s.issued c i .element 1).orStatus
        (StatusBit.permOor.mask ((List.range vl.toNat).any (fun j => decide (vl.toNat ≤ idx j)))))
      [⟨2 * (s.clk.tick + 1) + 1, 22, c.val, .vreg vd.toNat 0 ((List.range 64).map (fun j =>
        if vl.toNat ≤ j then fill else if idx j < vl.toNat then v.elem vs.toNat (idx j) else fill))⟩] := by
  have hcount : (decide (vl.toNat = 0) || decide (64 < vl.toNat)) = false := by
    rw [decide_eq_false (Nat.one_le_iff_ne_zero.mp hlo), decide_eq_false (Nat.not_lt.mpr hhi)]
    rfl
  simp only [State.fxVperm, hcount]
  refine hi.issueIn_puts rfl fun t ht => ?_
  simp only [State.ctxOf_core, ht.vec_issued]
  exact (ht.orStatus _).landReg (y := s.ctxOf c i) ..

theorem fxVperm_skips (hi : s.Issues c i .element) (hr : (s.core c.val).ctl.recs.length < 16) {vl : BitVec 7}
    (hcount : vl.toNat = 0 ∨ 64 < vl.toNat) (vd vs vi : BitVec 5) (fsel : Bool) (freg : BitVec 5) :
    s.Puts ((s.decoded c i).fxVperm (s.ctxOf c i) vd vs vi vl fsel freg) c.val
      (s.skipped c i .element 1 .badField vl.toNat) [] := by
  have hbad : (decide (vl.toNat = 0) || decide (64 < vl.toNat)) = true := by simpa using hcount
  simp only [State.fxVperm, hbad]
  exact hi.issueIn_skips hr rfl rfl

end

/-! ### The obligation -/

/-- Settles O27: each move issues with every check passed and puts what its rule above says; a VPERM of a bad count fails its one check,
and its record holds the count (log entry 89). -/
theorem vectorMoveWordsComplete : Obligations.VectorMoveWordsComplete := by
  unfold Obligations.VectorMoveWordsComplete
  intro s c δ T x r
  refine ⟨?vld, ?vst, ?vfill, ?vperm, ?badCount⟩
  case vld =>
    exact fun row vd n rls at_ hi hrow hrel hgood => exec_becomes rfl rfl hi (fxVld_puts hi hrow hrel hgood) ⟨rfl, rfl, rfl⟩
  case vst => exact fun row vs n cmt at_ hi hrow hcmt => exec_becomes rfl rfl hi (fxVst_puts hi hrow hcmt) ⟨rfl, rfl, rfl⟩
  case vfill => exact fun vd imm hi => exec_becomes rfl rfl hi (fxVfill_puts hi vd imm) ⟨rfl, rfl, rfl⟩
  case vperm =>
    exact fun vd vs vi vl fsel freg hi hlo hhi =>
      exec_becomes rfl rfl hi (fxVperm_puts hi hlo hhi vd vs vi fsel freg) ⟨rfl, rfl, rfl⟩
  case badCount =>
    exact fun vd vs vi vl fsel freg hi hcount hr =>
      exec_becomes rfl rfl hi (fxVperm_skips hi hr hcount vd vs vi fsel freg) ⟨rfl, rfl, rfl⟩

end Sys2Proof.Machine
end

section
/-! PROOF. Element programs: what VPROG puts for its first vector (06 R116, R121 to R123). -/

namespace Sys2Proof.Machine

section
variable {s : State} {c : CoreId} {i : Instr}

/-! ### Element programs -/

/-- Element j of the first vector of a VPROG: its temporaries and flags once the program has run (06 R121 to R123). -/
def State.vprogOut (s : State) (c : Nat) (o : VprogOp) (pr : EProg) (j : Nat) : List Nat × RFlags :=
  let v := (s.core c).vec
  runUops pr.consts j (fun k => s.draw c (s.core c).ctl.regs 3 k j) pr.ops 0
    [vprogSrc v o.k0 o.s0 o.elem 0 j, vprogSrc v o.k1 o.s1 o.elem 0 j, vprogSrc v o.k2 o.s2 o.elem 0 j, 0, 0, 0, 0, 0] {}

/-- The first vector of a program that is there; a further one follows in the next tick. -/
theorem State.Puts.vprogVec_zero {u : State} {x : Core} {o : VprogOp} {pr : EProg} (h : s.Puts u c.val x [])
    (hvec : x.vec = (s.core c.val).vec)
    (hpr : (s.core c.val).vec.progs.find? (·.1 == o.p.toNat) = some (o.p.toNat, pr)) (tick : Nat) :
    let out := s.vprogOut c.val o pr
    s.PutsFed (u.vprogVec c.val tick o 0 (s.entryOf c i)) c.val
      (x.orStatus (vecMask (RFlags.all ((List.range 64).map (fun j => (out j).2)))))
      (⟨2 * (tick + 2 * pr.ops.length - 1) + 1, 22, c.val,
          .vreg o.vd.toNat 0 ((List.range 64).map (fun j => BitVec.ofNat 32 ((out j).1.getD 0 0)))⟩ ::
        (if o.r = 0 then [] else [⟨2 * (tick + 1), 8, c.val, .vprog o 1 (s.entryOf c i)⟩])) := by
  intro out
  have hvec' : (u.core c.val).vec = (s.core c.val).vec := by rw [h.core, hvec]
  have hout (j : Nat) : runUops pr.consts j (fun k => u.draw c.val (s.entryOf c i).regs 3 k (64 * 0 + j)) pr.ops 0
      [vprogSrc (s.core c.val).vec o.k0 o.s0 o.elem 0 j, vprogSrc (s.core c.val).vec o.k1 o.s1 o.elem 0 j,
        vprogSrc (s.core c.val).vec o.k2 o.s2 o.elem 0 j, 0, 0, 0, 0, 0] {} = out j := by
    simp only [h.draw, Nat.mul_zero, Nat.zero_add]
    rfl
  obtain ⟨ds, hfed⟩ := (h.orStatus (vecMask (RFlags.all ((List.range 64).map (fun j => (out j).2))))).feed (s.entryOf c i).regs 0 false
    ((List.range 64).map (fun j => (out j).1.getD 0 0))
  have hput := hfed.landEnd (tick + 2 * pr.ops.length - 1) 22
    (.vreg o.vd.toNat 0 ((List.range 64).map (fun j => BitVec.ofNat 32 ((out j).1.getD 0 0))))
  simp only [State.vprogVec, hvec', hpr, hout, List.map_map, Function.comp_def]
  refine ⟨ds, ?_⟩
  by_cases hr : o.r = 0
  · simp only [hr]
    exact hput
  · have hpos : 0 < o.r.toNat := Nat.pos_of_ne_zero fun h => hr (BitVec.eq_of_toNat_eq h)
    simp only [hr, hpos, if_true, if_false]
    exact hput.land ..

theorem fxVprog_puts (hi : s.Issues c i .element) {o : VprogOp} {pr : EProg}
    (hpr : (s.core c.val).vec.progs.find? (·.1 == o.p.toNat) = some (o.p.toNat, pr)) (hd : o.vd.toNat + o.r.toNat < 32)
    (h0 : o.s0.toNat + o.r.toNat < 32) (h1 : o.s1.toNat + o.r.toNat < 32) (h2 : o.s2.toNat + o.r.toNat < 32) :
    let out := s.vprogOut c.val o pr
    s.PutsFed ((s.decoded c i).fxVprog (s.ctxOf c i) o) c.val
      ((s.issued c i .element (o.r.toNat + 1)).orStatus (vecMask (RFlags.all ((List.range 64).map (fun j => (out j).2)))))
      (⟨2 * (s.clk.tick + 2 * pr.ops.length - 1) + 1, 22, c.val,
          .vreg o.vd.toNat 0 ((List.range 64).map (fun j => BitVec.ofNat 32 ((out j).1.getD 0 0)))⟩ ::
        (if o.r = 0 then [] else [⟨2 * (s.clk.tick + 1), 8, c.val, .vprog o 1 (s.entryOf c i)⟩])) := by
  intro out
  have hlast {q : Nat} (h : q < 32) : decide (31 < q) = false := decide_eq_false (by omega)
  have hhas : (s.core c.val).vec.progs.any (·.1 == o.p.toNat) = true :=
    List.any_eq_true.mpr ⟨_, List.mem_of_find?_eq_some hpr, beq_self_eq_true _⟩
  simp only [State.fxVprog, State.ctxOf_core, State.decoded_core, hhas, hlast hd, hlast h0, hlast h1, hlast h2, Bool.and_false]
  exact hi.issueIn_putsFed rfl fun t ht => (ht.foldl_use ..).vprogVec_zero rfl hpr s.clk.tick

end

/-- Settles O28: the program is there and no vector lies past register 31, so the word issues, and its first vector is what runs. -/
theorem vprogCompletes : Obligations.VprogCompletes := by
  unfold Obligations.VprogCompletes
  intro s c δ o pr i T x src out hi hpr _ hd h0 h1 h2
  exact exec_of_putsFed rfl rfl hi (fxVprog_puts hi hpr hd h0 h1 h2) ⟨rfl, rfl, rfl⟩

end Sys2Proof.Machine
end

section
/-! PROOF. Conversions: what each form of VCVT puts (06 R116, R125 to R129; 02 R37, R39; 08 R185). -/

namespace Sys2Proof.Machine

/-! ### The checks of a conversion -/

/-- Every format but the long accumulator's is one of a register. -/
theorem fmtFail_register {code : BitVec 4} {f : Fmt} (hf : Fmt.ofCode code.toNat = some f) (hne : f ≠ .lacc) :
    fmtFail code (fun f => f != .lacc) = none := by
  rw [fmtFail, hf]
  exact failIf_eq_none_iff.mpr (by simp [hne])

/-- The scale selector of a target fits its format and layout (06 R126 to R128). -/
def ScaleFits (o : VcvtOp) (f : Fmt) : Prop :=
  (o.dsc ≠ 0 → scalable f = true) ∧ (o.dsc = 2 → o.dlay = true) ∧ o.dsc ≠ 3 ∧ (o.dsc = 1 → o.imm ≠ 0xFF)

theorem ScaleFits.not_bad {o : VcvtOp} {f : Fmt} (h : ScaleFits o f) :
    (decide (o.dsc ≠ 0) && !scalable f || decide (o.dsc = 2) && !o.dlay || decide (o.dsc = 3) ||
      decide (o.dsc = 1) && decide (o.imm = 0xFF)) = false := by
  obtain ⟨hfmt, hlay, hmode, himm⟩ := h
  simp only [Bool.or_eq_false_iff, Bool.and_eq_false_imp, decide_eq_true_eq, decide_eq_false_iff_not, Bool.not_eq_false']
  exact ⟨⟨⟨hfmt, hlay⟩, hmode⟩, himm⟩

/-- A format that is not the long accumulator has another code. -/
theorem ne_lacc_code {code : BitVec 4} {f : Fmt} (hf : Fmt.ofCode code.toNat = some f) (hne : f ≠ .lacc) : code ≠ 10 := by
  rintro rfl
  exact hne (Option.some.inj hf).symm

/-! ### What a conversion computes -/

@[simp] theorem Core.orStatus_zero (x : Core) : x.orStatus 0 = x := by simp [Core.orStatus]

theorem State.PutsFed.orStatus_zero {s t : State} {c : Nat} {x : Core} {ls : List Landing} (h : s.PutsFed t c x ls) :
    s.PutsFed t c (x.orStatus 0) ls := by rwa [Core.orStatus_zero]

/-- The draw of value n of a VCVT, where its rounding is stochastic (10 R236). -/
def State.vcvtDraw (s : State) (c : Nat) (m : RM) (n : Nat) : Nat :=
  if m == .st then s.draw c (s.core c).ctl.regs 2 0 n else 0

/-- The 64 values of a VCVT's source register (06 R125, R126). -/
def Vec.vcvtVals (v : Vec) (o : VcvtOp) (f : Fmt) : List Val :=
  (List.range 64).map (srcVal (v.reg o.s.toNat) f o.slay (srcScales o.ssc.toNat o.imm (v.reg o.s.toNat)))

/-- Word n of the record of accumulator k, over the strings (06 R129). -/
def Lane.recordWord (l : Lane) (k n : Nat) : List W32 :=
  (List.range 64).map (fun j => if n < 4 then (l.accAt k j).words.getD n 0 else ctrlWord (l.win k) (l.accAt k j))

theorem Lane.recordWord_eq (l : Lane) (k n : Nat) : l.recordWord k n =
    if n < 4 then ((List.range 64).map (l.accAt k)).map (fun a => a.words.getD n 0)
    else ((List.range 64).map (l.accAt k)).map (ctrlWord (l.win k)) := by
  by_cases hn : n < 4 <;> simp [Lane.recordWord, hn]

/-- The accumulator of string j that a record in registers r to r + 4 holds (06 R129). -/
def Vec.recordAcc (v : Vec) (r j : Nat) : Acc :=
  let w (n : Nat) : Nat := (v.elem (r + n) j).toNat
  Acc.ofBits (BitVec.ofNat 128 (w 0 + w 1 * 2 ^ 32 + w 2 * 2 ^ 64 + w 3 * 2 ^ 96)) (w 4 / 1024)

/-- Register results put in flight one after the other. -/
theorem State.PutsFed.foldl_landReg {s t : State} {x : Core} {ls : List Landing} {y : Ctx} (prio : Nat) (usable v : Nat → Nat)
    (es : Nat → List W32) (ns : List Nat) (h : s.PutsFed t y.core x ls) :
    s.PutsFed (ns.foldl (fun s n => s.landReg y (usable n) prio (v n) 0 (es n)) t) y.core x
      (ls ++ ns.map (fun n => ⟨2 * (usable n - 1) + 1, prio, y.core, .vreg (v n) 0 (es n)⟩)) := by
  induction ns generalizing t ls with
  | nil => simpa using h
  | cons n ns ih => simpa using ih (h.landReg (usable n) prio (v n) 0 (es n))

/-! ### The forms -/

section
variable {s : State} {c : CoreId} {i : Instr} {o : VcvtOp} {m : RM}

theorem fxVcvt_register_puts (hi : s.Issues c i .element) (hm : RM.ofCode o.rm.toNat = some m) (hsk : o.sk = false)
    (hdk : o.dk = false) {sf df : Fmt} (hsf : Fmt.ofCode o.sfmt.toNat = some sf) (hdf : Fmt.ofCode o.dfmt.toNat = some df)
    (hs : sf ≠ .lacc) (hd : df ≠ .lacc) (hsrc : srcScaleBad o.ssc.toNat sf o.slay = false) (hdst : ScaleFits o df) :
    let q := convertAll df m (s.vcvtDraw c.val m) o.sat o.dsc.toNat o.imm false ((s.core c.val).vec.vcvtVals o sf)
    s.PutsFed ((s.decoded c i).fxVcvt (s.ctxOf c i) o) c.val ((s.issued c i .element 1).orStatus (vecMask q.2.2))
      [⟨2 * (s.clk.tick + 1) + 1, 22, c.val, .vreg o.d.toNat 0 (packRaw df o.dlay q.1 q.2.1)⟩] := by
  intro q
  simp only [State.fxVcvt, hsk, hdk, hsf, hdf, hm, Option.getD_some, State.ctxOf_core, State.decoded_core, hsrc, hdst.not_bad,
    fmtFail_register hsf hs, fmtFail_register hdf hd]
  exact hi.issueIn_putsFed rfl fun t ht =>
    ((ht.orStatus (vecMask q.2.2)).feed (s.core c.val).ctl.regs 0 false q.1).landReg (y := s.ctxOf c i) ..

theorem fxVcvt_drain_puts (hi : s.Issues c i .element) (hm : RM.ofCode o.rm.toNat = some m) (hsk : o.sk = true)
    (hdk : o.dk = false) {df : Fmt} (hsf : o.sfmt = 10) (hssc : o.ssc = 0) (hdf : Fmt.ofCode o.dfmt.toNat = some df)
    (hd : df ≠ .lacc) (hdst : ScaleFits o df) (hgood : (s.core c.val).lane.readBad (o.s.toNat % 16) = false) :
    let q := convertAll df m (s.vcvtDraw c.val m) o.sat o.dsc.toNat o.imm true
      ((List.range 64).map (s.accNow c.val (o.s.toNat % 16)))
    s.PutsFed ((s.decoded c i).fxVcvt (s.ctxOf c i) o) c.val ((s.issued c i .element 1).orStatus (exitMask q.2.2))
      [⟨2 * (s.clk.tick + 2) + 1, 22, c.val, .vreg o.d.toNat 0 (packRaw df o.dlay q.1 q.2.1)⟩] := by
  intro q
  simp only [State.fxVcvt, hsk, hdk, hsf, hdf, hm, hssc, hgood, Option.getD_some, State.ctxOf_core, State.decoded_core, hdst.not_bad,
    ne_lacc_code hdf hd, fmtFail_register hdf hd]
  exact hi.issueIn_putsFed rfl fun t ht =>
    ((ht.orStatus (exitMask q.2.2)).feed (s.core c.val).ctl.regs 0 false q.1).landReg (y := s.ctxOf c i) ..

theorem fxVcvt_record_puts (hi : s.Issues c i .element) (hm : RM.ofCode o.rm.toNat = some m) (hsk : o.sk = true)
    (hdk : o.dk = false) (hsf : o.sfmt = 10) (hdf : o.dfmt = 10) (hssc : o.ssc = 0) (hdsc : o.dsc = 0) (hd : o.d.toNat ≤ 27)
    (hgood : (s.core c.val).lane.readBad (o.s.toNat % 16) = false) :
    s.PutsFed ((s.decoded c i).fxVcvt (s.ctxOf c i) o) c.val (s.issued c i .element 1)
      ((List.range 5).map (fun n => ⟨2 * (s.clk.tick + 2 + n) + 1, 22, c.val,
        .vreg (o.d.toNat + n) 0 ((s.core c.val).lane.recordWord (o.s.toNat % 16) n)⟩)) := by
  have hlast : decide (27 < o.d.toNat) = false := decide_eq_false (Nat.not_lt.mpr hd)
  simp only [State.fxVcvt, hsk, hdk, hsf, hdf, hm, hssc, hdsc, hgood, hlast, State.ctxOf_core, State.decoded_core, ← Lane.recordWord_eq,
    decide_true, Bool.and_true, Bool.false_eq_true, if_true, if_false]
  exact hi.issueIn_putsFed rfl fun t ht =>
    (ht.feed (s.core c.val).ctl.regs 0 true _).foldl_landReg (y := s.ctxOf c i) 22 (fun n => s.clk.tick + 3 + n) (fun n => o.d.toNat + n)
      ((s.core c.val).lane.recordWord (o.s.toNat % 16)) (List.range 5)

theorem fxVcvt_restore_puts (hi : s.Issues c i .element) (hm : RM.ofCode o.rm.toNat = some m) (hsk : o.sk = false)
    (hdk : o.dk = true) (hsf : o.sfmt = 10) (hdf : o.dfmt = 10) (hssc : o.ssc = 0) (hdsc : o.dsc = 0) (hs : o.s.toNat ≤ 27)
    (hwin : ∀ j, j < 64 → ((s.core c.val).vec.elem (o.s.toNat + 4) j).toNat % 1024 =
      ((s.core c.val).vec.elem (o.s.toNat + 4) 0).toNat % 1024) :
    s.Puts ((s.decoded c i).fxVcvt (s.ctxOf c i) o) c.val (s.issued c i .element 1)
      [⟨2 * (s.clk.tick + 3) + 1, 2, c.val, .accRestore (o.d.toNat % 16)
        (winOf ((s.core c.val).vec.elem (o.s.toNat + 4) 0).toNat) ((List.range 64).map ((s.core c.val).vec.recordAcc o.s.toNat))⟩] := by
  have hlast : decide (27 < o.s.toNat) = false := decide_eq_false (Nat.not_lt.mpr hs)
  have hmixed : ((List.range 64).any fun j => ((s.core c.val).vec.elem (o.s.toNat + 4) j).toNat % 1024 !=
      ((s.core c.val).vec.elem (o.s.toNat + 4) 0).toNat % 1024) = false := by
    simpa using hwin
  simp only [State.fxVcvt, hsk, hdk, hsf, hdf, hm, hssc, hdsc, hlast, hmixed, State.ctxOf_core, State.decoded_core]
  exact hi.issueIn_puts rfl fun t ht => (ht.landEnd ..).use ..

theorem fxVcvt_add_puts (hi : s.Issues c i .element) (hm : RM.ofCode o.rm.toNat = some m) (hsk : o.sk = false)
    (hdk : o.dk = true) {sf : Fmt} (hsf : Fmt.ofCode o.sfmt.toNat = some sf) (hs : sf ≠ .lacc) (hdf : o.dfmt = 10)
    (hdsc : o.dsc = 0) (hsrc : srcScaleBad o.ssc.toNat sf o.slay = false) :
    s.Puts ((s.decoded c i).fxVcvt (s.ctxOf c i) o) c.val (s.issued c i .element 1)
      [⟨2 * (s.clk.tick + 3) + 1, 3, c.val,
        .accAdd (o.d.toNat % 16) (((s.core c.val).vec.vcvtVals o sf).map (fun v => [v.toTerm])) none⟩] := by
  simp only [State.fxVcvt, hsk, hdk, hsf, hdf, hm, hdsc, hsrc, ne_lacc_code hsf hs, Option.getD_some, State.ctxOf_core,
    State.decoded_core, fmtFail_register hsf hs, Vec.vcvtVals, List.map_map]
  exact hi.issueIn_puts rfl fun t ht => ht.landEnd ..

end

/-! ### The obligation -/

/-- Settles O29: each of the five forms issues with every check passed, and its effect is put as its rule above says. -/
theorem vcvtCompletes : Obligations.VcvtCompletes := by
  unfold Obligations.VcvtCompletes
  intro s c δ o m i T x es ka kd draw dstOk vals Flies hi hm
  refine ⟨?register, ?drain, ?record, ?restore, ?add⟩
  case register =>
    exact fun sf df hsk hdk hsf hdf hs hd hsrc hdst =>
      exec_of_putsFed rfl rfl hi (fxVcvt_register_puts hi hm hsk hdk hsf hdf hs hd hsrc hdst) ⟨rfl, rfl, rfl⟩
  case drain =>
    exact fun df hsk hdk hsf hssc hdf hd hdst hgood =>
      exec_of_putsFed rfl rfl hi (fxVcvt_drain_puts hi hm hsk hdk hsf hssc hdf hd hdst hgood) ⟨rfl, rfl, rfl⟩
  case record =>
    exact fun hsk hdk hsf hdf hssc hdsc hd hgood => exec_of_putsFed rfl rfl hi
      (fxVcvt_record_puts hi hm hsk hdk hsf hdf hssc hdsc hd hgood).orStatus_zero ⟨rfl, rfl, rfl⟩
  case restore =>
    intro hsk hdk hsf hdf hssc hdsc hs w hwin
    exact exec_of_putsFed rfl rfl hi
      (fxVcvt_restore_puts hi hm hsk hdk hsf hdf hssc hdsc hs hwin).fed.orStatus_zero ⟨rfl, rfl, rfl⟩
  case add =>
    exact fun sf hsk hdk hsf hs hdf hdsc hsrc => exec_of_putsFed rfl rfl hi
      (fxVcvt_add_puts hi hm hsk hdk hsf hs hdf hdsc hsrc).fed.orStatus_zero ⟨rfl, rfl, rfl⟩

end Sys2Proof.Machine
end

section
/-! PROOF. The reduction unit's states and the words that change them: VRED INIT, MERGE and PHASE, VTOPK INIT and MERGE (06 R132, R133, R136,
R137, R139). -/

namespace Sys2Proof.Machine

/-! ### Reduction states and the top-k list -/

/-- The core with reduction state q put. -/
def Core.withRed (x : Core) (q : BitVec 3) (r : Red) : Core := { x with vec := { x.vec with red := Recs.put x.vec.red q.toNat r } }

/-- The core with its top-k list put. -/
def Core.withTopk (x : Core) (l : List (W32 × W32)) : Core := { x with vec := { x.vec with topk := l } }

/-- Reduction state q of core c. -/
def State.redAt (s : State) (c : Nat) (q : BitVec 3) : Red := Recs.get Red.empty (s.core c).vec.red q.toNat

section
variable {s t : State} {c : CoreId} {i : Instr} {x : Core} {ls : List Landing}

theorem State.redOf_decoded (s : State) (c : CoreId) (i : Instr) (q : BitVec 3) :
    (s.decoded c i).redOf (s.ctxOf c i) q = s.redAt c.val q := by
  rw [State.redOf, State.ctxOf_core, State.decoded_core]
  rfl

theorem State.Puts.setRed {y : Ctx} (h : s.Puts t y.core x ls) (q : BitVec 3) (r : Red) :
    s.Puts (t.setRed y q r) y.core (x.withRed q r) ls :=
  h.updCore fun x => x.withRed q r

theorem State.Puts.setTopk {c : Nat} (h : s.Puts t c x ls) (l : List (W32 × W32)) :
    s.Puts (t.updVec c (fun v => { v with topk := l })) c (x.withTopk l) ls :=
  h.updCore fun x => x.withTopk l

/-! ### Words that change a state -/

/-- The window that a VRED INIT of SUM sets: the word's or that of an element (06 R132). -/
def Vec.initWindow (v : Vec) (r : BitVec 5) (wsrc : Bool) (w : BitVec 10) (e : BitVec 6) : Int :=
  if wsrc then (v.elem r.toNat e.toNat).toInt else w.toInt

/-- The state that a VRED INIT of a kind sets: the window of a SUM, the window and constants of an LSE (06 R132, R139). -/
def Red.initial (kind : BitVec 3) (w : Int) (c d : W32) : Red :=
  { Red.empty with
    kind := kind.toNat, w := if kind = 1 then w else if kind = 6 then -92 else 0
    c := if kind = 6 then c else 0, d := if kind = 6 then d else 0 }

theorem fxVredInit_puts (hi : s.Issues c i .reduction) {kind : BitVec 3} {wsrc : Bool} {w : BitVec 10} {e : BitVec 6} (q : BitVec 3)
    {v : BitVec 5} {W : Int} {C D : W32} (hW : W = (s.core c.val).vec.initWindow v wsrc w e) (hC : C = (s.core c.val).vec.elem v.toNat 0)
    (hD : D = (s.core c.val).vec.elem v.toNat 1) (hnone : kind ≠ 0) (hlast : kind ≠ 7) (hsum : kind = 1 → -512 ≤ W ∧ W ≤ 511)
    (hlse : kind = 6 → finiteF32 C = true ∧ (0 : Int) < (cmpKey C.toNat).getD 0 ∧ finiteF32 D = true) :
    s.Puts ((s.decoded c i).fxVredInit (s.ctxOf c i) q v kind wsrc w e) c.val
      ((s.issued c i .reduction 1).withRed q (Red.initial kind W C D)) [] := by
  have hkind : (decide (kind = 0) || decide (kind = 7)) = false := by rw [decide_eq_false hnone, decide_eq_false hlast]; rfl
  have hwin : (decide (kind = 1) && (decide (W < -512) || decide (511 < W))) = false := by
    simpa using hsum
  have hfin : (decide (kind = 6) && !(finiteF32 C && decide ((0 : Int) < (cmpKey C.toNat).getD 0) && finiteF32 D)) = false := by
    simpa [and_assoc] using hlse
  rw [Vec.initWindow] at hW
  simp only [State.fxVredInit, State.ctxOf_core, State.decoded_core, ← hW, ← hC, ← hD, hkind, hwin, hfin]
  exact hi.issueIn_puts rfl fun t ht => ht.setRed (y := s.ctxOf c i) q (Red.initial kind W C D)

theorem fxVredMerge_puts (hi : s.Issues c i .reduction) {q : BitVec 3} {v : BitVec 5} {r p : Red} (hr : r = s.redAt c.val q)
    (hp : p = Red.ofRecord ((s.core c.val).vec.reg v.toNat)) (hnone : r.kind ≠ 0) (hkind : r.kind = p.kind)
    (hphase : r.sumPhase = p.sumPhase) (hlse : r.kind = 6 → r.c = p.c ∧ r.d = p.d) (hsum : r.kind = 1 → r.w = p.w) :
    s.Puts ((s.decoded c i).fxVredMerge (s.ctxOf c i) q v) c.val ((s.issued c i .reduction 1).withRed q (r.merge p)) [] := by
  have hconsts : (r.kind == 6 && p.kind == 6 && (decide (r.c ≠ p.c) || decide (r.d ≠ p.d))) = false := by
    simpa [← hkind] using hlse
  have hsame : (r.kind == 0 || r.kind != p.kind || r.sumPhase != p.sumPhase) = false := by simp [hnone, ← hkind, hphase]
  have hwin : (r.kind == 1 && p.kind == 1 && r.w != p.w) = false := by simpa [← hkind] using hsum
  simp only [State.fxVredMerge, State.redOf_decoded, State.ctxOf_core, State.decoded_core, ← hr, ← hp, hconsts, hsame, hwin]
  exact hi.issueIn_puts rfl fun t ht => ht.setRed (y := s.ctxOf c i) q (r.merge p)

theorem fxVredPhase_puts (hi : s.Issues c i .reduction) {q : BitVec 3} (hkind : (s.redAt c.val q).kind = 6)
    (hphase : (s.redAt c.val q).sumPhase = false) :
    s.Puts ((s.decoded c i).fxVredPhase (s.ctxOf c i) q) c.val
      ((s.issued c i .reduction 1).withRed q { s.redAt c.val q with sumPhase := true, acc := Acc.zero, w := -92 }) [] := by
  have hmax : ((s.redAt c.val q).kind != 6 || (s.redAt c.val q).sumPhase) = false := by rw [hkind, hphase]; rfl
  simp only [State.fxVredPhase, State.redOf_decoded, hmax]
  exact hi.issueIn_puts rfl fun t ht => ht.setRed (y := s.ctxOf c i) ..

theorem fxVtopkInit_puts (hi : s.Issues c i .reduction) (k : BitVec 6) :
    s.Puts ((s.decoded c i).fxVtopkInit (s.ctxOf c i) k) c.val
      { s.issued c i .reduction 1 with vec := { (s.core c.val).vec with topkK := k.toNat + 1, topk := [] } } [] :=
  hi.issueIn_puts rfl fun _ ht => ht.updCore fun x => { x with vec := { x.vec with topkK := k.toNat + 1, topk := [] } }

/-- The top-k list with the entries of another list taken in; entries of padding and NaN are left out (06 R136, R137). -/
def Vec.topkMerged (v : Vec) (l : List (W32 × W32)) : List (W32 × W32) :=
  l.foldl (fun l e => if e.2 = 0xFFFFFFFF || rankKey e.1.toNat == none then l else topkInsert v.topkK e.1 e.2.toNat l) v.topk

theorem fxVtopkMerge_puts (hi : s.Issues c i .reduction) {v : BitVec 5} (hv : v.toNat < 31) :
    let vec := (s.core c.val).vec
    let l := (vec.reg v.toNat).zip (vec.reg (v.toNat + 1))
    s.Puts ((s.decoded c i).fxVtopkMerge (s.ctxOf c i) v) c.val
      (((s.issued c i .reduction 1).withTopk (vec.topkMerged l)).orStatus
        (StatusBit.vnan.mask (l.any (fun e => e.2 ≠ 0xFFFFFFFF && rankKey e.1.toNat == none)))) [] := by
  have hpair : decide (31 ≤ v.toNat) = false := decide_eq_false (Nat.not_le.mpr hv)
  simp only [State.fxVtopkMerge, State.ctxOf_core, State.decoded_core, hpair]
  exact hi.issueIn_puts rfl fun t ht => (ht.setTopk _).orStatus _

end

/-! ### The obligation -/

/-- Settles O30: each word issues with every check passed and puts the one state; a VTOPK MERGE ORs VNAN into the status beside it. -/
theorem reductionStateWordsComplete : Obligations.ReductionStateWordsComplete := by
  unfold Obligations.ReductionStateWordsComplete
  intro s c δ q v x red p Puts
  refine ⟨?sum, ?rank, ?lse, ?merge, ?phase, ?topkInit, ?topkMerge⟩
  case sum =>
    intro wsrc w e W hlo hhi hi
    exact exec_becomes rfl rfl hi
      (fxVredInit_puts hi q rfl rfl rfl (by decide) (by decide) (fun _ => ⟨hlo, hhi⟩) (absurd · (by decide))) ⟨rfl, rfl, rfl⟩
  case rank =>
    intro kind wsrc w e hkind hi
    have hne : kind ≠ 0 ∧ kind ≠ 7 ∧ kind ≠ 1 ∧ kind ≠ 6 := by
      rcases hkind with rfl | rfl | rfl | rfl <;> decide
    obtain ⟨hnone, hlast, hsum, hlse⟩ := hne
    have hput := fxVredInit_puts (wsrc := wsrc) (w := w) (e := e) hi q (v := v) rfl rfl rfl hnone hlast (absurd · hsum) (absurd · hlse)
    simp only [Red.initial, hsum, hlse, if_false] at hput
    exact exec_becomes rfl rfl hi hput ⟨rfl, rfl, rfl⟩
  case lse =>
    intro wsrc w e C D hC hpos hD hi
    exact exec_becomes rfl rfl hi
      (fxVredInit_puts hi q rfl rfl rfl (by decide) (by decide) (absurd · (by decide)) (fun _ => ⟨hC, hpos, hD⟩)) ⟨rfl, rfl, rfl⟩
  case merge =>
    exact fun hnone hkind hphase hlse hsum hi =>
      exec_becomes rfl rfl hi (fxVredMerge_puts hi rfl rfl hnone hkind hphase hlse hsum) ⟨rfl, rfl, rfl⟩
  case phase => exact fun hkind hphase hi => exec_becomes rfl rfl hi (fxVredPhase_puts hi hkind hphase) ⟨rfl, rfl, rfl⟩
  case topkInit => exact fun k hi => exec_becomes rfl rfl hi (fxVtopkInit_puts hi k) ⟨rfl, rfl, rfl⟩
  case topkMerge =>
    intro i hi hv
    obtain ⟨t, ht, hbut, hstatus⟩ := exec_of_putsFed rfl rfl hi (fxVtopkMerge_puts hi hv).fed ⟨rfl, rfl, rfl⟩
    exact ⟨t, ht, hstatus, hbut⟩

end Sys2Proof.Machine
end

section
/-! PROOF. The words that take elements into a reduction state: VRED ACC, VSCAN and VTOPK ACC (06 R132 to R136, R139; 02 R36). -/

namespace Sys2Proof.Machine

section
variable {s : State} {c : CoreId} {i : Instr}

/-- The first n values of register v as a scaled source (06 R125, R126, R133). -/
def Vec.firstVals (x : Vec) (v : BitVec 5) (n : Nat) (f : Fmt) (lay : Bool) (ssc : BitVec 2) (imm : Byte) : List Val :=
  (List.range n).map (srcVal (x.reg v.toNat) f lay (srcScales ssc.toNat imm (x.reg v.toNat)))

/-- A SUM with values added exactly (06 R134). -/
def Red.summed (r : Red) (vals : List Val) (n : Nat) : Red :=
  { { r with acc := r.acc.addTerms r.w (vals.map Val.toTerm) }.see n with nan := r.nan || vals.any (· == Val.nan) }

/-- Whether a value is no number. -/
def Val.special (v : Val) : Bool := match v with | .num _ _ _ => false | _ => true

/-- A scan with the exponents and special values of its elements taken in (02 R36). -/
def Red.scanned (r : Red) (vals : List Val) (n : Nat) : Red :=
  { r with
    exp := (vals.filterMap Val.exp).foldl max r.exp, special := r.special || vals.any Val.special
    nan := r.nan || vals.any (· == Val.nan) }.see n

/-- A ranking state or an LSE with elements taken in one after the other, numbered from b (06 R133, R135, R139). -/
def Red.ranked (r : Red) (es : List W32) (b : Nat) : Red := es.zipIdx.foldl (fun r p => r.accElem p.1 (b + p.2)) r

theorem fxVredAcc_sum_puts (hi : s.Issues c i .reduction) {q : BitVec 3} {v : BitVec 5} {e : BitVec 6} {fmt : BitVec 4} {lay : Bool}
    {ssc : BitVec 2} {imm : BitVec 8} {base : BitVec 4} {f : Fmt} (hkind : (s.redAt c.val q).kind = 1)
    (hf : Fmt.ofCode fmt.toNat = some f) (hne : f ≠ .lacc) (hsrc : srcScaleBad ssc.toNat f lay = false) :
    s.Puts ((s.decoded c i).fxVredAcc (s.ctxOf c i) q v e fmt lay ssc imm base) c.val
      ((s.issued c i .reduction 1).withRed q
        ((s.redAt c.val q).summed ((s.core c.val).vec.firstVals v (e.toNat + 1) f lay ssc imm) (e.toNat + 1))) [] := by
  have hsum : ((s.redAt c.val q).kind == 1) = true := by rw [hkind]; rfl
  have hargmax : ((s.redAt c.val q).kind == 4) = false := by rw [hkind]; rfl
  have htakes : ((s.redAt c.val q).kind == 0 || (s.redAt c.val q).kind == 5) = false := by rw [hkind]; rfl
  simp only [State.fxVredAcc, State.redOf_decoded, State.ctxOf_core, State.decoded_core, hsum, hargmax, htakes, hf, hsrc,
    Option.getD_some, fmtFail_register hf hne]
  exact hi.issueIn_puts rfl fun t ht => ht.setRed (y := s.ctxOf c i) ..

theorem fxVredAcc_rank_puts (hi : s.Issues c i .reduction) {q : BitVec 3} {e : BitVec 6} {b : Nat} {base : BitVec 4} (v : BitVec 5)
    (lay : Bool) (imm : BitVec 8) (hb : b = (Tab.get 0 (s.core c.val).ctl.regs base.toNat).toNat)
    (hkind : (s.redAt c.val q).kind = 2 ∨ (s.redAt c.val q).kind = 3 ∨ (s.redAt c.val q).kind = 4 ∨ (s.redAt c.val q).kind = 6)
    (hidx : (s.redAt c.val q).kind = 4 → b + e.toNat < 2 ^ 24) :
    let es := ((s.core c.val).vec.reg v.toNat).take (e.toNat + 1)
    s.Puts ((s.decoded c i).fxVredAcc (s.ctxOf c i) q v e 8 lay 0 imm base) c.val
      (((s.issued c i .reduction 1).withRed q ((s.redAt c.val q).ranked es b)).orStatus
        (StatusBit.vnan.mask (es.any (fun w => rankKey w.toNat == none)))) [] := by
  intro es
  have hsum : ((s.redAt c.val q).kind == 1) = false := by rw [beq_eq_false_iff_ne]; omega
  have htakes : ((s.redAt c.val q).kind == 0 || (s.redAt c.val q).kind == 5) = false := by
    rw [Bool.or_eq_false_iff, beq_eq_false_iff_ne, beq_eq_false_iff_ne]
    omega
  have hrange : ((s.redAt c.val q).kind == 4 && decide (2 ^ 24 ≤ b + e.toNat)) = false := by simpa using hidx
  simp only [State.fxVredAcc, State.redOf_decoded, State.ctxOf_core, State.ctxOf_regs, State.decoded_core, hsum, htakes, reg, ← hb, hrange,
    Bool.false_eq_true, if_false]
  refine hi.issueIn_puts ?_ fun t ht => ?_
  · simp [pickFail, failIf]
  · exact (ht.setRed (y := s.ctxOf c i) q _).orStatus _

theorem fxVscan_puts (hi : s.Issues c i .reduction) {q : BitVec 3} {v : BitVec 5} {e : BitVec 6} {fmt : BitVec 4} {lay : Bool}
    {ssc : BitVec 2} {imm : BitVec 8} {f : Fmt} (hkind : (s.redAt c.val q).kind = 5) (hf : Fmt.ofCode fmt.toNat = some f)
    (hne : f ≠ .lacc) (hsrc : srcScaleBad ssc.toNat f lay = false) :
    let vals := (s.core c.val).vec.firstVals v (e.toNat + 1) f lay ssc imm
    s.Puts ((s.decoded c i).fxVscan (s.ctxOf c i) q v e fmt lay ssc imm) c.val
      (((s.issued c i .reduction 1).withRed q ((s.redAt c.val q).scanned vals (e.toNat + 1))).orStatus
        (StatusBit.special.mask (vals.any Val.special))) [] := by
  have hscan : ((s.redAt c.val q).kind != 5) = false := by rw [hkind]; rfl
  simp only [State.fxVscan, State.redOf_decoded, State.ctxOf_core, State.decoded_core, hf, hsrc, hscan, Option.getD_some,
    fmtFail_register hf hne]
  exact hi.issueIn_puts rfl fun t ht => (ht.setRed (y := s.ctxOf c i) q _).orStatus _

/-- The top-k list with elements taken in, numbered from b; NaN is left out (06 R133, R136). -/
def Vec.topkTaken (v : Vec) (es : List W32) (b : Nat) : List (W32 × W32) :=
  es.zipIdx.foldl (fun l p => if rankKey p.1.toNat == none then l else topkInsert v.topkK p.1 (b + p.2) l) v.topk

theorem fxVtopkAcc_puts (hi : s.Issues c i .reduction) {v : BitVec 5} {e : BitVec 6} {base : BitVec 4} {b : Nat}
    (hb : b = (Tab.get 0 (s.core c.val).ctl.regs base.toNat).toNat) (hidx : b + e.toNat < 2 ^ 24) :
    let vec := (s.core c.val).vec
    let es := (vec.reg v.toNat).take (e.toNat + 1)
    s.Puts ((s.decoded c i).fxVtopkAcc (s.ctxOf c i) v e base) c.val
      (((s.issued c i .reduction 2).withTopk (vec.topkTaken es b)).orStatus
        (StatusBit.vnan.mask (es.any (fun w => rankKey w.toNat == none)))) [] := by
  have hrange : decide (2 ^ 24 ≤ b + e.toNat) = false := decide_eq_false (Nat.not_le.mpr hidx)
  simp only [State.fxVtopkAcc, State.ctxOf_core, State.ctxOf_regs, State.decoded_core, reg, ← hb, hrange]
  exact hi.issueIn_puts rfl fun t ht => (ht.setTopk _).orStatus _

end

/-! ### The obligation -/

/-- Settles O31: the state that each word puts has the sums, ranks or exponents of the elements by its definition; the words that rank leave
the status to what they met. -/
theorem reductionElementWordsComplete : Obligations.ReductionElementWordsComplete := by
  unfold Obligations.ReductionElementWordsComplete
  intro s c δ q v e x red es
  refine ⟨?sum, ?rank, ?scan, ?topk⟩
  case sum =>
    intro fmt lay ssc imm base f i vals hi hkind hf hne hsrc
    obtain ⟨t, ht, hbecomes⟩ := exec_becomes rfl rfl hi (fxVredAcc_sum_puts (base := base) hi hkind hf hne hsrc) ⟨rfl, rfl, rfl⟩
    exact ⟨t, _, ht, hbecomes, rfl, hkind, rfl, rfl⟩
  case rank =>
    intro lay imm base i b hi hkind hidx
    obtain ⟨t, ht, hbut, -⟩ := exec_of_putsFed rfl rfl hi (fxVredAcc_rank_puts hi v lay imm rfl hkind hidx).fed ⟨rfl, rfl, rfl⟩
    exact ⟨t, ht, hbut⟩
  case scan =>
    intro fmt lay ssc imm f i vals hi hkind hf hne hsrc
    obtain ⟨t, ht, hbut, -⟩ := exec_of_putsFed rfl rfl hi (fxVscan_puts hi hkind hf hne hsrc).fed ⟨rfl, rfl, rfl⟩
    exact ⟨t, _, ht, hbut, rfl, hkind, rfl⟩
  case topk =>
    intro base i b hi hidx
    obtain ⟨t, ht, hbut, -⟩ := exec_of_putsFed rfl rfl hi (fxVtopkAcc_puts (v := v) hi rfl hidx).fed ⟨rfl, rfl, rfl⟩
    exact ⟨t, ht, hbut⟩

end Sys2Proof.Machine
end

section
/-! PROOF. The words that put the results of a reduction in flight: VRED OUT and SMOUT, VTOPK OUT (06 R134, R136, R137, R139, R140). -/

namespace Sys2Proof.Machine

section
variable {s : State} {c : CoreId} {i : Instr}

/-- The rounded sum of VRED OUT (06 R134), drawn for where the rounding is stochastic (10 R236). -/
def State.redSum (s : State) (c : Nat) (r : Red) (m : RM) : Nat × RFlags :=
  roundOut .fp32 m (if m == .st then s.draw c (s.core c).ctl.regs 4 0 0 else 0) false 0 (accVal r.w r.acc)

/-- ORing bits into the status and leaving it are both ORing some bits. -/
theorem State.Puts.orStatus_if {t : State} {c : Nat} {x : Core} {ls : List Landing} (h : s.Puts t c x ls) (b : Bool) (m : BitVec 16) :
    s.Puts (if b then t.orStatus c m else t) c (x.orStatus (if b then m else 0)) ls := by
  cases b with
  | false => exact (Core.orStatus_zero x).symm ▸ h
  | true => exact h.orStatus m

theorem Core.orStatus_orStatus (x : Core) (m n : BitVec 16) : (x.orStatus m).orStatus n = x.orStatus (m ||| n) := by
  simp [Core.orStatus, BitVec.or_assoc]

theorem fxVredOut_puts (hi : s.Issues c i .reduction) {q : BitVec 3} (v : BitVec 5) {rm : BitVec 3} {m : RM}
    (hm : RM.ofCode rm.toNat = some m) :
    let r := s.redAt c.val q
    let sum := s.redSum c.val r m
    s.PutsFed ((s.decoded c i).fxVredOut (s.ctxOf c i) q v rm) c.val
      ((s.issued c i .reduction 1).orStatus ((if r.kind == 1 then exitMask sum.2 else 0) |||
        (if r.kind == 6 then StatusBit.rowNan.mask (r.lseClass == 1) ||| StatusBit.rowEmpty.mask (r.lseClass == 2) else 0)))
      [⟨2 * (s.clk.tick + 3) + 1, 23, c.val, .vreg v.toNat 0 (r.record sum.1)⟩] := by
  intro r sum
  simp only [State.fxVredOut, State.redOf_decoded, hm, Option.isNone_some, Bool.and_false, Option.getD_some]
  refine hi.issueIn_putsFed rfl fun t ht => ?_
  have hsum : roundOut .fp32 m (if m == .st then t.draw c.val (s.core c.val).ctl.regs 4 0 0 else 0) false 0 (accVal r.w r.acc) = sum := by
    rw [ht.draw]
    rfl
  have hput := (((ht.orStatus_if (r.kind == 1) (exitMask sum.2)).orStatus_if (r.kind == 6)
    (StatusBit.rowNan.mask (r.lseClass == 1) ||| StatusBit.rowEmpty.mask (r.lseClass == 2))).feed (s.core c.val).ctl.regs 0 false
    [((r.record sum.1).getD 5 0).toNat]).landReg (y := s.ctxOf c i) (s.clk.tick + 4) 23 v.toNat 0 (r.record sum.1)
  rw [Core.orStatus_orStatus] at hput
  rw [← hsum] at hput ⊢
  exact hput

/-- The quotient of an element of an LSE row, by the row's class (06 R140, Table 6.10). -/
def Red.quotient (r : Red) (w : W32) : Nat :=
  match r.lseClass with
  | 1 => Fmt.fp32.nanBits
  | 2 => 0
  | 3 => if w = 0x7F800000 then r.rinv else 0
  | _ => rn2 fMul (lseU r.c.toNat r.m w.toNat) r.rinv

theorem fxVredSmout_puts (hi : s.Issues c i .reduction) {q : BitVec 3} (v vs : BitVec 5) (e : BitVec 6)
    (hkind : (s.redAt c.val q).kind = 6) (hphase : (s.redAt c.val q).sumPhase = true) :
    let r := s.redAt c.val q
    s.Puts ((s.decoded c i).fxVredSmout (s.ctxOf c i) q v vs e) c.val
      ((s.issued c i .reduction 1).orStatus
        (StatusBit.rowNan.mask (r.lseClass == 1) ||| StatusBit.rowEmpty.mask (r.lseClass == 2)))
      [⟨2 * (s.clk.tick + 7) + 1, 23, c.val, .vreg v.toNat 0 (((s.core c.val).vec.reg vs.toNat).zipIdx.map
        (fun a => if a.2 ≤ e.toNat then BitVec.ofNat 32 (r.quotient a.1) else 0))⟩] := by
  have hsum : ((s.redAt c.val q).kind != 6 || !(s.redAt c.val q).sumPhase) = false := by rw [hkind, hphase]; rfl
  simp only [State.fxVredSmout, State.redOf_decoded, hsum]
  refine hi.issueIn_puts rfl fun t ht => ?_
  simp only [State.ctxOf_core, ht.vec_issued]
  exact (ht.orStatus _).landReg (y := s.ctxOf c i) ..

theorem fxVtopkOut_puts (hi : s.Issues c i .reduction) {v : BitVec 5} (hv : v.toNat < 31) :
    let topk := (s.core c.val).vec.topk
    let pad := topk ++ List.replicate (64 - topk.length) ((0xFF800000 : W32), (0xFFFFFFFF : W32))
    s.Puts ((s.decoded c i).fxVtopkOut (s.ctxOf c i) v) c.val (s.issued c i .reduction 1)
      [⟨2 * (s.clk.tick + 3) + 1, 23, c.val, .vreg v.toNat 0 (pad.map (·.1))⟩,
       ⟨2 * (s.clk.tick + 4) + 1, 23, c.val, .vreg (v.toNat + 1) 0 (pad.map (·.2))⟩] := by
  have hpair : decide (31 ≤ v.toNat) = false := decide_eq_false (Nat.not_le.mpr hv)
  simp only [State.fxVtopkOut, State.ctxOf_core, State.decoded_core, hpair]
  exact hi.issueIn_puts rfl fun t ht => (ht.landReg (y := s.ctxOf c i) ..).landReg (y := s.ctxOf c i) ..

end

/-! ### The obligation -/

/-- Settles O32: each word issues with every check passed and puts its results in flight by the rule above. -/
theorem reductionOutputWordsComplete : Obligations.ReductionOutputWordsComplete := by
  unfold Obligations.ReductionOutputWordsComplete
  intro s c δ q v T x red
  refine ⟨?out, ?smout, ?topk⟩
  case out =>
    intro rm m i hi hm
    obtain ⟨t, ht, hbut, -⟩ := exec_of_putsFed rfl rfl hi (fxVredOut_puts hi v hm) ⟨rfl, rfl, rfl⟩
    exact ⟨t, ht, hbut⟩
  case smout =>
    intro vs e i part hi hkind hphase
    obtain ⟨t, ht, hbut, -⟩ := exec_of_putsFed rfl rfl hi (fxVredSmout_puts hi v vs e hkind hphase).fed ⟨rfl, rfl, rfl⟩
    exact ⟨t, ht, hbut⟩
  case topk =>
    intro i pad hi hv
    exact exec_becomes rfl rfl hi (fxVtopkOut_puts hi hv) ⟨rfl, rfl, rfl⟩

end Sys2Proof.Machine
end

section
/-! PROOF. The decoder: words that are refused, ignored or held back, untimed words, and timed words that wait in their queue (07 R145 to
R159, R163; 08 R172). -/

namespace Sys2Proof.Machine

section
variable {s t : State} {c : CoreId} {i : Instr}

/-! ### A word that comes -/

/-- A word that a program may hold is decoded on its core. -/
theorem exec_decode (hc : wordCore i = some c) (hw : wordOk s.n (s.logical c.val) i = true) : exec i s = .next (s.decode c.val i) := by
  rw [exec_word hc, execWord, if_pos hw]

theorem exec_refused (hc : wordCore i = some c) (hw : wordOk s.n (s.logical c.val) i = false) :
    exec i s = .refused .reservedEncoding := by
  rw [exec_word hc, execWord, if_neg (Bool.eq_false_iff.mp hw)]

theorem State.decode_off {d : Nat} (h : (s.core d).ctl.dec = .halted ∨ s.isEnabled d = false) : s.decode d i = s := by
  rcases h with hhalt | hoff
  · simp only [State.decode, hhalt, ite_self]
  · simp only [State.decode, hoff, Bool.not_false, Bool.or_true, if_true]

/-- While a WAITF waits, or a word is held for its full queue, a word waits behind it (07 R154, R163). -/
theorem State.decode_stalled {d : Nat} (hp : s.passThrough = false) (hen : s.isEnabled d = true)
    (h : (∃ f n t, (s.core d).ctl.dec = .waiting f n t) ∨ ∃ j t, (s.core d).ctl.dec = .held j t) :
    s.decode d i = s.updCtl d (fun k => { k with stalled := k.stalled ++ [i] }) := by
  rcases h with ⟨f, n, t, hdec⟩ | ⟨j, t, hdec⟩ <;>
    simp only [State.decode, hp, hen, hdec, Bool.not_true, Bool.or_false, Bool.false_eq_true, if_false]

/-- A word that its core decodes now is past, and then waits in its engine's queue or has its effect (07 R149). -/
theorem State.Decodes.decode (h : s.Decodes c i) : s.decode c.val i =
    match engineOf i with
    | some eng => (s.decoded c i).enqueue c.val (s.entryOf c i).tick (s.entryOf c i).offset i eng
    | none => (s.decoded c i).untimed c.val (s.entryOf c i).tick (s.entryOf c i).offset i := by
  obtain ⟨-, hp, hen, hdec, hcur⟩ := h
  simp only [State.decode, hp, hen, hdec, Bool.not_true, Bool.or_false, Bool.false_eq_true, if_false, State.decodeNow,
    if_neg (Nat.not_le.mpr hcur)]
  rfl

theorem State.Decodes.wordOk (h : s.Decodes c i) : wordOk s.n (s.logical c.val) i = true := by
  obtain ⟨hw, -⟩ := h
  exact hw

/-! ### Untimed words -/

theorem exec_untimed (hc : wordCore i = some c) (he : engineOf i = none) (hd : s.Decodes c i) :
    exec i s = .next ((s.decoded c i).untimed c.val (s.entryOf c i).tick (s.entryOf c i).offset i) := by
  rw [exec_decode hc hd.wordOk, hd.decode, he]

theorem State.decoded_puts (s : State) (c : CoreId) (i : Instr) :
    s.Puts (s.decoded c i) c.val { s.core c.val with ctl := (s.core c.val).ctl.past i } [] := State.Puts.setCore ..

theorem State.Puts.updCtl {d : Nat} {x : Core} {ls : List Landing} (h : s.Puts t d x ls) (f : Ctl → Ctl) :
    s.Puts (t.updCtl d f) d { x with ctl := f x.ctl } ls := h.updCore _

/-- An untimed word whose effect is a change of its control core. -/
theorem exec_untimed_becomes (f : Ctl → Ctl) (hc : wordCore i = some c) (he : engineOf i = none) (hd : s.Decodes c i)
    (hf : (s.decoded c i).untimed c.val (s.entryOf c i).tick (s.entryOf c i).offset i = (s.decoded c i).updCtl c.val f) :
    ∃ t, exec i s = .next t ∧ s.Becomes t c { s.core c.val with ctl := f ((s.core c.val).ctl.past i) } [] := by
  refine ⟨_, exec_untimed hc he hd, ?_⟩
  rw [hf]
  exact ((s.decoded_puts c i).updCtl f).becomes

/-- A skipped word of the control core is counted, and its record kept while there is room (08 R173). -/
theorem State.logWord_kept {d : Nat} {op : Byte} (h : (s.core d).ctl.recs.length < 16) (hi : wordInfo i = some (op, 0)) (tick : Nat)
    (off : BitVec 24) (why : Reason) (n : Nat) :
    s.logWord d tick off i why n = s.updCtl d (fun k =>
      k.skipped ⟨BitVec.ofNat 32 tick, off, op, BitVec.ofNat 16 d, why, BitVec.ofNat 32 n⟩) := by
  have hsrc : QEntry.source ⟨i, tick, off, []⟩ = 0 := by simp [QEntry.source, hi]
  have hop : QEntry.opcode ⟨i, tick, off, []⟩ = op := by simp [QEntry.opcode, hi]
  have hkept := State.logExc_kept h ⟨i, tick, off, []⟩ why n
  simp only [QEntry.skipRec, hsrc, hop] at hkept
  simp only [State.logWord, hi]
  exact hkept

/-- An untimed word that writes a register. -/
theorem exec_untimed_setReg {d : BitVec 5} {v : W32} (hc : wordCore i = some c) (he : engineOf i = none)
    (hv : (s.decoded c i).untimed c.val (s.entryOf c i).tick (s.entryOf c i).offset i = (s.decoded c i).setReg c.val d v)
    (hd : s.Decodes c i) :
    ∃ t, exec i s = .next t ∧ s.Becomes t c { s.core c.val with
      ctl := { (s.core c.val).ctl.past i with regs := Tab.set 0 (s.core c.val).ctl.regs d.toNat v } } [] :=
  exec_untimed_becomes (fun k => { k with regs := Tab.set 0 k.regs d.toNat v }) hc he hd hv

/-- An untimed word that is skipped. -/
theorem exec_untimed_logs {op : Byte} {why : Reason} (n : Nat) (hc : wordCore i = some c) (hi : wordInfo i = some (op, 0))
    (hn : (s.decoded c i).untimed c.val (s.entryOf c i).tick (s.entryOf c i).offset i =
      (s.decoded c i).logWord c.val (s.entryOf c i).tick (s.entryOf c i).offset i why n)
    (hroom : (s.core c.val).ctl.recs.length < 16) (hd : s.Decodes c i) :
    let r : ExcRec :=
      ⟨BitVec.ofNat 32 (s.entryOf c i).tick, (s.core c.val).ctl.offset, op, BitVec.ofNat 16 c.val, why, BitVec.ofNat 32 n⟩
    ∃ t, exec i s = .next t ∧ s.Becomes t c { s.core c.val with ctl := ((s.core c.val).ctl.past i).skipped r } [] := by
  have hkept := State.logWord_kept (s := s.decoded c i) (d := c.val) (by rw [State.decoded_core]; exact hroom) hi (s.entryOf c i).tick
    (s.entryOf c i).offset why n
  exact exec_untimed_becomes _ hc (by simp [engineOf, hi]) hd (hn.trans hkept)

/-- The last repetition of a body closes its level (07 R157). -/
theorem State.untimed_endloop_last {d : Nat} {top : LoopLevel} (c : CoreId) (δ : BitVec 12) (tick : Nat) (off : BitVec 24)
    (htop : (s.core d).ctl.loops.getLast? = some top) (hone : top.remaining = 1) :
    s.untimed d tick off (.endloop c δ) = s.updCtl d (fun k => { k with loops := k.loops.dropLast }) := by
  simp only [State.untimed, htop, hone]
  rfl

/-- While repetitions remain the body comes again (07 R157). -/
theorem State.untimed_endloop_more {d : Nat} {top : LoopLevel} (c : CoreId) (δ : BitVec 12) (tick : Nat) (off : BitVec 24)
    (htop : (s.core d).ctl.loops.getLast? = some top) (hmore : top.remaining ≠ 1) :
    s.untimed d tick off (.endloop c δ) = s.updCtl d (fun k => { k with
      loops := k.loops.dropLast ++ [⟨top.remaining - 1, top.body⟩], offset := top.body }) := by
  have hleft : ¬top.remaining - 1 = 0 := sub_eq_zero.not.mpr hmore
  simp only [State.untimed, htop, if_neg hleft]

/-! ### Timed words -/

/-- Core c once the timed word i has been decoded and stands alone in its engine's queue. -/
def State.queued (s : State) (c : CoreId) (i : Instr) (eng : Engine) : State :=
  s.setCore c.val { s.core c.val with ctl := ((s.core c.val).ctl.past i).setQueue eng [s.entryOf c i] }

theorem Ctl.queue_of_empty {k : Ctl} (h : k.laneQ = [] ∧ k.vecQ = [] ∧ k.moveQ = []) (eng : Engine) : k.queue eng = [] := by
  obtain ⟨hl, hv, hm⟩ := h
  cases eng
  · exact hl
  · exact hv
  · exact hm

/-- A timed word enters its engine's queue, and what is due issues. -/
theorem exec_timed {eng : Engine} (hc : wordCore i = some c) (he : engineOf i = some eng) (hd : s.Decodes c i) (hnq : s.NoQueue) :
    exec i s = .next (s.queued c i eng).pumpAll := by
  have hempty : ((s.core c.val).ctl.past i).queue eng = [] := Ctl.queue_of_empty (s.noQueue_core c.val hnq) eng
  have hroom : ¬queueDepth ≤ (((s.core c.val).ctl.past i).queue eng).length := by rw [hempty]; decide
  rw [exec_decode hc hd.wordOk, hd.decode, he]
  simp only [State.enqueue, State.decoded_core, if_neg hroom]
  simp only [State.decoded, State.updCtl, State.updCore, State.setCore_core, State.setCore_setCore, hempty]
  rfl

/-- Nothing issues before tick 0 of a step (07 R151). -/
theorem State.nextEntry_preStart (hnq : s.NoQueue) (d : Nat) {x : Core} (hpre : x.ctl.preStart = true) :
    (s.setCore d x).nextEntry = none := by
  have hheads : (Recs.put s.cores d x).flatMap (fun (p : Nat × Core) => if s.isEnabled p.1 && !p.2.ctl.preStart then
      [Engine.lane, .vector, .move].filterMap (fun e => (p.2.ctl.queue e).head?.map (fun q => (p.1, e, q))) else []) = [] := by
    rw [Recs.flatMap_put]
    · simp [hpre]
    · intro p hp
      simp [Ctl.queue_of_empty (hnq p hp)]
  unfold State.nextEntry
  rw [flatMap_filter_ite]
  exact congrArg (List.foldl _ none) hheads

theorem State.pumpAll_of_none (h : s.nextEntry = none) : s.pumpAll = s := by
  have hfuel : s.pumpFuel = s.pumpFuel - 1 + 1 := by unfold State.pumpFuel; omega
  rw [State.pumpAll, hfuel, State.pump, h]

theorem State.pumpAll_of_late {d : Nat} {eng : Engine} {e : QEntry} (h : s.nextEntry = some (d, eng, e))
    (hlate : s.clk.tick < s.issueTick d e) : s.pumpAll = s := by
  have hfuel : s.pumpFuel = s.pumpFuel - 1 + 1 := by unfold State.pumpFuel; omega
  rw [State.pumpAll, hfuel, State.pump, h]
  exact if_pos hlate

@[simp] theorem Ctl.setQueue_preStart (k : Ctl) (eng : Engine) (q : List QEntry) : (k.setQueue eng q).preStart = k.preStart := by
  cases eng <;> rfl

@[simp] theorem Ctl.setQueue_s0 (k : Ctl) (eng : Engine) (q : List QEntry) : (k.setQueue eng q).s0 = k.s0 := by cases eng <;> rfl

/-- A queued word stays where it is while its tick has not come or its step has not passed its tick 0. -/
theorem State.pumpAll_queued (hd : s.Decodes c i) (hnq : s.NoQueue) (eng : Engine)
    (hwait : s.clk.tick < (s.core c.val).ctl.s0 + (s.entryOf c i).tick ∨ (s.core c.val).ctl.preStart = true) :
    (s.queued c i eng).pumpAll = s.queued c i eng := by
  obtain ⟨-, -, hen, -⟩ := hd
  cases hpre : (s.core c.val).ctl.preStart with
  | true => exact State.pumpAll_of_none (State.nextEntry_preStart hnq c.val ((Ctl.setQueue_preStart ..).trans hpre))
  | false =>
    have hdue : s.clk.tick < (s.core c.val).ctl.s0 + (s.entryOf c i).tick := hwait.resolve_right (by simp [hpre])
    refine State.pumpAll_of_late (State.nextEntry_one s c.val { s.core c.val with ctl := (s.core c.val).ctl.past i } eng (s.entryOf c i)
      hnq (s.noQueue_core c.val hnq) hen hpre) ?_
    rw [State.issueTick, State.queued, State.setCore_core, Ctl.setQueue_s0]
    exact lt_max_of_lt_right hdue

end

/-! ### The obligations -/

/-- Settles O5: a word of no program is refused; any other is decoded, which does nothing on a core that is off or halted, and puts the
word behind the others on one that waits. -/
theorem wordsThatAreNotDecoded : Obligations.WordsThatAreNotDecoded := by
  unfold Obligations.WordsThatAreNotDecoded
  intro s c i hc
  refine ⟨exec_refused hc, fun hw hoff => ?_, fun k hw hp hen hk hstalled => ?_⟩
  · rw [exec_decode hc hw, State.decode_off hoff]
  · subst hk
    rw [exec_decode hc hw, State.decode_stalled hp hen hstalled]
    rfl

/-- Settles O6: the word stands alone in its queue, and nothing that is due issues. -/
theorem timedWordWaitsForItsTick : Obligations.TimedWordWaitsForItsTick := by
  unfold Obligations.TimedWordWaitsForItsTick
  intro s c i eng hc hd he hnq hwait
  rw [exec_timed hc he hd hnq, State.pumpAll_queued hd hnq eng hwait]
  rfl

/-- Settles O8: each word's effect is a write of its register, or the record of its failing check. -/
theorem addressWordsComplete : Obligations.AddressWordsComplete := by
  unfold Obligations.AddressWordsComplete
  intro s c δ d a bk b k A B Turns Writes Logs
  refine ⟨?movaImm, ?movaReg, ?adda, ?suba, ?shla, ?anda, ?moda, ?modaZero, ?ldaConst, ?ldaPast, ?ldaParam⟩
  case movaImm => exact fun v => exec_untimed_setReg rfl rfl rfl
  case movaReg => exact fun v => exec_untimed_setReg rfl rfl (by rw [State.untimed, State.decoded_core]; rfl)
  case adda => exact exec_untimed_setReg rfl rfl (by rw [State.untimed, State.decoded_core]; rfl)
  case suba => exact exec_untimed_setReg rfl rfl (by rw [State.untimed, State.decoded_core]; rfl)
  case shla => exact exec_untimed_setReg rfl rfl (by rw [State.untimed, State.decoded_core]; rfl)
  case anda => exact exec_untimed_setReg rfl rfl (by rw [State.untimed, State.decoded_core]; rfl)
  case moda =>
    exact fun hB => exec_untimed_setReg rfl rfl (by rw [State.untimed, State.decoded_core]; exact if_neg hB)
  case modaZero =>
    exact fun hB hroom hd => ⟨_, exec_untimed_logs 0 rfl rfl (by rw [State.untimed, State.decoded_core]; exact if_pos hB) hroom hd⟩
  case ldaConst =>
    exact fun n hn => exec_untimed_setReg rfl rfl (by rw [State.untimed, State.decoded_core]; exact if_neg (Nat.not_le.mpr hn))
  case ldaPast =>
    exact fun n hn hroom hd =>
      ⟨_, exec_untimed_logs (A.toNat + n.toNat) rfl rfl (by rw [State.untimed, State.decoded_core]; exact if_pos hn) hroom hd⟩
  case ldaParam => exact fun n => exec_untimed_setReg rfl rfl rfl

/-- Settles O9: each word's effect is a change of its control core. -/
theorem controlWordsComplete : Obligations.ControlWordsComplete := by
  unfold Obligations.ControlWordsComplete
  intro s c δ k Turns
  refine ⟨?nop, ?halt, ?loop, ?endloop, ?waitf, ?waitfZero⟩
  case nop => exact fun hd => ⟨_, exec_untimed rfl rfl hd, (s.decoded_puts c _).becomes⟩
  case halt => exact fun hd => exec_untimed_becomes (fun k => { k with dec := .halted }) rfl rfl hd rfl
  case loop =>
    intro src n i count
    refine ⟨fun hcount hd => ?_, fun hcount hd => ?_⟩
    · exact exec_untimed_becomes (fun k' => { k' with loops := k'.loops ++ [⟨count, k.offset + 1⟩] }) rfl rfl hd
        (by rw [State.untimed, State.decoded_core]; exact if_neg hcount)
    · exact exec_untimed_becomes (fun k => { k with dec := .skipping 0 }) rfl rfl hd
        (by rw [State.untimed, State.decoded_core]; exact if_pos hcount)
  case endloop =>
    intro outer top hloops i
    have hlast : ((s.decoded c i).core c.val).ctl.loops.getLast? = some top := by
      rw [State.decoded_core]
      show k.loops.getLast? = some top
      rw [hloops, List.getLast?_concat]
    have houter : k.loops.dropLast = outer := by rw [hloops, List.dropLast_concat]
    rw [← houter]
    refine ⟨fun hone hd => ?_, fun hmore hd => ?_⟩
    · exact exec_untimed_becomes _ rfl rfl hd (State.untimed_endloop_last c δ _ _ hlast hone)
    · exact exec_untimed_becomes _ rfl rfl hd (State.untimed_endloop_more c δ _ _ hlast hmore)
  case waitf =>
    exact fun f n hn hd => exec_untimed_becomes
      (fun k => { k with dec := .waiting f n (s.entryOf c (.waitf c δ f n)).tick, waitFrom := s.clk.tick + s.clk.heldTotal })
      rfl rfl hd (if_neg hn)
  case waitfZero =>
    exact fun f hroom hd => exec_untimed_logs 0 rfl rfl rfl hroom hd

end Sys2Proof.Machine
end

section
/-! PROOF. A cycle of a block that is at rest: nothing lands, nothing is checked, and the counter passes (09 R204, R208); and the entry that
issues as it does (07 R153). -/

namespace Sys2Proof.Machine

/-- What holds of every listed entry and of the default holds of every entry. -/
theorem Recs.get_of_forall {α : Type} {P : α → Prop} {d : α} {m : List (Nat × α)} (hd : P d) (hm : ∀ p ∈ m, P p.2) (k : Nat) :
    P (Recs.get d m k) := by
  induction m with
  | nil => exact hd
  | cons p m ih =>
    obtain ⟨j, v⟩ := p
    simp only [Recs.get]
    split_ifs
    · exact hm (j, v) List.mem_cons_self
    · exact ih fun q hq => hm q (List.mem_cons_of_mem _ hq)

theorem foldl_eq_self {α β : Type} {f : α → β → α} {a : α} {l : List β} (h : ∀ b ∈ l, f a b = a) : l.foldl f a = a := by
  induction l with
  | nil => rfl
  | cons b l ih =>
    rw [List.foldl_cons, h b List.mem_cons_self]
    exact ih fun b' hb' => h b' (List.mem_cons_of_mem _ hb')

/-- A quiet block, but for what stands in the queues. -/
structure State.AtRest (s : State) : Prop where
  landings : s.landings = []
  steps : ∀ p ∈ s.steps, p.2.phase = .none ∧ p.2.stopDue = false
  swaps : ∀ g, (s.group g).swap.phase ≠ .loading
  late : s.clk.late = []
  conflicts : s.clk.conflicts = []
  uses : s.clk.uses = []
  previews : s.clk.previews = []
  change : s.clk.change = none
  suspended : s.maint.suspended = none
  debug : s.dbg.en = false
  posted : s.out.posted = (s.out.ctl.length, s.out.mgt.length)

theorem State.Quiet.atRest {s : State} (h : s.Quiet) : s.AtRest := by
  obtain ⟨-, h1, h2, h3, h4, h5, h6, h7, h8, h9, h10, h11⟩ := h
  exact ⟨h1, h2, h3, h4, h5, h6, h7, h8, h9, h10, h11⟩

theorem State.passTime_frame (s : State) :
    s.passTime = { s with station := s.passTime.station, sync := s.passTime.sync } := by
  unfold State.passTime
  split
  · rfl
  · rfl

/-- The counter one tick on. -/
def State.ticked (s : State) : State := { s with clk := { s.clk with tick := s.clk.tick + 1, heldRun := 0 } }

namespace State.AtRest

variable {s : State} (h : s.AtRest)
include h

theorem setCore (c : Nat) (x : Core) : (s.setCore c x).AtRest :=
  ⟨h.landings, h.steps, h.swaps, h.late, h.conflicts, h.uses, h.previews, h.change, h.suspended, h.debug, h.posted⟩

theorem passTime : s.passTime.AtRest := by
  rw [s.passTime_frame]
  exact ⟨h.landings, h.steps, h.swaps, h.late, h.conflicts, h.uses, h.previews, h.change, h.suspended, h.debug, h.posted⟩

theorem ticked : s.ticked.AtRest :=
  ⟨h.landings, h.steps, h.swaps, h.late, h.conflicts, h.uses, h.previews, h.change, h.suspended, h.debug, h.posted⟩

theorem step_phase (g : Nat) : (s.step' g).phase = .none ∧ (s.step' g).stopDue = false :=
  Recs.get_of_forall (P := fun r : StepRun => r.phase = .none ∧ r.stopDue = false) ⟨rfl, rfl⟩ h.steps g

theorem checkLoaded (g : Nat) : s.checkLoaded g = s := by
  have hphase : ((s.group g).swap.phase == .loading) = false := beq_false_of_ne (h.swaps g)
  simp only [State.checkLoaded, hphase, Bool.false_and, Bool.false_eq_true, if_false]

theorem resumePaused : s.resumePaused = s := by simp only [State.resumePaused, h.suspended]

theorem arrivals : s.arrivals = s := by
  have hlate := h.late
  cases s with | mk => cases ‹Clk› with | mk => cases hlate; rfl

theorem drainLandings (k n : Nat) : s.drainLandings k n = s := by
  cases n with
  | zero => rfl
  | succ n => simp only [State.drainLandings, h.landings]

theorem running : s.running = [] := by
  rw [State.running, List.filter_eq_nil_iff.mpr, List.map_nil]
  intro p hp
  rw [(h.steps p hp).1]
  decide

theorem endTick : s.endTick = s := by
  have hchecks : (if s.clk.heldRun = 0 then s.detect.lateChecks else s) = s := by
    simp only [State.detect, h.debug, Bool.false_eq_true, if_false, State.lateChecks, h.running, List.flatMap_nil, List.foldl_nil, ite_self]
  have hstops : s.replayStops = s := foldl_eq_self fun g _ => by simp [(h.step_phase g).2]
  rw [State.endTick, h.drainLandings]
  exact (congrArg State.replayStops hchecks).trans hstops

theorem beginDecodes : s.beginDecodes = s :=
  foldl_eq_self fun g _ => by simp [State.beginDecode, (h.step_phase g).1]

theorem readyChecks : s.readyChecks = s := by
  have hsteps : s.steps.map (fun (p : Nat × StepRun) => if p.2.phase == .starting then
      (p.1, { p.2 with readyAt := if s.preReady p.1 then some (p.2.readyAt.getD s.now) else none }) else p) = s.steps := by
    refine (List.map_congr_left fun p hp => ?_).trans s.steps.map_id
    have hphase : (p.2.phase == .starting) = false := by rw [(h.steps p hp).1]; rfl
    rw [hphase]
    rfl
  rw [State.readyChecks, hsteps]

theorem conflictHold : s.conflictHold = 0 := by
  have huses : s.usesNow = [] := by rw [State.usesNow, h.uses]; rfl
  rw [State.conflictHold, State.conflictAt, State.conflictCost, h.conflicts, huses]
  rfl

theorem mayReach (hholds : s.clk.holds = []) (t : Nat) : s.mayReach t = true := by
  simp [State.mayReach, State.limit, h.late, h.change, hholds]

theorem passTick : s.passTick = s.ticked.pumpAll := by
  simp only [State.passTick, h.late, h.conflicts, h.uses, h.previews, List.filter_nil]
  have hticked : ({ s with clk := { s.clk with
      tick := s.clk.tick + 1, heldRun := 0, late := [], conflicts := [], uses := [], previews := [] } } : State) = s.ticked := by
    rw [State.ticked, ← h.late, ← h.conflicts, ← h.uses, ← h.previews]
  rw [hticked, h.ticked.drainLandings]

/-- A cycle without a hold: station time runs, the counter passes, and what is due issues. -/
theorem cycle (hholds : s.clk.holds = []) : s.cycle = s.passTime.ticked.pumpAll := by
  have hp := h.passTime
  have hclk : s.passTime.clk = s.clk := by rw [s.passTime_frame]
  rw [State.cycle, h.resumePaused, hp.arrivals, hp.endTick, hp.beginDecodes, hp.readyChecks, hp.mayReach (hclk ▸ hholds),
    hp.conflictHold, hp.passTick]
  exact if_pos rfl

end State.AtRest

/-- With every message posted nothing leaves. -/
theorem State.post_of_posted {s : State} (h : s.out.posted = (s.out.ctl.length, s.out.mgt.length)) : s.post = s := by
  have hctl : s.out.ctl.zipIdx.drop s.out.ctl.length = [] := List.drop_eq_nil_of_le (by rw [List.length_zipIdx])
  have hmgt : s.out.mgt.zipIdx.drop s.out.mgt.length = [] := List.drop_eq_nil_of_le (by rw [List.length_zipIdx])
  simp only [State.post, h, hctl, hmgt, List.foldl_nil]
  rw [← h]

/-- The state once a cycle has let station time run and the counter pass, before what is due issues. -/
def State.nextTick (s : State) : State := ({ s with pkg := { s.pkg with fresh := [] } } : State).passTime.ticked

theorem State.AtRest.idle {s : State} (h : s.AtRest) (hholds : s.clk.holds = []) : s.idle = s.nextTick.pumpAll.post := by
  have hfresh : ({ s with pkg := { s.pkg with fresh := [] } } : State).AtRest :=
    ⟨h.landings, h.steps, h.swaps, h.late, h.conflicts, h.uses, h.previews, h.change, h.suspended, h.debug, h.posted⟩
  have hloaded : (List.range 16).foldl State.checkLoaded { s with pkg := { s.pkg with fresh := [] } } =
      { s with pkg := { s.pkg with fresh := [] } } := foldl_eq_self fun g _ => hfresh.checkLoaded g
  rw [State.idle, hloaded, hfresh.cycle hholds]
  rfl

theorem State.nextTick_frame (s : State) : s.nextTick = { s with
    clk := { s.clk with tick := s.clk.tick + 1, heldRun := 0 }, pkg := { s.pkg with fresh := [] }
    station := s.nextTick.station, sync := s.nextTick.sync } := by
  rw [State.nextTick, State.passTime_frame]
  rfl

theorem State.nextTick_setCore (s : State) (c : Nat) (x : Core) : (s.setCore c x).nextTick = s.nextTick.setCore c x := by
  rw [State.nextTick, State.nextTick, State.ticked, State.ticked]
  unfold State.passTime
  split <;> rename_i hclocked
  · rw [if_pos (by exact hclocked)]
    rfl
  · rw [if_neg (by exact hclocked)]
    rfl

/-! ### The entry that issues -/

section
variable {s : State} {c : Nat} {x : Core} {eng : Engine} {e : QEntry}

theorem State.nextEntry_moveQ (hnq : s.NoQueue) (hl : x.ctl.laneQ = []) (hv : x.ctl.vecQ = []) (hm : x.ctl.moveQ = [e])
    (hen : s.isEnabled c = true) (hpre : x.ctl.preStart = false) : (s.setCore c x).nextEntry = some (c, .move, e) := by
  have hone := State.nextEntry_one s c { x with ctl := x.ctl.setQueue .move [] } .move e hnq ⟨hl, hv, rfl⟩ hen hpre
  simp only [Ctl.setQueue, ← hm] at hone
  exact hone

/-- The one queued entry that is due and that nothing blocks issues. -/
theorem State.pumpAll_one (h : s.nextEntry = some (c, eng, e)) (hdue : (s.core c).ctl.s0 + e.tick ≤ s.clk.tick)
    (hblock : s.blockItem c e = none) :
    let t := (s.updCtl c (fun k => k.setQueue eng ((k.queue eng).drop 1))).fxOf ⟨c, s.clk.tick, e⟩ e.instr
    t.NoQueue → s.pumpAll = t := by
  intro t hnq
  have hfuel : s.pumpFuel = s.pumpFuel - 1 + 1 := by unfold State.pumpFuel; omega
  have hissue : s.issueTick c e = s.clk.tick := Nat.max_eq_left hdue
  rw [State.pumpAll, hfuel, State.pump, h]
  simp only [hissue, Nat.lt_irrefl, if_false, hblock]
  exact State.pump_noQueue t _ hnq

/-- A SETF that issues in a free slot puts its change in flight for the end of the tick (07 R159). -/
theorem State.Puts.fxSetf {t : State} {ls : List Landing} {y : Ctx} (h : s.Puts t y.core x ls)
    (hfree : Tab.get 0 x.busy SlotId.control.idx ≤ y.tick) (f : BitVec 6) (v : BitVec 8) :
    s.Puts (t.fxSetf y f v) y.core { x with busy := Tab.set 0 x.busy SlotId.control.idx (y.tick + 1) }
      (ls ++ [⟨2 * y.tick + 1, 41, y.core, .setFlag f.toNat v⟩]) := by
  rw [State.fxSetf, State.issueIn_free _ _ rfl (by rw [h.core]; exact hfree)]
  exact ((h.updCore _).use _ _ _ _ _ _).landEnd _ _ _

/-- The SETF that stands alone in the move queue and is due issues. -/
theorem State.pumpAll_setf_puts {cc : CoreId} {δ : BitVec 12} {f : BitVec 6} {v : BitVec 8} (he : e.instr = .setf cc δ f v)
    (hnq : s.NoQueue) (hl : x.ctl.laneQ = []) (hv : x.ctl.vecQ = []) (hm : x.ctl.moveQ = [e]) (hen : s.isEnabled c = true)
    (hpre : x.ctl.preStart = false) (hdue : x.ctl.s0 + e.tick ≤ s.clk.tick)
    (hfree : Tab.get 0 x.busy SlotId.control.idx ≤ s.clk.tick) :
    s.Puts (s.setCore c x).pumpAll c { x with
        ctl := { x.ctl with moveQ := [] }
        busy := Tab.set 0 x.busy SlotId.control.idx (s.clk.tick + 1) } [⟨2 * s.clk.tick + 1, 41, c, .setFlag f.toNat v⟩] := by
  have hrest : x.ctl.setQueue .move ((x.ctl.queue .move).drop 1) = { x.ctl with moveQ := [] } := by
    simp only [Ctl.setQueue, Ctl.queue, hm, List.drop_one, List.tail_cons]
  have hputs := ((State.Puts.setCore s c x).updCtl (fun k => k.setQueue .move ((k.queue .move).drop 1))).fxSetf
    (y := ⟨c, s.clk.tick, e⟩) hfree f v
  simp only [hrest] at hputs
  have hblock : (s.setCore c x).blockItem c e = none := by simp only [State.blockItem, State.cellsOf, he]
  have hpump := State.pumpAll_one (State.nextEntry_moveQ hnq hl hv hm hen hpre) (by rw [State.setCore_core]; exact hdue) hblock
  rw [he] at hpump
  rw [hpump (hputs.noQueue hnq ⟨hl, hv, rfl⟩)]
  exact hputs

/-- Of the clock a core that is put leaves the tick as it is, and of what has been sent everything. -/
theorem State.Puts.tick_out {t : State} {ls : List Landing} (h : s.Puts t c x ls) : t.clk.tick = s.clk.tick ∧ t.out = s.out := by
  have honly := h.only
  unfold State.CoresOnly at honly
  rw [honly]
  exact ⟨rfl, rfl⟩

end

/-! ### The obligation -/

/-- Settles O7: the cycle of a block at rest passes the counter to the entry's tick, and the entry, alone and not blocked, issues. -/
theorem queuedEntryIssuesAtItsTick : Obligations.QueuedEntryIssuesAtItsTick := by
  unfold Obligations.QueuedEntryIssuesAtItsTick
  intro s c δ f v e x he hpend hquiet hholds hen hpre hlane hvec hmove hslot htick
  have hrest : (s.setCore c.val x).AtRest := hquiet.atRest.setCore c.val x
  obtain ⟨hnq, -⟩ := hquiet
  have hframe := s.nextTick_frame
  generalize hu : s.nextTick = u at hframe
  have hputs : u.Puts (u.setCore c.val x).pumpAll c.val _ _ :=
    State.pumpAll_setf_puts he (State.noQueue_congr (by rw [hframe]) hnq) hlane hvec hmove (by rw [hframe]; exact hen) hpre
      (by rw [hframe]; exact htick.le) (by rw [hframe]; exact hslot)
  obtain ⟨htick', hout⟩ := hputs.tick_out
  have hcycle : step (s.setCore c.val x) = .next (u.setCore c.val x).pumpAll := by
    have hidle : step (s.setCore c.val x) = .next (s.setCore c.val x).idle := by
      show (match s.pending with | [] => _ | c :: rest => _) = _
      rw [hpend]
    rw [hidle, hrest.idle hholds, State.nextTick_setCore, hu, State.post_of_posted]
    rw [hout, hframe]
    exact hrest.posted
  refine ⟨_, hcycle, ?_, ?_, ?_, fun d hd => ?_⟩
  · rw [htick', hframe]
  · rw [hputs.core]
  · rw [hputs.landings, hframe]
    exact congrArg (fun m => inFlightAfter m _) hrest.landings
  · rw [hputs.core_ne hd, State.core, hframe]
    rfl

end Sys2Proof.Machine
end

section
/-! PROOF. Flags: what a landed change leaves of them, and what the words of the control core put that change or consume them (07 R159 to
R162, R169, Table 7.5; 08 R180). -/

namespace Sys2Proof.Machine

/-- The state with flag f of core c at a value, and the core's sticky status with it. -/
def State.putFlag (s : State) (c f : Nat) (v : Byte) (status : BitVec 16) : State :=
  s.updCtl c (fun k => { k with flags := Tab.set 0 k.flags f v, status := status })

section
variable {s : State} {c f : Nat}

/-- Of a core's state a put flag changes that flag and the status, and nothing of any other core. -/
theorem State.putFlag_spec (hwf : Tab.wf 0 (s.core c).ctl.flags = true) (v : Byte) (status : BitVec 16) (g : Nat) :
    let t := s.putFlag c f v status
    Tab.get 0 (t.core c).ctl.flags g = (if g = f then v else Tab.get 0 (s.core c).ctl.flags g) ∧
      t.core c = { s.core c with ctl := { (s.core c).ctl with flags := (t.core c).ctl.flags, status := status } } ∧ s.OnlyCore t c ∧
      t.landings = s.landings := by
  dsimp only
  rw [State.putFlag, State.updCtl_core]
  exact ⟨Tab.get_set f g v hwf, rfl, s.onlyCore_updCore c _, rfl⟩

theorem State.applyEff_setFlag (T : Nat) (v : Byte) : s.applyEff c T (.setFlag f v) = s.putFlag c f v (s.core c).ctl.status := rfl

/-- An increment below 255. -/
theorem State.addFlag_one (h : Tab.get 0 (s.core c).ctl.flags f ≠ 255) :
    s.addFlag c f 1 = s.putFlag c f (Tab.get 0 (s.core c).ctl.flags f + 1) (s.core c).ctl.status := by
  have hroom : (Tab.get 0 (s.core c).ctl.flags f).toNat + 1 ≤ 255 := by bv_omega
  have hv : BitVec.ofNat 8 ((Tab.get 0 (s.core c).ctl.flags f).toNat + 1) = Tab.get 0 (s.core c).ctl.flags f + 1 := by
    rw [BitVec.ofNat_add, BitVec.ofNat_toNat, BitVec.setWidth_eq]
    rfl
  simp only [State.addFlag, satNat, if_pos hroom, hv]
  rfl

/-- An increment that is lost at 255 sets FLAG_SAT (Table 7.5). -/
theorem State.addFlag_lost (h : Tab.get 0 (s.core c).ctl.flags f = 255) :
    s.addFlag c f 1 = s.putFlag c f 255 ((s.core c).ctl.status ||| BitVec.ofNat 16 (2 ^ StatusBit.flagSat.pos)) := by
  have hfull : ¬(Tab.get 0 (s.core c).ctl.flags f).toNat + 1 ≤ 255 := by rw [h]; decide
  simp only [State.addFlag, satNat, if_neg hfull, State.orStatus, State.updCtl, State.updCore, State.setCore_core,
    State.setCore_setCore, State.putFlag]
  rfl

theorem State.applyEff_incFlag (T : Nat) : s.applyEff c T (.incFlag f) = s.addFlag c f 1 := rfl

theorem State.applyEff_decFlag {e : QEntry} (T : Nat) (h : Tab.get 0 (s.core c).ctl.flags f ≠ 0) :
    s.applyEff c T (.decFlag f e) = s.putFlag c f (Tab.get 0 (s.core c).ctl.flags f - 1) (s.core c).ctl.status := by
  simp only [State.applyEff, if_neg h]
  rfl

/-- A decrement of a flag at 0 is a skipped DECF. -/
theorem State.applyEff_decFlag_zero {e : QEntry} (T : Nat) (h : Tab.get 0 (s.core c).ctl.flags f = 0) :
    s.applyEff c T (.decFlag f e) = s.logEntry c e .flagUnderflow f := by
  simp only [State.applyEff, if_pos h]

end

/-! ### The landings -/

/-- Settles O39: each landing puts the flag, or records the decrement that finds it at 0. -/
theorem landedFlagChange : Obligations.LandedFlagChange := by
  unfold Obligations.LandedFlagChange
  intro s c T f g v e k old Sets hwf
  refine ⟨?setf, ?incf, fun hold => ?_, fun hold hroom => ?_⟩
  case setf =>
    have hspec := State.putFlag_spec (f := f) hwf v k.status g
    rw [← State.applyEff_setFlag T] at hspec
    exact hspec
  case incf =>
    by_cases hold : old = 255
    · rw [if_pos hold, if_pos hold]
      have hspec := State.putFlag_spec (f := f) hwf 255 (k.status ||| BitVec.ofNat 16 (2 ^ StatusBit.flagSat.pos)) g
      rw [← State.addFlag_lost hold] at hspec
      exact hspec
    · rw [if_neg hold, if_neg hold]
      have hspec := State.putFlag_spec (f := f) hwf (old + 1) k.status g
      rw [← State.addFlag_one hold] at hspec
      exact hspec
  · have hspec := State.putFlag_spec (f := f) hwf (old - 1) k.status g
    rw [← State.applyEff_decFlag (e := e) T hold] at hspec
    exact hspec
  · rw [State.applyEff_decFlag_zero T hold, State.logEntry_field hroom e f rfl]
    rfl

/-! ### The words that issue -/

/-- What a core that is put leaves as it was, of that which a word reads. -/
theorem State.Puts.frame {s t : State} {c : Nat} {x : Core} {ls : List Landing} (h : s.Puts t c x ls) :
    t.dbg = s.dbg ∧ t.place = s.place ∧ t.physOf = s.physOf ∧ t.tenantOf = s.tenantOf ∧ t.stepOf = s.stepOf := by
  have honly := h.only
  unfold State.CoresOnly at honly
  rw [honly]
  exact ⟨rfl, rfl, rfl, rfl, rfl⟩

theorem State.Puts.foldl {s t : State} {c : Nat} {x : Core} {ls : List Landing} {α : Type} {g : State → α → State}
    (hg : ∀ u a, s.Puts u c x ls → s.Puts (g u a) c x ls) (h : s.Puts t c x ls) (l : List α) : s.Puts (l.foldl g t) c x ls := by
  induction l generalizing t with
  | nil => exact h
  | cons a l ih => exact ih (hg t a h)

section
variable {s : State} {c : CoreId} {i : Instr}

theorem fxSetf_puts (hi : s.Issues c i .control) (f : BitVec 6) (v : BitVec 8) :
    s.Puts ((s.decoded c i).fxSetf (s.ctxOf c i) f v) c.val (s.issued c i .control 1)
      [⟨2 * s.clk.tick + 1, 41, c.val, .setFlag f.toNat v⟩] :=
  hi.issueIn_puts rfl fun _ ht => ht.landEnd ..

theorem fxIncf_puts (hi : s.Issues c i .control) (f : BitVec 6) :
    s.Puts ((s.decoded c i).fxIncf (s.ctxOf c i) f) c.val (s.issued c i .control 1)
      [⟨2 * s.clk.tick + 1, 42, c.val, .incFlag f.toNat⟩] :=
  hi.issueIn_puts rfl fun _ ht => ht.landEnd ..

theorem fxDecf_puts (hi : s.Issues c i .control) (f : BitVec 6) :
    s.Puts ((s.decoded c i).fxDecf (s.ctxOf c i) f) c.val (s.issued c i .control 1)
      [⟨2 * s.clk.tick + 1, 43, c.val, .decFlag f.toNat (s.entryOf c i)⟩] :=
  hi.issueIn_puts rfl fun _ ht => ht.landEnd ..

/-- The destination word of a SIGNAL: register C of its word. -/
def State.signalDest (s : State) (c : Nat) (r : BitVec 4) : W32 := Tab.get 0 (s.core c).ctl.regs r.toNat

/-- A SIGNAL on the package: the links of its route are noted, and the increment travels to the core that it names (07 R161). -/
theorem fxSignal_onDie_puts (hi : s.Issues c i .control) (f : BitVec 6) {r : BitVec 4} {d : Nat}
    (hhere : s.destHere (s.signalDest c.val r) = true) (hres : destReserved (s.signalDest c.val r) = 0)
    (hphys : s.physOf (destCore (s.signalDest c.val r)) = some d) (hpart : s.partOf d = s.partOf c.val) :
    s.Puts ((s.decoded c i).fxSignal (s.ctxOf c i) f r) c.val (s.issued c i .control 1)
      [⟨2 * (s.clk.tick + 2 + meshHops c.val d + 6 * meshCrossings c.val d) + 1, 42, d, .signalFlag f.toNat c.val⟩] := by
  have htarget : (s.decoded c i).targetFail c.val (destCore (s.signalDest c.val r)) = none := by
    show s.targetFail c.val (destCore (s.signalDest c.val r)) = none
    simp only [State.targetFail, hphys, hpart, bne_self_eq_false]
    rfl
  unfold State.fxSignal
  rw [if_pos (by exact hhere)]
  refine hi.issueIn_puts ?_ fun t ht => ?_
  · show pickFail [failIf (destReserved (s.signalDest c.val r) != 0) _ _, (s.decoded c i).targetFail c.val (destCore (s.signalDest c.val r))] = none
    rw [htarget, hres]
    rfl
  · obtain ⟨-, -, ht_phys, -⟩ := ht.frame
    show s.Puts (match t.physOf (destCore (s.signalDest c.val r)) with | some d => _ | none => _) _ _ _
    rw [ht_phys, hphys]
    exact State.Puts.foldl (fun u l hu => hu.use ..) (ht.land ..) _

theorem fxSignal_badTarget (hi : s.Issues c i .control) (hr : (s.core c.val).ctl.recs.length < 16) (f : BitVec 6) {r : BitVec 4}
    (hhere : s.destHere (s.signalDest c.val r) = true) (hres : destReserved (s.signalDest c.val r) = 0)
    (hphys : s.physOf (destCore (s.signalDest c.val r)) = none) :
    s.Puts ((s.decoded c i).fxSignal (s.ctxOf c i) f r) c.val
      (s.skipped c i .control 1 .badTarget (destCore (s.signalDest c.val r))) [] := by
  have htarget : (s.decoded c i).targetFail c.val (destCore (s.signalDest c.val r)) =
      some (.badTarget, destCore (s.signalDest c.val r)) := by
    show s.targetFail c.val (destCore (s.signalDest c.val r)) = _
    simp only [State.targetFail, hphys]
  unfold State.fxSignal
  rw [if_pos (by exact hhere)]
  refine hi.issueIn_skips hr ?_ rfl
  show pickFail [failIf (destReserved (s.signalDest c.val r) != 0) _ _, (s.decoded c i).targetFail c.val (destCore (s.signalDest c.val r))] = _
  rw [htarget, hres]
  rfl

/-- The cell of a SIGNAL to another package (07 R162; log entry 97). -/
def State.signalCell (s : State) (c : Nat) (w : W32) (f : BitVec 6) : Cell :=
  mkCell w s.place (destCore w) 1 0 0 (s.tenantOf c) (f.setWidth 12) 0 1 .signal (leBytes 8 (s.stepOf c).num.toNat)

theorem fxSignal_away_puts (hi : s.Issues c i .control) (f : BitVec 6) {r : BitVec 4}
    (haway : s.destHere (s.signalDest c.val r) = false) (hres : destReserved (s.signalDest c.val r) = 0)
    (hplace : s.placeOk (destPlace (s.signalDest c.val r)) = true) :
    s.Puts ((s.decoded c i).fxSignal (s.ctxOf c i) f r) c.val { s.issued c i .control 1 with
      xfer := { (s.core c.val).xfer with
        outbound := (s.core c.val).xfer.outbound ++ [s.signalCell c.val (s.signalDest c.val r) f] } } [] := by
  have hdest : (s.decoded c i).destFail (s.signalDest c.val r) = none := by
    show s.destFail (s.signalDest c.val r) = none
    simp only [State.destFail, hres, hplace, Bool.not_true, Bool.and_false]
    rfl
  unfold State.fxSignal
  rw [if_neg (by exact Bool.eq_false_iff.mp haway)]
  refine hi.issueIn_puts ?_ fun t ht => ?_
  · show pickFail [(s.decoded c i).destFail (s.signalDest c.val r)] = none
    rw [hdest]
    rfl
  · obtain ⟨-, hat, -, htenant, hstep⟩ := ht.frame
    have hemit := ht.updXfer (fun m => { m with outbound := m.outbound ++ [t.signalCell c.val (s.signalDest c.val r) f] })
    simp only [State.signalCell, hat, htenant, hstep] at hemit
    simp only [State.emit, hat, htenant, hstep]
    exact hemit

theorem fxExpect_puts (hi : s.Issues c i .control) {tid : BitVec 12} {o : OpenTid} (ho : o ∈ (s.core c.val).xfer.tids)
    (htid : o.tid = tid.toNat) :
    s.Puts ((s.decoded c i).fxExpect (s.ctxOf c i) tid) c.val { s.issued c i .control 1 with
      xfer := { (s.core c.val).xfer with tids := (s.core c.val).xfer.tids.filter (·.tid != tid.toNat) } } [] := by
  have hopen : (s.core c.val).xfer.tids.any (·.tid == tid.toNat) = true := List.any_eq_true.mpr ⟨o, ho, beq_iff_eq.mpr htid⟩
  refine hi.issueIn_puts ?_ fun t ht => ht.updXfer _
  rw [State.ctxOf_core, State.decoded_core, hopen]
  rfl

/-- A mark that opens no idle slot and releases no layer is noted, and that is all while debug mode is off. -/
theorem fxMark_puts (hi : s.Issues c i .control) (hdbg : s.dbg.en = false) {m : BitVec 16} (hm : m.toNat < 0xEE00) :
    s.Puts ((s.decoded c i).fxMark (s.ctxOf c i) m) c.val { s.issued c i .control 1 with
      ctl := { (s.core c.val).ctl.past i with lastMark := m, lastMarkTick := BitVec.ofNat 32 (s.entryOf c i).tick } } [] := by
  refine hi.issueIn_puts rfl fun t ht => ?_
  have hnoted := ht.updCtl (fun k => { k with lastMark := m, lastMarkTick := BitVec.ofNat 32 (s.entryOf c i).tick })
  have hoff : t.dbg.en = false := by rw [ht.frame.1]; exact hdbg
  have hidle : ¬(0xEE00 ≤ m.toNat ∧ m.toNat ≤ 0xEEFF) := by omega
  have hlayer : layerOfMark m.toNat = none := if_neg (by omega)
  simp only [State.replayStop, State.updCtl_dbg, hoff, Bool.false_and, Bool.false_eq_true, if_false, if_neg hidle, hlayer]
  exact hnoted

end

/-! ### The words -/

/-- Settles O10: each word issues with every check passed and puts its change in flight, or its one check that fails is recorded. -/
theorem flagWordsComplete : Obligations.FlagWordsComplete := by
  unfold Obligations.FlagWordsComplete
  intro s c δ f T
  refine ⟨?setf, ?incf, ?decf, ?onDie, ?badTarget, ?away, ?expect, ?mark⟩
  case setf => exact fun v hi => exec_becomes rfl rfl hi (fxSetf_puts hi f v) ⟨rfl, rfl, rfl⟩
  case incf => exact fun hi => exec_becomes rfl rfl hi (fxIncf_puts hi f) ⟨rfl, rfl, rfl⟩
  case decf => exact fun hi => exec_becomes rfl rfl hi (fxDecf_puts hi f) ⟨rfl, rfl, rfl⟩
  case onDie =>
    exact fun r d hi hhere hres hphys hpart =>
      exec_becomes rfl rfl hi (fxSignal_onDie_puts hi f hhere hres hphys hpart) ⟨rfl, rfl, rfl⟩
  case badTarget =>
    exact fun r hi hhere hres hphys hroom =>
      exec_becomes rfl rfl hi (fxSignal_badTarget hi hroom f hhere hres hphys) ⟨rfl, rfl, rfl⟩
  case away =>
    exact fun r hi haway hres hplace =>
      exec_becomes rfl rfl hi (fxSignal_away_puts hi f haway hres hplace) ⟨rfl, rfl, rfl⟩
  case expect =>
    exact fun tid o hi ho htid => exec_becomes rfl rfl hi (fxExpect_puts hi ho htid) ⟨rfl, rfl, rfl⟩
  case mark => exact fun m hi hdbg hm => exec_becomes rfl rfl hi (fxMark_puts hi hdbg hm) ⟨rfl, rfl, rfl⟩

end Sys2Proof.Machine
end

section
/-! PROOF. SIGNALs and data cells that reach their core (07 R162; 08 R176, R188; 12 R296). -/

namespace Sys2Proof.Machine

theorem leNat_append_zeros (l : List Byte) (n : Nat) : leNat (l ++ List.replicate n 0) = leNat l := by
  induction l with
  | nil =>
    induction n with
    | zero => rfl
    | succ n ih => simpa [List.replicate_succ, leNat] using ih
  | cons b l ih => simp only [List.cons_append, leNat, ih]

/-- The number in the first bytes of a payload, which may end before them. -/
theorem leNat_take_eq_fieldN (l : List Byte) (n : Nat) : leNat (l.take n) = fieldN l 0 n := by
  rw [fieldN, sliceB, List.drop_zero]
  exact (leNat_append_zeros _ _).symm

/-- The state once a cell has left the mesh. -/
def State.delivered (s : State) (x : InCell) : State := { s with mesh := s.mesh.erase x }

section
variable {s : State} {d : Nat} {x : InCell}

/-- A cell for a core of the package, of the tenant that owns the core, reaches it (08 R176, 19 R439). -/
theorem State.cellIn_core (hp : s.passThrough = false) (hcore : x.cell.core ≠ 0x1FF) (hphys : s.physOf x.cell.core.toNat = some d)
    (htenant : (s.part ((s.partOf d).getD 0)).tenant = x.cell.tenant.toNat) : s.cellIn x = s.cellAt d x := by
  simp only [State.cellIn, hp, Bool.false_eq_true, if_false, if_neg hcore, hphys]
  cases hpart : s.partOf d with
  | none => rfl
  | some p =>
    rw [hpart, Option.getD_some] at htenant
    simp only [htenant, bne_self_eq_false, Bool.false_eq_true, if_false]

/-- A SIGNAL of the step that its core has run last joins the increments of the tick (07 R160, R162). -/
theorem State.signalAt_now (h : fieldN x.cell.payload 0 8 = (s.core d).ctl.ran.toNat) :
    s.signalAt d x = s.landEnd s.clk.tick 42 d (.incFlag (x.cell.tid.toNat % 64)) := by
  simp only [State.signalAt, leNat_take_eq_fieldN, h, if_true]

/-- One of the next step is kept pending. -/
theorem State.signalAt_next (h : fieldN x.cell.payload 0 8 = (s.core d).ctl.ran.toNat + 1)
    (hroom : (Tab.get 0 (s.core d).ctl.pendSig (x.cell.tid.toNat % 64)).toNat < 255) :
    s.signalAt d x = s.updCtl d (fun k => { k with
      pendSig := Tab.set 0 k.pendSig (x.cell.tid.toNat % 64) (Tab.get 0 (s.core d).ctl.pendSig (x.cell.tid.toNat % 64) + 1) }) := by
  have hv : BitVec.ofNat 8 ((Tab.get 0 (s.core d).ctl.pendSig (x.cell.tid.toNat % 64)).toNat + 1) =
      Tab.get 0 (s.core d).ctl.pendSig (x.cell.tid.toNat % 64) + 1 := by
    rw [BitVec.ofNat_add, BitVec.ofNat_toNat, BitVec.setWidth_eq]
    rfl
  simp only [State.signalAt, leNat_take_eq_fieldN, h, if_neg (Nat.succ_ne_self _), if_true, if_pos hroom, hv]

/-- A data cell whose id is not open waits (08 R188). -/
theorem State.cellAt_closed (hkind : x.cell.kind = .data) (h : (s.core d).xfer.tids.find? (·.tid == x.cell.tid.toNat) = none) :
    s.cellAt d x = s.holdCell d x := by
  simp only [State.cellAt, hkind, h]

theorem exec_signalArrival {port : PortId} {flag : BitVec 6} {step : W64}
    (h : s.mesh.find? (fun y => y.port == port.val && y.cell.kind == .signal && y.cell.core == x.cell.core &&
      y.cell.tenant == x.cell.tenant && y.cell.tid == flag.setWidth 12 && fieldN y.cell.payload 0 8 == step.toNat) = some x) :
    exec (.signalArrival port x.cell.core flag step x.cell.tenant) s = .next ((s.delivered x).cellIn x) := by
  show execSignalArrival port x.cell.core flag step x.cell.tenant s = _
  rw [execSignalArrival, h]
  rfl

theorem exec_cellArrival {via : Via} {chan : BitVec 3} {cell : Cell} (h : ⟨viaPort via, chan, cell⟩ ∈ s.mesh) :
    exec (.cellArrival via chan cell) s =
      .next ((s.delivered ⟨viaPort via, chan, cell⟩).cellIn ⟨viaPort via, chan, cell⟩) := by
  show Host.Outcome.next (if s.mesh.contains _ then _ else _) = _
  rw [if_pos (List.contains_iff_mem.mpr h)]
  rfl

end

/-! ### The obligation -/

/-- Settles O45: the SIGNAL that the port has brought is judged by its step; the cell is taken by the open transfer, or held. -/
theorem arrivalsComplete : Obligations.ArrivalsComplete := by
  unfold Obligations.ArrivalsComplete
  intro s d hp
  refine ⟨?signal, ?cell⟩
  case signal =>
    intro port core flag step tenant x i q hfind hphys hcore htenant
    have hfound := List.find?_some hfind
    simp only [Bool.and_eq_true, beq_iff_eq] at hfound
    obtain ⟨⟨⟨⟨⟨-, hkind⟩, rfl⟩, rfl⟩, htid⟩, hstep⟩ := hfound
    have hflag : x.cell.tid.toNat % 64 = flag.toNat := by
      have hlt := flag.isLt
      rw [htid, BitVec.toNat_setWidth]
      omega
    have hat : q.cellAt d x = q.signalAt d x := by simp only [State.cellAt, hkind]
    have hin : q.cellIn x = q.cellAt d x := State.cellIn_core hp hcore hphys htenant
    have hexec : exec i s = .next (q.signalAt d x) := by
      rw [← hat, ← hin]
      exact exec_signalArrival hfind
    refine ⟨fun hnow => ?_, fun hnext hroom => ?_⟩
    · rw [hexec, State.signalAt_now (s := q) (hstep.trans (congrArg BitVec.toNat hnow)), hflag]
    · rw [hexec, State.signalAt_next (s := q) (hstep.trans hnext) (by rw [hflag]; exact hroom), hflag]
      rfl
  case cell =>
    intro via chan cell i x hmem hphys hcore hdest hkind hlast htenant
    have hexec := exec_cellArrival hmem
    rw [State.cellIn_core (s := s.delivered x) (x := x) hp hcore hphys htenant] at hexec
    refine ⟨fun o ho hform hdiscard htotal hreg hrow => ?_, fun hclosed => ?_⟩
    · rw [State.cellAt_data (s := s.delivered x) hkind ho, State.takeCell_row hkind hlast hform hdiscard htotal hreg hrow] at hexec
      have hputs := ((s.delivered x).updXfer_puts d
        (fun m => m.mapTid o.tid (fun p => { p with rcvd := o.rcvd + 1, total := none }))).landEnd s.clk.tick 13 (o.halfRow cell)
      exact ⟨_, hexec, hputs.landings, hputs.core, hputs.onlyCore⟩
    · rw [State.cellAt_closed (s := s.delivered x) hkind hclosed] at hexec
      have hputs := (s.delivered x).updXfer_puts d (fun m => { m with waiting := m.waiting ++ [x] })
      exact ⟨_, hexec, hputs.core, hputs.landings, hputs.onlyCore⟩

end Sys2Proof.Machine
end

section
/-! PROOF. Faults of a control core (07 R144, R152, R164; 20 R462), and a preview that an early BOWG does not get (09 R210, R212). -/

namespace Sys2Proof.Machine

section
variable {s : State} {c : CoreId}

/-! ### Faults -/

/-- The times of a core's sequence miscomparisons in the last 10 minutes. -/
def State.recentSeq (s : State) (c : Nat) : List Nat := (s.core c).det.seqTimes.filter (fun t => s.station < t + 600000000000)

/-- A sequence miscomparison noted: a drone visit is asked for (07 R144). -/
def State.noteSeq (s : State) (c : Nat) : State :=
  s.updDet c (fun d => { d with seqTimes := s.recentSeq c ++ [s.station], visitAsked := true })

theorem exec_seqMiscompare_first (hen : s.isEnabled c.val = true) (hp : s.passThrough = false) (h : s.recentSeq c.val = []) :
    exec (.seqMiscompare c) s = .next ((s.noteSeq c.val).coreFault c.val 0x0003 4 1 0xFFFF 0) := by
  have hfirst : (!(s.recentSeq c.val).isEmpty) = false := by rw [h]; rfl
  unfold State.recentSeq at hfirst
  show execSeqMiscompare c s = _
  simp only [execSeqMiscompare, hen, hp, hfirst, Bool.not_false, Bool.and_self, if_true, Bool.false_eq_true, if_false]
  rfl

theorem exec_seqMiscompare_again (hen : s.isEnabled c.val = true) (hp : s.passThrough = false) (h : s.recentSeq c.val ≠ []) :
    exec (.seqMiscompare c) s = .next (((s.noteSeq c.val).coreFault c.val 0x0003 4 3 0xFFFF 0).askRetire c.val) := by
  have hagain : (!(s.recentSeq c.val).isEmpty) = true := by simpa using h
  unfold State.recentSeq at hagain
  show execSeqMiscompare c s = _
  simp only [execSeqMiscompare, hen, hp, hagain, Bool.not_false, Bool.and_self, if_true]
  rfl

/-- A WAITF that has waited its bound is logged, and its step ends (07 R164). -/
theorem exec_flagWaitTimeout {f : BitVec 6} {n : BitVec 8} {t : Nat} (hdec : (s.core c.val).ctl.dec = .waiting f n t)
    (hbound : (s.core c.val).ctl.waitFrom + s.flagBound c.val ≤ s.now) :
    exec (.flagWaitTimeout c) s = .next ((s.logExc c.val t ((s.core c.val).ctl.offset - 1) 0x04 0 .flagWaitTimeout
      (f.toNat + 256 * (Tab.get 0 (s.core c.val).ctl.flags f.toNat).toNat)).abortCore c.val .flagWaitTimeout) := by
  show execFlagWaitTimeout c s = _
  simp only [execFlagWaitTimeout, hdec, if_pos hbound]

/-- A cursor that would leave its range ends the step (07 R152). -/
theorem exec_stepTooLong {δ : BitVec 12} (hen : s.isEnabled c.val = true) (hdec : (s.core c.val).ctl.dec = .decoding)
    (hlong : 2 ^ 40 ≤ (s.core c.val).ctl.cursor + δ.toNat) :
    exec (.stepTooLong c δ) s = .next (s.tooLong c.val (s.core c.val).ctl.offset (.nop c δ)) := by
  show execStepTooLong c δ s = _
  rw [execStepTooLong, if_pos]
  rw [hen, hdec, decide_eq_true hlong]
  rfl

/-! ### The preview -/

/-- Before tick 0 of its step a BOWG that is due at tick 16 or later is not previewed (R210). -/
theorem State.preview_preStart {d : Nat} {c' : CoreId} {δ : BitVec 12} {list : Sa} {base k : BitVec 4} {nib : Bool} {el : BitVec 6}
    {afmt : BitVec 2} {ssrc : Bool} {scale : BitVec 8} {tick : Nat} {off : BitVec 24} {regs : Tab W32}
    (hpre : (s.core d).ctl.preStart = true) (hnew : s.clk.previews = [])
    (hq : (s.core d).ctl.laneQ = [⟨.bowg c' δ list base k nib el afmt ssrc scale, tick, off, regs⟩]) (hlate : 16 ≤ tick) :
    s.preview d = s := by
  have hearly : decide (tick < 16) = false := decide_eq_false (Nat.not_lt.mpr hlate)
  simp only [State.preview, hq, hpre, hnew, List.filterMap_cons, List.filterMap_nil, List.any_nil, Bool.false_eq_true, if_false, if_true,
    List.head?_cons, hearly, Bool.false_and]

/-- Core 0 as it decodes, before tick 0 of its step, a BOWG that is due at tick 16 and asks for rows 0 and 1 of its list. -/
def earlyBowg : Core :=
  { Core.reset with ctl := { Ctl.reset with
      preStart := true
      laneQ := [⟨.bowg 0 16 ⟨false, 0, 0⟩ 0 0 false 0 0 false 0, 16, 0, []⟩] } }

end

/-! ### The obligations -/

/-- Settles O49: each event is the fault that it logs and what follows from it. -/
theorem controlFaultsComplete : Obligations.ControlFaultsComplete := by
  unfold Obligations.ControlFaultsComplete
  intro s c k recent q
  refine ⟨?seq, ?wait, ?long⟩
  case seq => exact fun hen hp => ⟨exec_seqMiscompare_first hen hp, exec_seqMiscompare_again hen hp⟩
  case wait => exact fun f n t hdec hbound => exec_flagWaitTimeout hdec hbound
  case long => exact fun δ hen hdec hlong => exec_stepTooLong hen hdec hlong

/-- Refutes O48: a BOWG that waits before tick 0 of its step, due at tick 16, is within the window of its preview, which is not made before
tick 0 for a BOWG due that late; the statement's last clause does not ask that the step has passed its tick 0. -/
theorem not_decoderEventsComplete : ¬ Obligations.DecoderEventsComplete := by
  unfold Obligations.DecoderEventsComplete
  intro h
  obtain ⟨-, -, -, hpreview⟩ := h (State.reset.setCore 0 earlyBowg) 0
  have hcore : (State.reset.setCore 0 earlyBowg).core 0 = earlyBowg := State.setCore_core ..
  have hstay : (State.reset.setCore 0 earlyBowg).preview 0 = State.reset.setCore 0 earlyBowg :=
    State.preview_preStart (by rw [hcore]; rfl) rfl (by rw [hcore]; rfl) (le_refl 16)
  obtain ⟨t, hexec, -, hmade, -⟩ := hpreview 16 ⟨false, 0, 0⟩ 0 0 false 0 0 0 16 0 [] 0 (by rw [Fin.val_zero, hcore]; rfl) rfl rfl
    (by rw [Fin.val_zero, hcore]; decide) (by rw [Fin.val_zero, hcore]; decide) rfl rfl (by rw [Fin.val_zero, hcore]; rfl)
    (by rw [Fin.val_zero, hcore]; rfl)
  have hsame : State.reset.setCore 0 earlyBowg = t := Host.Outcome.next.inj ((congrArg _ hstay.symm).trans hexec)
  rw [← hsame] at hmade
  exact List.cons_ne_nil _ _ hmade.symm

end Sys2Proof.Machine
end

section
/-! PROOF. A step that comes may put what has waited for it in flight (07 R151, R162; 09 R219). -/

namespace Sys2Proof.Machine

/-- A SIGNAL to flag 5 of core 0, of step 2. -/
def signalOfStep2 : InCell :=
  ⟨0, 1, { dest := 0, core := 0, vc := 1, epoch := false, cls := 0, tenant := 0, tid := 5, index := 0, last := true, mark := .signal
           payload := leBytes 32 2 }⟩

/-- A member of a formed group, with one core and a loaded image, whose core has run step 0 last: a SIGNAL of step 2 waits there. -/
def memberWithSignal : State :=
  { State.reset with
    enabled := [0]
    cores := [(0, { Core.reset with xfer := { Core.reset.xfer with waiting := [signalOfStep2] } })]
    groups := [(0, { Group.reset with formed := true })]
    images := [(0, { Image.empty with loaded := true })]
    parts := [(0, { Part.reset with count := 1 })] }

/-- When step 2 comes its core begins to decode it, and the SIGNAL that has waited joins the increments of the tick. -/
theorem exec_stepStart_signalLands {t : State} (h : exec (.stepStartReceived 0 2 0 0 0 [] false false) memberWithSignal = .next t) :
    t.landings ≠ [] := by
  have hexec : execStepStartReceived 0 2 0 0 0 [] false false memberWithSignal = .next t := h
  obtain rfl := Host.Outcome.next.inj hexec.symm
  decide

/-! ### The obligation -/

/-- Refutes O12: its clause on STEP_START says that nothing in flight changes, whatever waits at the cores. A SIGNAL of the step, come while
its core had run an earlier one, is offered again when the core begins to decode the step (07 R151, R162), and is in flight from then on. -/
theorem not_stepEventsComplete : ¬ Obligations.StepEventsComplete := by
  unfold Obligations.StepEventsComplete
  intro h
  obtain ⟨-, hmember, -⟩ := h memberWithSignal 0 rfl rfl rfl rfl
  obtain ⟨t, hexec, -, -, -, -, -, -, -, -, -, -, hlandings, -⟩ := hmember 2 0 0 0 [] false false rfl rfl
  exact exec_stepStart_signalLands hexec hlandings

end Sys2Proof.Machine
end

section
/-! PROOF. The fields of a ZVIS word: what is read of a word that was put together from fields, and the words that decode (08 R170 to R172,
Tables 8.1 to 8.11). -/

namespace Sys2Proof

/-! ### Fields placed in a word -/

section
variable {n m lo at_ j : Nat}

@[simp] theorem zf_or (n lo : Nat) (a b : W64) : zf n (a ||| b) lo = zf n a lo ||| zf n b lo := BitVec.extractLsb'_or ..

@[simp] theorem zb_or (a b : W64) (j : Nat) : zb (a ||| b) j = (zb a j || zb b j) := BitVec.getLsbD_or

theorem getLsbD_pf (v : BitVec m) (at_ j : Nat) :
    (pf v at_).getLsbD j = (decide (j < 64) && !decide (j < at_) && v.getLsbD (j - at_)) := by
  rw [pf, BitVec.getLsbD_shiftLeft, BitVec.getLsbD_setWidth]
  by_cases hj : j < 64
  · rw [decide_eq_true (show j - at_ < 64 by omega), Bool.true_and]
  · rw [decide_eq_false hj, Bool.false_and, Bool.false_and, Bool.false_and]

theorem getLsbD_pb (v : Bool) (at_ j : Nat) : (pb v at_).getLsbD j = (decide (j < 64) && decide (j = at_) && v) := by
  cases v with
  | false => simp [pb]
  | true =>
    have h1 : (pb true at_).getLsbD j = (BitVec.twoPow 64 at_).getLsbD j := by rw [BitVec.twoPow_eq]; rfl
    rw [h1, BitVec.getLsbD_twoPow, Bool.and_true, Bool.decide_congr (eq_comm (a := at_) (b := j))]
    by_cases h : j = at_
    · subst h; simp
    · simp [h]

/-- A field that lies within the word is read as it was placed. -/
@[simp] theorem zf_pf_self (v : BitVec n) (h : lo + n ≤ 64) : zf n (pf v lo) lo = v := by
  ext k hk
  rw [zf, BitVec.getElem_extractLsb', getLsbD_pf, decide_eq_true (show lo + k < 64 by omega),
    decide_eq_false (show ¬lo + k < lo by omega), Nat.add_sub_cancel_left, BitVec.getLsbD_eq_getElem hk]
  rfl

/-- A field placed elsewhere leaves no bits in this one. -/
@[simp] theorem zf_pf_disjoint (v : BitVec m) (h : lo + n ≤ at_ ∨ at_ + m ≤ lo) : zf n (pf v at_) lo = 0#n := by
  ext k hk
  rw [zf, BitVec.getElem_extractLsb', getLsbD_pf, BitVec.getElem_zero]
  rcases h with h | h
  · rw [decide_eq_true (show lo + k < at_ by omega), Bool.not_true, Bool.and_false, Bool.false_and]
  · rw [BitVec.getLsbD_of_ge v _ (by omega), Bool.and_false]

@[simp] theorem zf_pb_disjoint (v : Bool) (h : lo + n ≤ at_ ∨ at_ < lo) : zf n (pb v at_) lo = 0#n := by
  ext k hk
  rw [zf, BitVec.getElem_extractLsb', getLsbD_pb, BitVec.getElem_zero, decide_eq_false (show ¬lo + k = at_ by omega), Bool.and_false,
    Bool.false_and]

@[simp] theorem zb_pf_disjoint (v : BitVec m) (h : j < at_ ∨ at_ + m ≤ j) : zb (pf v at_) j = false := by
  rw [zb, getLsbD_pf]
  rcases h with h | h
  · rw [decide_eq_true h, Bool.not_true, Bool.and_false, Bool.false_and]
  · rw [BitVec.getLsbD_of_ge v _ (by omega), Bool.and_false]

@[simp] theorem zb_pb_self (v : Bool) (h : j < 64) : zb (pb v j) j = v := by
  rw [zb, getLsbD_pb, decide_eq_true h, decide_eq_true rfl]
  rfl

@[simp] theorem zb_pb_ne (v : Bool) (h : j ≠ at_) : zb (pb v at_) j = false := by
  rw [zb, getLsbD_pb, decide_eq_false h, Bool.and_false, Bool.false_and]

/-- OPCODE and DELTA are two fields (Table 8.1). -/
@[simp] theorem pOp_eq_fields {o : Nat} (h : o < 256) (d : BitVec 12) : pOp o d = pf (BitVec.ofNat 8 o) 0 ||| pf d 8 := by
  have hop : BitVec.ofNat 64 o = pf (BitVec.ofNat 8 o) 0 := by
    refine BitVec.eq_of_toNat_eq ?_
    rw [pf, BitVec.shiftLeft_zero, BitVec.toNat_setWidth, BitVec.toNat_ofNat, BitVec.toNat_ofNat, Nat.mod_eq_of_lt (show o < 2 ^ 8 from h)]
  rw [pOp, hop]

end

/-! ### Decoding -/

/-- The opcode of an encoded word is its instruction's (Table 8.2). -/
theorem opcode_of_encodeZvis {i : Instr} {w : W64} {o : Byte} {k : Nat} (hw : encodeZvis i = some w)
    (ho : Machine.wordInfo i = some (o, k)) : zf 8 w 0 = o := by
  cases i <;> simp only [Machine.wordInfo, reduceCtorEq, Option.some.injEq, Prod.mk.injEq] at ho
  all_goals
    obtain ⟨rfl, -⟩ := ho
    obtain rfl := Option.some.inj hw
    simp (disch := decide) [pSr, pSa, pWb]

/-- The fields of an encoded word are those of its instruction: its opcode and selector choose its layout, and no two fields of a layout
overlap. -/
theorem rawZvis_of_encodeZvis {c : CoreId} {i : Instr} {w : W64} (hc : Machine.wordCore i = some c) (hw : encodeZvis i = some w) :
    rawZvis c w = some i := by
  cases i <;> simp only [Machine.wordCore, reduceCtorEq, Option.some.injEq] at hc
  all_goals
    have hop := congrArg BitVec.toNat (opcode_of_encodeZvis hw rfl)
    rw [rawZvis, hop]
    obtain rfl := hc
    have hfields := Option.some.inj hw
  -- the words that share their opcode with others are told apart by a selector
  case' vredInit | vredAcc | vredMerge | vredPhase | vredOut | vredSmout | recvData | recvAccumulator | recvFastAdd | recvXor |
      recvOnDieRead =>
    have hsel := congrArg (fun w => (zf 3 w 20).toNat) hfields
    simp (disch := decide) [pSr] at hsel
    rw [← hsel]
  case' vtopkInit | vtopkAcc | vtopkMerge | vtopkOut =>
    have hsel := congrArg (fun w => (zf 2 w 20).toNat) hfields
    simp (disch := decide) at hsel
    rw [← hsel]
  case' kvwr | kvwrRemote =>
    have hsel := congrArg (fun w => zb w 46) hfields
    simp (disch := decide) [pSr] at hsel
    rw [hsel]
  all_goals
    change some _ = some _
    rw [← hfields]
    simp (disch := decide) [zSr, zSa, zWb, pSr, pSa, pWb]

/-- Decoding checks what it has read against the encoder. -/
theorem decodeZvis_of_encodeZvis {c : CoreId} {i : Instr} {w : W64} (hc : Machine.wordCore i = some c)
    (hok : Machine.staticOk i = true) (hw : encodeZvis i = some w) : decodeZvis c w = some i := by
  simp only [decodeZvis, rawZvis_of_encodeZvis hc hw, hok, hw, beq_self_eq_true, Bool.and_self, if_true]

end Sys2Proof

namespace Sys2Proof.Machine

/-- Settles O4: the fields of the word are read as they were placed, and the instruction is one that a program may hold. -/
theorem decodeOfEncode : Obligations.DecodeOfEncode := by
  unfold Obligations.DecodeOfEncode
  exact fun c i w hc hok hw => decodeZvis_of_encodeZvis hc hok hw

/-- Settles O3: each word is the encoding of its instruction; no layout has the opcode 0xFF. -/
theorem wordsDecode : Obligations.WordsDecode := by
  unfold Obligations.WordsDecode
  intro c
  refine ⟨?nop, ?setf, ?adda, ?zacc, ?vfill, ?reserved⟩
  case nop => exact decodeZvis_of_encodeZvis rfl rfl rfl
  case setf => exact decodeZvis_of_encodeZvis rfl rfl rfl
  case adda => exact decodeZvis_of_encodeZvis rfl rfl rfl
  case zacc => exact decodeZvis_of_encodeZvis rfl rfl rfl
  case vfill => exact decodeZvis_of_encodeZvis rfl rfl rfl
  case reserved => rfl

end Sys2Proof.Machine
end

section
/-! PROOF. Every command answers a next state, whatever the state; of the words, every one that a program may hold (08 R172). -/

namespace Sys2Proof.Machine

/-- An outcome that is a next state. -/
def Answers (r : Host.Outcome State Fault Refusal) : Prop := ∃ t, r = .next t

theorem answers_next (t : State) : Answers (.next t) := ⟨t, rfl⟩

/-- A test answers when both of its branches do. -/
theorem answers_ite {p : Prop} [Decidable p] {a b : Host.Outcome State Fault Refusal} (ha : Answers a) (hb : Answers b) :
    Answers (if p then a else b) := by
  split
  · exact ha
  · exact hb

/-- A command that is no ZVIS word is a tree of tests and look-ups, and every branch of it answers. -/
theorem exec_answers (s : State) {i : Instr} (h : wordCore i = none) : Answers (exec i s) := by
  cases i <;> simp only [wordCore, reduceCtorEq] at h
  all_goals
    dsimp only [exec,
      -- cells, transfers and host reads
      execSignalArrival, execCellArrival, execTransferComplete, execWaitingArrivalWrite, execKvWriteContextComplete,
      execHostReadCompletion, execHostDmaError, execCellLeavesOutboundBuffer,
      -- control cores, the mute and the clock
      execWaitfSatisfied, execDecodeResume, execSeqMiscompare, execFlagWaitTimeout, execStepTooLong, execCoreFinished,
      execLateItemCheck, execMuteRelease, execMuteTimeout, execFrequencyChange, execPllLock, execBowgPreview,
      -- steps and requests
      execAdmissionPoint, execStepStartReceived, execTickZero, execAdvance, execAdvanceAck, execSpillRecordsWritten,
      execReloadComplete, execStepFinishedReport, execRequestCommit, execCancelRegister,
      -- weight loads
      execSwap, execSwapStage, execStaged, execReleaseAll, execLoaded, execChunkReceived, execChunkTimeout, execAbandon,
      execParityValid,
      -- routes and epochs
      execRouteInstall, execRouteEpoch, execEpochStage, execEpochAck, execEpochAckTimeout, execSwitch, execDrainQuery, execDrainWave,
      execPurge, execRetire,
      -- faults
      execMeshCrc, execClockLockLoss, execRelockTimeout, execTickDiverge, execSupplyFault, execStop, execStepRetry, execDiscard,
      execHeartbeatSend, execHeartbeat, execSilent, execSilentReport, execPackageLost, execCoreRetirementAndReload,
      -- weight stores and scratchpads
      execScrubVisit, execScrubForcedAccess, execBlockRestoration, execSpareRowSubstitution, execArbitrationOutcome,
      execSampleReferenceCheck, execDroneVisit,
      -- optical ports
      execFrameReceived, execFrameTransmit, execReplayTimeout, execLaneDrop, execLaserFault, execLaserInputGood, execPortEnable,
      execSignalPresent, execEqualisationConverged, execAlignmentLock, execHello, execPortStateTimeout, execRetune,
      execLinkKeyRotation, execRotateRetry, execRotate, execRetireKey, execRotationTimeout,
      -- the key directory
      execDirLookup, execDirUpdateApply, execCompactionMove, execDirReadySet, execDirUpdate,
      -- the host
      execKick, execPoll, execDoorbellFetchComplete, execRequest, execCancel, execContinueReq, execSpill, execReload, execRelease,
      execStep, execLoadImage, execMsixTimeThreshold, execRingEnable, execRingDisable, execFunctionLevelReset, execPerst,
      execPerstRelease, execSendMbo, execWithdraw, execMboTimeout, execMboRead, execMbiDeliver, execMbiConsume, execMbiWithdrawn,
      execDbHostClear, execDbHostMaskWrite, execDbSpSet, execMgtMessage, execMgtSlotTimeout,
      -- maintenance
      execPassThroughEnter, execPassThroughLeave, execPackageReset, execSoundpostReset, execSaveSettings, execMaintQuery,
      execPausePointReached, execStructuralActivityEnd, execFreqApply,
      -- power
      execColdStart, execVanaGood, execVmainGood, execCourseUngate, execVauxFail, execVanaFail, execUndervoltageLockout,
      execConverterStageFault, execRefclkLoss, execRefclkReturn, execFwWatchdog, execSensorSample, execBudgetEvaluation,
      execThermtrip,
      -- the soundpost
      execFwBegin, execFwPiece, execFwEnd, execFwWriteTimeout, execKeyInstall, execKeyRemove, execStatus, execSpillRotate,
      execSpillKeyDistribute, execSpillKeyAckTimeout, execGetVersion, execGetCapabilities, execNegotiateAlgorithms, execGetDigests,
      execGetCertificate, execChallenge, execGetMeasurements, execKeyExchange, execFinish, execKeyUpdate, execHeartbeatSpdm,
      execEndSession, execLockInterfaceRequest, execStartInterfaceRequest, execStopInterfaceRequest, execTdiError, execIdeKm,
      -- registers
      execForm, execFormMessage, execFormTimeout, execDissolve, execReqIndexWrite, execGo, execDebugEnWrite, execStateSelWrite,
      execRefusedClear, execRegisterWrite,
      -- station time
      execSyncExchange, execSync, execFollowUp, execDelayReq, execDelayResp, execHoldover, execSourceSynced, execStationSet]
    -- a branch that answers, a test, or a look-up with one branch for each of its results
    repeat' (first | with_reducible exact answers_next _ | with_reducible apply answers_ite | split)

/-- Settles O60: a word is decoded on its core where a program may hold it, and refused where none may (log entry 87); every other command
answers. -/
theorem everyCommandIsExecuted : Obligations.EveryCommandIsExecuted := by
  unfold Obligations.EveryCommandIsExecuted
  exact fun s i => ⟨exec_answers s, fun _ hc => ⟨fun hw => ⟨_, exec_decode hc hw⟩, exec_refused hc⟩⟩

end Sys2Proof.Machine
end

section
/-! PROOF. The rows that a move reads, 32 a tick, and what its sink is handed; the transfer ids that words open (08 R187, R188; 09 R209). -/

namespace Sys2Proof.Machine

section
variable {s t : State} {c : Nat} {x y : Core} {ls : List Landing}

/-! ### What a word reads of the package -/

/-- A function of the state has after a change of cores the value that it has with the changed fields written out: where it reads none of
them, the value before. -/
theorem State.CoresOnly.congr {α : Type} (h : s.CoresOnly t) (f : State → α) :
    f t = f { s with cores := t.cores, landings := t.landings, clk := { s.clk with late := t.clk.late, uses := t.clk.uses } } :=
  congrArg f h

/-- A row's cells depend on the package and the partitions alone. -/
theorem State.Puts.rowCells (h : s.Puts t c x ls) : Machine.rowCells t = Machine.rowCells s := h.only.congr Machine.rowCells

/-! ### Sinks -/

theorem State.Puts.emit (h : s.Puts t c x ls) (cells : List Cell) :
    s.Puts (t.emit c cells) c { x with xfer := { x.xfer with outbound := x.xfer.outbound ++ cells } } ls := h.updXfer _

theorem State.Puts.sinkRows_send (h : s.Puts t c x ls) (d : W32) (vc : BitVec 3) (route : BitVec 2) (tid : BitVec 12) (kind : CellKind)
    (total : Nat) (rows : List (List Byte)) :
    s.Puts (t.sinkRows c (.send d vc route tid kind total) 0 rows) c { x with xfer := { x.xfer with
      outbound := x.xfer.outbound ++ rows.zipIdx.flatMap (fun p =>
        Machine.rowCells s c d vc route (if kind == .xor then 3 else 0) tid (2 * p.2) total .none p.1) } } ls := by
  simp only [State.sinkRows, h.rowCells, Nat.zero_add]
  exact h.emit _

theorem State.Puts.sinkRows_kvRemote (h : s.Puts t c x ls) (d : W32) (tid : BitVec 12) (total : Nat) (rows : List (List Byte)) :
    s.Puts (t.sinkRows c (.kvRemote d tid total) 0 rows) c { x with xfer := { x.xfer with
      outbound := x.xfer.outbound ++ rows.zipIdx.flatMap (fun p =>
        Machine.rowCells s c d 2 0 0 tid (2 * p.2 + 1) total .kvwr p.1) } } ls := by
  simp only [State.sinkRows, h.rowCells, Nat.zero_add]
  exact h.emit _

theorem State.Puts.sinkRows_hostwr (h : s.Puts t c x ls) (addr tid : Nat) (rows : List (List Byte)) :
    s.Puts (t.sinkRows c (.hostwr addr tid) 0 rows) c { x with xfer := { x.xfer with
      hostOut := x.xfer.hostOut ++ rows.zipIdx.map (fun p => (tid, addr + 64 * p.2, p.1)) } } ls := by
  simp only [State.sinkRows, Nat.zero_add]
  exact h.updXfer _

/-! ### The first block of rows -/

/-- What remains of a read of rows when its first block of 32 has been read. -/
def SPad.readOn (m : SPad) (rows : List Nat) (sink : RowSink) (rel : Option (Nat × Nat)) (e : QEntry) : RowRead :=
  ⟨rows.drop 32, (rows.take 32).length, (rows.take 32).map m.row, sink, rel, e⟩

/-- The first block is read without an error, corrected in line and handed to the sink. When rows remain they are in flight for the next
tick; when none do, a release is in flight for the end of this one, and the sink ends. -/
theorem State.Puts.startRead {z : Ctx} (h : s.Puts t z.core x ls) (R : State → Prop) {rows : List Nat} {sink : RowSink}
    {rel : Option (Nat × Nat)} (hgood : (rows.take 32).all (fun q => !x.sp.rowBad q) = true)
    (hsink : ∀ u, s.Puts u z.core { x with sp := x.sp.correct (rows.take 32) } ls →
      s.Puts (u.sinkRows z.core sink 0 ((rows.take 32).map x.sp.row)) z.core y ls)
    (hmore : rows.drop 32 ≠ [] → ∀ u,
      s.Puts u z.core y (ls ++ [⟨2 * (z.tick + 1), 6, z.core, .rowRead (x.sp.readOn rows sink rel z.entry)⟩]) → R u)
    (hend : rows.drop 32 = [] → ∀ u,
      s.Puts u z.core y (ls ++ rel.toList.map (fun p => ⟨2 * z.tick + 1, 30, z.core, .release p.1 p.2 z.entry⟩)) →
        R (u.sinkEnd z.core z.tick (x.sp.readOn rows sink rel z.entry))) :
    R (t.startRead z rows sink rel) := by
  have hfind : (rows.take 32).find? x.sp.rowBad = none := by simpa using hgood
  have hread := hsink _ ((h.updCore fun x => { x with sp := x.sp.correct (rows.take 32) }).use z.tick z.core z.core 3 (some z.entry)
    ((rows.take 32).map .rowRead))
  simp only [State.startRead, State.doRowRead, h.core, hfind, Nat.zero_add, List.nil_append]
  cases hrest : rows.drop 32 with
  | cons a l =>
    refine hmore (by rw [hrest]; exact List.cons_ne_nil _ _) _ ?_
    rw [SPad.readOn, hrest]
    exact hread.land ..
  | nil =>
    have hdone := hend hrest
    rw [SPad.readOn, hrest] at hdone
    cases rel with
    | none => exact hdone _ (by rw [Option.toList_none, List.map_nil, List.append_nil]; exact hread)
    | some p => exact hdone _ (hread.land ..)

/-- A read without a release, whose sink has nothing to do once the last row has been read. -/
theorem State.Puts.startRead_sent {z : Ctx} (h : s.Puts t z.core x ls) {rows : List Nat} {sink : RowSink}
    (hgood : (rows.take 32).all (fun q => !x.sp.rowBad q) = true)
    (hsink : ∀ u, s.Puts u z.core { x with sp := x.sp.correct (rows.take 32) } ls →
      s.Puts (u.sinkRows z.core sink 0 ((rows.take 32).map x.sp.row)) z.core y ls)
    (hend : ∀ (u : State) (r : RowRead), r.sink = sink → u.sinkEnd z.core z.tick r = u) :
    s.Puts (t.startRead z rows sink none) z.core y
      (ls ++ if rows.drop 32 = [] then [] else [⟨2 * (z.tick + 1), 6, z.core, .rowRead (x.sp.readOn rows sink none z.entry)⟩]) := by
  refine h.startRead (s.Puts · z.core y _) hgood hsink (fun hrest u hu => ?_) (fun hrest u hu => ?_)
  · rw [if_neg hrest]
    exact hu
  · rw [if_pos hrest, hend u _ rfl]
    exact hu

end

section
variable {s : State} {c : CoreId} {i : Instr}

/-- SEND and SENDXOR (08 R196; 13 R319). -/
theorem fxSend_puts (hi : s.Issues c i .out) {sp : Sr} {n : BitVec 3} {dreg : BitVec 4} {vc : BitVec 2} {cls : BitVec 4} {tid : BitVec 12}
    {isXor : Bool} {at_ : RowsAt} (hsend : s.sendFail (s.ctxOf c i) (Tab.get 0 (s.core c.val).ctl.regs dreg.toNat) = none)
    (hlo : 1 ≤ cnt (s.core c.val).ctl.regs n) (hhi : cnt (s.core c.val).ctl.regs n ≤ 1024)
    (hrow : resolveSr (s.core c.val).sp (s.core c.val).ctl.regs sp (cnt (s.core c.val).ctl.regs n) = (at_, none))
    (hvc : s.vcFail (s.ctxOf c i) vc = none) (hgood : (at_.rows.take 32).all (fun q => !(s.core c.val).sp.rowBad q) = true) :
    let x := s.core c.val
    let d := Tab.get 0 x.ctl.regs dreg.toNat
    let count := cnt x.ctl.regs n
    let now := at_.rows.take 32
    let kind : CellKind := if isXor then .xor else .data
    s.Puts ((s.decoded c i).fxSend (s.ctxOf c i) sp n dreg vc cls tid isXor) c.val
      { s.issued c i .out (ceilDiv count 32) with
        sp := x.sp.correct now
        xfer := { x.xfer with outbound := x.xfer.outbound ++ (now.map x.sp.row).zipIdx.flatMap (fun p =>
          rowCells s c.val d (vcOf vc) (cls.setWidth 2) (if isXor then 3 else 0) tid (2 * p.2) (2 * count) .none p.1) } }
      (if at_.rows.drop 32 = [] then [] else [⟨2 * (s.clk.tick + 1), 6, c.val, .rowRead
        (x.sp.readOn at_.rows (.send d (vcOf vc) (cls.setWidth 2) tid kind (2 * count)) none (s.entryOf c i))⟩]) := by
  have hcount : ¬(cnt (s.core c.val).ctl.regs n = 0 ∨ 1024 < cnt (s.core c.val).ctl.regs n) := by omega
  have hkind : (if (if isXor then CellKind.xor else CellKind.data) == .xor then 3 else 0) = if isXor then 3 else 0 := by
    cases isXor <;> rfl
  simp only [State.fxSend, State.spOf_decoded, State.ctxOf_regs, hcount, decide_false, if_false, hrow]
  refine hi.issueIn_puts ?_ fun t ht => ?_
  · show pickFail [s.sendFail (s.ctxOf c i) _, _, _, s.vcFail (s.ctxOf c i) vc] = none
    rw [reg, hsend, hvc]
    rfl
  · rw [← hkind]
    exact ht.startRead_sent (z := s.ctxOf c i) hgood (fun u hu => hu.sinkRows_send ..) (fun u r hr => by rw [State.sinkEnd, hr])

/-- The contribution that SENDACC sends of an accumulator index: its payloads, the values fed to the digest, the flags of its roundings. -/
def State.contributionOf (s : State) (c : Nat) (k : BitVec 4) (enc : BitVec 2) : List (List Byte) × List Nat × RFlags :=
  let x := s.core c
  contribution (x.lane.win k.toNat) ((List.range 64).map (x.lane.accAt k.toNat)) enc.toNat (tagBase x.ctl.regs) (tagPoint x.ctl.regs)
    (s.saltOf c)

/-- SENDACC (08 R197; 13 R309 to R313). -/
theorem fxSendacc_putsFed (hi : s.Issues c i .out) {k : BitVec 4} {dreg : BitVec 4} {enc : BitVec 2} {cls : BitVec 4} {tid : BitVec 12}
    (hsend : s.sendFail (s.ctxOf c i) (Tab.get 0 (s.core c.val).ctl.regs dreg.toNat) = none)
    (hgood : (s.core c.val).lane.readBad k.toNat = false) :
    let x := s.core c.val
    let d := Tab.get 0 x.ctl.regs dreg.toNat
    let cells := (s.contributionOf c.val k enc).1
    s.PutsFed ((s.decoded c i).fxSendacc (s.ctxOf c i) k dreg enc cls tid) c.val
      (({ s.issued c i .out 1 with xfer := { x.xfer with
          varyDone := x.xfer.varyDone || enc == 2
          outbound := x.xfer.outbound ++ cells.zipIdx.map (fun p => mkCell d s.place (destCore d) 0 (cls.setWidth 2)
            (if enc = 2 then 2 else 1) (s.tenantOf c.val) tid p.2 cells.length .none p.1) } } : Core).orStatus
        (if enc = 2 then exitMask (s.contributionOf c.val k enc).2.2 else 0)) [] := by
  simp only [State.fxSendacc, State.contributionOf, State.ctxOf_regs, State.ctxOf_core]
  refine hi.issueIn_putsFed ?_ fun t ht => ?_
  · show pickFail [s.sendFail (s.ctxOf c i) _] = none
    rw [reg, hsend]
    rfl
  · have hsalt : t.saltOf c.val = s.saltOf c.val := ht.only.congr (·.saltOf c.val)
    have hlane : (t.core c.val).lane = (s.core c.val).lane := by rw [ht.core]; rfl
    simp only [hlane, hgood, Bool.false_eq_true, if_false, hsalt]
    generalize contribution _ _ _ _ _ _ = sent
    have hmarked : s.Puts (if enc = 2 then (t.orStatus c.val (exitMask sent.2.2)).updXfer c.val (fun m => { m with varyDone := true })
        else t) c.val (({ s.issued c i .out 1 with xfer := { (s.core c.val).xfer with
          varyDone := (s.core c.val).xfer.varyDone || enc == 2 } } : Core).orStatus (if enc = 2 then exitMask sent.2.2 else 0)) [] := by
      by_cases henc : enc = 2
      · simp only [henc, beq_self_eq_true, Bool.or_true, if_true]
        exact (ht.orStatus _).updXfer _
      · simp only [beq_eq_false_iff_ne.mpr henc, Bool.or_false, if_neg henc, Core.orStatus_zero]
        exact ht
    obtain ⟨ds, hfed⟩ := hmarked.feed (s.core c.val).ctl.regs 0 (decide (enc ≠ 2)) sent.2.1
    obtain ⟨-, hplace, -, htenant, -⟩ := hfed.frame
    refine ⟨ds, ?_⟩
    rw [hplace, htenant]
    exact hfed.emit _

end

/-! ### The obligation -/

/-- Settles O36: SEND and SENDXOR read their first rows and hand them to their sink; SENDACC feeds its digest and hands over the cells of its
contribution. -/
theorem sendWordsComplete : Obligations.SendWordsComplete := by
  unfold Obligations.SendWordsComplete
  intro s c δ dreg cls tid x r d out
  refine ⟨?rows, ?accumulator⟩
  case rows =>
    intro isXor sp n vc at_ i count kind now rest hi hsend hlo hhi hrow hvc hgood
    have hput := fxSend_puts (cls := cls) (tid := tid) (isXor := isXor) hi hsend hlo hhi hrow hvc hgood
    cases isXor with
    | false => exact exec_becomes rfl rfl hi hput ⟨rfl, rfl, rfl⟩
    | true => exact exec_becomes rfl rfl hi hput ⟨rfl, rfl, rfl⟩
  case accumulator =>
    intro k enc i cells hi hsend hgood
    obtain ⟨t, hexec, hbut, -⟩ := exec_of_putsFed rfl rfl hi (fxSendacc_putsFed (cls := cls) (tid := tid) hi hsend hgood) ⟨rfl, rfl, rfl⟩
    exact ⟨t, hexec, hbut⟩

end Sys2Proof.Machine
end

section
/-! PROOF. Words that move rows between the scratchpad and the weight store: stored rows of a block (08 R192, R193) and pages of keys and
values (08 R194, R195; 14 R325 to R327). -/

namespace Sys2Proof.Machine

section
variable {s : State} {c : CoreId} {i : Instr}

theorem all_take {α : Type} {p : α → Bool} {l : List α} (h : l.all p = true) (n : Nat) : (l.take n).all p = true :=
  List.all_eq_true.mpr fun a ha => List.all_eq_true.mp h a (List.mem_of_mem_take ha)

/-! ### Results in flight -/

theorem State.Puts.landEnd_if {t : State} {d : Nat} {x : Core} {ls : List Landing} (h : s.Puts t d x ls) (p : Prop) [Decidable p]
    (tick prio : Nat) (e : LandEff) :
    s.Puts (if p then t.landEnd tick prio d e else t) d x (ls ++ if p then [⟨2 * tick + 1, prio, d, e⟩] else []) := by
  by_cases hp : p
  · rw [if_pos hp, if_pos hp]
    exact h.landEnd ..
  · rw [if_neg hp, if_neg hp, List.append_nil]
    exact h

/-- Rows put in flight for the scratchpad, with the accesses that their landing makes (09 R211). -/
theorem State.Puts.rowList_written {t : State} {x : Core} {ls : List Landing} (z : Ctx) (h : s.Puts t z.core x ls) (n : Nat)
    (rows : List (Nat × List Byte)) :
    s.Puts ((t.landEnd (z.tick + n) 11 z.core (.rowList rows)).use (z.tick + n) z.core z.core 2 (some z.entry)
      (rows.map (fun p => .rowWrite p.1))) z.core x (ls ++ [⟨2 * (z.tick + n) + 1, 11, z.core, .rowList rows⟩]) :=
  (h.landEnd ..).use ..

/-! ### Blocks -/

theorem checkKind_weights {w : WStore} {b : Nat} (hb : b < wsBlocks) (hkind : w.kindOf b = 1) : checkKind w b 1 = none := by
  simp [checkKind, Nat.not_le.mpr hb, hkind, failIf]

/-- The stored rows of a block that WSRD reads: one, or all of them. -/
def WStore.rowsRead (w : WStore) (b row : Nat) (part : Bool) : List (List Byte) :=
  if part then [w.storedRow b row] else (List.range 64).map (w.storedRow b)

/-- WSRD: the first 32 rows land in tick t + 3 and the others in tick t + 4; a commit lands with the last (08 R192). -/
theorem fxWsrd_puts (hi : s.Issues c i .local) {block : Wb} {part : Bool} {row : BitVec 6} {sp : Sr} {b : Nat} {at_ : RowsAt}
    (hb : resolveWb (s.core c.val).ctl.regs block = (b, none)) (hlt : b < wsBlocks) (hkind : (s.core c.val).ws.kindOf b = 1)
    (hgood : (s.core c.val).ws.blockBad b = false)
    (hrow : resolveSr (s.core c.val).sp (s.core c.val).ctl.regs sp (if part then 1 else 64) = (at_, none)) :
    let pairs := at_.rows.zip ((s.core c.val).ws.rowsRead b row.toNat part)
    s.Puts ((s.decoded c i).fxWsrd (s.ctxOf c i) block part row sp) c.val
      { s.issued c i .local (if part then 1 else 2) with ws := (s.core c.val).ws.correct b }
      (⟨2 * (s.clk.tick + 3) + 1, 11, c.val, .rowList (pairs.take 32)⟩ ::
        ((if part then [] else [⟨2 * (s.clk.tick + 4) + 1, 11, c.val, .rowList (pairs.drop 32)⟩]) ++
          (if sp.mode = 3 then [⟨2 * (s.clk.tick + if part then 3 else 4) + 1, 31, c.val,
            .commit sp.reg.toNat (if part then 1 else 64) (s.entryOf c i)⟩] else []))) := by
  simp only [State.fxWsrd, State.spOf_decoded, State.ctxOf_regs, State.ctxOf_core, State.decoded_core, hb, hrow]
  refine hi.issueIn_puts ?_ fun t ht => ?_
  · rw [checkKind_weights hlt hkind]
    rfl
  · rw [if_neg (by rw [hgood]; decide)]
    have hread := (ht.updCore fun x => { x with ws := x.ws.correct b }).use s.clk.tick c.val c.val 2 (some (s.entryOf c i)) [.wsAll]
    have hfirst := hread.rowList_written (z := s.ctxOf c i) 3 ((at_.rows.zip ((s.core c.val).ws.rowsRead b row.toNat part)).take 32)
    cases part with
    | true => exact hfirst.landEnd_if ..
    | false => exact (hfirst.rowList_written (z := s.ctxOf c i) 4 _).landEnd_if ..

/-- What WSWR leads to: its rows are read, and what its sink is handed is decided by the rows that are left (08 R187, R193). -/
theorem fxWswr_leads (hi : s.Issues c i .local) (R : State → Prop) {block : Wb} {part : Bool} {row : BitVec 6} {sp : Sr} {b : Nat}
    {at_ : RowsAt} (hb : resolveWb (s.core c.val).ctl.regs block = (b, none)) (hlt : b < wsBlocks)
    (hkind : (s.core c.val).ws.kindOf b = 1)
    (hrow : resolveSr (s.core c.val).sp (s.core c.val).ctl.regs sp (if part then 1 else 64) = (at_, none))
    (heff : ∀ t, s.Puts t c.val (s.issued c i .local (if part then 1 else 2)) [] →
      R (t.startRead (s.ctxOf c i) at_.rows (.wswr b (if part then row.toNat else 0))
        (if sp.mode = 2 then some (sp.reg.toNat, if part then 1 else 64) else none))) :
    R ((s.decoded c i).fxWswr (s.ctxOf c i) block part row sp) := by
  simp only [State.fxWswr, State.spOf_decoded, State.ctxOf_regs, State.ctxOf_core, State.decoded_core, hb, hrow]
  refine hi.issueIn_leads R ?_ heff
  rw [checkKind_weights hlt hkind]
  rfl

theorem fxWswr_row_puts (hi : s.Issues c i .local) {block : Wb} {row : BitVec 6} {sp : Sr} {b sr : Nat}
    {at_ : RowsAt} (hb : resolveWb (s.core c.val).ctl.regs block = (b, none)) (hlt : b < wsBlocks)
    (hkind : (s.core c.val).ws.kindOf b = 1)
    (hrow : resolveSr (s.core c.val).sp (s.core c.val).ctl.regs sp 1 = (at_, none)) (hone : at_.rows = [sr])
    (hgood : (s.core c.val).sp.rowBad sr = false) :
    s.Puts ((s.decoded c i).fxWswr (s.ctxOf c i) block true row sp) c.val
      { s.issued c i .local 1 with sp := (s.core c.val).sp.correct [sr] }
      ((if sp.mode = 2 then [⟨2 * s.clk.tick + 1, 30, c.val, .release sp.reg.toNat 1 (s.entryOf c i)⟩] else []) ++
        [⟨2 * (s.clk.tick + 3) + 1, 12, c.val, .ws (4096 * b + 64 * row.toNat) ((s.core c.val).sp.row sr)⟩]) := by
  refine fxWswr_leads hi (s.Puts · c.val _ _) hb hlt hkind hrow fun t ht => ?_
  rw [hone]
  refine ht.startRead (z := s.ctxOf c i) (s.Puts · c.val _ _) ?good (fun u hu => hu) (fun hmore => absurd rfl hmore) fun _ u hu => ?done
  case good => exact (by simpa using hgood : ([sr].all fun q => !(s.core c.val).sp.rowBad q) = true)
  case done =>
    have hbytes : ([sr].map (s.core c.val).sp.row).flatten = (s.core c.val).sp.row sr := by simp
    have hwritten := (hu.landEnd (s.clk.tick + 3) 12 (.ws (4096 * b + 64 * row.toNat) ([sr].map (s.core c.val).sp.row).flatten)).use
      (s.clk.tick + 3) c.val c.val 2 (some (s.entryOf c i)) [.wsAll]
    rw [hbytes] at hwritten
    by_cases hmode : sp.mode = 2
    · simp only [if_pos hmode] at hwritten ⊢
      exact hwritten
    · simp only [if_neg hmode] at hwritten ⊢
      exact hwritten

/-- WSWR of a block: its first 32 rows are read, the others are left for the next tick. -/
theorem fxWswr_block_puts (hi : s.Issues c i .local) {block : Wb} {sp : Sr} {b : Nat} {at_ : RowsAt}
    (hb : resolveWb (s.core c.val).ctl.regs block = (b, none)) (hlt : b < wsBlocks) (hkind : (s.core c.val).ws.kindOf b = 1)
    (hrow : resolveSr (s.core c.val).sp (s.core c.val).ctl.regs sp 64 = (at_, none)) (hall : at_.rows.length = 64)
    (hgood : at_.rows.all (fun q => !(s.core c.val).sp.rowBad q) = true) :
    s.Puts ((s.decoded c i).fxWswr (s.ctxOf c i) block false 0 sp) c.val
      { s.issued c i .local 2 with sp := (s.core c.val).sp.correct (at_.rows.take 32) }
      [⟨2 * (s.clk.tick + 1), 6, c.val, .rowRead ((s.core c.val).sp.readOn at_.rows (.wswr b 0)
        (if sp.mode = 2 then some (sp.reg.toNat, 64) else none) (s.entryOf c i))⟩] := by
  have hmore : at_.rows.drop 32 ≠ [] := by
    rw [Ne, List.drop_eq_nil_iff]
    omega
  refine fxWswr_leads hi (s.Puts · c.val _ _) hb hlt hkind hrow fun t ht => ?_
  exact ht.startRead (z := s.ctxOf c i) (s.Puts · c.val _ _) (all_take hgood 32) (fun u hu => hu) (fun _ u hu => hu)
    fun hend => absurd hend hmore

end

/-! ### The obligation of the weight store -/

/-- Settles O33: WSRD puts the rows that it reads in flight, WSWR those of its first block, or leaves the others to the next tick. -/
theorem weightMoveWordsComplete : Obligations.WeightMoveWordsComplete := by
  unfold Obligations.WeightMoveWordsComplete
  intro s c δ block row sp b at_ T x r hb hlt hkind hgood
  refine ⟨?readRow, ?readBlock, ?writeRow, ?writeBlock⟩
  case readRow =>
    intro i hi hrow
    have hput := fxWsrd_puts (part := true) (row := row) hi hb hlt hkind hgood hrow
    have hone : (at_.rows.zip [x.ws.storedRow b row.toNat]).take 32 = at_.rows.zip [x.ws.storedRow b row.toNat] :=
      List.take_of_length_le (by rw [List.length_zip, List.length_singleton]; omega)
    refine exec_becomes rfl rfl hi (x := { s.issued c i .local 1 with ws := x.ws.correct b }) ?_ ⟨rfl, rfl, rfl⟩
    rw [← hone]
    exact hput
  case readBlock =>
    exact fun hi hrow =>
      exec_becomes rfl rfl hi (fxWsrd_puts (part := false) (row := 0) hi hb hlt hkind hgood hrow) ⟨rfl, rfl, rfl⟩
  case writeRow =>
    exact fun sr hi hrow hone hok => exec_becomes rfl rfl hi (fxWswr_row_puts hi hb hlt hkind hrow hone hok) ⟨rfl, rfl, rfl⟩
  case writeBlock =>
    intro i hi hrow hall hok
    have hput := fxWswr_block_puts hi hb hlt hkind hrow hall hok
    have hlen : (at_.rows.take 32).length = 32 := by rw [List.length_take, hall]; rfl
    rw [SPad.readOn, hlen] at hput
    exact exec_becomes rfl rfl hi hput ⟨rfl, rfl, rfl⟩

section
variable {s : State} {c : CoreId} {i : Instr}

/-! ### Pages -/

theorem State.Puts.foldl_land {t : State} {d : Nat} {x : Core} {ls : List Landing} {α : Type} {g : State → α → State} {e : α → Landing}
    (hg : ∀ u a ls, s.Puts u d x ls → s.Puts (g u a) d x (ls ++ [e a])) (h : s.Puts t d x ls) (l : List α) :
    s.Puts (l.foldl g t) d x (ls ++ l.map e) := by
  induction l generalizing t ls with
  | nil => simpa using h
  | cons a l ih => simpa using ih (hg t a ls h)

/-- The handle of a page access, its layout and its rows have been checked (08 R194; 14 R326). -/
structure State.KvChecked (s : State) (c : Nat) (hreg : BitVec 4) (sp : Sr) (y : KvLayout) (at_ : RowsAt) : Prop where
  layout : s.kvLayout c = some y
  handle : (Handle.ofWord (Tab.get 0 (s.core c).ctl.regs hreg.toNat)).bad (pageBase y.g y.shards (s.logical c))
    (y.g * Tab.get 0 y.shards (s.logical c)) = false
  rows : resolveSr (s.core c).sp (s.core c).ctl.regs sp ((Handle.ofWord (Tab.get 0 (s.core c).ctl.regs hreg.toNat)).count * y.ws) =
    (at_, none)

theorem State.kvFail_eq_none {z : Ctx} {h : Handle} {y : KvLayout} (hy : s.kvLayout z.core = some y)
    (hbad : h.bad (pageBase y.g y.shards (s.logical z.core)) (y.g * Tab.get 0 y.shards (s.logical z.core)) = false) (w : W32) :
    s.kvFail z h w = none := by
  rw [State.kvFail, hy]
  exact failIf_eq_none_iff.mpr hbad

/-- The rows of a page access as they land, 32 a tick from tick t + 3 on (08 R195). -/
def kvFlight (c tick n : Nat) (pairs : List (Nat × List Byte)) : List Landing :=
  (List.range (ceilDiv n 32)).map (fun k => ⟨2 * (tick + 3 + k) + 1, 11, c, .rowList ((pairs.drop (32 * k)).take 32)⟩)

/-- KVRD: the stored rows of a fresh page land, zeros of one whose generation differs (08 R195). -/
theorem fxKvrd_puts (hi : s.Issues c i .local) {hreg : BitVec 4} {greg : BitVec 3} {sp : Sr} {y : KvLayout} {at_ : RowsAt}
    (hk : s.KvChecked c.val hreg sp y at_) :
    let x := s.core c.val
    let h := Handle.ofWord (Tab.get 0 x.ctl.regs hreg.toNat)
    let addrs := y.addrs x.ws (s.logical c.val) h
    let fresh := s.pageGen y.slot (y.groupOf (s.logical c.val) h.page) = cnt x.ctl.regs greg % 65536
    addrs.all (fun a => !x.ws.rowBad a) = true →
    (fresh → s.Puts ((s.decoded c i).fxKvrd (s.ctxOf c i) hreg greg sp) c.val
      { s.issued c i .local (ceilDiv (h.count * y.ws) 32) with ws := addrs.foldl (fun w a => w.correctRow a) x.ws }
      (kvFlight c.val s.clk.tick (h.count * y.ws) (at_.rows.zip (addrs.map (fun a => x.ws.mem.read a 64))))) ∧
    (¬fresh → s.Puts ((s.decoded c i).fxKvrd (s.ctxOf c i) hreg greg sp) c.val
      { s.issued c i .local (ceilDiv (h.count * y.ws) 32) with xfer := { x.xfer with staleReads := x.xfer.staleReads + 1 } }
      (kvFlight c.val s.clk.tick (h.count * y.ws) (at_.rows.zip (addrs.map (fun _ => List.replicate 64 0))))) := by
  intro x h addrs fresh hgood
  have hy : (s.decoded c i).kvLayout (s.ctxOf c i).core = some y := hk.layout
  have hfail : pickFail [(s.decoded c i).kvFail (s.ctxOf c i) h (Tab.get 0 x.ctl.regs hreg.toNat), none] = none := by
    rw [State.kvFail_eq_none hy hk.handle]
    rfl
  have hfind : addrs.find? x.ws.rowBad = none := by simpa using hgood
  simp only [State.fxKvrd, State.spOf_decoded, State.ctxOf_regs, reg, hy, Option.getD_some, hk.rows]
  refine ⟨fun hfresh => hi.issueIn_puts hfail fun t ht => ?_, fun hstale => hi.issueIn_puts hfail fun t ht => ?_⟩
  all_goals
    have hlog : t.logical = s.logical := ht.only.congr (·.logical)
    have hpage : t.pageGen = s.pageGen := ht.only.congr (·.pageGen)
    have hws : (t.core c.val).ws = x.ws := by rw [ht.core]; rfl
    simp only [State.ctxOf_core, hlog, hpage, hws]
  · rw [if_pos (beq_iff_eq.mpr hfresh)]
    split
    next a hbad => exact absurd (hbad.symm.trans hfind) (Option.some_ne_none a)
    next =>
      refine State.Puts.foldl_land (fun u k ls hu => ?_)
        (ht.updCore fun x => { x with ws := addrs.foldl (fun w a => w.correctRow a) x.ws }) _
      exact ((hu.landEnd ..).use ..).use ..
  · rw [if_neg (by rw [beq_iff_eq]; exact hstale)]
    refine State.Puts.foldl_land (fun u k ls hu => ?_) (ht.updXfer fun m => { m with staleReads := m.staleReads + 1 }) _
    exact ((hu.landEnd ..).use ..).use ..

/-- KVWR to a page of the package: its first rows are read; the last ones are followed by the landing of them all (08 R195). -/
theorem fxKvwr_puts (hi : s.Issues c i .local) {hreg : BitVec 4} {greg : BitVec 3} {sp : Sr} {y : KvLayout} {at_ : RowsAt}
    (hk : s.KvChecked c.val hreg sp y at_) :
    let x := s.core c.val
    let h := Handle.ofWord (Tab.get 0 x.ctl.regs hreg.toNat)
    let addrs := y.addrs x.ws (s.logical c.val) h
    let page := y.groupOf (s.logical c.val) h.page
    let gen : BitVec 16 := (Tab.get 0 x.ctl.regs (16 + greg.toNat)).setWidth 16
    Tab.get 0 (Recs.get [] s.pageGens y.slot) page = gen.toNat →
    (at_.rows.take 32).all (fun q => !x.sp.rowBad q) = true →
    s.Puts ((s.decoded c i).fxKvwr (s.ctxOf c i) hreg greg sp) c.val
      { s.issued c i .local (ceilDiv (h.count * y.ws) 32) with sp := x.sp.correct (at_.rows.take 32) }
      [if at_.rows.drop 32 = [] then ⟨2 * (s.clk.tick + 3) + 1, 12, c.val, .wsRows (addrs.zip ((at_.rows.take 32).map x.sp.row))⟩
       else ⟨2 * (s.clk.tick + 1), 6, c.val, .rowRead (x.sp.readOn at_.rows (.kvLocal addrs gen y.slot page) none (s.entryOf c i))⟩] := by
  intro x h addrs page gen hgen hgood
  have hy : (s.decoded c i).kvLayout (s.ctxOf c i).core = some y := hk.layout
  simp only [State.fxKvwr, State.spOf_decoded, State.ctxOf_regs, reg, hy, Option.getD_some, hk.rows]
  refine hi.issueIn_puts ?_ fun t ht => ?_
  · rw [State.kvFail_eq_none hy hk.handle]
    rfl
  · have hlog : t.logical = s.logical := ht.only.congr (·.logical)
    have hws : (t.core c.val).ws = x.ws := by rw [ht.core]; rfl
    simp only [State.ctxOf_core, hlog, hws]
    refine ht.startRead (z := s.ctxOf c i) (s.Puts · c.val _ _) hgood (fun u hu => hu) (fun hmore u hu => ?_) (fun hend u hu => ?_)
    · rw [if_neg hmore]
      exact hu
    · have hgens : u.pageGens = s.pageGens := hu.only.congr (·.pageGens)
      rw [if_pos hend]
      simp only [State.sinkEnd, SPad.readOn, hgens]
      rw [if_pos (beq_iff_eq.mpr hgen)]
      exact (hu.landEnd ..).use ..

end

/-! ### The obligation of the pages -/

/-- Settles O35: the page is read in the issue tick, where its generation is compared too (log entry 22); a KVWR reads its rows first. -/
theorem kvWordsComplete : Obligations.KvWordsComplete := by
  unfold Obligations.KvWordsComplete
  intro s c δ hreg greg sp y at_ T x r h l n addrs gen hy hbad hrow hgood flight
  have hk : s.KvChecked c.val hreg sp y at_ := ⟨hy, hbad, hrow⟩
  refine ⟨?kvrd, ?kvwr⟩
  case kvrd =>
    intro i hi
    obtain ⟨hfresh, hstale⟩ := fxKvrd_puts (greg := greg) hi hk hgood
    exact ⟨fun hgen => exec_becomes rfl rfl hi (hfresh hgen) ⟨rfl, rfl, rfl⟩,
      fun hgen => exec_becomes rfl rfl hi (hstale hgen) ⟨rfl, rfl, rfl⟩⟩
  case kvwr =>
    intro i hgen now rest hok hi
    exact exec_becomes rfl rfl hi (fxKvwr_puts hi hk hgen hok) ⟨rfl, rfl, rfl⟩

end Sys2Proof.Machine
end

section
/-! PROOF. Words that open a transfer of their own: host reads and writes, key-directory lookups and updates, writes of a page of another
core (08 R187, R188, R194, R195, R199, R200). -/

namespace Sys2Proof.Machine

/-! ### Transfer ids -/

/-- The open transfer of a word that has just opened it (08 R188). -/
def Ctx.opened (z : Ctx) (tid : BitVec 12) (form : TidForm) (rows : RowRef) (want : Nat) : OpenTid :=
  { tid := tid.toNat, form := form, rows := rows, rcvd := 0, total := none, complete := false, offset := z.entry.offset
    opcode := z.entry.opcode, head := none, digest := 0, discard := false, mismatch := false, faulty := false, want := want, got := 0 }

/-- The core with one more open transfer. -/
def Core.opens (x : Core) (o : OpenTid) : Core := { x with xfer := { x.xfer with tids := x.xfer.tids ++ [o] } }

/-- Core c may open the id, and no cell waits there (08 R188). -/
structure State.CanOpen (s : State) (c : Nat) (tid : BitVec 12) : Prop where
  closed : (s.core c).xfer.tids.all (·.tid != tid.toNat) = true
  room : (s.core c).xfer.tids.length < 64
  idle : (s.core c).xfer.waiting = []

section
variable {s t : State} {x : Core} {ls : List Landing}

theorem State.Puts.openTid {z : Ctx} (h : s.Puts t z.core x ls) (hidle : x.xfer.waiting = []) (tid : BitVec 12) (form : TidForm)
    (rows : RowRef) (want : Nat) :
    s.Puts (t.openTid z tid form rows want) z.core (x.opens (z.opened tid form rows want)) ls := by
  have hopen := h.updXfer (fun m => { m with tids := m.tids ++ [z.opened tid form rows want] })
  have hfiltered := hopen.updXfer (fun m => { m with waiting := m.waiting.filter (fun w => !(w.cell.tid == tid && byTid w.cell.kind)) })
  have hsame : x.opens (z.opened tid form rows want) = { x with xfer := { x.xfer with
      tids := x.xfer.tids ++ [z.opened tid form rows want]
      waiting := x.xfer.waiting.filter (fun w => !(w.cell.tid == tid && byTid w.cell.kind)) } } := by
    rw [hidle, List.filter_nil, ← hidle]
    rfl
  have hwait : ((t.updXfer z.core (fun m => { m with tids := m.tids ++ [z.opened tid form rows want] })).core z.core).xfer.waiting = [] := by
    rw [hopen.core]
    exact hidle
  show s.Puts (State.retryCells _ z.core ((((t.updXfer z.core (fun m => { m with tids := m.tids ++ [z.opened tid form rows want] })).core
    z.core).xfer.waiting).filter (fun w => w.cell.tid == tid && byTid w.cell.kind))) _ _ _
  rw [hwait, hsame]
  exact hfiltered

theorem State.tidFail_eq_none {z : Ctx} {tid : BitVec 12} (hclosed : (s.core z.core).xfer.tids.all (·.tid != tid.toNat) = true)
    (hroom : (s.core z.core).xfer.tids.length < 64) : s.tidFail z tid = none := by
  have hnew : ((s.core z.core).xfer.tids.any (·.tid == tid.toNat)) = false := by
    rw [List.any_eq_not_all_not, Bool.not_eq_false']
    exact hclosed
  simp only [State.tidFail, hnew, decide_eq_false (Nat.not_le.mpr hroom)]
  rfl

/-! ### What leaves for the host and the directory -/

/-- The state in which a host read has been asked for (08 R199; log entry 9). -/
def State.asksHost (s : State) (r : Nat × Nat × Nat) : State := { s with out := { s.out with hostReads := s.out.hostReads ++ [r] } }

/-- The state in which a job waits for the directory (08 R200). -/
def State.asksDir (s : State) (j : KdJob) : State := { s with kdq := s.kdq ++ [j] }

/-- The directory's queue when a read may have ended. -/
theorem State.ite_asksDir (s : State) (p : Prop) [Decidable p] (j : KdJob) :
    (if p then s.asksDir j else s) = { s with kdq := if p then s.kdq ++ [j] else s.kdq } := by
  split <;> rfl

theorem State.Puts.asksHost {c : Nat} (h : s.Puts t c x ls) (r : Nat × Nat × Nat) : (s.asksHost r).Puts (t.asksHost r) c x ls where
  cores := h.cores
  landings := h.landings
  only := by
    unfold State.CoresOnly
    exact h.only.congr (State.asksHost · r)

theorem State.Puts.asksDir {c : Nat} (h : s.Puts t c x ls) (j : KdJob) : (s.asksDir j).Puts (t.asksDir j) c x ls where
  cores := h.cores
  landings := h.landings
  only := by
    unfold State.CoresOnly
    exact h.only.congr (State.asksDir · j)

/-- A read for the directory: the job waits there once the last row has been read (08 R200). -/
theorem State.Puts.startRead_dir {z : Ctx} (h : s.Puts t z.core x ls) {rows : List Nat} {sink : RowSink} {job : KdJob}
    (hgood : (rows.take 32).all (fun q => !x.sp.rowBad q) = true)
    (hsink : ∀ (u : State) data, u.sinkRows z.core sink 0 data = u)
    (hend : ∀ u : State, u.sinkEnd z.core z.tick (x.sp.readOn rows sink none z.entry) = u.asksDir job) :
    (if rows.drop 32 = [] then s.asksDir job else s).Puts (t.startRead z rows sink none) z.core
      { x with sp := x.sp.correct (rows.take 32) }
      (ls ++ if rows.drop 32 = [] then [] else [⟨2 * (z.tick + 1), 6, z.core, .rowRead (x.sp.readOn rows sink none z.entry)⟩]) := by
  refine h.startRead (y := { x with sp := x.sp.correct (rows.take 32) }) (State.Puts _ · z.core _ _) hgood
    (fun u hu => ?_) (fun hmore u hu => ?_) (fun hlast u hu => ?_)
  · rw [hsink]
    exact hu
  · rw [if_neg hmore, if_neg hmore]
    exact hu
  · rw [if_pos hlast, if_pos hlast, hend]
    exact hu.asksDir job

end

/-! ### The words -/

theorem countOk {n most : Nat} (hlo : 1 ≤ n) (hhi : n ≤ most) : ¬(n = 0 ∨ most < n) := by omega

section
variable {s : State} {c : CoreId} {i : Instr}

/-- As `exec_of_puts`, of a word that puts something beside its core. -/
theorem exec_of_puts_beside {s' : State} {sl : SlotId} {x : Core} {ls : List Landing} {eng : Engine} (hc : wordCore i = some c)
    (he : engineOf i = some eng) (hi : s.Issues c i sl) (hs : s'.cores = s.cores)
    (hp : s'.Puts ((s.decoded c i).fxOf (s.ctxOf c i) i) c.val x ls)
    (hx : x.ctl.laneQ = (s.core c.val).ctl.laneQ ∧ x.ctl.vecQ = (s.core c.val).ctl.vecQ ∧ x.ctl.moveQ = (s.core c.val).ctl.moveQ) :
    ∃ t, exec i s = .next t ∧ s'.Becomes t c x ls := by
  obtain ⟨hl, hv, hm⟩ := hx
  obtain ⟨h1, h2, h3⟩ := State.noQueue_core s c.val hi.noQueue
  have hq := hp.noQueue (State.noQueue_congr hs hi.noQueue) ⟨hl.trans h1, hv.trans h2, hm.trans h3⟩
  exact ⟨_, (exec_word hc s).trans (execWord_issues hi he hq), hp.becomes⟩

theorem State.CanOpen.tidFail {tid : BitVec 12} (h : s.CanOpen c.val tid) : (s.decoded c i).tidFail (s.ctxOf c i) tid = none := by
  refine State.tidFail_eq_none ?_ ?_
  · rw [State.ctxOf_core, State.decoded_core]
    exact h.closed
  · rw [State.ctxOf_core, State.decoded_core]
    exact h.room

/-- The window that HOSTRD and HOSTWR name (08 R199). -/
def State.windowOf (s : State) (c : Nat) (buf : BitVec 6) : HostWin := (s.func (s.ownerOf c)).win buf.toNat

theorem State.windowFail_eq_none {z : Ctx} {buf : BitVec 6} {off n : Nat} (halign : off % 64 = 0)
    (hlen : (s.windowOf z.core buf).len ≠ 0) (hfit : off + 64 * n ≤ (s.windowOf z.core buf).len) : s.windowFail z buf off n = none := by
  rw [State.windowOf] at hlen hfit
  simp [State.windowFail, halign, hlen, Nat.not_lt.mpr hfit, failIf, pickFail]

/-- HOSTRD (08 R199). -/
theorem fxHostrd_puts (hi : s.Issues c i .service) {buf : BitVec 6} {oreg : BitVec 4} {sp : Sr} {n : BitVec 3} {tid : BitVec 12}
    {at_ : RowsAt} (ho : s.CanOpen c.val tid) :
    let x := s.core c.val
    let count := cnt x.ctl.regs n
    let off := (Tab.get 0 x.ctl.regs oreg.toNat).toNat
    let w := s.windowOf c.val buf
    1 ≤ count → count ≤ 1024 → off % 64 = 0 → w.len ≠ 0 → off + 64 * count ≤ w.len →
    resolveSr x.sp x.ctl.regs sp count = (at_, none) →
    (s.asksHost (s.ownerOf c.val, w.base + off, 64 * count)).Puts
      ((s.decoded c i).fxHostrd (s.ctxOf c i) buf oreg sp n tid) c.val
      ((s.issued c i .service 1).opens ((s.ctxOf c i).opened tid .hostrd at_.ref count)) [] := by
  intro x count off w hlo hhi halign hlen hfit hrow
  have hcount : ¬(cnt (s.core c.val).ctl.regs n = 0 ∨ 1024 < cnt (s.core c.val).ctl.regs n) := countOk hlo hhi
  have hwin := State.windowFail_eq_none (z := s.ctxOf c i) halign hlen hfit
  simp only [State.fxHostrd, State.spOf_decoded, State.ctxOf_regs, hcount, decide_false, if_false]
  rw [hrow]
  refine hi.issueIn_leads (fun u => State.Puts _ u c.val _ _) ?_ fun t ht => ?_
  · rw [ho.tidFail]
    show pickFail [_, s.windowFail (s.ctxOf c i) buf off count, none, none] = none
    rw [hwin]
    rfl
  · have hopen := ht.openTid (z := s.ctxOf c i) ho.idle tid .hostrd at_.ref count
    have howner : t.ownerOf = s.ownerOf := ht.only.congr (·.ownerOf)
    have hfunc : (t.openTid (s.ctxOf c i) tid .hostrd at_.ref count).func = s.func := hopen.only.congr (·.func)
    show State.Puts _ (State.asksHost _ (t.ownerOf c.val,
      (((t.openTid (s.ctxOf c i) tid .hostrd at_.ref count).func (t.ownerOf c.val)).win buf.toNat).base + off, 64 * count)) _ _ _
    rw [howner, hfunc]
    exact hopen.asksHost _

/-- HOSTWR (08 R199). -/
theorem fxHostwr_puts (hi : s.Issues c i .service) {buf : BitVec 6} {oreg : BitVec 4} {sp : Sr} {n : BitVec 3} {tid : BitVec 12}
    {at_ : RowsAt} (ho : s.CanOpen c.val tid) :
    let x := s.core c.val
    let count := cnt x.ctl.regs n
    let off := (Tab.get 0 x.ctl.regs oreg.toNat).toNat
    let w := s.windowOf c.val buf
    let y := (s.issued c i .service (ceilDiv count 32)).opens ((s.ctxOf c i).opened tid .hostwr ⟨none, 0, false⟩ count)
    1 ≤ count → count ≤ 1024 → off % 64 = 0 → w.len ≠ 0 → off + 64 * count ≤ w.len →
    resolveSr x.sp x.ctl.regs sp count = (at_, none) → (at_.rows.take 32).all (fun q => !x.sp.rowBad q) = true →
    s.Puts ((s.decoded c i).fxHostwr (s.ctxOf c i) buf oreg sp n tid) c.val
      { y with
        sp := x.sp.correct (at_.rows.take 32)
        xfer := { y.xfer with hostOut := y.xfer.hostOut ++
          ((at_.rows.take 32).map x.sp.row).zipIdx.map (fun p => (tid.toNat, w.base + off + 64 * p.2, p.1)) } }
      (if at_.rows.drop 32 = [] then [] else [⟨2 * (s.clk.tick + 1), 6, c.val,
        .rowRead (x.sp.readOn at_.rows (.hostwr (w.base + off) tid.toNat) none (s.entryOf c i))⟩]) := by
  intro x count off w y hlo hhi halign hlen hfit hrow hgood
  have hcount : ¬(cnt (s.core c.val).ctl.regs n = 0 ∨ 1024 < cnt (s.core c.val).ctl.regs n) := countOk hlo hhi
  have hwin := State.windowFail_eq_none (z := s.ctxOf c i) halign hlen hfit
  simp only [State.fxHostwr, State.spOf_decoded, State.ctxOf_regs, hcount, decide_false, if_false]
  rw [hrow]
  refine hi.issueIn_puts ?_ fun t ht => ?_
  · rw [ho.tidFail]
    show pickFail [_, s.windowFail (s.ctxOf c i) buf off count, none, none] = none
    rw [hwin]
    rfl
  · have howner : t.ownerOf = s.ownerOf := ht.only.congr (·.ownerOf)
    have hfunc : t.func = s.func := ht.only.congr (·.func)
    rw [howner, hfunc]
    exact (ht.openTid (z := s.ctxOf c i) ho.idle tid .hostwr ⟨none, 0, false⟩ count).startRead_sent (z := s.ctxOf c i) hgood
      (fun u hu => hu.sinkRows_hostwr ..) (fun u r hr => by rw [State.sinkEnd, hr])

/-- The directory's region stands as it stood when a word is decoded. -/
theorem State.hasDir_decoded (s : State) (c : CoreId) (i : Instr) : (s.decoded c i).hasDir = s.hasDir := by
  have hws : ∀ d, ((s.decoded c i).core d).ws = (s.core d).ws := by
    intro d
    by_cases hd : d = c.val
    · rw [hd, State.decoded_core]
    · rw [State.decoded, State.updCtl_core_ne _ _ hd]
  unfold State.hasDir
  simp only [hws]
  rfl

/-- KDLOOK (08 R200). -/
theorem fxKdlook_puts (hi : s.Issues c i .service) {sp : Sr} {n : BitVec 3} {rreg : BitVec 4} {tid : BitVec 12}
    {at_ : RowsAt} (ho : s.CanOpen c.val tid) :
    let x := s.core c.val
    let count := cnt x.ctl.regs n
    let dst := (Tab.get 0 x.ctl.regs rreg.toNat).toNat
    let y := (s.issued c i .service (ceilDiv (ceilDiv count 8) 32)).opens ((s.ctxOf c i).opened tid .kdlook ⟨none, dst, false⟩ count)
    let keys := ((at_.rows.take 32).map x.sp.row).flatten
    let job : KdJob := ⟨c.val, tid.toNat, false, false, (List.range count).map (fun k => sliceB keys (8 * k) 8), dst, 0⟩
    1 ≤ count → count ≤ 8192 → dst + ceilDiv count 8 ≤ spRows → s.hasDir = true →
    resolveSr x.sp x.ctl.regs sp (ceilDiv count 8) = (at_, none) → (at_.rows.take 32).all (fun q => !x.sp.rowBad q) = true →
    (if at_.rows.drop 32 = [] then s.asksDir job else s).Puts ((s.decoded c i).fxKdlook (s.ctxOf c i) sp n rreg tid) c.val
      { y with sp := x.sp.correct (at_.rows.take 32) }
      (if at_.rows.drop 32 = [] then [] else [⟨2 * (s.clk.tick + 1), 6, c.val,
        .rowRead (x.sp.readOn at_.rows (.kdlook count dst tid.toNat) none (s.entryOf c i))⟩]) := by
  intro x count dst y keys job hlo hhi hfit hdir hrow hgood
  have hcount : ¬(cnt (s.core c.val).ctl.regs n = 0 ∨ 8192 < cnt (s.core c.val).ctl.regs n) := countOk hlo hhi
  simp only [State.fxKdlook, State.spOf_decoded, State.ctxOf_regs, hcount, decide_false, if_false, State.hasDir_decoded, hdir]
  rw [hrow]
  refine hi.issueIn_leads (State.Puts _ · c.val _ _) ?_ fun t ht => ?_
  · rw [ho.tidFail]
    show pickFail [none, none, failIf (decide (spRows < dst + ceilDiv count 8)) .badAddress dst, none, none] = none
    rw [decide_eq_false (Nat.not_lt.mpr hfit)]
    rfl
  · exact (ht.openTid (z := s.ctxOf c i) ho.idle tid .kdlook ⟨none, dst, false⟩ count).startRead_dir (z := s.ctxOf c i) hgood
      (fun _ _ => rfl) (fun _ => rfl)

/-- KDPUT (08 R200). -/
theorem fxKdput_puts (hi : s.Issues c i .service) {sp : Sr} {n : BitVec 3} {op : Bool} {tid : BitVec 12}
    {at_ : RowsAt} (ho : s.CanOpen c.val tid) :
    let x := s.core c.val
    let count := cnt x.ctl.regs n
    let y := (s.issued c i .service (ceilDiv (ceilDiv count 4) 32)).opens ((s.ctxOf c i).opened tid .kdput ⟨none, 0, false⟩ count)
    let entries := ((at_.rows.take 32).map x.sp.row).flatten
    let job : KdJob := ⟨c.val, tid.toNat, true, op, (List.range count).map (fun k => sliceB entries (16 * k) 16), 0, 0⟩
    1 ≤ count → count ≤ 4096 → s.hasDir = true →
    resolveSr x.sp x.ctl.regs sp (ceilDiv count 4) = (at_, none) → (at_.rows.take 32).all (fun q => !x.sp.rowBad q) = true →
    (if at_.rows.drop 32 = [] then s.asksDir job else s).Puts ((s.decoded c i).fxKdput (s.ctxOf c i) sp n op tid) c.val
      { y with sp := x.sp.correct (at_.rows.take 32) }
      (if at_.rows.drop 32 = [] then [] else [⟨2 * (s.clk.tick + 1), 6, c.val,
        .rowRead (x.sp.readOn at_.rows (.kdput count op tid.toNat) none (s.entryOf c i))⟩]) := by
  intro x count y entries job hlo hhi hdir hrow hgood
  have hcount : ¬(cnt (s.core c.val).ctl.regs n = 0 ∨ 4096 < cnt (s.core c.val).ctl.regs n) := countOk hlo hhi
  simp only [State.fxKdput, State.spOf_decoded, State.ctxOf_regs, hcount, decide_false, if_false, State.hasDir_decoded, hdir]
  rw [hrow]
  refine hi.issueIn_leads (State.Puts _ · c.val _ _) ?_ fun t ht => ?_
  · rw [ho.tidFail]
    rfl
  · exact (ht.openTid (z := s.ctxOf c i) ho.idle tid .kdput ⟨none, 0, false⟩ count).startRead_dir (z := s.ctxOf c i) hgood
      (fun _ _ => rfl) (fun _ => rfl)

/-- A remote page write's destination word has been checked, and names a layout: the package's own, or that of the member whose place the
word gives (08 R176, R194). -/
def State.Holds (s : State) (c : Nat) (d : W32) (y : KvLayout) (ws g : Nat) (shards : Tab Nat) (holder : Nat) : Prop :=
  if s.destHere d then destReserved d = 0 ∧ (ws, g, shards) = (y.ws, y.g, y.shards) ∧ s.targetFail c holder = none
  else s.destFail d = none ∧ ((s.group y.slot).members.find? (·.place == destPlace d)).map (fun m => (m.ws, m.g, m.shards)) =
    some (ws, g, shards)

/-- What the word's checks find: the destination answers, the layout is that of the holder's package, the holder may be written. -/
theorem State.Holds.checked {k : Nat} {d : W32} {y : KvLayout} {ws g : Nat} {shards : Tab Nat} {holder : Nat}
    (h : s.Holds k d y ws g shards holder) :
    (if s.destHere d then failIf (destReserved d != 0) .badDest d.toNat else s.destFail d) = none ∧
    (if s.destHere d then some (y.ws, y.g, y.shards)
      else ((s.group y.slot).members.find? (·.place == destPlace d)).map (fun m => (m.ws, m.g, m.shards))) = some (ws, g, shards) ∧
    (if s.destHere d then s.targetFail k holder else none) = none := by
  unfold State.Holds at h
  by_cases hown : s.destHere d
  · simp only [hown, if_true] at h ⊢
    obtain ⟨hres, hlayout, htarget⟩ := h
    exact ⟨by rw [hres]; rfl, congrArg some hlayout.symm, htarget⟩
  · simp only [hown] at h ⊢
    obtain ⟨hdest, hfar⟩ := h
    exact ⟨hdest, hfar, rfl⟩

/-- KVWR with REMOTE 1: the head cell, then the cells of the rows (08 R194, R195). -/
theorem fxKvwrRemote_puts (hi : s.Issues c i .out) {hreg : BitVec 4} {greg : BitVec 3} {sp : Sr} {dreg : BitVec 4} {tid : BitVec 12}
    {y : KvLayout} {ws g : Nat} {shards : Tab Nat} {holder : Nat} {at_ : RowsAt} (ho : s.CanOpen c.val tid)
    (hy : s.kvLayout c.val = some y) (hholder : pageCore g shards (Handle.ofWord (Tab.get 0 (s.core c.val).ctl.regs hreg.toNat)).page = some holder)
    (hheld : s.Holds c.val (Tab.get 0 (s.core c.val).ctl.regs dreg.toNat) y ws g shards holder) :
    let x := s.core c.val
    let word := Tab.get 0 x.ctl.regs hreg.toNat
    let h := Handle.ofWord word
    let d := Tab.get 0 x.ctl.regs dreg.toNat
    let total := h.count * ws
    let dst := mkDest holder (destPlace d) (s.destHere d)
    let head := leBytes 4 word.toNat ++ leBytes 2 (cnt x.ctl.regs greg) ++ [0, 0] ++
      leBytes 4 (mkDest (s.logical c.val) s.place (s.destHere d)).toNat
    let y := (s.issued c i .out (ceilDiv total 32)).opens ((s.ctxOf c i).opened tid .kvwr ⟨none, 0, false⟩ 0)
    h.bad 0 (pageBase g shards 288) = false → total ≤ 1023 →
    resolveSr x.sp x.ctl.regs sp total = (at_, none) → (at_.rows.take 32).all (fun q => !x.sp.rowBad q) = true →
    s.Puts ((s.decoded c i).fxKvwrRemote (s.ctxOf c i) hreg greg sp dreg tid) c.val
      { y with
        sp := x.sp.correct (at_.rows.take 32)
        xfer := { y.xfer with outbound := y.xfer.outbound ++
          [mkCell dst s.place holder 2 0 0 (s.tenantOf c.val) tid 0 (2 * total + 1) .kvwr head] ++
          ((at_.rows.take 32).map x.sp.row).zipIdx.flatMap (fun p => rowCells s c.val dst 2 0 0 tid (2 * p.2 + 1) (2 * total + 1) .kvwr p.1) } }
      (if at_.rows.drop 32 = [] then [] else [⟨2 * (s.clk.tick + 1), 6, c.val,
        .rowRead (x.sp.readOn at_.rows (.kvRemote dst tid (2 * total + 1)) none (s.entryOf c i))⟩]) := by
  intro x word h d total dst head z hbad hfit hrow hgood
  have hy' : (s.decoded c i).kvLayout c.val = some y := hy
  obtain ⟨hdest, hlayout, htarget⟩ := hheld.checked
  have hhere : (s.decoded c i).destHere = s.destHere := rfl
  have hgroup : (s.decoded c i).group = s.group := rfl
  have hdestFail : (s.decoded c i).destFail = s.destFail := rfl
  have htargetFail : (s.decoded c i).targetFail = s.targetFail := rfl
  simp only [State.fxKvwrRemote, State.spOf_decoded, State.ctxOf_regs, State.ctxOf_core, reg, hy', hhere, hgroup, hdestFail, htargetFail]
  rw [hlayout]
  simp only [Option.getD_some, hholder]
  rw [hrow]
  refine hi.issueIn_puts ?_ fun t ht => ?_
  · rw [hdest, htarget, hbad, decide_eq_false (Nat.not_lt.mpr hfit), ho.tidFail, Option.isNone_some, Option.isNone_some]
    simp [failIf, pickFail]
  · have hopen := ht.openTid (z := s.ctxOf c i) ho.idle tid .kvwr ⟨none, 0, false⟩ 0
    have hlog := hopen.only.congr (·.logical)
    have hplace := hopen.only.congr (·.place)
    have htenant := hopen.only.congr (·.tenantOf)
    rw [hlog, hplace, htenant]
    refine (hopen.emit _).startRead_sent (z := s.ctxOf c i) hgood (fun u hu => ?_) (fun u r hr => by rw [State.sinkEnd, hr])
    exact hu.sinkRows_kvRemote ..
end

/-! ### The obligation -/

/-- Settles O38: each word opens its id and then asks the host, or reads its rows into its sink; where the last row is read at once, the job
waits for the directory in the issue tick (log entry 9 for KVWR with REMOTE 1). -/
theorem serviceWordsComplete : Obligations.ServiceWordsComplete := by
  unfold Obligations.ServiceWordsComplete
  intro s c δ tid sp n at_ x r count now rest data w Opened more hclosed hroom hidle hlo hgood
  have ho : s.CanOpen c.val tid := ⟨hclosed, hroom, hidle⟩
  refine ⟨?hostrd, ?hostwr, ?kdlook, ?kdput, ?kvwr⟩
  case hostrd =>
    intro buf oreg i off hi hhi halign hlen hfit hrow
    obtain ⟨t, hexec, hbecomes⟩ := exec_of_puts_beside rfl rfl hi (by rfl) (fxHostrd_puts hi ho hlo hhi halign hlen hfit hrow) ⟨rfl, rfl, rfl⟩
    exact ⟨t, (s.ctxOf c i).opened tid .hostrd at_.ref count, hexec, rfl, rfl, rfl, rfl, hbecomes⟩
  case hostwr =>
    intro buf oreg i off hi hhi halign hlen hfit hrow
    obtain ⟨t, hexec, hbecomes⟩ := exec_becomes rfl rfl hi (fxHostwr_puts hi ho hlo hhi halign hlen hfit hrow hgood) ⟨rfl, rfl, rfl⟩
    exact ⟨t, (s.ctxOf c i).opened tid .hostwr ⟨none, 0, false⟩ count, hexec, rfl, rfl, rfl, rfl, hbecomes⟩
  case kdlook =>
    intro rreg i dst hi hhi hfit hdir hrow
    obtain ⟨t, hexec, hbecomes⟩ := exec_of_puts_beside rfl rfl hi (by split <;> rfl)
      (fxKdlook_puts hi ho hlo hhi hfit hdir hrow hgood) ⟨rfl, rfl, rfl⟩
    refine ⟨t, (s.ctxOf c i).opened tid .kdlook ⟨none, (Tab.get 0 r rreg.toNat).toNat, false⟩ count, hexec, rfl, rfl, rfl, rfl, ?_⟩
    rw [State.ite_asksDir] at hbecomes
    exact hbecomes
  case kdput =>
    intro op i hi hhi hdir hrow
    obtain ⟨t, hexec, hbecomes⟩ := exec_of_puts_beside rfl rfl hi (by split <;> rfl)
      (fxKdput_puts hi ho hlo hhi hdir hrow hgood) ⟨rfl, rfl, rfl⟩
    refine ⟨t, (s.ctxOf c i).opened tid .kdput ⟨none, 0, false⟩ count, hexec, rfl, rfl, rfl, rfl, ?_⟩
    rw [State.ite_asksDir] at hbecomes
    exact hbecomes
  case kvwr =>
    intro hreg greg dreg y ws g shards holder i word h d own dst total head hi hy hheld hholder hbad hfit hrow
    obtain ⟨t, hexec, hbecomes⟩ := exec_becomes rfl rfl hi
      (fxKvwrRemote_puts (greg := greg) hi ho hy hholder hheld hbad hfit hrow hgood) ⟨rfl, rfl, rfl⟩
    exact ⟨t, (s.ctxOf c i).opened tid .kvwr ⟨none, 0, false⟩ 0, hexec, rfl, rfl, rfl, rfl, hbecomes⟩

end Sys2Proof.Machine
end

section
/-! PROOF. On-die scheduled reads of one row by two cores in one tick share the access, and so its correction (05 R96, R97, R109; 08 R198). -/

namespace Sys2Proof.Machine

/-- The on-die scheduled read of row 0 of core 1 into row 0 of core k (08 R198). -/
def onDieReadBy (k : CoreId) : Instr := .recvOnDieRead k 0 1 0 ⟨0, 0, 0⟩

/-- Three cores, and a single-bit error in row 0 of core 1. -/
def rowUpset : State :=
  { State.reset with
    enabled := [0, 1, 2]
    cores := [(1, { Core.reset with sp := { SPad.reset with errs := [(0, .single)] } })] }

/-- Core 2 has read the row in the present tick. -/
def rowReadByAnother : State := match exec (onDieReadBy 2) rowUpset with | .next t => t | _ => rowUpset

theorem rowReadByAnother_issues : rowReadByAnother.Issues 0 (onDieReadBy 0) .into := by
  delta State.Issues State.Decodes State.NoQueue
  and_intros <;> decide

/-- The other core's read has counted the error once; the statement's next state counts it again. -/
theorem rowReadByAnother_correct :
    ((rowReadByAnother.core 1).sp.correct [0]).corrected = 2 := by decide

/-- The model's next state does not: core 1's scratchpad has been read once (05 R97). -/
theorem exec_onDieReadBy_corrected (t : State) (h : exec (onDieReadBy 0) rowReadByAnother = .next t) : (t.core 1).sp.corrected = 1 := by
  have hrun : (match exec (onDieReadBy 0) rowReadByAnother with | .next u => (u.core 1).sp.corrected | _ => 0) = 1 := by decide
  rw [h] at hrun
  exact hrun

/-- Refutes O37: of two on-die scheduled reads of one row in one tick the second shares the first's access (05 R97), so that the source
corrects its error once, where the statement has every read correct the row again. -/
theorem not_receiveWordsComplete : ¬ Obligations.ReceiveWordsComplete := by
  unfold Obligations.ReceiveWordsComplete
  intro hall
  obtain ⟨-, -, -, -, hread⟩ := hall rowReadByAnother 0 0 0 ⟨0, 0, 0⟩ ⟨[0], ⟨none, 0, false⟩⟩
  obtain ⟨t, hexec, -, hsource, -⟩ := hread 1 0 1 rowReadByAnother_issues (by decide) (by decide) (by decide) (by decide)
    (by decide) (by decide)
  have hone := exec_onDieReadBy_corrected t hexec
  rw [hsource] at hone
  exact absurd (hone.symm.trans rowReadByAnother_correct) (by decide)

end Sys2Proof.Machine
end

section
/-! PROOF. A cycle of a quiet block: where no hold is in force the counter passes, otherwise the cycle is a held one (09 R204, R206). -/

namespace Sys2Proof.Machine

section
variable {s : State}

theorem step_of_pending_nil (h : s.pending = []) : step s = .next s.idle := by
  rw [step, h]

/-- What is fresh in the package does not bear on how station time runs. -/
theorem State.passTime_fresh (s : State) :
    ({ s with pkg := { s.pkg with fresh := [] } } : State).passTime = { s.passTime with pkg := { s.pkg with fresh := [] } } := by
  unfold State.passTime
  split
  · rfl
  · rfl

theorem State.passTime_clk (s : State) : s.passTime.clk = s.clk := by rw [s.passTime_frame]

/-- The state after a held cycle: the counter keeps its value (09 R206). -/
def State.heldOn (s : State) : State :=
  { s with clk := { s.clk with heldTotal := s.clk.heldTotal + 1, heldRun := s.clk.heldRun + 1 } }

namespace State.AtRest

variable (h : s.AtRest)
include h

theorem fresh : ({ s with pkg := { s.pkg with fresh := [] } } : State).AtRest :=
  ⟨h.landings, h.steps, h.swaps, h.late, h.conflicts, h.uses, h.previews, h.change, h.suspended, h.debug, h.posted⟩

/-- A hold stops the counter where it stands (09 R214). -/
theorem not_mayReach_next (hholds : s.clk.holds ≠ []) : s.mayReach (s.clk.tick + 1) = false := by
  have hlimit : s.limit = some s.clk.tick := by simp [State.limit, h.late, h.change, hholds]
  rw [State.mayReach, hlimit]
  simp

/-- A cycle under a hold: station time runs, and the cycle is a held one. -/
theorem cycle_held (hholds : s.clk.holds ≠ []) : s.cycle = s.passTime.heldOn := by
  have hp := h.passTime
  have hstops : s.passTime.mayReach (s.passTime.clk.tick + 1) = false := hp.not_mayReach_next (by rw [s.passTime_clk]; exact hholds)
  rw [State.cycle, h.resumePaused, hp.arrivals, hp.endTick, hp.beginDecodes, hp.readyChecks, hstops]
  rfl

/-- The clock command of a block at rest is its cycle: no slot has loaded. -/
theorem idle_eq_cycle_post : s.idle = (({ s with pkg := { s.pkg with fresh := [] } } : State).cycle).post := by
  have hloaded : (List.range 16).foldl State.checkLoaded { s with pkg := { s.pkg with fresh := [] } } =
      { s with pkg := { s.pkg with fresh := [] } } := foldl_eq_self fun g _ => h.fresh.checkLoaded g
  rw [State.idle, hloaded]

theorem idle_held (hholds : s.clk.holds ≠ []) :
    s.idle = ({ s.passTime with pkg := { s.pkg with fresh := [] } } : State).heldOn := by
  rw [h.idle_eq_cycle_post, h.fresh.cycle_held hholds, State.passTime_fresh, State.post_of_posted]
  exact h.passTime.posted

end State.AtRest

theorem State.Quiet.idle_passes (h : s.Quiet) (hholds : s.clk.holds = []) :
    s.idle = ({ s.passTime with pkg := { s.pkg with fresh := [] } } : State).ticked := by
  have hrest := h.atRest
  obtain ⟨hnq, -⟩ := h
  have hframe := s.nextTick_frame
  have hpump : s.nextTick.pumpAll = s.nextTick :=
    State.pump_noQueue _ _ (State.noQueue_congr (by rw [hframe]) hnq)
  have hposted : s.nextTick.post = s.nextTick := State.post_of_posted (by rw [hframe]; exact hrest.posted)
  rw [hrest.idle hholds, hpump, hposted, State.nextTick, State.passTime_fresh]

end

/-! ### The obligation -/

/-- Settles O2: of the idle cycle of a quiet block only station time is left, and the counter that passes or is held. -/
theorem idleStepIsOneCycle : Obligations.IdleStepIsOneCycle := by
  unfold Obligations.IdleStepIsOneCycle
  intro s hpend
  refine ⟨step_of_pending_nil hpend, fun hquiet hholds => ?_, fun hquiet hholds => ?_⟩
  · rw [step_of_pending_nil hpend, hquiet.idle_passes hholds, State.ticked, State.passTime_clk]
  · rw [step_of_pending_nil hpend, hquiet.atRest.idle_held hholds, State.heldOn, State.passTime_clk]

end Sys2Proof.Machine
end

section
/-! PROOF. What leaves a core, and host reads that fail (09 R209; 12 R295, R298; 18 R400). A cell that the switch discards may stop the step
of its destination (20 R468): no queue gains an entry by that. -/

namespace Sys2Proof.Machine

/-! ### What changes no core -/

section
variable {s t : State}

theorem State.HostOnly.cores_eq (h : s.HostOnly t) : t.cores = s.cores := by
  unfold State.HostOnly at h
  rw [h]

theorem State.complete_hostOnly (s : State) (x : SubRef) (bs : List Byte) : s.HostOnly (s.complete x bs) := by
  unfold State.complete
  split
  · exact s.ringWrite_hostOnly ..
  · rfl

theorem State.tokenRecord_hostOnly (s : State) (f ring : Nat) (bs : List Byte) : s.HostOnly (s.tokenRecord f ring bs) := by
  unfold State.tokenRecord
  split
  · exact s.ringWrite_hostOnly ..
  · rfl

theorem State.endRecord_hostOnly (s : State) (g e code : Nat) : s.HostOnly (s.endRecord g e code) := by
  unfold State.endRecord State.reqRecord
  dsimp only
  split
  · rfl
  · exact s.tokenRecord_hostOnly ..

theorem State.deliver_hostOnly (s : State) (f : Nat) (r : StepRec) : s.HostOnly (s.deliver f r) := by
  unfold State.deliver
  split
  · exact (s.ringWrite_hostOnly ..).trans (State.raise_hostOnly ..)
  · rfl

/-- A fold of what leaves the cores as they are leaves them so. -/
theorem State.foldl_cores {α : Type} {f : State → α → State} (h : ∀ u a, (f u a).cores = u.cores) (s : State) (l : List α) :
    (l.foldl f s).cores = s.cores :=
  List.foldlRecOn (motive := fun u => u.cores = s.cores) l f rfl fun u hu a _ => (h u a).trans hu

theorem State.logFault_cores (s : State) (reason : BitVec 16) (cls outcome : Nat) (slot : Option Nat) (step : W64) (unit sub : BitVec 16)
    (detail : Nat) : (s.logFault reason cls outcome slot step unit sub detail).cores = s.cores := by
  have hraise (u : State) (f : Nat) (e : Event) : (u.raise f e).cores = u.cores := (u.raise_hostOnly f e).cores_eq
  unfold State.logFault State.takeFree
  cases detailGiven reason <;> cases slot <;> simp [apply_ite State.cores, hraise]

theorem State.freeGroups_cores (s : State) (g : Nat) (ps : List Nat) : (s.freeGroups g ps).cores = s.cores := by
  unfold State.freeGroups
  refine State.foldl_cores (fun _ _ => ?_) s ps
  rfl

theorem State.freeReq_cores (s : State) (g e : Nat) : (s.freeReq g e).cores = s.cores := by
  unfold State.freeReq
  simp only [State.updFunc_cores, State.updServe_cores, State.freeGroups_cores]
  cases (s.req g e).waitSub with
  | none => rfl
  | some x =>
    dsimp only
    split
    · rfl
    · exact (s.complete_hostOnly ..).cores_eq

theorem State.endReq_cores (s : State) (g e code : Nat) : (s.endReq g e code).cores = s.cores := by
  rw [State.endReq, State.freeReq_cores]
  split
  · rfl
  · exact (s.endRecord_hostOnly ..).cores_eq

theorem State.failBatch_cores (s : State) (g : Nat) : (s.failBatch g).cores = s.cores := by
  refine State.foldl_cores (fun u b => ?_) s _
  dsimp only
  split
  · exact u.endReq_cores ..
  · rfl

theorem State.answerStep_cores (s : State) (g : Nat) (st : StepStatus) (len : Nat) : (s.answerStep g st len).cores = s.cores := by
  unfold State.answerStep
  split
  · exact (s.complete_hostOnly ..).cores_eq
  · rfl

theorem State.writeEnd_cores (s : State) (g : Nat) : (s.writeEnd g).cores = s.cores := by
  have hdeliver (u : State) (f : Nat) (r : StepRec) : (u.deliver f r).cores = u.cores := (u.deliver_hostOnly f r).cores_eq
  unfold State.writeEnd
  dsimp only
  split_ifs <;> simp only [State.answerStep_cores, State.failBatch_cores, hdeliver, State.updStep_cores]

theorem State.startActivity_cores (s : State) (code arg : Nat) (byRec : Bool) : (s.startActivity code arg byRec).cores = s.cores := by
  unfold State.startActivity State.sendSpillKey
  dsimp only
  split_ifs <;> rfl

theorem State.askRetire_cores (s : State) (c : Nat) : (s.askRetire c).cores = s.cores := by
  unfold State.askRetire State.requestRecovery
  split_ifs
  · rfl
  · exact s.startActivity_cores ..
  · rfl

end

/-! ### What leaves the queues empty -/

section
variable {s : State}

/-- An update of a core that leaves its queues as they are, or empties them. -/
theorem State.NoQueue.updCore (h : s.NoQueue) (c : Nat) {f : Core → Core}
    (hf : ∀ x : Core, x.ctl.laneQ = [] ∧ x.ctl.vecQ = [] ∧ x.ctl.moveQ = [] →
      (f x).ctl.laneQ = [] ∧ (f x).ctl.vecQ = [] ∧ (f x).ctl.moveQ = []) : (s.updCore c f).NoQueue :=
  State.noQueue_setCore h c (hf _ (s.noQueue_core c h))

theorem State.NoQueue.of_ite {p : Prop} [Decidable p] {t u : State} (ht : t.NoQueue) (hu : u.NoQueue) :
    (if p then t else u).NoQueue := by
  split
  · exact ht
  · exact hu

theorem State.NoQueue.foldl {α : Type} {f : State → α → State} (hf : ∀ u a, u.NoQueue → (f u a).NoQueue) (h : s.NoQueue) (l : List α) :
    (l.foldl f s).NoQueue :=
  List.foldlRecOn l f h fun u hu a _ => hf u a hu

theorem State.NoQueue.resetCores (h : s.NoQueue) (cs : List Nat) : (s.resetCores cs).NoQueue := by
  unfold State.resetCores
  refine State.NoQueue.foldl (fun _ c hu => hu.updCore c fun _ _ => ?_) ?_ cs
  · exact ⟨rfl, rfl, rfl⟩
  · exact h

theorem State.NoQueue.closeStep (h : s.NoQueue) (g : Nat) (st : StepStatus) (final : Bool) : (s.closeStep g st final).NoQueue := by
  have hretire (u : State) (c : Nat) (hu : u.NoQueue) : (if (u.core c).det.retireAtEnd then
      (u.updDet c (fun d => { d with retireAtEnd := false })).askRetire c else u).NoQueue :=
    .of_ite (State.noQueue_congr (State.askRetire_cores _ _) (hu.updCore c fun _ hx => hx)) hu
  have hretired (u : State) (hu : u.NoQueue) (cs : List Nat) := State.NoQueue.foldl hretire hu cs
  unfold State.closeStep
  refine .of_ite (State.noQueue_congr (State.writeEnd_cores _ _) ?closed) ?closed
  case closed => exact hretired _ (by exact h) _

theorem State.NoQueue.endStep (h : s.NoQueue) (g : Nat) (st : StepStatus) (final : Bool) : (s.endStep g st final).NoQueue :=
  (h.closeStep g st final).resetCores _

theorem State.NoQueue.stopStep (h : s.NoQueue) (g : Nat) (reason : BitVec 16) : (s.stopStep g reason).NoQueue := by
  unfold State.stopStep
  dsimp only
  split_ifs
  · exact State.noQueue_congr rfl (h.endStep g .stepError _)
  · exact State.noQueue_congr rfl h
  · exact h

theorem State.NoQueue.logFault (h : s.NoQueue) (reason : BitVec 16) (cls outcome : Nat) (slot : Option Nat) (step : W64)
    (unit sub : BitVec 16) (detail : Nat) : (s.logFault reason cls outcome slot step unit sub detail).NoQueue :=
  State.noQueue_congr (State.logFault_cores ..) h

theorem State.NoQueue.coreFault (h : s.NoQueue) (c : Nat) (reason : BitVec 16) (cls outcome : Nat) (sub : BitVec 16) (detail : Nat) :
    (s.coreFault c reason cls outcome sub detail).NoQueue := by
  unfold State.coreFault
  split
  · split
    · exact (h.logFault _ _ _ _ _ _ _ _).stopStep _ _
    · exact h.logFault _ _ _ _ _ _ _ _
  · exact h.logFault _ _ _ _ _ _ _ _

theorem State.NoQueue.discardHere (h : s.NoQueue) (core tid : Nat) : (s.discardHere core tid).NoQueue := by
  unfold State.discardHere
  split
  · exact h.coreFault _ _ _ _ _ _
  · exact h.logFault _ _ _ _ _ _ _ _

theorem State.NoQueue.noteDiscard (h : s.NoQueue) (port : Nat) (reason : Option (BitVec 16)) (cell : Cell) :
    (s.noteDiscard port reason cell).NoQueue := by
  unfold State.noteDiscard
  cases reason with
  | none =>
    refine .of_ite (.of_ite h (.of_ite (State.NoQueue.discardHere ?noted _ _) ?sent)) h
    case noted => exact h
    case sent => exact h
  | some r =>
    refine .of_ite (.of_ite h (.of_ite (State.NoQueue.discardHere ?noted _ _) ?sent)) h
    case noted => exact State.NoQueue.logFault (by exact h) _ _ _ _ _ _ _ _
    case sent => exact State.noQueue_congr (State.logFault_cores _ r _ _ _ _ _ _ _) (by exact h)

theorem State.NoQueue.unroute (h : s.NoQueue) (x : InCell) : (s.unroute x).NoQueue :=
  State.NoQueue.noteDiscard (s := s.countUnroutable x.port) h _ _ _

theorem State.NoQueue.routeFree (h : s.NoQueue) (shape : List Byte) (d : Place) (x : InCell) : (s.routeFree shape d x).NoQueue := by
  have hunroute : (s.unroute x).NoQueue := h.unroute x
  unfold State.routeFree
  dsimp only
  split
  · exact h
  · split
    · exact .of_ite h (.of_ite h hunroute)
    · exact .of_ite h hunroute

/-- A cell that is sent on its way, or discarded, leaves no entry in a queue. -/
theorem State.NoQueue.forward (h : s.NoQueue) (x : InCell) : (s.forward x).NoQueue := by
  have hunroute : (s.unroute x).NoQueue := h.unroute x
  unfold State.forward
  refine .of_ite h (.of_ite hunroute (.of_ite hunroute ?_))
  split
  · exact .of_ite hunroute h
  · exact hunroute
  · exact .of_ite hunroute h
  · refine .of_ite ?_ (h.routeFree _ _ _)
    split
    · exact .of_ite hunroute h
    · exact hunroute

end

/-! ### What leaves a core -/

section
variable {s : State} {c : CoreId}

theorem State.pumpAll_noQueue (h : s.NoQueue) : s.pumpAll = s := s.pump_noQueue _ h

theorem State.NoQueue.updXfer (h : s.NoQueue) (d : Nat) (f : Xfer → Xfer) : (s.updXfer d f).NoQueue := h.updCore d fun _ hx => hx

theorem State.updXfer_updXfer (s : State) (d : Nat) (f g : Xfer → Xfer) :
    (s.updXfer d f).updXfer d g = s.updXfer d (fun m => g (f m)) := by
  simp only [State.updXfer, State.updCore, State.setCore_core, State.setCore_setCore]

/-- A cell of a core as it enters the switch: its EPOCH is the number of the current route-table slot (12 R298). -/
def State.stamped (s : State) (cell : Cell) : InCell := ⟨8, cell.vc, { cell with epoch := s.epochBit == 1 }⟩

theorem exec_replyLeaves {r : Cell} {l : List Cell} (h : (s.core c.val).xfer.replies = r :: l) :
    exec (.cellLeavesOutboundBuffer c .reply) s =
      .next ((s.updXfer c.val (fun x => { x with replies := l })).forward (s.stamped r)) := by
  show execCellLeavesOutboundBuffer c .reply s = _
  simp only [execCellLeavesOutboundBuffer, h]
  rfl

/-- A scheduled cell leaves, or one ahead of which no reply waits (09 R209). -/
theorem exec_cellLeaves {cell : Cell} {l : List Cell} (h : (s.core c.val).xfer.outbound = cell :: l)
    (hfirst : cell.vc = 0 ∨ (s.core c.val).xfer.replies = []) :
    exec (.cellLeavesOutboundBuffer c .cell) s =
      .next ((s.updXfer c.val (fun x => { x with outbound := l })).forward (s.stamped cell)).pumpAll := by
  show execCellLeavesOutboundBuffer c .cell s = _
  rcases hfirst with hvc | hreplies
  · simp only [execCellLeavesOutboundBuffer, h, hvc, if_true]
    rw [State.stamped, hvc]
  · simp only [execCellLeavesOutboundBuffer, h, hreplies, ite_self]
    rfl

/-- An open transfer once one more of its rows has been posted; with the last of them it completes. -/
def OpenTid.posted (last : Bool) (o : OpenTid) : OpenTid := { o with got := o.got + 1, complete := o.complete || last }

theorem OpenTid.posted_false (o : OpenTid) : o.posted false = { o with got := o.got + 1 } := by
  rw [OpenTid.posted, Bool.or_false]

theorem OpenTid.posted_true (o : OpenTid) : { o.posted false with complete := true } = o.posted true := by
  rw [OpenTid.posted, OpenTid.posted, Bool.or_true]

/-- Rows posted, counted transfer by transfer. -/
theorem Xfer.mapTid_posted_got (m : Xfer) (tid : Nat) (last : Bool) :
    (m.mapTid tid (OpenTid.posted last)).tids.map (fun o => (o.tid, o.got)) =
      m.tids.map (fun o => (o.tid, if o.tid == tid then o.got + 1 else o.got)) := by
  rw [Xfer.mapTid, List.map_map]
  refine List.map_congr_left fun o _ => ?_
  by_cases ho : o.tid = tid <;> simp [ho, OpenTid.posted]

/-- The state once a HOSTWR row has left for host memory, the last of its transfer or not (09 R209). -/
def State.rowPosted (s : State) (c tid addr : Nat) (row : List Byte) (rest : List (Nat × Nat × List Byte)) (last : Bool) : State :=
  (s.hostWrite (s.ownerOf c) addr row).updXfer c (fun m => ({ m with hostOut := rest }).mapTid tid (OpenTid.posted last))

theorem State.rowPosted_counted (s : State) (c tid addr : Nat) (row : List Byte) (rest : List (Nat × Nat × List Byte)) :
    ((s.updXfer c (fun m => { m with hostOut := rest })).hostWrite (s.ownerOf c) addr row).updTid c tid
      (fun o => { o with got := o.got + 1 }) = s.rowPosted c tid addr row rest false := by
  have hposted : (fun o : OpenTid => { o with got := o.got + 1 }) = OpenTid.posted false := funext fun o => o.posted_false.symm
  rw [State.updTid_eq, hposted]
  exact State.updXfer_updXfer (s.hostWrite (s.ownerOf c) addr row) c (fun m => { m with hostOut := rest })
    (fun m => m.mapTid tid (OpenTid.posted false))

theorem State.rowPosted_complete (s : State) (c tid addr : Nat) (row : List Byte) (rest : List (Nat × Nat × List Byte)) :
    (s.rowPosted c tid addr row rest false).tidComplete c tid = s.rowPosted c tid addr row rest true := by
  rw [State.tidComplete_eq, State.rowPosted, State.updXfer_updXfer, State.rowPosted]
  congr 1
  funext m
  rw [Xfer.mapTid_mapTid _ tid (f := OpenTid.posted false) _ (fun _ => rfl)]
  exact congrArg (Xfer.mapTid _ tid) (funext fun o => o.posted_true)

theorem exec_hostRowLeaves {tid addr : Nat} {row : List Byte} {l : List (Nat × Nat × List Byte)}
    (h : (s.core c.val).xfer.hostOut = (tid, addr, row) :: l) :
    ∃ last, exec (.cellLeavesOutboundBuffer c .host) s = .next (s.rowPosted c.val tid addr row l last).pumpAll := by
  show ∃ last, execCellLeavesOutboundBuffer c .host s = _
  simp only [execCellLeavesOutboundBuffer, h]
  have hcounted := s.rowPosted_counted c.val tid addr row l
  rw [hcounted]
  split
  · split
    · exact ⟨true, by rw [State.rowPosted_complete]⟩
    · exact ⟨false, rfl⟩
  · exact ⟨false, rfl⟩

/-! ### Host reads that fail -/

/-- A live step whose host read has failed is logged and ends with STEP_ERROR (18 R400). -/
theorem State.stepDead_live {g : Nat} (h : (s.step' g).live = true) :
    s.stepDead g 0x00A0 0 = (s.logFault 0x00A0 6 2 (some g) (s.step' g).num 0xFFFF 0xFFFF 0).abortStep g .stepError := by
  simp only [State.stepDead, h, if_true]

theorem exec_hostDmaError_step {g : Fin 16} : exec (.hostDmaError (.step g)) s = .next (s.stepDead g.val 0x00A0 0) := rfl

theorem exec_hostDmaError_core {g : Nat} (h : s.slotOf c.val = some g) :
    exec (.hostDmaError (.core c)) s = .next (s.stepDead g 0x00A0 0) := by
  show execHostDmaError (.core c) s = _
  simp only [execHostDmaError, h]

theorem exec_hostDmaError_noStep (h : s.slotOf c.val = none) :
    exec (.hostDmaError (.core c)) s = .next (s.logFault 0x00A0 6 0 none 0 (BitVec.ofNat 16 c.val) 0xFFFF 0) := by
  show execHostDmaError (.core c) s = _
  simp only [execHostDmaError, h]

end

/-! ### The obligation -/

/-- Settles O47: with empty queues nothing issues once a cell or row has left, not even where the switch has discarded the cell and a step
has stopped for it. -/
theorem leavingAndFailedReadsComplete : Obligations.LeavingAndFailedReadsComplete := by
  unfold Obligations.LeavingAndFailedReadsComplete
  intro s c x stamp
  refine ⟨fun hnq => ⟨?reply, ?cell, ?host⟩, ?noStep, ?read, ?step⟩
  case reply => exact fun r l hr => exec_replyLeaves hr
  case cell =>
    intro cell l hcell hfirst q
    have hexec := exec_cellLeaves hcell hfirst
    rw [State.pumpAll_noQueue ((hnq.updXfer _ _).forward _)] at hexec
    exact ⟨_, hexec, rfl⟩
  case host =>
    intro tid addr row l hrow
    obtain ⟨last, hexec⟩ := exec_hostRowLeaves hrow
    have hputs := (s.hostWrite (s.ownerOf c.val) addr row).updXfer_puts c.val
      (fun m => ({ m with hostOut := l }).mapTid tid (OpenTid.posted last))
    rw [State.rowPosted, State.pumpAll_noQueue (State.NoQueue.updXfer (by exact hnq) _ _)] at hexec
    refine ⟨_, hexec, ?_, ?_, hputs.onlyCore, hputs.landings⟩
    · rw [hputs.core]
      rfl
    · rw [hputs.core]
      exact Xfer.mapTid_posted_got { x with hostOut := l } tid last
  case noStep => exact exec_hostDmaError_noStep
  case read =>
    intro g hg hlive
    rw [exec_hostDmaError_core hg, State.stepDead_live hlive]
  case step =>
    intro g hlive
    rw [exec_hostDmaError_step, State.stepDead_live hlive]

end Sys2Proof.Machine
end

section
/-! PROOF. The check of a transfer that an EXPECT queued before it closes (09 R208; 08 R180; log entry 95). -/

namespace Sys2Proof.Machine

/-- A host read that has one of its two rows still out. -/
def halfRead : OpenTid :=
  { tid := 9, form := .hostrd, rows := ⟨none, 5, false⟩, rcvd := 2, total := none, complete := false, offset := 0, opcode := 0x6A
    head := none, digest := 0, discard := false, mismatch := false, faulty := false, want := 2, got := 1 }

/-- A core with that transfer open that has queued two EXPECTs of its id, for ticks 20 and 30. -/
def expectsTwice : Core :=
  { Core.reset with
    xfer := { Core.reset.xfer with tids := [halfRead] }
    ctl := { Ctl.reset with moveQ := [⟨.expect 0 20 9, 20, 0, []⟩, ⟨.expect 0 10 9, 30, 1, []⟩] } }

/-- The state at package tick 14, the check tick of the second EXPECT. -/
def atSecondCheck : State := { State.reset with clk := { Clk.reset with tick := 14 }, cores := [(0, expectsTwice)] }

/-- A checked transfer that is not missing changes nothing. -/
theorem exec_lateItemCheck_onTime {s : State} {c : CoreId} {tid : BitVec 12} {due : Nat} (h : s.transferLate c.val tid.toNat due = false) :
    exec (.lateItemCheck (.transfer c tid due)) s = .next s := by
  show execLateItemCheck (.transfer c tid due) s = _
  simp only [execLateItemCheck, State.missing, h, Bool.false_and, Bool.false_eq_true, if_false]

/-- The first EXPECT waits for the transfer and closes its id, so the second has none to wait for. -/
theorem atSecondCheck_onTime : atSecondCheck.transferLate 0 9 30 = false := by decide

/-- Refutes O50: its clause on late transfers asks only that the id is open and not complete. The transfer of an EXPECT that stands behind
another EXPECT of the same id is not missing at its check: the first closes the id, and the second gives TID_UNKNOWN. -/
theorem not_muteAndClockComplete : ¬ Obligations.MuteAndClockComplete := by
  unfold Obligations.MuteAndClockComplete
  intro h
  obtain ⟨-, hlate, -⟩ := h atSecondCheck
  have hmarked := hlate 0 9 30 halfRead rfl rfl (by decide) rfl
  have hstays : exec (.lateItemCheck (.transfer 0 9 30)) atSecondCheck = .next atSecondCheck :=
    exec_lateItemCheck_onTime atSecondCheck_onTime
  have hsame := Host.Outcome.next.inj (hstays.symm.trans hmarked)
  have hnone : atSecondCheck.clk.late = [_] := congrArg (fun t => t.clk.late) hsame
  exact List.cons_ne_nil _ _ hnone.symm

end Sys2Proof.Machine
end

section
/-! PROOF. One port is put and the rest stays: the rules by which the commands of the optical ports are read (11 R258 to R281; 18 Table
18.8). -/

namespace Sys2Proof.Machine

section
variable {s t u : State} {p q : Nat} {k : Port}

/-! ### One port put -/

/-- The state with the port k at index p. -/
def State.setPort (s : State) (p : Nat) (k : Port) : State := { s with ports := Recs.put s.ports p k }

theorem State.updPort_eq_setPort (s : State) (p : Nat) (f : Port → Port) : s.updPort p f = s.setPort p (f (s.port p)) := rfl

@[simp] theorem State.setPort_port (s : State) (p : Nat) (k : Port) : (s.setPort p k).port p = k := Recs.get_put_self ..

theorem State.setPort_port_ne (h : q ≠ p) : (s.setPort p k).port q = s.port q := Recs.get_put_ne _ _ _ h

@[simp] theorem State.setPort_setPort (s : State) (p : Nat) (k l : Port) : (s.setPort p k).setPort p l = s.setPort p l := by
  simp only [State.setPort, Recs.put_put]

theorem State.setPort_onlyPort (s : State) (p : Nat) (k : Port) : s.OnlyPort (s.setPort p k) p :=
  ⟨fun _ hq => State.setPort_port_ne hq, rfl⟩

/-! ### The counts of a port -/

@[simp] theorem State.rxCount_setPort (s : State) (p : Nat) (k : Port) (i n : Nat) :
    (s.setPort p k).rxCount p i n = s.setPort p { k with rxCount := Tab.upd 0 k.rxCount i (· + n) } := by
  rw [State.rxCount, State.updPort_eq_setPort, State.setPort_port, State.setPort_setPort]

@[simp] theorem State.txCount_setPort (s : State) (p : Nat) (k : Port) (i n : Nat) :
    (s.setPort p k).txCount p i n = s.setPort p { k with txCount := Tab.upd 0 k.txCount i (· + n) } := by
  rw [State.txCount, State.updPort_eq_setPort, State.setPort_port, State.setPort_setPort]

/-! ### LINK events -/

theorem State.linkEvent_hostOnly (s : State) (p cls : Nat) : s.HostOnly (s.linkEvent p cls) := State.raise_hostOnly ..

/-- What leaves the ports as they are leaves each port as it is. -/
theorem State.HostOnly.port (h : s.HostOnly t) (q : Nat) : t.port q = s.port q := by
  unfold State.HostOnly at h
  rw [h]
  rfl

/-- A port that is put before a LINK event is all that changes but for what the event itself writes. -/
theorem State.HostOnly.onlyPort (h : (s.setPort p k).HostOnly t) :
    t.port p = k ∧ State.OnlyPort { s with funcs := t.funcs, out := t.out } t p := by
  refine ⟨(h.port p).trans (State.setPort_port ..), fun q hq => (h.port q).trans (State.setPort_port_ne hq), ?_⟩
  unfold State.HostOnly at h
  rw [h]
  rfl

end

/-! ### The fabric switch -/

/-- A switch in which no cell waits routes none. -/
theorem State.pumpFabric_nil {s : State} (h : s.fabric = []) : s.pumpFabric = s := by
  rw [State.pumpFabric, h, List.foldl_nil, ← h]

/-! ### A frame leaves -/

/-- The state once port p has sent the frame f, with what has left on the lanes. -/
def State.frameOut (s : State) (p : Nat) (f : Frame) (sent : List (Nat × List Nat)) : State :=
  { s with out := { s.out with
    frames := s.out.frames ++ [(p, f)], lanes := s.out.lanes ++ sent.map (fun l => (p, l.1, l.2)) } }

theorem State.sendFrame_setPort (s : State) (p : Nat) (k : Port) (f : Frame) :
    (s.setPort p k).sendFrame p f = (s.frameOut p f (k.push (frameBytes f)).2).setPort p (k.push (frameBytes f)).1 := by
  rw [State.sendFrame, State.setPort_port]
  dsimp only
  rw [State.updPort_eq_setPort, State.setPort_setPort]
  rfl

end Sys2Proof.Machine
end

section
/-! PROOF. The next frame of a port in UP: a resent frame, a data frame or an idle frame, and the replay buffer after 2 µs without an
acknowledgement (11 R258, R261 to R266, R272, R281; log entry 53). -/

namespace Sys2Proof.Machine

/-! ### What the assembly of a frame changes, whichever frame it is -/

/-- A port with its own OFF bits, its NAK sent, the tenants' credits and the channels' waits as the assembly of a frame leaves them
(R264, R272, R274; 12 R305). -/
def Port.assembled (k : Port) (off : Byte) (credits starve : Tab Nat) : Port :=
  { k with ownOff := off, nakDue := false, credits := credits, starve := starve }

/-- The coded stream takes no notice of it. -/
theorem Port.push_assembled (k : Port) (off : Byte) (credits starve : Tab Nat) (bs : List Byte) :
    (k.assembled off credits starve).push bs = ((k.push bs).1.assembled off credits starve, (k.push bs).2) := by
  unfold Port.push
  dsimp only [Port.assembled]
  split <;> rfl

/-- From s to t port p, which stood as k but for the frame's assembly, has sent the frame f (R258). -/
def State.Sends (s t : State) (p : Nat) (f : Frame) (k : Port) : Prop :=
  t.port p = (k.push (frameBytes f)).1.assembled (t.port p).ownOff (t.port p).credits (t.port p).starve ∧
    (s.frameOut p f (k.push (frameBytes f)).2).OnlyPort t p

theorem State.sendFrame_sends (s : State) (p : Nat) (k : Port) (off : Byte) (credits starve : Tab Nat) (f : Frame) :
    s.Sends ((s.setPort p (k.assembled off credits starve)).sendFrame p f) p f k := by
  rw [State.sendFrame_setPort, Port.push_assembled]
  refine ⟨?_, State.setPort_onlyPort ..⟩
  rw [State.setPort_port]
  rfl

/-! ### The cells that a frame takes (R272; 12 R305) -/

@[simp] theorem Port.takeShared_nil (k : Port) : k.takeShared [] = none := rfl

theorem Port.takeCell_noQueue {k : Port} (h : k.outq = []) (v : BitVec 3) : k.takeCell v = none := by
  simp [Port.takeCell, h]

/-- The only cell that waits is one of CTL, which the far end has not turned off: it is taken. -/
theorem Port.takeCell_ctl {k : Port} {x : InCell} (hq : k.outq = [(1, x)]) (hvc : x.cell.vc = 1) (hoff : k.farOff = 0) :
    k.takeCell 1 = some ((1, x), { k with outq := [] }) := by
  simp [Port.takeCell, hq, hvc, hoff]

/-- No cell waits: the slots stay as they are. -/
theorem fillSlots_noQueue {k : Port} (h : k.outq = []) (n : Nat) (vs : List (BitVec 3)) (out : List (BitVec 3 × Cell)) :
    fillSlots n vs k out = (out, k) := by
  induction vs generalizing n with
  | nil => cases n <;> rfl
  | cons v vs ih =>
    cases n with
    | zero => rfl
    | succ n => simp only [fillSlots, Port.takeCell_noQueue h, ih, ite_self]

/-- A channel that gives a cell fills the first slot of a frame. -/
theorem fillSlots_take {k k' : Port} {v : BitVec 3} {c : BitVec 3 × InCell} (h : k.takeCell v = some (c, k')) (n : Nat)
    (vs : List (BitVec 3)) : fillSlots (n + 1) (v :: vs) k [] = fillSlots n (v :: vs) k' [(c.1, c.2.cell)] := by
  rw [fillSlots, h]
  rfl

theorem fillSlots_ctl {k : Port} {x : InCell} (hq : k.outq = [(1, x)]) (hvc : x.cell.vc = 1) (hoff : k.farOff = 0) :
    fillSlots 20 channelOrder k [] = ([(1, x.cell)], { k with outq := [] }) :=
  (fillSlots_take (Port.takeCell_ctl hq hvc hoff) 19 _).trans (fillSlots_noQueue rfl ..)

/-! ### The frame -/

/-- Port p as it begins to assemble a frame. -/
def State.fresh (s : State) (p : Nat) : Port :=
  { s.port p with
    ownOff := s.offBits p
    credits := (List.range 8).foldl (fun c t => Tab.upd 0 c t (fun n => min (192 * 256) (n + 12 * (s.port p).shares.getD t 0)))
      (s.port p).credits }

/-- The state in which port p assembles a frame. -/
def State.assembling (s : State) (p : Nat) : State := s.setPort p (s.fresh p)

@[simp] theorem State.assembling_port (s : State) (p : Nat) : (s.assembling p).port p = s.fresh p := State.setPort_port ..

/-- The state once a frame has gone by port p in which the channels of `won` have a slot. -/
def State.passed (s : State) (p : Nat) (won : List (BitVec 3)) : State :=
  s.updPort p (fun k => { k.passFrame won with nakDue := false })

/-- The frame `old` sent again with fresh ACK, OFF, NAK and LANES. -/
def State.renewed (s : State) (p : Nat) (old : Frame) : Frame :=
  { old with ack := (s.port p).expect - 1, off := s.offBits p, nak := (s.port p).nakDue, lanes := (s.port p).lanes }

/-- Port p has sent `old` again, and goes on with `rest`. -/
def State.resent (s : State) (p : Nat) (old : Frame) (rest : List Frame) : State :=
  (((s.assembling p).updPort p (fun k => { k with resend := rest })).passed p []).sendFrame p (s.renewed p old)

/-- The idle frame of port p. -/
def State.idleFrame (s : State) (p : Nat) : Frame := (s.assembling p).blankFrame p 1 []

/-- Port p has sent an idle frame. -/
def State.idled (s : State) (p : Nat) : State := ((s.assembling p).passed p []).sendFrame p (s.idleFrame p)

/-- The data frame of port p that takes the cells `out`. -/
def State.cellFrame (s : State) (p : Nat) (out : List (BitVec 3 × Cell)) : Frame := (s.assembling p).sealedFrame p out

/-- Port k once a data frame f has taken its number and its place in the replay buffer, and the cells `l` wait on. -/
def Port.keeps (k : Port) (f : Frame) (l : List (BitVec 3 × InCell)) : Port :=
  { k with
    seq := k.seq + 1, frames := k.frames + 1, keyFrames := k.keyFrames + b01 f.enc, buffer := k.buffer ++ [f], outq := l }

/-- Port p has sent the cells `out` in a data frame and keeps the frame; the cells `l` wait on. -/
def State.sentCells (s : State) (p : Nat) (l : List (BitVec 3 × InCell)) (out : List (BitVec 3 × Cell)) : State :=
  let f := s.cellFrame p out
  (((s.assembling p).updPort p (fun _ => (s.fresh p).keeps f l)).passed p (out.map (·.1))).sendFrame p f

/-! ### What each of them sends -/

/-- A frame of port p leaves once its assembly has gone by. -/
theorem State.passed_sends {s : State} {p : Nat} {k k0 : Port} (h : k0.assembled k.ownOff k.credits k.starve = { k with nakDue := false })
    (won : List (BitVec 3)) (f : Frame) : s.Sends (((s.setPort p k).passed p won).sendFrame p f) p f k0 := by
  have hpassed : (s.setPort p k).passed p won = s.setPort p (k0.assembled k.ownOff k.credits (k.passFrame won).starve) := by
    rw [State.passed, State.updPort_eq_setPort, State.setPort_port, State.setPort_setPort]
    exact congrArg (fun x : Port => s.setPort p { x with starve := (k.passFrame won).starve }) h.symm
  rw [hpassed]
  exact State.sendFrame_sends ..

theorem State.resent_sends (s : State) (p : Nat) (old : Frame) (rest : List Frame) :
    s.Sends (s.resent p old rest) p (s.renewed p old) { s.port p with resend := rest } := by
  have h : Port.assembled { s.port p with resend := rest } (s.fresh p).ownOff (s.fresh p).credits (s.fresh p).starve =
    { s.fresh p with resend := rest, nakDue := false } := rfl
  rw [State.resent, State.updPort_eq_setPort, State.assembling_port, State.assembling, State.setPort_setPort]
  exact State.passed_sends h ..

theorem State.idled_sends (s : State) (p : Nat) : s.Sends (s.idled p) p (s.idleFrame p) (s.port p) := by
  have h : (s.port p).assembled (s.fresh p).ownOff (s.fresh p).credits (s.fresh p).starve = { s.fresh p with nakDue := false } := rfl
  rw [State.idled, State.assembling]
  exact State.passed_sends h ..

theorem State.sentCells_sends (s : State) (p : Nat) (l : List (BitVec 3 × InCell)) (out : List (BitVec 3 × Cell)) :
    s.Sends (s.sentCells p l out) p (s.cellFrame p out) ((s.port p).keeps (s.cellFrame p out) l) := by
  have h : ((s.port p).keeps (s.cellFrame p out) l).assembled (s.fresh p).ownOff (s.fresh p).credits (s.fresh p).starve =
    { (s.fresh p).keeps (s.cellFrame p out) l with nakDue := false } := rfl
  rw [State.sentCells, State.updPort_eq_setPort, State.assembling, State.setPort_setPort]
  exact State.passed_sends h ..

@[simp] theorem Port.assembled_keyFrames (k : Port) (off : Byte) (credits starve : Tab Nat) :
    (k.assembled off credits starve).keyFrames = k.keyFrames := rfl

@[simp] theorem Port.push_keyFrames (k : Port) (bs : List Byte) : (k.push bs).1.keyFrames = k.keyFrames := by
  unfold Port.push
  dsimp only
  split <;> rfl

theorem State.Sends.keyFrames {s t : State} {p : Nat} {f : Frame} {k : Port} (h : s.Sends t p f k) :
    (t.port p).keyFrames = k.keyFrames := by
  obtain ⟨hport, -⟩ := h
  rw [hport, Port.assembled_keyFrames, Port.push_keyFrames]

theorem State.Sends.fabric {s t : State} {p : Nat} {f : Frame} {k : Port} (h : s.Sends t p f k) : t.fabric = s.fabric := by
  obtain ⟨-, -, honly⟩ := h
  rw [honly]
  rfl

/-! ### FRAME_TRANSMIT in UP -/

section
variable {s : State} {p : PortId} (hup : (s.port p.val).st = .up) (hon : (s.port p.val).realign = false)
include hup hon

/-- A port that replays sends the oldest frame again (R265). -/
theorem exec_frameTransmit_replay {old : Frame} {rest : List Frame} (h : (s.port p.val).resend = old :: rest) :
    exec (.frameTransmit p) s = .next (s.resent p.val old rest) := by
  show execFrameTransmit p s = _
  rw [execFrameTransmit]
  extract_lets o off a spent blank k b chans first
  have hk : k = s.fresh p.val := State.assembling_port ..
  have hresend : k.resend = old :: rest := by rw [hk]; exact h
  rw [if_neg (by simp [hup]), if_neg (by simp [hup]), if_neg (by simp [hk, State.fresh, hup, hon]), hresend]
  have hb : b = s.idleFrame p.val := rfl
  have hnew : s.renewed p.val old = { old with ack := b.ack, off := b.off, nak := b.nak, lanes := b.lanes } := by
    simp only [hb, State.renewed, State.idleFrame, State.blankFrame, State.assembling_port]
    rfl
  rw [State.resent, hnew]
  rfl

/-- A port with room in its replay buffer, none of whose channels has waited too long for a slot, sends the cells that fill a frame, and an
idle frame where there are none (R262, R272). -/
theorem exec_frameTransmit_new {out : List (BitVec 3 × Cell)} {l : List (BitVec 3 × InCell)} (hr : (s.port p.val).resend = [])
    (hb : (s.port p.val).buffer = []) (hfirst : ∀ v ∈ (s.port p.val).starved, (s.fresh p.val).takeCell v = none)
    (hfill : fillSlots 20 channelOrder (s.fresh p.val) [] = (out, { s.fresh p.val with outq := l })) :
    exec (.frameTransmit p) s = .next (if out.isEmpty then s.idled p.val else
      let t := s.sentCells p.val l out
      if 2 ^ 43 ≤ (t.port p.val).keyFrames then t.sessionDown p.val else t.pumpFabric) := by
  show execFrameTransmit p s = _
  rw [execFrameTransmit]
  extract_lets o off a spent blank k b chans first
  have hk : k = s.fresh p.val := State.assembling_port ..
  have hchans : chans = channelOrder := if_neg (by simp [hk, State.fresh, hup])
  have hnone : first = none := by
    simp only [first, hk]
    split
    case h_1 v hv => exact hfirst v (List.mem_of_mem_filter (List.mem_of_mem_head? hv))
    case h_2 => rfl
  have hroom : ¬256 ≤ (s.fresh p.val).buffer.length := by
    show ¬256 ≤ (s.port p.val).buffer.length
    simp [hb]
  have hnext : (s.fresh p.val).resend = [] := hr
  rw [if_neg (by simp [hup]), if_neg (by simp [hup]), if_neg (by simp [hk, State.fresh, hup, hon]), hnone, hchans, hk, hnext]
  rw [if_neg hroom, hfill]
  exact (apply_ite Host.Outcome.next ..).symm

/-- A port with nothing to send sends an idle frame (R262). -/
theorem exec_frameTransmit_idle (hr : (s.port p.val).resend = []) (hb : (s.port p.val).buffer = []) (hq : (s.port p.val).outq = []) :
    exec (.frameTransmit p) s = .next (s.idled p.val) := by
  have hfill : fillSlots 20 channelOrder (s.fresh p.val) [] = ([], { s.fresh p.val with outq := (s.fresh p.val).outq }) :=
    fillSlots_noQueue (k := s.fresh p.val) hq ..
  rw [exec_frameTransmit_new hup hon hr hb (fun _ _ => Port.takeCell_noQueue (k := s.fresh p.val) hq _) hfill, List.isEmpty_nil,
    if_pos rfl]

/-- A port where one cell of CTL waits sends it in a data frame and keeps the frame (R262, R265). -/
theorem exec_frameTransmit_ctl {x : InCell} (hr : (s.port p.val).resend = []) (hb : (s.port p.val).buffer = [])
    (hoff : (s.port p.val).farOff = 0) (hstarved : (s.port p.val).starved = []) (hq : (s.port p.val).outq = [(1, x)])
    (hvc : x.cell.vc = 1) (hfabric : s.fabric = []) (hkeys : (s.port p.val).keyFrames + 1 < 2 ^ 43) :
    let f := s.cellFrame p.val [(1, x.cell)]
    ∃ t, exec (.frameTransmit p) s = .next t ∧ s.Sends t p.val f ((s.port p.val).keeps f []) := by
  have hsends := s.sentCells_sends p.val [] [(1, x.cell)]
  have hnone : ∀ v ∈ (s.port p.val).starved, (s.fresh p.val).takeCell v = none := by simp [hstarved]
  have hfew : ¬2 ^ 43 ≤ ((s.port p.val).keeps (s.cellFrame p.val [(1, x.cell)]) []).keyFrames := by
    have hbit (e : Bool) : b01 e ≤ 1 := by cases e <;> decide
    have := hbit (s.cellFrame p.val [(1, x.cell)]).enc
    simp only [Port.keeps]
    omega
  refine ⟨_, ?_, hsends⟩
  rw [exec_frameTransmit_new hup hon hr hb hnone (fillSlots_ctl (k := s.fresh p.val) hq hvc hoff), List.isEmpty_cons,
    if_neg Bool.false_ne_true]
  dsimp only
  rw [hsends.keyFrames, if_neg hfew, State.pumpFabric_nil (hsends.fabric.trans hfabric)]

end

/-! ### The replay buffer after 2 µs without an acknowledgement -/

/-- The oldest frame is sent again first, while too many replays have not gone before (R265, R266). -/
theorem exec_replayTimeout {s : State} {p : PortId} (hup : (s.port p.val).st = .up) (hb : (s.port p.val).buffer ≠ [])
    (hr : (s.port p.val).resend = []) (hrun : (s.port p.val).replayRun < 7) (htimes : (s.port p.val).replayTimes = []) :
    exec (.replayTimeout p) s = .next (s.setPort p.val { s.port p.val with
      resend := (s.port p.val).buffer, replayRun := (s.port p.val).replayRun + 1, replayTimes := [s.station]
      replayAt := ((s.port p.val).buffer.head?.map (·.seq)).getD (s.port p.val).seq
      txCount := Tab.upd 0 (s.port p.val).txCount 4 (· + 1) }) := by
  show execReplayTimeout p s = _
  have hfew : ¬(8 ≤ (s.port p.val).replayRun + 1 ∨ 64 ≤ [s.station].length) := by
    simp only [List.length_singleton]
    omega
  rw [execReplayTimeout, if_pos (by simp [hup, hb, hr]), State.replay, State.updPort_eq_setPort, State.txCount_setPort]
  dsimp only
  rw [State.setPort_port, htimes, List.filter_nil, List.nil_append, if_neg hfew]

end Sys2Proof.Machine
end

section
/-! PROOF. A frame that a port in UP receives: one whose codewords or CRC fail, an idle frame, a data frame in its turn (11 R259, R261,
R263 to R267; log entry 97). -/

namespace Sys2Proof.Machine

/-! ### The receive stream (R258, R259) -/

/-- From k to k' only the receive stream has moved. -/
def Port.StreamOnly (k k' : Port) : Prop := k' = { k with rxWords := k'.rxWords, rxPos := k'.rxPos }

theorem Port.StreamOnly.trans {k l m : Port} (h : k.StreamOnly l) (hl : l.StreamOnly m) : k.StreamOnly m := by
  unfold Port.StreamOnly at h hl ⊢
  rw [h] at hl
  exact hl

theorem Port.pull_streamOnly (k : Port) (ws : List (List (BitVec 10))) : k.StreamOnly (k.pull ws).1 := by
  unfold Port.pull
  suffices h : ∀ x : Port × Nat × Nat, k.StreamOnly x.1 → k.StreamOnly (ws.foldl _ x).1 from h (k, 0, 0) rfl
  induction ws with
  | nil => exact fun _ h => h
  | cons w ws ih =>
    intro x hx
    refine ih _ (hx.trans ?_)
    dsimp only
    split <;> rfl

theorem Port.nextFrame_streamOnly {k k' : Port} {r : List Byte × Bool} (h : k.nextFrame = some (r, k')) : k.StreamOnly k' := by
  unfold Port.nextFrame at h
  split at h
  · exact absurd h (by simp)
  · rw [← (Prod.mk.inj (Option.some.inj h)).2]
    rfl

/-- The counts of a port have no part in its stream. -/
theorem Port.nextFrame_rxCount (k : Port) (c : Tab Nat) :
    Port.nextFrame { k with rxCount := c } = k.nextFrame.map (fun r => (r.1, { r.2 with rxCount := c })) := by
  unfold Port.nextFrame
  dsimp only
  split <;> rfl

/-- The counts of port k with the symbols that the codewords `ws` have had corrected and those codewords that are uncorrectable. -/
def Port.pullCount (k : Port) (ws : List (List (BitVec 10))) : Tab Nat :=
  Tab.upd 0 (Tab.upd 0 (k.pull ws).1.rxCount 0 (· + (k.pull ws).2.1)) 1 (· + (k.pull ws).2.2)

/-- The state once port p has taken up codewords. -/
def State.pulled (s : State) (p : Nat) (ws : List (List (BitVec 10))) : State :=
  s.setPort p { ((s.port p).pull ws).1 with rxCount := (s.port p).pullCount ws }

theorem State.pulled_eq (s : State) (p : Nat) (ws : List (List (BitVec 10))) :
    let r := (s.port p).pull ws
    ((s.updPort p (fun _ => r.1)).rxCount p 0 r.2.1).rxCount p 1 r.2.2 = s.pulled p ws := by
  dsimp only
  rw [State.updPort_eq_setPort, State.rxCount_setPort, State.rxCount_setPort, State.pulled, Port.pullCount]

theorem State.pulled_nextFrame (s : State) (p : Nat) (ws : List (List (BitVec 10))) :
    ((s.pulled p ws).port p).nextFrame = ((s.port p).pull ws).1.nextFrame.map
      (fun r => (r.1, { r.2 with rxCount := (s.port p).pullCount ws })) := by
  rw [State.pulled, State.setPort_port, Port.nextFrame_rxCount]

section
variable {s : State} {p : PortId} {words : List (List (BitVec 10))} (hup : (s.port p.val).st = .up) (chans : List (BitVec 3))
  (marks : List CellMark)
include hup

/-- Codewords that hold no whole frame only enter the stream. -/
theorem exec_frameReceived_none (h : ((s.port p.val).pull words).1.nextFrame = none) :
    exec (.frameReceived p words chans marks) s = .next (s.pulled p.val words) := by
  show execFrameReceived p words chans marks s = _
  rw [execFrameReceived, if_neg (by simp [hup])]
  dsimp only
  rw [State.pulled_eq, State.pulled_nextFrame, h, Option.map_none]

/-- A frame that is complete is taken. -/
theorem exec_frameReceived_some {bs : List Byte} {good : Bool} {k' : Port}
    (h : ((s.port p.val).pull words).1.nextFrame = some ((bs, good), k')) :
    exec (.frameReceived p words chans marks) s = .next ((s.setPort p.val
      { k' with rxCount := (s.port p.val).pullCount words }).takeFrame p.val bs good (chans.zip marks)) := by
  show execFrameReceived p words chans marks s = _
  rw [execFrameReceived, if_neg (by simp [hup])]
  dsimp only
  rw [State.pulled_eq, State.pulled_nextFrame, h, Option.map_some]
  dsimp only
  rw [State.updPort_eq_setPort, State.pulled, State.setPort_setPort]

end

/-! ### A frame that fails (R263, R264) -/

/-- A frame whose codewords or CRC fail starts a discard episode where none is open. -/
theorem State.takeFrame_bad {s : State} {p : Nat} {k : Port} {bs : List Byte} {good : Bool} (hup : k.st = .up) (hep : k.episode = false)
    (h : frameCrcGood bs = false ∨ good = false) (marks : List (BitVec 3 × CellMark)) :
    ∃ c, (s.setPort p k).takeFrame p bs good marks = s.setPort p { k with episode := true, nakDue := true, rxCount := c } := by
  have hfails : (!good || !frameCrcGood bs) = true := by
    rcases h with h | h <;> simp [h]
  obtain ⟨c, hc⟩ : ∃ c, (if frameCrcGood bs then s.setPort p k else (s.setPort p k).rxCount p 2 1) =
      s.setPort p { k with rxCount := c } := by
    split
    · exact ⟨k.rxCount, rfl⟩
    · exact ⟨_, State.rxCount_setPort ..⟩
  refine ⟨Tab.upd 0 c 4 (· + 1), ?_⟩
  rw [State.takeFrame]
  dsimp only
  rw [hc, if_pos hfails, State.setPort_port, if_pos (by simp [hup]), State.startEpisode, State.setPort_port, if_neg (by simp [hep]),
    State.updPort_eq_setPort, State.setPort_port, State.setPort_setPort, State.rxCount_setPort]

/-! ### ACK, OFF, NAK and LANES (R263 to R266, R272) -/

/-- What an OFF bit of channel v makes of the times that the channel has been off, at station time `now`. -/
def Port.turned (off : Byte) (now : Nat) (k : Port) (v : Nat) : Port :=
  let was := k.farOff.getLsbD v
  let is := off.getLsbD v
  if is && !was then { k with offSince := Tab.set 0 k.offSince v (now + 1) }
  else if was && !is then { k with
    offTime := Tab.upd 0 k.offTime v (· + (now + 1 - Tab.get 0 k.offSince v)), offSince := Tab.set 0 k.offSince v 0 }
  else k

/-- From k to k' only the times that channels have been off have changed. -/
def Port.OffTimesOnly (k k' : Port) : Prop := k' = { k with offTime := k'.offTime, offSince := k'.offSince }

theorem Port.turned_offTimesOnly (off : Byte) (now : Nat) (k : Port) (v : Nat) : k.OffTimesOnly (k.turned off now v) := by
  unfold Port.turned
  dsimp only
  split
  · rfl
  · split <;> rfl

theorem Port.OffTimesOnly.trans {k l m : Port} (h : k.OffTimesOnly l) (hl : l.OffTimesOnly m) : k.OffTimesOnly m := by
  unfold Port.OffTimesOnly at h hl ⊢
  rw [h] at hl
  exact hl

theorem Port.foldl_turned_offTimesOnly (off : Byte) (now : Nat) (k : Port) (vs : List Nat) :
    k.OffTimesOnly (vs.foldl (Port.turned off now) k) := by
  induction vs generalizing k with
  | nil => rfl
  | cons v vs ih => exact (k.turned_offTimesOnly off now v).trans (ih _)

/-- The far end's OFF bits stand as they were: no time changes. -/
theorem Port.foldl_turned_same (now : Nat) (k : Port) (vs : List Nat) : vs.foldl (Port.turned k.farOff now) k = k := by
  have hsame (v : Nat) : k.turned k.farOff now v = k := by
    simp [Port.turned]
  induction vs with
  | nil => rfl
  | cons v vs ih => rw [List.foldl_cons, hsame, ih]

/-- A frame without NAK, of the lanes that are in use, to a port that has nothing outstanding: only its OFF bits act. -/
theorem State.frameFields_off {s : State} {p : Nat} {k : Port} {f : Frame} (hb : k.buffer = []) (hrot : k.rotation = .idle)
    (hnak : f.nak = false) (hlanes : f.lanes = k.farLanes) :
    (s.setPort p k).frameFields p f =
      s.setPort p { (List.range 8).foldl (Port.turned f.off s.station) k with farOff := f.off } := by
  have hretire : (s.setPort p k).retireDue p = s.setPort p k := by
    rw [State.retireDue, State.setPort_port, if_neg (by simp [hrot])]
  have hfar : ((List.range 8).foldl (Port.turned f.off s.station) k).farLanes = k.farLanes := by
    rw [k.foldl_turned_offTimesOnly f.off s.station (List.range 8)]
  unfold State.frameFields
  extract_lets k1 s1 s2 turned s3 k3 s4
  have hs1 : s1 = s.setPort p k := by
    simp only [s1, k1, State.setPort_port, hb, List.findIdx?_nil]
  have hs2 : s2 = s.setPort p k := (congrArg (State.retireDue · p) hs1).trans hretire
  have hs3 : s3 = s.setPort p { (List.range 8).foldl (Port.turned f.off s.station) k with farOff := f.off } := by
    simp only [s3, turned, hs2, State.updPort_eq_setPort, State.setPort_port, State.setPort_setPort]
    rfl
  have hs4 : s4 = s3 := if_neg (by simp [hnak])
  rw [hs4, hs3, State.setPort_port, if_neg (by simp [hlanes, hfar])]

/-- A good frame of a port in UP, once its fields have acted. -/
theorem State.takeFrame_good {s t : State} {p : Nat} {bs : List Byte} (hcrc : frameCrcGood bs = true)
    (ht : s.frameFields p (frameOf bs) = t) (hup : (t.port p).st = .up) (marks : List (BitVec 3 × CellMark)) :
    s.takeFrame p bs true marks = if (frameOf bs).type = 0 then t.dataFrame p (frameOf bs) marks
      else if frameBad (frameOf bs) then t.startEpisode p else t.pumpFabric := by
  rw [State.takeFrame]
  dsimp only
  rw [hcrc, if_pos rfl, if_neg (by simp), ht, if_neg (by simp [hup])]

/-- A data frame in clear that is in its turn: E advances, and its cells are released (R263, R267). -/
theorem State.dataFrame_clear {s : State} {p : Nat} {k : Port} {f : Frame} (hup : k.st = .up) (hpolicy : k.policy = false)
    (henc : f.enc = false) (hbad : frameBad f = false) (hseq : f.seq = k.expect) (marks : List (BitVec 3 × CellMark)) :
    (s.setPort p k).dataFrame p f marks = (s.setPort p
      { k with expect := k.expect + 1, rxFrames := k.rxFrames + 1, episode := false, tagRun := 0 }).releaseCells p false
        (bodyCells f.body f.count marks) := by
  unfold State.dataFrame
  extract_lets k1 body t
  have hbody : body = some f.body := if_neg (by simp [henc])
  have hk1 : k1 = k := State.setPort_port ..
  have ht : t = s.setPort p { k with tagRun := 0 } := by
    simp only [t, hbody, Option.isNone_some, Bool.false_eq_true, if_false, State.updPort_eq_setPort, State.setPort_port,
      State.setPort_setPort]
  have hclear : (frameBad f || f.enc != (k.policy && k.st == .up)) = false := by
    simp [hbad, henc, hpolicy]
  have hlimited : (k.st == PState.limited) = false := by rw [hup]; rfl
  rw [ht, hk1, State.setPort_port, if_neg (by simp), hclear, if_neg Bool.false_ne_true, hbody]
  dsimp only
  rw [if_pos hseq, State.updPort_eq_setPort, State.setPort_port, State.setPort_setPort, hlimited]

section
variable {s : State} {p : Nat} {k : Port} {bs : List Byte} (hup : k.st = .up) (hcrc : frameCrcGood bs = true)
  (hcount : (frameOf bs).count ≤ 12) (hreserved : (frameOf bs).reserved = false) (hb : k.buffer = []) (hrot : k.rotation = .idle)
  (hnak : (frameOf bs).nak = false) (hlanes : (frameOf bs).lanes = k.farLanes) (marks : List (BitVec 3 × CellMark))
include hup hcrc hcount hreserved hb hrot hnak hlanes

/-- An idle frame moves nothing on but the far end's OFF bits. -/
theorem State.takeFrame_idle (htype : (frameOf bs).type = 1) (hfabric : s.fabric = []) :
    (s.setPort p k).takeFrame p bs true marks =
      s.setPort p { (List.range 8).foldl (Port.turned (frameOf bs).off s.station) k with farOff := (frameOf bs).off } := by
  have hst : ((List.range 8).foldl (Port.turned (frameOf bs).off s.station) k).st = .up := by
    rw [k.foldl_turned_offTimesOnly (frameOf bs).off s.station (List.range 8)]
    exact hup
  have hbad : frameBad (frameOf bs) = false := by
    have : ¬12 < (frameOf bs).count := by omega
    simp [frameBad, htype, hreserved, this]
  rw [State.takeFrame_good hcrc (State.frameFields_off hb hrot hnak hlanes) (by rw [State.setPort_port]; exact hst),
    if_neg (by simp [htype]), if_neg (by simp [hbad]), State.pumpFabric_nil (by exact hfabric)]

/-- A data frame in clear that is in its turn: E advances, and its cells are released (R263, R267). -/
theorem State.takeFrame_data (htype : (frameOf bs).type = 0) (hcells : 1 ≤ (frameOf bs).count) (henc : (frameOf bs).enc = false)
    (hpolicy : k.policy = false) (hseq : (frameOf bs).seq = k.expect) (hoff : (frameOf bs).off = k.farOff) :
    (s.setPort p k).takeFrame p bs true marks = (s.setPort p
      { k with expect := k.expect + 1, rxFrames := k.rxFrames + 1, episode := false, tagRun := 0 }).releaseCells p false
        (bodyCells (frameOf bs).body (frameOf bs).count marks) := by
  have hbad : frameBad (frameOf bs) = false := by
    have hfits : ¬12 < (frameOf bs).count := by omega
    have hsome : (frameOf bs).count ≠ 0 := by omega
    simp [frameBad, htype, hreserved, hfits, hsome]
  have hfields : (s.setPort p k).frameFields p (frameOf bs) = s.setPort p k := by
    rw [State.frameFields_off hb hrot hnak hlanes, hoff, Port.foldl_turned_same]
  rw [State.takeFrame_good hcrc hfields (by rw [State.setPort_port]; exact hup), if_pos htype,
    State.dataFrame_clear hup hpolicy henc hbad hseq]

end

/-! ### FRAME_RECEIVED in UP -/

section
variable {s : State} {p : PortId} {words : List (List (BitVec 10))} {bs : List Byte} {good : Bool} {k' : Port}
  (hup : (s.port p.val).st = .up) (hnext : ((s.port p.val).pull words).1.nextFrame = some ((bs, good), k')) (chans : List (BitVec 3))
  (marks : List CellMark)

include hnext in
/-- Once a frame has been taken from the stream, the port differs in its stream alone. -/
theorem Port.received_streamOnly : (s.port p.val).StreamOnly k' :=
  (Port.pull_streamOnly ..).trans (Port.nextFrame_streamOnly hnext)

include hup hnext

/-- A frame that fails starts a discard episode where none is open. -/
theorem exec_frameReceived_bad (hep : (s.port p.val).episode = false) (h : frameCrcGood bs = false ∨ good = false) :
    ∃ c, exec (.frameReceived p words chans marks) s = .next (s.setPort p.val
      { k' with episode := true, nakDue := true, rxCount := c }) := by
  have hstream := Port.received_streamOnly hnext
  have hst : k'.st = .up := by rw [hstream]; exact hup
  have hepisode : k'.episode = false := by rw [hstream]; exact hep
  obtain ⟨c, htaken⟩ := State.takeFrame_bad (s := s) (p := p.val) (k := { k' with rxCount := (s.port p.val).pullCount words }) hst
    hepisode h (chans.zip marks)
  exact ⟨c, (exec_frameReceived_some hup chans marks hnext).trans (congrArg Host.Outcome.next htaken)⟩

section
variable (hcrc : frameCrcGood bs = true) (hgood : good = true) (hcount : (frameOf bs).count ≤ 12)
  (hreserved : (frameOf bs).reserved = false) (hnak : (frameOf bs).nak = false) (hlanes : (frameOf bs).lanes = (s.port p.val).farLanes)
  (hb : (s.port p.val).buffer = []) (hrot : (s.port p.val).rotation = .idle)
include hcrc hgood hcount hreserved hnak hlanes hb hrot

/-- An idle frame moves nothing on but the far end's OFF bits and their times. -/
theorem exec_frameReceived_idle (htype : (frameOf bs).type = 1) (hfabric : s.fabric = []) :
    ∃ c time since, exec (.frameReceived p words chans marks) s = .next (s.setPort p.val
      { k' with farOff := (frameOf bs).off, rxCount := c, offTime := time, offSince := since }) := by
  subst hgood
  have hstream := Port.received_streamOnly hnext
  obtain ⟨hst, hbuffer, hrotation, hfar⟩ : k'.st = .up ∧ k'.buffer = [] ∧ k'.rotation = .idle ∧ (frameOf bs).lanes = k'.farLanes := by
    rw [hstream]
    exact ⟨hup, hb, hrot, hlanes⟩
  have htaken := State.takeFrame_idle (s := s) (p := p.val) (k := { k' with rxCount := (s.port p.val).pullCount words }) hst hcrc
    hcount hreserved hbuffer hrotation hnak hfar (chans.zip marks) htype hfabric
  rw [Port.foldl_turned_offTimesOnly] at htaken
  exact ⟨_, _, _, (exec_frameReceived_some hup chans marks hnext).trans (congrArg Host.Outcome.next htaken)⟩

/-- A data frame in clear that is in its turn: E advances, and its cells are released. -/
theorem exec_frameReceived_data (htype : (frameOf bs).type = 0) (hcells : 1 ≤ (frameOf bs).count) (henc : (frameOf bs).enc = false)
    (hpolicy : (s.port p.val).policy = false) (hseq : (frameOf bs).seq = (s.port p.val).expect)
    (hoff : (frameOf bs).off = (s.port p.val).farOff) :
    exec (.frameReceived p words chans marks) s = .next ((s.setPort p.val { k' with
      expect := (s.port p.val).expect + 1, rxFrames := (s.port p.val).rxFrames + 1, episode := false, tagRun := 0
      rxCount := (s.port p.val).pullCount words }).releaseCells p.val false
        (bodyCells (frameOf bs).body (frameOf bs).count (chans.zip marks))) := by
  subst hgood
  have hstream := Port.received_streamOnly hnext
  obtain ⟨hst, hbuffer, hrotation, hfar⟩ : k'.st = .up ∧ k'.buffer = [] ∧ k'.rotation = .idle ∧ (frameOf bs).lanes = k'.farLanes := by
    rw [hstream]
    exact ⟨hup, hb, hrot, hlanes⟩
  obtain ⟨hclear, hsame, hE, hframes⟩ : k'.policy = false ∧ (frameOf bs).off = k'.farOff ∧ k'.expect = (s.port p.val).expect ∧
      k'.rxFrames = (s.port p.val).rxFrames := by
    rw [hstream]
    exact ⟨hpolicy, hoff, rfl, rfl⟩
  have htaken := State.takeFrame_data (s := s) (p := p.val) (k := { k' with rxCount := (s.port p.val).pullCount words }) hst hcrc hcount
    hreserved hbuffer hrotation hnak hfar (chans.zip marks) htype hcells henc hclear (hseq.trans hE.symm) hsame
  rw [exec_frameReceived_some hup chans marks hnext, htaken, hE, hframes]

end
end

end Sys2Proof.Machine
end

section
/-! PROOF. Frames of a port, sent, received and replayed (11 R258 to R267, R272, R281; log entries 53, 97, 98). -/

namespace Sys2Proof.Machine

/-! ### What each frame sent says -/

theorem bodyOf_body (cells : List (BitVec 3 × Cell)) : sliceB (bodyOf cells) 0 480 = bodyOf cells := by
  have hlen : (bodyOf cells).length = 480 := sliceB_length ..
  rw [← hlen, sliceB_length_self]

/-- A frame without cells of the port k: ACK is E − 1 (R262, R264). -/
theorem State.blankFrame_setPort (s : State) (p : Nat) (k : Port) (type : BitVec 2) (body : List Byte) :
    (s.setPort p k).blankFrame p type body =
      { seq := k.seq, ack := k.expect - 1, off := k.ownOff, type := type, nak := k.nakDue, enc := false, key := false, count := 0
        cells := [], lanes := k.lanes, reserved := false, body := sliceB body 0 480, tag := List.replicate 16 0 } := by
  rw [State.blankFrame, State.setPort_port]

theorem State.blankFrame_assembling (s : State) (p : Nat) (type : BitVec 2) (body : List Byte) :
    (s.assembling p).blankFrame p type body =
      { seq := (s.port p).seq, ack := (s.port p).expect - 1, off := s.offBits p, type := type, nak := (s.port p).nakDue, enc := false
        key := false, count := 0, cells := [], lanes := (s.port p).lanes, reserved := false, body := sliceB body 0 480
        tag := List.replicate 16 0 } :=
  State.blankFrame_setPort s p (s.fresh p) type body

/-- A data frame of port p in clear (R261). -/
def Port.clearFrame (k : Port) (off : Byte) (cells : List (BitVec 3 × Cell)) : Frame :=
  { seq := k.seq, ack := k.expect - 1, off := off, type := 0, nak := k.nakDue, enc := false, key := false, count := cells.length
    cells := cells, lanes := k.lanes, reserved := false, body := bodyOf cells, tag := List.replicate 16 0 }

/-- Where the policy is off a data frame goes in clear. -/
theorem State.cellFrame_clear {s : State} {p : Nat} (h : (s.port p).policy = false) (cells : List (BitVec 3 × Cell)) :
    s.cellFrame p cells = (s.port p).clearFrame (s.offBits p) cells := by
  have hpolicy : (s.fresh p).policy = false := h
  rw [State.cellFrame, State.sealedFrame, State.blankFrame_assembling, State.assembling_port, bodyOf_body]
  dsimp only
  rw [hpolicy, Bool.false_and, Bool.false_and]
  rfl

/-- Where it is on, in UP, the frame is encrypted under the key of the slot in use (R281). -/
theorem State.cellFrame_sealed {s : State} {p : Nat} {lk : LinkKey} (hup : (s.port p).st = .up) (h : (s.port p).policy = true)
    (hkey : (s.port p).txKeys.slot (s.port p).key = some lk) (cells : List (BitVec 3 × Cell)) :
    s.cellFrame p cells = sealFrame { (s.port p).clearFrame (s.offBits p) cells with enc := true, key := (s.port p).key }
      p (linkDir (s.requester p) true) lk (s.port p).frames := by
  have hon : ((s.fresh p).policy && (s.fresh p).st == .up) = true := by simp [State.fresh, h, hup]
  have hslot : (s.fresh p).txKeys.slot (s.fresh p).key = some lk := hkey
  rw [State.cellFrame, State.sealedFrame, State.blankFrame_assembling, State.assembling_port, bodyOf_body]
  dsimp only
  rw [hon, hslot]
  rfl

/-- A data frame is the only one in a replay buffer that was empty. -/
theorem Port.keeps_of_empty {k : Port} (hb : k.buffer = []) (f : Frame) (l : List (BitVec 3 × InCell)) :
    k.keeps f l = { k with
      seq := k.seq + 1, frames := k.frames + 1, keyFrames := k.keyFrames + b01 f.enc, buffer := [f], outq := l } := by
  rw [Port.keeps, hb]
  rfl

/-! ### The obligation -/

/-- Settles O56: each clause is the rule of its command with what the frame sent says or what the frame received changes. -/
theorem framesComplete : Obligations.FramesComplete := by
  unfold Obligations.FramesComplete
  intro s p k sends hup
  have hsends (t f k') (h : s.Sends t p.val f k') : sends t f k' := h
  refine ⟨?ctl, ?idle, ?replay, ?none, ?received, ?timeout⟩
  case ctl =>
    intro cell x hr hb hon hoff hstarved hq hcell hvc hfabric hkeys
    subst hcell
    obtain ⟨t, hexec, hsent⟩ := exec_frameTransmit_ctl hup hon hr hb hoff hstarved hq hvc hfabric hkeys
    refine ⟨fun hpolicy => ?_, fun lk hpolicy hkey => ?_⟩
    · rw [State.cellFrame_clear hpolicy, Port.keeps_of_empty hb] at hsent
      exact ⟨t, _, hexec, rfl, rfl, rfl, rfl, rfl, rfl, rfl, rfl, hsends _ _ _ hsent⟩
    · rw [State.cellFrame_sealed hup hpolicy hkey, Port.keeps_of_empty hb] at hsent
      exact ⟨t, _, hexec, ⟨rfl, rfl, rfl, rfl, rfl, rfl, rfl⟩, hsends _ _ _ hsent⟩
  case idle =>
    intro hr hb hon hq
    have hf := s.blankFrame_assembling p.val 1 []
    exact ⟨_, _, exec_frameTransmit_idle hup hon hr hb hq, congrArg Frame.type hf, congrArg Frame.seq hf, congrArg Frame.ack hf,
      congrArg Frame.nak hf, congrArg Frame.count hf, hsends _ _ _ (s.idled_sends p.val)⟩
  case replay =>
    intro old l hr hon
    exact ⟨_, s.renewed p.val old, exec_frameTransmit_replay hup hon hr, rfl, rfl, rfl, rfl, rfl, rfl, rfl, rfl, rfl, rfl,
      hsends _ _ _ (s.resent_sends p.val old l)⟩
  case none =>
    intro words chans marks h
    refine ⟨_, exec_frameReceived_none hup chans marks h, ?_, State.setPort_onlyPort ..⟩
    rw [State.pulled, State.setPort_port]
  case received =>
    intro words chans marks bs good k' hnext f
    refine ⟨fun hfails hep => ?_, fun hcrc hgood hcount hreserved hnak hlanes hb hrot => ⟨fun htype hfabric => ?_,
      fun htype hcells henc hpolicy hseq hoff => ?_⟩⟩
    · obtain ⟨c, hexec⟩ := exec_frameReceived_bad hup hnext chans marks hep hfails
      refine ⟨_, hexec, ?_, State.setPort_onlyPort ..⟩
      rw [State.setPort_port]
    · obtain ⟨c, time, since, hexec⟩ := exec_frameReceived_idle hup hnext chans marks hcrc hgood hcount hreserved hnak hlanes hb hrot
        htype hfabric
      refine ⟨_, hexec, ?_, State.setPort_onlyPort ..⟩
      rw [State.setPort_port]
    · have hcounted : (k.pull words).1.rxCount = k'.rxCount := by rw [Port.nextFrame_streamOnly hnext]
      rw [exec_frameReceived_data hup hnext chans marks hcrc hgood hcount hreserved hnak hlanes hb hrot htype hcells henc hpolicy hseq
        hoff, State.updPort_eq_setPort, State.rxCount_setPort, State.rxCount_setPort, Port.pullCount, hcounted]
  case timeout =>
    intro hb hr hrun htimes
    refine ⟨_, exec_replayTimeout hup hb hr hrun htimes, ?_, State.setPort_onlyPort ..⟩
    rw [State.setPort_port]

end Sys2Proof.Machine
end

section
/-! PROOF. A port comes up through its states and falls back; lanes, lasers and retunes (11 R266, R275 to R280; 23 R522; log entries 54,
55, 93, 97, 98). -/

namespace Sys2Proof.Machine

/-! ### One laser put -/

/-- The state with the laser l at die k. -/
def State.setLaser (s : State) (k : Nat) (l : Laser) : State := { s with lasers := Recs.put s.lasers k l }

theorem State.updLaser_eq_setLaser (s : State) (k : Nat) (f : Laser → Laser) : s.updLaser k f = s.setLaser k (f (s.laser k)) := rfl

@[simp] theorem State.setLaser_laser (s : State) (k : Nat) (l : Laser) : (s.setLaser k l).laser k = l := Recs.get_put_self ..

@[simp] theorem State.setPort_laser (s : State) (p : Nat) (k : Port) (n : Nat) : (s.setPort p k).laser n = s.laser n := rfl

theorem State.setPort_setLaser (s : State) (p : Nat) (k : Port) (n : Nat) (l : Laser) :
    (s.setPort p k).setLaser n l = (s.setLaser n l).setPort p k := rfl

/-- LASER_EN of a powered die goes high once one of its ports is enabled (R277). -/
theorem State.laserEnable_high {s : State} {p : Nat} (hrail : s.power.railFabric = true) (hon : (s.port p).enable = true) :
    s.laserEnable (p / 2) = s.setLaser (p / 2) { s.laser (p / 2) with en := true } := by
  have hp : p = 2 * (p / 2) ∨ p = 2 * (p / 2) + 1 := by omega
  have hen : (s.power.railFabric && ((s.port (2 * (p / 2))).enable || (s.port (2 * (p / 2) + 1)).enable)) = true := by
    rcases hp with hp | hp <;> rw [← hp] <;> simp [hrail, hon]
  rw [State.laserEnable]
  dsimp only
  rw [hen, State.updLaser_eq_setLaser, if_pos rfl]

/-! ### LIGHT -/

/-- A DOWN port that is enabled, lit and of a peer enters LIGHT. -/
theorem State.bringUp_lit {s : State} {p : Nat} (hst : (s.port p).st = .down) (hon : (s.port p).enable = true)
    (hgood : (s.laser (p / 2)).good = true) (hpeer : (s.peer p).isSome = true) :
    s.bringUp p = s.setPort p { s.port p with st := .light, policy := (s.port p).encrypt } := by
  rw [State.bringUp, if_pos (by simp [hst, hon, hgood, hpeer]), State.updPort_eq_setPort]

theorem State.bringUp_onlyPort (s : State) (p : Nat) : s.OnlyPort (s.bringUp p) p := by
  unfold State.bringUp
  split
  · exact State.setPort_onlyPort ..
  · exact ⟨fun _ _ => rfl, rfl⟩

/-- Enabling a lit port of a peer takes it to LIGHT. -/
theorem exec_portEnable_lit {s : State} {p : PortId} (hst : (s.port p.val).st = .down) (hgood : (s.laser (p.val / 2)).good = true)
    (hrail : s.power.railFabric = true) (hpeer : (s.peer p.val).isSome = true) :
    exec (.portEnable p true) s = .next (((s.setLaser (p.val / 2) { s.laser (p.val / 2) with en := true }).setPort p.val
      { s.port p.val with enable := true, st := .light, policy := (s.port p.val).encrypt }).updMaint
        (fun m => { m with dirty := true })) := by
  have hlaser := State.laserEnable_high (s := s.setPort p.val { s.port p.val with enable := true }) (p := p.val) hrail
    (by rw [State.setPort_port])
  show execPortEnable p true s = _
  rw [execPortEnable, State.portEnable, State.updPort_eq_setPort]
  dsimp only
  rw [hlaser, if_pos rfl, State.setPort_laser, State.setPort_setLaser, State.bringUp_lit (by rw [State.setPort_port]; exact hst)
    (by rw [State.setPort_port]) (by rw [State.setPort_laser, State.setLaser_laser]; exact hgood) (by exact hpeer), State.setPort_port,
    State.setPort_setPort]

/-- Disabling a port takes it down. -/
theorem exec_portEnable_off (s : State) (p : PortId) :
    exec (.portEnable p false) s = .next ((((s.updPort p.val (fun k => { k with enable := false })).laserEnable (p.val / 2)).portDown
      p.val).updMaint (fun m => { m with dirty := true })) := rfl

/-! ### LIGHT to HELLO (Table 11.11) -/

section
variable {s : State} {p : PortId}

theorem exec_signalPresent_light {lanes : BitVec 16} (hst : (s.port p.val).st = .light) (hlanes : 4 ≤ laneCount lanes) :
    exec (.signalPresent p lanes) s = .next (s.updPort p.val (fun k => { k.train with lanes := lanes })) := by
  show execSignalPresent p lanes s = _
  rw [execSignalPresent, if_pos (by simp [hst, hlanes])]

theorem exec_equalisationConverged_train {lanes l : BitVec 16} (hst : (s.port p.val).st = .train)
    (hl : (if (s.port p.val).retraining then (s.port p.val).lanes ||| lanes else (s.port p.val).lanes &&& lanes) = l)
    (hlanes : 4 ≤ laneCount l) :
    exec (.equalisationConverged p lanes) s = .next (s.updPort p.val (fun k => { k with st := .align, lanes := l })) := by
  show execEqualisationConverged p lanes s = _
  rw [execEqualisationConverged, if_pos (by simp [hst])]
  dsimp only
  rw [hl, if_neg (by omega)]

theorem exec_alignmentLock_align (hst : (s.port p.val).st = .align) :
    exec (.alignmentLock p) s = .next (s.updPort p.val (fun k => { k with st := .hello })) := by
  show execAlignmentLock p s = _
  rw [execAlignmentLock, if_pos (by simp [hst])]

/-! ### HELLO (R266, R278, R279) -/

/-- A port that enters UP afresh: its numbers and counters at 0, the cells of LIMITED that no ACK has covered ahead of the others (log
entry 97). -/
def Port.afresh (k : Port) (now : Nat) : Port :=
  { k with
    st := .up, miswired := false, seq := 0, frames := 0, rxFrames := 0, expect := 0, buffer := [], resend := [], episode := false
    nakDue := false, replayRun := 0, replayTimes := [], tagRun := 0, heard := now, silent := false, farOff := 0, offSince := []
    starve := [], credits := [], retraining := false, retrainFails := 0
    outq := k.buffer.flatMap (fun f => f.cells.map (fun c => (c.1, (⟨8, c.1, c.2⟩ : InCell)))) ++ k.outq }

/-- A port that is in state `st` again after a retraining, with its buffer to be sent again. -/
def Port.resumed (k : Port) (st : PState) : Port :=
  { k with
    st := st, miswired := false, retraining := false, retrainFails := 0, resend := k.buffer
    replayAt := (k.buffer.head?.map (·.seq)).getD k.seq }

section
variable {h : HelloRec} (hst : (s.port p.val).st = .hello)
include hst

theorem exec_hello_mismatch (hok : s.helloOk p.val h = false) :
    exec (.hello p h) s = .next ((s.setPort p.val { s.port p.val with miswired := true }).linkEvent p.val 2) := by
  show execHello p h s = _
  rw [execHello, if_neg (by simp [hst]), if_pos (by simp [hok]), State.updPort_eq_setPort]

/-- Where both ends agree the port leaves HELLO: it waits for keys, goes on after a retraining, or starts afresh. -/
theorem exec_hello_agree (hok : s.helloOk p.val h = true) :
    exec (.hello p h) s = .next (
      if (s.port p.val).policy && ((s.port p.val).txKeys.slot (s.port p.val).key).isNone then
        s.setPort p.val (if (s.port p.val).retraining then (s.port p.val).resumed .limited
          else { s.port p.val with st := .limited, miswired := false })
      else if (s.port p.val).retraining then (s.setPort p.val ((s.port p.val).resumed .up)).linkEvent p.val 0
      else (s.setPort p.val ((s.port p.val).afresh s.station)).linkEvent p.val 0) := by
  show execHello p h s = _
  rw [execHello, if_neg (by simp [hst]), if_neg (by simp [hok]), State.updPort_eq_setPort, apply_ite Host.Outcome.next,
    apply_ite Host.Outcome.next]
  refine ite_congr rfl (fun _ => congrArg Host.Outcome.next ?_) fun _ => ite_congr rfl (fun _ => congrArg Host.Outcome.next ?_)
    fun _ => congrArg Host.Outcome.next ?_
  · rw [State.updPort_eq_setPort, State.setPort_port, State.setPort_setPort]
    rfl
  · rw [State.updPort_eq_setPort, State.setPort_port, State.setPort_setPort]
    rfl
  · rw [State.enterUp, State.updPort_eq_setPort, State.setPort_port, State.setPort_setPort]
    rfl

theorem exec_hello_fresh (hok : s.helloOk p.val h = true) (hpolicy : (s.port p.val).policy = false)
    (hnew : (s.port p.val).retraining = false) :
    exec (.hello p h) s = .next ((s.setPort p.val ((s.port p.val).afresh s.station)).linkEvent p.val 0) := by
  simp only [exec_hello_agree hst hok, hpolicy, hnew, Bool.false_and, Bool.false_eq_true, if_false]

theorem exec_hello_limited (hok : s.helloOk p.val h = true) (hpolicy : (s.port p.val).policy = true)
    (hkey : (s.port p.val).txKeys.slot (s.port p.val).key = none) (hnew : (s.port p.val).retraining = false) :
    exec (.hello p h) s = .next (s.setPort p.val { s.port p.val with st := .limited, miswired := false }) := by
  simp only [exec_hello_agree hst hok, hpolicy, hkey, hnew, Option.isNone_none, Bool.and_self, Bool.false_eq_true, if_true, if_false]

theorem exec_hello_again (hok : s.helloOk p.val h = true)
    (hkey : (s.port p.val).policy = false ∨ ((s.port p.val).txKeys.slot (s.port p.val).key).isSome = true)
    (hagain : (s.port p.val).retraining = true) :
    exec (.hello p h) s = .next ((s.setPort p.val ((s.port p.val).resumed .up)).linkEvent p.val 0) := by
  have hkeys : ((s.port p.val).policy && ((s.port p.val).txKeys.slot (s.port p.val).key).isNone) = false := by
    rcases hkey with hkey | hkey
    · rw [hkey, Bool.false_and]
    · rw [Option.isNone_eq_false_iff.mpr hkey, Bool.and_false]
  simp only [exec_hello_agree hst hok, hkeys, hagain, Bool.false_eq_true, if_true, if_false]

end

/-! ### A state that takes too long (R266, R277, R278) -/

/-- A port that has not completed a state in time is in LIGHT again, and its failed retraining is counted. -/
def Port.relit (k : Port) : Port :=
  { k with
    st := .light, policy := k.encrypt, realign := false, retraining := k.retraining && k.encrypt == k.policy
    retrainFails := if k.retraining then k.retrainFails + 1 else 0 }

theorem exec_portStateTimeout_bound (h : (s.port p.val).st = .train ∨ (s.port p.val).st = .align ∨ (s.port p.val).st = .hello) :
    exec (.portStateTimeout p) s = .next (
      if (s.port p.val).st == .hello && (s.port p.val).miswired then s
      else if (s.port p.val).retraining && decide (2 ≤ (s.port p.val).retrainFails) then s.portDown p.val
      else (s.setPort p.val { (s.port p.val).relit with miswired := false }).linkEvent p.val 2) := by
  show execPortStateTimeout p s = _
  rw [execPortStateTimeout, apply_ite Host.Outcome.next, apply_ite Host.Outcome.next]
  rcases h with hst | hst | hst <;> rw [hst] <;> rfl

theorem exec_portStateTimeout_miswired (hst : (s.port p.val).st = .hello) (h : (s.port p.val).miswired = true) :
    exec (.portStateTimeout p) s = .next s := by
  simp only [exec_portStateTimeout_bound (.inr (.inr hst)), hst, h, beq_self_eq_true, Bool.and_self, if_true]

section
variable (hst : (s.port p.val).st = .train ∨ (s.port p.val).st = .align ∨ (s.port p.val).st = .hello)
  (hwired : (s.port p.val).miswired = false)
include hst hwired

theorem exec_portStateTimeout_light (hfew : (s.port p.val).retraining = false ∨ (s.port p.val).retrainFails < 2) :
    exec (.portStateTimeout p) s = .next ((s.setPort p.val (s.port p.val).relit).linkEvent p.val 2) := by
  have hgo : ((s.port p.val).retraining && decide (2 ≤ (s.port p.val).retrainFails)) = false := by
    rcases hfew with h | h
    · rw [h, Bool.false_and]
    · rw [decide_eq_false (Nat.not_le.mpr h), Bool.and_false]
  have hrelit : { (s.port p.val).relit with miswired := false } = (s.port p.val).relit := by
    rw [← hwired]
    rfl
  rw [exec_portStateTimeout_bound hst, hrelit, hwired, hgo, Bool.and_false, if_neg Bool.false_ne_true, if_neg Bool.false_ne_true]

theorem exec_portStateTimeout_down (hagain : (s.port p.val).retraining = true) (hmany : 2 ≤ (s.port p.val).retrainFails) :
    exec (.portStateTimeout p) s = .next (s.portDown p.val) := by
  rw [exec_portStateTimeout_bound hst, hwired, hagain, Bool.and_false, Bool.true_and, if_neg Bool.false_ne_true,
    if_pos (decide_eq_true hmany)]

end

/-! ### Lanes, retunes and lasers -/

/-- A lane that drops leaves the set (R275). -/
theorem exec_laneDrop_set {lane : Fin 16} (hst : (s.port p.val).st ≠ .down) (hlane : (s.port p.val).lanes.getLsbD lane.val = true)
    (hlanes : 4 ≤ laneCount ((s.port p.val).lanes &&& ~~~(BitVec.ofNat 16 (2 ^ lane.val)))) :
    exec (.laneDrop p lane) s = .next (s.setPort p.val { s.port p.val with
      lanes := (s.port p.val).lanes &&& ~~~(BitVec.ofNat 16 (2 ^ lane.val)), rxCount := Tab.upd 0 (s.port p.val).rxCount 6 (· + 1) }) := by
  show execLaneDrop p lane s = _
  rw [execLaneDrop, if_pos (by simp [hst, hlane]), State.updPort_eq_setPort, State.rxCount_setPort]
  dsimp only
  rw [State.setPort_port, if_neg (Nat.not_lt.mpr hlanes)]

/-- A retune brings lanes back and sends the pattern on the new set (R280). -/
theorem exec_retune_up {lanes : BitVec 16} (hst : (s.port p.val).st = .up) (hfree : s.backgroundPaused = false) :
    let k : Port := { s.port p.val with lanes := (s.port p.val).lanes ||| lanes }
    exec (.retune p lanes) s = .next ((s.setPort p.val { k with nakDue := false }).sendFrame p.val
      ((s.setPort p.val k).blankFrame p.val 2 Config.retuneBody)) := by
  show execRetune p lanes s = _
  rw [execRetune, if_pos (by simp [hst, hfree]), State.updPort_eq_setPort]
  dsimp only
  rw [State.updPort_eq_setPort, State.setPort_port, State.setPort_setPort]

end

/-- A laser that faults takes both ports of its die down (23 R522; log entry 93). -/
theorem exec_laserFault_good {s : State} {die : Fin 4} (hen : (s.laser die.val).en = true) (hgood : (s.laser die.val).good = true) :
    let t := ((s.updLaser die.val (fun l => { l with fault := true, good := false })).portDown (2 * die.val)).portDown (2 * die.val + 1)
    exec (.laserFault die) s = .next (
      if (s.port (2 * die.val)).st != .down || (s.port (2 * die.val + 1)).st != .down then t else t.linkEvent (2 * die.val) 2) := by
  show execLaserFault die s = _
  rw [execLaserFault, if_pos (by simp [hen, hgood])]

/-- A laser whose input is good again brings the ports of its die back (23 R522). -/
theorem exec_laserInputGood_enabled {s : State} {die : Fin 4} (hen : (s.laser die.val).en = true) :
    exec (.laserInputGood die) s = .next (((s.setLaser die.val { s.laser die.val with fault := false, good := true }).bringUp
      (2 * die.val)).bringUp (2 * die.val + 1)) := by
  show execLaserInputGood die s = _
  rw [execLaserInputGood, if_pos hen, State.updLaser_eq_setLaser]

/-- Bringing up both ports of a die changes no other port and nothing else. -/
theorem State.bringUp_pair (s : State) (n : Nat) :
    let t := (s.bringUp (2 * n)).bringUp (2 * n + 1)
    (∀ q, q / 2 ≠ n → t.port q = s.port q) ∧ t = { s with ports := t.ports } := by
  obtain ⟨hport0, honly0⟩ := s.bringUp_onlyPort (2 * n)
  obtain ⟨hport1, honly1⟩ := (s.bringUp (2 * n)).bringUp_onlyPort (2 * n + 1)
  refine ⟨fun q hq => (hport1 q (by omega)).trans (hport0 q (by omega)), ?_⟩
  rw [honly1, honly0]

/-! ### The obligation -/

/-- Settles O57: each clause is the rule of its command; a LINK event that goes with it writes to the host alone. -/
theorem portBringUpComplete : Obligations.PortBringUpComplete := by
  unfold Obligations.PortBringUpComplete
  intro s p k events
  refine ⟨?enabled, exec_portEnable_off s p, fun _ hst hlanes => exec_signalPresent_light hst hlanes,
    fun _ hst hlanes => exec_equalisationConverged_train hst rfl hlanes, exec_alignmentLock_align, ?agree, ?mismatch, ?bound,
    exec_portStateTimeout_miswired, ?drop, ?retune, ?laser⟩
  case enabled =>
    intro hst hgood hrail hpeer
    refine ⟨_, exec_portEnable_lit hst hgood hrail hpeer, State.setPort_port .., fun q hq => State.setPort_port_ne hq, ?_, rfl⟩
    exact congrArg Laser.en (State.setLaser_laser ..)
  case agree =>
    intro h hst hok
    refine ⟨fun hpolicy hnew => ?_, exec_hello_limited hst hok, fun hkey hagain => ?_⟩
    · obtain ⟨hport, honly⟩ := (State.linkEvent_hostOnly (s.setPort p.val (k.afresh s.station)) p.val 0).onlyPort
      exact ⟨_, exec_hello_fresh hst hok hpolicy hnew, congrArg Port.st hport, congrArg Port.seq hport, congrArg Port.expect hport,
        congrArg Port.frames hport, congrArg Port.rxFrames hport, congrArg Port.buffer hport, congrArg Port.resend hport,
        (congrArg Port.txLanes hport).trans rfl, (congrArg Port.lanes hport).trans rfl, congrArg Port.outq hport, honly⟩
    · obtain ⟨hport, honly⟩ := (State.linkEvent_hostOnly (s.setPort p.val (k.resumed .up)) p.val 0).onlyPort
      refine ⟨_, exec_hello_again hst hok hkey hagain, ?_, honly⟩
      rw [hport]
      rfl
  case mismatch =>
    intro h hst hok
    exact ⟨_, exec_hello_mismatch hst hok, (State.linkEvent_hostOnly ..).onlyPort⟩
  case bound =>
    intro hst hwired
    refine ⟨fun hfew => ?_, exec_portStateTimeout_down hst hwired⟩
    exact ⟨_, exec_portStateTimeout_light hst hwired hfew, (State.linkEvent_hostOnly ..).onlyPort⟩
  case drop =>
    intro lane hst hlane hlanes
    refine ⟨_, exec_laneDrop_set hst hlane hlanes, ?_, State.setPort_onlyPort ..⟩
    rw [State.setPort_port]
  case retune =>
    intro lanes hst hfree
    have hf := s.blankFrame_setPort p.val { k with lanes := k.lanes ||| lanes } 2 Config.retuneBody
    refine ⟨_, _, exec_retune_up hst hfree, congrArg Frame.type hf, congrArg Frame.lanes hf, congrArg Frame.nak hf, congrArg Frame.seq hf,
      congrArg Frame.ack hf, ?_⟩
    rw [State.sendFrame_setPort]
    exact ⟨State.setPort_port .., State.setPort_onlyPort ..⟩
  case laser =>
    intro die hen
    refine ⟨fun hgood => ⟨fun hup => ?_, fun h0 h1 => ?_⟩, ?_⟩
    · rw [exec_laserFault_good hen hgood, if_pos (by simpa using hup)]
    · rw [exec_laserFault_good hen hgood, if_neg (by simp [h0, h1])]
    · obtain ⟨hports, honly⟩ := (s.setLaser die.val { s.laser die.val with fault := false, good := true }).bringUp_pair die.val
      refine ⟨_, exec_laserInputGood_enabled hen, ?_, ?_, hports, ?_⟩ <;> rw [honly]
      · exact congrArg Laser.good (State.setLaser_laser ..)
      · exact congrArg Laser.fault (State.setLaser_laser ..)
      · rfl

end Sys2Proof.Machine
end

section
/-! PROOF. Route slots installed on a package, and the epoch change on the coordinator and on a package that is told (12 R287, R298, R300,
R301; 24 R536; log entries 8, 52). -/

namespace Sys2Proof.Machine

/-! ### Route slots -/

@[simp] theorem State.routeSlot_setRoute (s : State) (i : Nat) (r : RouteSlot) : (s.setRoute i r).routeSlot i = r := Recs.get_put_self ..

@[simp] theorem State.shapeTaken_routeSlot (s : State) (i : Nat) : s.shapeTaken.routeSlot i = s.routeSlot i := rfl

@[simp] theorem State.updNet_routeSlot (s : State) (f : Net → Net) (i : Nat) : (s.updNet f).routeSlot i = s.routeSlot i := rfl

/-- With no record in force slot 1 in particular holds none. -/
theorem State.routeSlot_one_of_not_hasRoute {s : State} (h : s.hasRoute = false) : (s.routeSlot 1).st ≠ 2 := by
  obtain ⟨-, hone⟩ := Bool.or_eq_false_iff.mp h
  simpa using hone

section
variable {s : State}

/-! ### ROUTE_CMD (24 R536) -/

/-- The state in which an INSTALL has made a record CURRENT in slot 0. -/
def State.installed (s : State) (r : RouteSlot) : State := ((s.setRoute 0 r).updNet (fun n => { n with result := 1 })).shapeTaken

theorem State.installed_routeSlot (s : State) (r : RouteSlot) : (s.installed r).routeSlot 0 = r := by
  simp [State.installed]

/-- Besides the slots an INSTALL changes the result, the measurements and the mark of the retained settings. -/
theorem State.installed_frame (s : State) (r : RouteSlot) :
    s.installed r = { s with
      routes := (s.installed r).routes
      net := { s.net with result := 1 }
      sec := { s.sec with meas := (s.installed r).sec.meas }
      maint := { s.maint with dirty := true } } := rfl

theorem exec_routeInstall_first (hgood : shapeBad s.net.shapeStage = false) (hnone : s.hasRoute = false) :
    exec .routeInstall s = .next (s.installed ⟨2, sliceB s.net.shapeStage 0 128, s.stagedFence⟩) := by
  have htaken : (shapeBad s.net.shapeStage || (s.hasRoute && !s.spare)) = false := by rw [hgood, hnone]; rfl
  show execRouteInstall s = _
  rw [execRouteInstall, htaken, if_neg Bool.false_ne_true, if_neg (State.routeSlot_one_of_not_hasRoute hnone)]
  rfl

theorem exec_routeInstall_bad (hbad : shapeBad s.net.shapeStage = true) :
    exec .routeInstall s = .next ((s.updNet (fun n => { n with result := 2 })).refuse routeCmdAt) := by
  show execRouteInstall s = _
  rw [execRouteInstall, hbad, Bool.true_or, if_pos rfl]

theorem exec_routeEpoch_starts (hgood : shapeBad s.net.shapeStage = false) (hcoord : s.coordinating = true) (hfree : s.maintBusy = false) :
    exec .routeEpoch s = .next (State.nextEpoch 3
      ((s.startActivity 1 0 false).startEpoch (sliceB s.net.shapeStage 0 128) s.stagedFence)) := by
  have hpermitted : (shapeBad s.net.shapeStage || !s.coordinating) = false := by rw [hgood, hcoord]; rfl
  show execRouteEpoch s = _
  rw [execRouteEpoch, hpermitted, hfree, if_neg Bool.false_ne_true, if_neg Bool.false_ne_true]

theorem exec_routeEpoch_elsewhere (hother : s.coordinating = false) :
    exec .routeEpoch s = .next ((s.updNet (fun n => { n with result := 2 })).refuse routeCmdAt) := by
  show execRouteEpoch s = _
  rw [execRouteEpoch, hother, Bool.not_false, Bool.or_true, if_pos rfl]

/-! ### A package that is told (12 Table 12.4) -/

section
variable (hother : s.coordinating = false)
include hother

theorem exec_epochStage_elsewhere (common : List Byte) (fence : List Place) :
    exec (.epochStage common fence) s = .next ((s.stageSlot common fence).ctl .epochAck) := by
  show execEpochStage common fence s = _
  rw [execEpochStage, hother, if_neg Bool.false_ne_true]

theorem exec_switch_elsewhere : exec .switch s = .next (s.switchSlot.ctl .epochAck) := by
  show execSwitch s = _
  rw [execSwitch, hother, if_neg Bool.false_ne_true]

theorem exec_drainQuery_elsewhere : exec .drainQuery s =
    .next ((s.ctl (.drainAnswer s.oldCount s.net.oldSeen)).updNet (fun n => { n with oldSeen := false })) := by
  show execDrainQuery s = _
  rw [execDrainQuery, hother, if_neg Bool.false_ne_true]

theorem exec_purge_elsewhere : exec .purge s = .next (s.purgeOld.ctl .epochAck) := by
  show execPurge s = _
  rw [execPurge, hother, if_neg Bool.false_ne_true]

theorem exec_retire_elsewhere : exec .retire s = .next s.retireSlot := by
  show execRetire s = _
  rw [execRetire, hother, if_neg Bool.false_ne_true]

end

/-! ### Acknowledgements on the coordinator (12 R300) -/

/-- While an acknowledgement is missing no step of the change follows. -/
theorem State.nextEpoch_waiting (fuel : Nat) (h : s.net.epoch.waiting ≠ []) : State.nextEpoch fuel s = s := by
  cases fuel with
  | zero => rfl
  | succ n => rw [State.nextEpoch, if_neg (by simpa using h)]

/-- An acknowledgement of the staging that leaves another one missing is taken away, and nothing else follows. -/
theorem exec_epochAck_staging {p q : Place} (hphase : s.net.epoch.phase = .staging) (hwaiting : s.net.epoch.waiting = [p, q])
    (hne : p ≠ q) : exec (.epochAck p) s = .next (s.updNet (fun n => { n with epoch := { n.epoch with waiting := [q] } })) := by
  have hleft : s.net.epoch.waiting.filter (· != p) = [q] := by simp [hwaiting, hne.symm]
  have hupd : s.updEpoch (fun e => { e with waiting := e.waiting.filter (· != p) }) =
      s.updNet (fun n => { n with epoch := { n.epoch with waiting := [q] } }) := by
    simp only [State.updEpoch, State.updNet, hleft]
  show execEpochAck p s = _
  simp only [execEpochAck, hphase]
  rw [hupd, State.nextEpoch_waiting 3 (List.cons_ne_nil q [])]

/-- SWITCH is repeated while an acknowledgement of it is missing, three times at most. -/
theorem exec_epochAckTimeout_switching (hphase : s.net.epoch.phase = .switching) (hwaiting : s.net.epoch.waiting ≠ [])
    (hfew : s.net.epoch.repeats < 3) : exec .epochAckTimeout s =
      .next ((s.updNet (fun n => { n with epoch := { n.epoch with repeats := n.epoch.repeats + 1 } })).ctl .switch) := by
  have hmissing : ¬ s.net.epoch.waiting.isEmpty = true := by simpa using hwaiting
  show execEpochAckTimeout s = _
  simp only [execEpochAckTimeout, hphase]
  rw [if_neg hmissing, if_pos hfew]
  rfl

/-! ### Drain waves (12 R301) -/

/-- Answers that each hold the count 0 add nothing to the cells of a wave. -/
theorem foldl_drainCount_zero {answers : List (Place × W32 × Bool)} (n : Nat) (h : answers.all (fun a => a.2.1 == 0) = true) :
    answers.foldl (fun n a => n + a.2.1.toNat) n = n := by
  induction answers with
  | nil => rfl
  | cons a as ih =>
    obtain ⟨ha, has⟩ : a.2.1 = 0 ∧ as.all (fun a => a.2.1 == 0) = true := by simpa using h
    rw [List.foldl_cons, ha]
    exact ih has

/-- A wave of which every peer has answered is empty where no package has a cell of the old epoch: after an earlier empty wave, and with no
such cell seen between them, it ends the change; otherwise it is counted and the next query sent. -/
theorem exec_drainWave_empty {answers : List (Place × W32 × Bool)} (hphase : s.net.epoch.phase = .draining)
    (hall : s.epochPeers.all (fun p => answers.any (fun a => a.1 == p)) = true)
    (hzero : answers.all (fun a => a.2.1 == 0) = true) (hown : s.oldCount = 0) :
    exec (.drainWave answers) s =
      if decide (1 ≤ s.net.epoch.waves) && !(s.net.oldSeen || answers.any (fun a => a.2.2)) then
        .next (s.updNet (fun n => { n with oldSeen := false })).finishEpoch
      else .next ((s.updNet (fun n => { n with oldSeen := false, epoch := { n.epoch with waves := 1 } })).ctl .drainQuery) := by
  have hcount : s.oldCount + answers.foldl (fun n a => n + a.2.1.toNat) 0 = 0 := by rw [hown, foldl_drainCount_zero 0 hzero]
  show execDrainWave answers s = _
  rw [execDrainWave, if_neg (not_not.mpr hphase)]
  simp only [hall, hcount, Bool.true_and, beq_self_eq_true, if_true]
  rfl

end

/-! ### The obligation -/

/-- Settles O59: each clause is the rule of its command; an acknowledgement that is still missing keeps the change where it is, and an empty
wave ends it once an empty one came before. -/
theorem routeEventsComplete : Obligations.RouteEventsComplete := by
  unfold Obligations.RouteEventsComplete
  intro s
  refine ⟨fun hgood hnone => ?install, exec_routeInstall_bad, fun hgood hcoord hfree _ => exec_routeEpoch_starts hgood hcoord hfree,
    fun hother _ => exec_routeEpoch_elsewhere hother, fun hother => ?told, fun _ _ => exec_epochAck_staging,
    exec_epochAckTimeout_switching, fun answers hphase hall hzero hown => ?wave⟩
  case install =>
    exact ⟨_, exec_routeInstall_first hgood hnone, State.installed_routeSlot .., State.installed_frame ..⟩
  case told =>
    exact ⟨exec_epochStage_elsewhere hother, exec_switch_elsewhere hother, exec_drainQuery_elsewhere hother,
      exec_purge_elsewhere hother, exec_retire_elsewhere hother⟩
  case wave =>
    refine ⟨fun hfirst => ?_, fun hlater hseen hnone => ?_⟩
    · rw [exec_drainWave_empty hphase hall hzero hown, hfirst]
      rfl
    · have hunseen : answers.any (fun a => a.2.2) = false := by simpa using hnone
      rw [exec_drainWave_empty hphase hall hzero hown, hseen, hunseen, decide_eq_true hlater]
      rfl

end Sys2Proof.Machine
end

section
/-! PROOF. Page groups freed, spilled and reloaded, on a member and on the lead (14 R324, R328, R335, R337; log entry 19). -/

namespace Sys2Proof.Machine

/-! ### The serving data of a slot, and one request of it -/

theorem State.updGroup_group_ne (s : State) {g h : Nat} (f : Group → Group) (hne : h ≠ g) : (s.updGroup g f).group h = s.group h :=
  Recs.get_put_ne _ _ _ hne

@[simp] theorem State.updServe_serve (s : State) (g : Nat) (f : Serve → Serve) :
    ((s.updServe g f).group g).serve = f (s.group g).serve :=
  congrArg Group.serve (s.updGroup_group g _)

/-- What an update of the serving data does is what it does to the data that are there. -/
theorem State.updServe_congr {s : State} {g : Nat} {f f' : Serve → Serve} (h : f (s.group g).serve = f' (s.group g).serve) :
    s.updServe g f = s.updServe g f' := by
  simp only [State.updServe, State.updGroup, h]

@[simp] theorem State.updReq_req (s : State) (g e : Nat) (f : Req → Req) : (s.updReq g e f).req g e = f (s.req g e) := by
  rw [State.req, State.updReq, State.updServe_serve]
  exact Recs.get_put_self ..

@[simp] theorem State.updReq_conts (s : State) (g e : Nat) (f : Req → Req) :
    ((s.updReq g e f).group g).serve.conts = (s.group g).serve.conts := by
  rw [State.updReq, State.updServe_serve]
  rfl

theorem State.updReq_congr {s : State} {g e : Nat} {f f' : Req → Req} (h : f (s.req g e) = f' (s.req g e)) :
    s.updReq g e f = s.updReq g e f' :=
  State.updServe_congr (congrArg (fun r => { (s.group g).serve with reqs := Recs.put (s.group g).serve.reqs e r }) h)

/-- An update of the serving data that leaves the request table keeps every request. -/
theorem State.updServe_req {s : State} {g : Nat} {f : Serve → Serve} (h : ∀ v, (f v).reqs = v.reqs) (e : Nat) :
    (s.updServe g f).req g e = s.req g e := by
  rw [State.req, State.updServe_serve, Serve.req, h]
  rfl

/-- Nothing but the groups has changed; of them only slot g, and of its requests only entry e. -/
structure State.OnlyReq (s t : State) (g e : Nat) : Prop where
  state : t = { s with groups := t.groups }
  slots : ∀ h, h ≠ g → t.group h = s.group h
  entries : ∀ e', e' ≠ e → t.req g e' = s.req g e'

section
variable {s t : State} {g e : Nat}

theorem State.OnlyReq.refl (s : State) (g e : Nat) : s.OnlyReq s g e := ⟨rfl, fun _ _ => rfl, fun _ _ => rfl⟩

theorem State.OnlyReq.updServe (h : s.OnlyReq t g e) (f : Serve → Serve) (hf : ∀ v e', e' ≠ e → (f v).req e' = v.req e') :
    s.OnlyReq (t.updServe g f) g e where
  state := by rw [h.state]; rfl
  slots k hk := (t.updGroup_group_ne _ hk).trans (h.slots k hk)
  entries e' he := by
    rw [State.req, State.updServe_serve, hf _ e' he]
    exact h.entries e' he

theorem State.OnlyReq.trans {u : State} (h : s.OnlyReq t g e) (h' : t.OnlyReq u g e) : s.OnlyReq u g e where
  state := by rw [h'.state, h.state]
  slots k hk := (h'.slots k hk).trans (h.slots k hk)
  entries e' he := (h'.entries e' he).trans (h.entries e' he)

theorem State.OnlyReq.updReq (h : s.OnlyReq t g e) (f : Req → Req) : s.OnlyReq (t.updReq g e f) g e :=
  h.updServe _ fun _ _ he => Recs.get_put_ne _ _ _ he

end

/-! ### A page group is freed (R328) -/

section
variable {s : State} {g : Slot}

theorem exec_advance_member (hformed : (s.group g.val).formed = true) (hlead : (s.group g.val).lead = false) (group : BitVec 18) :
    exec (.advance g group) s = .next ((s.advanceGen g.val group.toNat).ctl (.advanceAck g.val group.toNat)) := by
  show execAdvance g group s = _
  simp [execAdvance, hformed, hlead]

/-- An acknowledgement of the group at the head of those being freed: with others still to come the group waits for them, with the last one
it joins the free list. -/
theorem exec_advanceAck_head {place : Place} {group : BitVec 18} {waits : List Place} {l : List (Nat × List Place)}
    (hfreeing : (s.group g.val).serve.freeing = (group.toNat, waits) :: l) (hl : ∀ y ∈ l, y.1 ≠ group.toNat) :
    exec (.advanceAck g place group) s = .next (s.updServe g.val (fun v =>
      if (waits.filter (· != place)).isEmpty then { v with freeing := l, taken := v.taken.erase group.toNat }
      else { v with freeing := l ++ [(group.toNat, waits.filter (· != place))] })) := by
  have hothers : l.filter (fun y => y.1 != group.toNat) = l := List.filter_eq_self.mpr fun y hy => bne_iff_ne.mpr (hl y hy)
  show execAdvanceAck g place group s = _
  refine congrArg _ (State.updServe_congr ?_)
  simp [hfreeing, hothers]

end

/-! ### A spill (R335) -/

/-- The records of a spill are written under the generation of the keys that stands (19 R449). -/
theorem State.writeSpill_spillGen (s : State) (g : Nat) (id : W32) (groups : List Nat) :
    (s.writeSpill g id groups).spillGen g = s.spillGen g := by
  refine List.foldlRecOn (motive := fun t : State => t.spillGen g = s.spillGen g) _ _ rfl fun t ht ⟨_, _, _, _, _⟩ _ => Eq.trans ?_ ht
  dsimp only [State.spillGen, State.updSec]
  rw [Recs.get_put_self]

/-- A request of whose spill the member at `place` has written its records, under the key generations `gens`. -/
def Req.spillReported (place : Place) (gens : Nat × Nat) (r : Req) : Req :=
  { r with
    waitOn := r.waitOn.filter (· != place)
    spillGens := some (match r.spillGens with | some (a, b) => (min a gens.1, max b gens.2) | none => gens) }

theorem Req.spillReported_first {r : Req} (h : r.spillGens = none) (place : Place) (gens : Nat × Nat) :
    (r.spillReported place gens).spillGens = some gens := by
  rw [Req.spillReported, h]

/-- A request whose pages are all in its spill set (R324). -/
def Req.spilled (r : Req) : Req :=
  { r with state := .spilled, list := BitVec.ofNat 32 r.spillSet, pages := [], blocks := [], waitSub := none }

section
variable {s : State} {g e : Nat}

/-- The end of a spill that nobody waits for, of a request that holds no page group. -/
theorem State.spillDone_alone (hsub : (s.req g e).waitSub = none) (hpages : (s.req g e).pages = [])
    (hcancel : (s.req g e).cancelAfter = false) (hconts : ∀ c ∈ (s.group g).serve.conts, c.2.1 ≠ (s.req g e).id) :
    s.spillDone g e = s.updReq g e Req.spilled := by
  have hnone : ((s.updReq g e Req.spilled).group g).serve.conts.any (fun c => c.2.1 == (s.req g e).id) = false := by
    simpa using hconts
  unfold State.spillDone
  simp only [hsub, hpages, hcancel, State.freeGroups, List.foldl_nil]
  exact if_neg (Bool.not_eq_true _ ▸ hnone)

end

section
variable {s : State} {g : Slot}

theorem exec_spillRecordsWritten_member (hformed : (s.group g.val).formed = true) (hlead : (s.group g.val).lead = false)
    (id : W32) (groups : List (BitVec 18)) (oldest newest : W32) (full : Bool) :
    exec (.spillRecordsWritten g s.place id groups oldest newest full) s =
      let t := s.writeSpill g.val id (groups.map (·.toNat))
      .next (t.ctl (.spillDone g.val id (s.spillGen g.val, s.spillGen g.val) (decide (2 ^ 40 ≤ (t.spillKeys g.val).counter)))) := by
  show execSpillRecordsWritten g s.place id groups oldest newest full s = _
  simp only [execSpillRecordsWritten, hformed, hlead, beq_self_eq_true, if_true, Bool.not_true, Bool.not_false, Bool.false_eq_true,
    if_false, State.writeSpill_spillGen]

/-- The report of another member on the lead: with the last one the spill is done. -/
theorem exec_spillRecordsWritten_report (hformed : (s.group g.val).formed = true) (hlead : (s.group g.val).lead = true)
    {place : Place} {id : W32} {e : Nat} {r : Req} (hplace : place ≠ s.place)
    (hfind : (s.group g.val).serve.find id = some (e, r)) (hstate : r.state = .spilling) (hwait : place ∈ r.waitOn)
    (groups : List (BitVec 18)) (oldest newest : W32) :
    exec (.spillRecordsWritten g place id groups oldest newest false) s =
      .next (if ((s.req g.val e).waitOn.filter (· != place)).isEmpty
        then (s.updReq g.val e (Req.spillReported place (oldest.toNat, newest.toNat))).spillDone g.val e
        else s.updReq g.val e (Req.spillReported place (oldest.toNat, newest.toNat))) := by
  have hrest : ((s.updReq g.val e (Req.spillReported place (oldest.toNat, newest.toNat))).req g.val e).waitOn =
      (s.req g.val e).waitOn.filter (· != place) := by rw [State.updReq_req]; rfl
  rw [← hrest]
  show execSpillRecordsWritten g place id groups oldest newest false s = _
  simp only [execSpillRecordsWritten, hformed, hlead, hfind, hstate, beq_eq_false_iff_ne.mpr hplace, List.contains_iff_mem.mpr hwait,
    beq_self_eq_true, Bool.and_self, Bool.not_true, Bool.false_eq_true, if_true, if_false]
  rfl

end

/-! ### A reload (R337) -/

/-- A request whose pages the member at `place` has restored. -/
def Req.reloadReported (place : Place) (r : Req) : Req := { r with waitOn := r.waitOn.filter (· != place) }

/-- A request of whose reload nothing is awaited any longer. -/
def Req.unawaited (r : Req) : Req := { r with waitSub := none, waitOn := [] }

/-- The serving data without what waits to continue the request `id`. -/
def Serve.dropConts (id : W32) (v : Serve) : Serve := { v with conts := v.conts.filter (fun c => c.2.1 != id) }

section
variable {s : State} {g e : Nat}

/-- The state after the end of a reload that nobody waits for. -/
def State.reloadEnded (s : State) (g e : Nat) : State :=
  ((s.updReq g e Req.unawaited).updServe g (Serve.dropConts (s.req g e).id)).updReq g e (fun r => { r with state := .idle })

theorem State.reloadEnded_req (s : State) (g e : Nat) : (s.reloadEnded g e).req g e = { (s.req g e).unawaited with state := .idle } := by
  rw [State.reloadEnded, State.updReq_req, State.updServe_req, State.updReq_req]
  exact fun _ => rfl

theorem State.reloadEnded_onlyReq (s : State) (g e : Nat) : s.OnlyReq (s.reloadEnded g e) g e :=
  (((State.OnlyReq.refl s g e).updReq Req.unawaited).updServe (Serve.dropConts (s.req g e).id) fun _ _ _ => rfl).updReq _

theorem State.reloadDone_alone (hsub : (s.req g e).waitSub = none) (hcancel : (s.req g e).cancelAfter = false)
    (hconts : ∀ c ∈ (s.group g).serve.conts, c.2.1 ≠ (s.req g e).id) : s.reloadDone g e 0 = s.reloadEnded g e := by
  have hnone : ((s.updReq g e Req.unawaited).group g).serve.conts.filter (fun c => c.2.1 == (s.req g e).id) = [] := by
    simpa using hconts
  unfold State.reloadDone
  simp only [hsub, hcancel]
  exact if_pos (List.isEmpty_iff.mpr hnone)

end

section
variable {s : State} {g : Slot}

theorem exec_reloadComplete_member (hformed : (s.group g.val).formed = true) (hlead : (s.group g.val).lead = false)
    (id : W32) (groups : List (BitVec 18)) (records : List (List Byte)) (status : Byte) :
    exec (.reloadComplete g s.place id groups records status) s =
      let r := s.restorePages g.val id (s.spillPages g.val (groups.map (·.toNat))) records
      .next (r.2.ctl (.reloadDone g.val id r.1)) := by
  show execReloadComplete g s.place id groups records status s = _
  simp [execReloadComplete, hformed, hlead]

/-- The report of another member, good, on the lead: with the last one the reload is done. -/
theorem exec_reloadComplete_report (hformed : (s.group g.val).formed = true) (hlead : (s.group g.val).lead = true)
    {place : Place} {id : W32} {e : Nat} {r : Req} (hplace : place ≠ s.place)
    (hfind : (s.group g.val).serve.find id = some (e, r)) (hstate : r.state = .reloading) (hwait : place ∈ r.waitOn)
    (groups : List (BitVec 18)) (records : List (List Byte)) :
    exec (.reloadComplete g place id groups records 0) s =
      .next (if ((s.req g.val e).waitOn.filter (· != place)).isEmpty
        then (s.updReq g.val e (Req.reloadReported place)).reloadDone g.val e 0 else s.updReq g.val e (Req.reloadReported place)) := by
  have hrest : ((s.updReq g.val e (Req.reloadReported place)).req g.val e).waitOn = (s.req g.val e).waitOn.filter (· != place) := by
    rw [State.updReq_req]; rfl
  rw [← hrest]
  show execReloadComplete g place id groups records 0 s = _
  have hgood : ¬ (0 : Byte).toNat ≠ 0 := by decide
  simp only [execReloadComplete, hformed, hlead, hfind, hstate, beq_eq_false_iff_ne.mpr hplace, List.contains_iff_mem.mpr hwait, hgood,
    beq_self_eq_true, Bool.and_self, Bool.not_true, Bool.false_eq_true, if_true, if_false, false_or]
  rfl

end

/-! ### The obligation -/

/-- Settles O13: each clause is the rule of its command; what the lead still waits for is its list without the member that has reported. -/
theorem pageEventsComplete : Obligations.PageEventsComplete := by
  unfold Obligations.PageEventsComplete
  intro s g k hformed
  refine ⟨fun hlead => ⟨exec_advance_member hformed hlead, exec_spillRecordsWritten_member hformed hlead,
    exec_reloadComplete_member hformed hlead⟩, fun place group l hl => ⟨fun hfreeing => ?last, fun other hother hfreeing => ?more⟩,
    fun hlead place id e r hplace hfind => ⟨?spillMore, ?spillLast, ?reloadLast⟩⟩
  case last =>
    rw [exec_advanceAck_head hfreeing hl]
    simp
  case more =>
    rw [exec_advanceAck_head hfreeing hl]
    simp [hother]
  case spillMore =>
    intro other groups oldest newest hstate hwaits hwait hother hgens
    have hrest : (s.req g.val e).waitOn.filter (· != place) = [other] := by simp [hwaits, hother]
    rw [exec_spillRecordsWritten_report hformed hlead hplace hfind hstate (by simp [hwait]), hrest, if_neg (by simp)]
    refine congrArg _ (State.updReq_congr ?_)
    rw [Req.spillReported, hrest, hgens]
  case spillLast =>
    intro groups oldest newest hstate hreq hwait hgens hsub hpages hcancel hconts
    obtain rfl := hreq
    have hrest : (s.req g.val e).waitOn.filter (· != place) = [] := by simp [hwait]
    have hreq : (s.updReq g.val e (Req.spillReported place (oldest.toNat, newest.toNat))).req g.val e =
        (s.req g.val e).spillReported place (oldest.toNat, newest.toNat) := State.updReq_req ..
    obtain ⟨hframe, hslots, hentries⟩ :=
      ((State.OnlyReq.refl s g.val e).updReq (Req.spillReported place (oldest.toNat, newest.toNat))).updReq Req.spilled
    rw [exec_spillRecordsWritten_report hformed hlead hplace hfind hstate (by simp [hwait]), hrest, if_pos List.isEmpty_nil,
      State.spillDone_alone (hreq ▸ hsub) (hreq ▸ hpages) (hreq ▸ hcancel) (by rw [hreq, State.updReq_conts]; exact hconts)]
    refine ⟨_, rfl, ?_, ?_, ?_, hframe, hslots, hentries⟩ <;> rw [State.updReq_req, hreq]
    · rfl
    · exact Req.spillReported_first hgens place _
    · rfl
  case reloadLast =>
    intro groups records hstate hreq hwait hsub hcancel hconts
    obtain rfl := hreq
    have hrest : (s.req g.val e).waitOn.filter (· != place) = [] := by simp [hwait]
    have hreq : (s.updReq g.val e (Req.reloadReported place)).req g.val e = (s.req g.val e).reloadReported place := State.updReq_req ..
    obtain ⟨hframe, hslots, hentries⟩ :=
      ((State.OnlyReq.refl s g.val e).updReq (Req.reloadReported place)).trans (State.reloadEnded_onlyReq ..)
    rw [exec_reloadComplete_report hformed hlead hplace hfind hstate (by simp [hwait]), hrest, if_pos List.isEmpty_nil,
      State.reloadDone_alone (hreq ▸ hsub) (hreq ▸ hcancel) (by rw [hreq, State.updReq_conts]; exact hconts)]
    refine ⟨_, rfl, ?_, ?_, hframe, hslots, hentries⟩
    · rw [State.reloadEnded_req]
    · rw [State.reloadEnded_req, hreq]; rfl

end Sys2Proof.Machine
end

section
/-! PROOF. What every operation keeps: the waiting commands, and the canonical form of the byte memories (log entries 1 and 4).
One lemma for each operation, under the operation's name and in the order of the model's files: a state that it answers keeps what the
state before kept. An operation that calls others is the chain of their lemmas. -/

namespace Sys2Proof.Machine

-- the lemmas are many and short: one after another they need one thread, where side by side each would ask for its own
set_option Elab.async false

/-! ### Byte memories -/

/-- A table without some of its entries keeps the canonical form. -/
theorem Tab.wfFrom_filter {α : Type} [DecidableEq α] {d : α} {m : Tab α} {lo : Option Nat} (p : Nat × α → Bool)
    (h : Tab.wfFrom d lo m = true) : Tab.wfFrom d lo (m.filter p) = true := by
  induction m generalizing lo with
  | nil => exact h
  | cons e m ih =>
    obtain ⟨j, v⟩ := e
    simp only [Tab.wfFrom, Bool.and_eq_true] at h
    obtain ⟨⟨hlo, hv⟩, hm⟩ := h
    rw [List.filter_cons]
    split
    · simp only [Tab.wfFrom, Bool.and_eq_true]
      exact ⟨⟨hlo, hv⟩, ih hm⟩
    · refine ih ?_
      cases lo with
      | none => exact Tab.wfFrom_none hm
      | some l => exact Tab.wfFrom_mono hm (by simpa using Nat.le_of_lt (of_decide_eq_true hlo))

theorem Recs.all_put {α : Type} {P : α → Bool} {m : List (Nat × α)} {k : Nat} {v : α}
    (h : m.all (fun p => P p.2) = true) (hv : P v = true) : (Recs.put m k v).all (fun p => P p.2) = true := by
  simp only [List.all_eq_true] at h ⊢
  intro p hp
  rcases Recs.mem_put hp with rfl | hp
  · exact hv
  · exact h p hp

theorem Recs.of_get {α : Type} {P : α → Bool} {d : α} {m : List (Nat × α)} (k : Nat)
    (h : m.all (fun p => P p.2) = true) (hd : P d = true) : P (Recs.get d m k) = true := by
  induction m with
  | nil => exact hd
  | cons p m ih =>
    simp only [List.all_cons, Bool.and_eq_true] at h
    rw [Recs.get]
    split
    · exact h.1
    · exact ih h.2

/-! ### The predicate -/

/-- The commands `q` wait, and where `w` holds every byte memory has its canonical form. -/
structure State.Keeps (s : State) (q : List Instr) (w : Prop) : Prop where
  queue : s.pending = q
  cores : w → s.cores.all (fun p => p.2.memWf) = true
  image : w → Memory.wf s.sec.fwBytes = true

/-- The next state, where a command answers one, keeps `q` and the memories. -/
def NextKeeps (q : List Instr) (w : Prop) : Host.Outcome State Fault Refusal → Prop
  | .next t => t.Keeps q w
  | _ => True

theorem State.memWf_iff (s : State) :
    s.memWf = true ↔ s.cores.all (fun p => p.2.memWf) = true ∧ Memory.wf s.sec.fwBytes = true := by
  rw [State.memWf, Bool.and_eq_true]

section
variable {s t : State} {q : List Instr} {w : Prop}

theorem State.Keeps.memWf (h : s.Keeps q w) (hw : w) : s.memWf = true := s.memWf_iff.mpr ⟨h.cores hw, h.image hw⟩

theorem State.keeps_memWf (hq : s.pending = q) : s.Keeps q (s.memWf = true) :=
  ⟨hq, fun hw => (s.memWf_iff.mp hw).1, fun hw => (s.memWf_iff.mp hw).2⟩

theorem State.Keeps.same (h : s.Keeps q w) (hq : t.pending = s.pending := by rfl) (hc : t.cores = s.cores := by rfl)
    (hi : t.sec.fwBytes = s.sec.fwBytes := by rfl) : t.Keeps q w :=
  ⟨hq.trans h.queue, fun hw => hc ▸ h.cores hw, fun hw => hi ▸ h.image hw⟩

/-- An update of fields that hold neither commands nor memories. -/
theorem State.Keeps.update (h : s.Keeps q w) {free landings clk groups steps images parts enabled passThrough pageGens funcs station
    faultLog faultCount kdq dbg dir readback hazards trace mesh fabric routes unroutable notices ports lasers net maint power sync
    pkg meshFaults clockFaults out} {sec : Sec} (hi : sec.fwBytes = s.sec.fwBytes := by rfl) :
    State.Keeps ⟨s.pending, free, landings, s.cores, clk, groups, steps, images, parts, enabled, passThrough, pageGens, funcs, station,
      faultLog, faultCount, kdq, dbg, dir, readback, hazards, trace, mesh, fabric, routes, unroutable, notices, ports, lasers, net,
      sec, maint, power, sync, pkg, meshFaults, clockFaults, out⟩ q w :=
  h.same rfl rfl hi

theorem State.Keeps.ite {p : Prop} [Decidable p] (hs : s.Keeps q w) (ht : t.Keeps q w) : (if p then s else t).Keeps q w := by
  split
  · exact hs
  · exact ht

theorem State.Keeps.foldl {α : Type} {f : State → α → State} {l : List α} (h : s.Keeps q w)
    (hf : ∀ (u : State) (a : α), u.Keeps q w → (f u a).Keeps q w) : (l.foldl f s).Keeps q w := by
  induction l generalizing s with
  | nil => exact h
  | cons a l ih => exact ih (hf s a h)

theorem NextKeeps.next (h : s.Keeps q w) : NextKeeps q w (.next s) := h

theorem NextKeeps.ite {p : Prop} [Decidable p] {a b : Host.Outcome State Fault Refusal} (ha : NextKeeps q w a)
    (hb : NextKeeps q w b) : NextKeeps q w (if p then a else b) := by
  split
  · exact ha
  · exact hb

theorem State.Keeps.core (h : s.Keeps q w) (c : Nat) (hw : w) : (s.core c).memWf = true :=
  Recs.of_get c (h.cores hw) rfl

/-! ### Cores -/

theorem State.Keeps.setCore (h : s.Keeps q w) {c : Nat} {x : Core} (hx : w → x.memWf = true) : (s.setCore c x).Keeps q w :=
  ⟨h.queue, fun hw => Recs.all_put (h.cores hw) (hx hw), h.image⟩

theorem State.Keeps.updCore (h : s.Keeps q w) {c : Nat} {f : Core → Core} (hf : ∀ x, x.memWf = true → (f x).memWf = true) :
    (s.updCore c f).Keeps q w :=
  h.setCore fun hw => hf _ (h.core c hw)

theorem State.Keeps.updCtl (h : s.Keeps q w) {c : Nat} {f : Ctl → Ctl} : (s.updCtl c f).Keeps q w := h.updCore fun _ hx => hx
theorem State.Keeps.updLane (h : s.Keeps q w) {c : Nat} {f : Lane → Lane} : (s.updLane c f).Keeps q w := h.updCore fun _ hx => hx
theorem State.Keeps.updVec (h : s.Keeps q w) {c : Nat} {f : Vec → Vec} : (s.updVec c f).Keeps q w := h.updCore fun _ hx => hx
theorem State.Keeps.updXfer (h : s.Keeps q w) {c : Nat} {f : Xfer → Xfer} : (s.updXfer c f).Keeps q w := h.updCore fun _ hx => hx
theorem State.Keeps.updDet (h : s.Keeps q w) {c : Nat} {f : Detect → Detect} : (s.updDet c f).Keeps q w :=
  h.updCore fun _ hx => hx

theorem Core.memWf_iff (x : Core) : x.memWf = true ↔ Memory.wf x.sp.mem = true ∧ Memory.wf x.ws.mem = true := by
  rw [Core.memWf, Bool.and_eq_true]

theorem State.Keeps.updSp (h : s.Keeps q w) {c : Nat} {f : SPad → SPad}
    (hf : ∀ m, Memory.wf m.mem = true → Memory.wf (f m).mem = true := by exact fun _ hm => hm) : (s.updSp c f).Keeps q w :=
  h.updCore fun x hx => by
    rw [Core.memWf_iff] at hx ⊢
    exact ⟨hf _ hx.1, hx.2⟩

theorem State.Keeps.updWs (h : s.Keeps q w) {c : Nat} {f : WStore → WStore}
    (hf : ∀ m, Memory.wf m.mem = true → Memory.wf (f m).mem = true := by exact fun _ hm => hm) : (s.updWs c f).Keeps q w :=
  h.updCore fun x hx => by
    rw [Core.memWf_iff] at hx ⊢
    exact ⟨hx.1, hf _ hx.2⟩

theorem State.Keeps.updSec (h : s.Keeps q w) {f : Sec → Sec} (hf : (f s.sec).fwBytes = s.sec.fwBytes := by rfl) :
    (s.updSec f).Keeps q w :=
  h.same rfl rfl hf

/-! ### What an operation on a store does to its bytes -/

theorem SPad.wf_write {m : SPad} {a : Nat} {bs : List Byte} (h : Memory.wf m.mem = true) : Memory.wf (m.write a bs).mem = true :=
  Mem.wf_write a bs h

theorem SPad.wf_writeRows {m : SPad} {rows : List (Nat × List Byte)} (h : Memory.wf m.mem = true) :
    Memory.wf (rows.foldl (fun m p => m.writeRow p.1 p.2) m).mem = true := by
  induction rows generalizing m with
  | nil => exact h
  | cons r rows ih => exact ih (SPad.wf_write h)

theorem SPad.upset_mem (m : SPad) (flips : List (Nat × Bool × Bool)) : (m.upset flips).mem = m.mem := by
  unfold SPad.upset
  induction flips generalizing m with
  | nil => rfl
  | cons f flips ih => exact ih _

theorem WStore.wf_write {x : WStore} {a : Nat} {bs : List Byte} (h : Memory.wf x.mem = true) :
    Memory.wf (x.write a bs).mem = true :=
  Mem.wf_write a bs h

theorem WStore.wf_writeFormed {x : WStore} {b : Nat} {bs : List Byte} (h : Memory.wf x.mem = true) :
    Memory.wf (x.writeFormed b bs).mem = true :=
  Mem.wf_write _ _ h

theorem WStore.sealBlocks_mem (x : WStore) (bs : List Nat) : (bs.foldl WStore.sealBlock x).mem = x.mem := by
  induction bs generalizing x with
  | nil => rfl
  | cons b bs ih => exact ih _

theorem WStore.wf_writeRows {x : WStore} {rows : List (Nat × List Byte)} (h : Memory.wf x.mem = true) :
    Memory.wf (x.writeRows rows).mem = true := by
  have written (l : List (Nat × List Byte)) : ∀ y : WStore, Memory.wf y.mem = true →
      Memory.wf (l.foldl (fun w p => { w with mem := w.mem.write p.1 p.2 }.recode p.1 p.2.length) y).mem = true := by
    induction l with
    | nil => exact fun _ hy => hy
    | cons r l ih => exact fun y hy => ih _ (Mem.wf_write r.1 r.2 hy)
  rw [WStore.writeRows, WStore.sealBlocks_mem]
  exact written rows x h

theorem WStore.upset_mem (x : WStore) (b : Nat) (flips : List (Fin 545 × Bool)) : (x.upset b flips).mem = x.mem := by
  rw [WStore.upset_eq]

theorem WStore.correctRows_mem (x : WStore) (as : List Nat) : (as.foldl (fun w a => w.correctRow a) x).mem = x.mem := by
  induction as generalizing x with
  | nil => rfl
  | cons a as ih => exact ih _

theorem WStore.linearRecords_mem (x : WStore) : x.linearRecords.mem = x.mem := by
  unfold WStore.linearRecords
  generalize x.records = l
  induction l generalizing x with
  | nil => rfl
  | cons p l ih =>
    rw [List.foldl_cons, ih]
    split <;> rfl

theorem WStore.wf_zeroRegions {x : WStore} (h : Memory.wf x.mem = true) : Memory.wf x.zeroRegions.mem = true :=
  Tab.wfFrom_filter _ h

theorem Core.memWf_resetProgram {x : Core} (h : x.memWf = true) : x.resetProgram.memWf = true := by
  rw [Core.memWf_iff] at h ⊢
  exact ⟨rfl, h.2⟩

/-- A state of the same commands and tailpiece image, with other cores. -/
theorem State.Keeps.cores_of (h : s.Keeps q w) (hc : w → t.cores.all (fun p => p.2.memWf) = true)
    (hq : t.pending = s.pending := by rfl) (hi : t.sec.fwBytes = s.sec.fwBytes := by rfl) : t.Keeps q w :=
  ⟨hq.trans h.queue, hc, fun hw => hi ▸ h.image hw⟩

/-- The state of a pair that an operation answers. -/
theorem State.Keeps.of_eq {α : Type} {x : α × State} {a : α} (h : x.2.Keeps q w) (e : x = (a, s)) : s.Keeps q w := by
  subst e
  exact h

/-! ### Rings, buffers and MSI-X -/

theorem State.Keeps.updFunc (h : s.Keeps q w) {f g} : (s.updFunc f g).Keeps q w := h.same

theorem State.Keeps.hostWrite (h : s.Keeps q w) {f addr bs} : (s.hostWrite f addr bs).Keeps q w := h.same

theorem State.Keeps.writeIndex (h : s.Keeps q w) {f k v} : (s.writeIndex f k v).Keeps q w := .ite h.hostWrite h

theorem State.Keeps.msix (h : s.Keeps q w) {f v} : (s.msix f v).Keeps q w := .ite h.updFunc h.same

theorem State.Keeps.ringWrite (h : s.Keeps q w) {f k bs} : (s.ringWrite f k bs).Keeps q w :=
  .ite h.hostWrite.updFunc.writeIndex.updFunc.msix h.hostWrite.updFunc.writeIndex

theorem State.Keeps.complete (h : s.Keeps q w) {x bs} : (s.complete x bs).Keeps q w := .ite h.ringWrite h.updFunc

theorem State.Keeps.tokenRecord (h : s.Keeps q w) {f ring bs} : (s.tokenRecord f ring bs).Keeps q w :=
  .ite h.ringWrite h.updFunc

theorem State.Keeps.raise (h : s.Keeps q w) {f e} : (s.raise f e).Keeps q w := .ite h.ringWrite (.ite h.updFunc h.updFunc)

theorem State.Keeps.raiseTo (h : s.Keeps q w) {owner e} : (s.raiseTo owner e).Keeps q w := .ite h.raise h.raise.raise

theorem State.Keeps.drainCq (h : s.Keeps q w) {f l} : (s.drainCq f l).Keeps q w := by
  induction l generalizing s with
  | nil => exact h
  | cons e l ih => exact .ite (ih h.ringWrite.updFunc) (ih h)

theorem State.Keeps.drainTq (h : s.Keeps q w) {f l} : (s.drainTq f l).Keeps q w := by
  induction l generalizing s with
  | nil => exact h
  | cons e l ih => exact .ite (ih h.ringWrite.updFunc) (ih h)

theorem State.Keeps.drainEv (h : s.Keeps q w) {f l} : (s.drainEv f l).Keeps q w := by
  induction l generalizing s with
  | nil => exact .ite h (.ite h.ringWrite.updFunc h)
  | cons e l ih => exact .ite (ih h.ringWrite.updFunc) h

theorem State.Keeps.drainRings (h : s.Keeps q w) {f} : (s.drainRings f).Keeps q w := h.drainCq.drainTq.drainEv

/-! ### Records, faults, results in flight, holds -/

theorem State.Keeps.updGroup (h : s.Keeps q w) {g f} : (s.updGroup g f).Keeps q w := h.same

theorem State.Keeps.updStep (h : s.Keeps q w) {g f} : (s.updStep g f).Keeps q w := h.same

theorem State.Keeps.logExc (h : s.Keeps q w) {c tick offset opcode src r detail} :
    (s.logExc c tick offset opcode src r detail).Keeps q w := h.updCtl

theorem State.Keeps.takeFree (h : s.Keeps q w) {n} : (s.takeFree n).2.Keeps q w := h.same

theorem State.Keeps.logFault (h : s.Keeps q w) {reason cls outcome slot step unit sub detail} :
    (s.logFault reason cls outcome slot step unit sub detail).Keeps q w := by
  unfold State.logFault
  extract_lets g
  split
  next o u hu =>
    have hu : u.Keeps q w := by
      split at hu
      · exact h.of_eq hu
      · exact h.takeFree.of_eq hu
    dsimp only
    split
    · exact .ite (.raise hu.same) (State.Keeps.raise hu.same).raise
    · exact .raise hu.same

theorem State.Keeps.land (h : s.Keeps q w) {key prio c e} : (s.land key prio c e).Keeps q w := h.same

theorem State.Keeps.landEnd (h : s.Keeps q w) {t prio c e} : (s.landEnd t prio c e).Keeps q w := h.land

theorem State.Keeps.landStart (h : s.Keeps q w) {t prio c e} : (s.landStart t prio c e).Keeps q w := h.land

theorem State.Keeps.use (h : s.Keeps q w) {t c from_ order e l} : (s.use t c from_ order e l).Keeps q w := h.same

theorem State.Keeps.addTrace (h : s.Keeps q w) {r} : (s.addTrace r).Keeps q w := h.same

theorem State.Keeps.addHold (h : s.Keeps q w) {n} : (s.addHold n).Keeps q w := .ite h h.same

theorem State.Keeps.dropHold (h : s.Keeps q w) {n} : (s.dropHold n).Keeps q w := h.same

theorem State.Keeps.hazard (h : s.Keeps q w) {code c e other} : (s.hazard code c e other).Keeps q w := .ite h.same.addTrace h

theorem State.Keeps.serviceRefused (h : s.Keeps q w) {c block} : (s.serviceRefused c block).Keeps q w := h.logFault

/-! ### Requests and page groups -/

theorem State.Keeps.updServe (h : s.Keeps q w) {g f} : (s.updServe g f).Keeps q w := h.updGroup

theorem State.Keeps.updSwap (h : s.Keeps q w) {g f} : (s.updSwap g f).Keeps q w := h.updGroup

theorem State.Keeps.updReq (h : s.Keeps q w) {g e f} : (s.updReq g e f).Keeps q w := h.updServe

theorem State.Keeps.ctl (h : s.Keeps q w) {m} : (s.ctl m).Keeps q w := h.same

theorem State.Keeps.mgt (h : s.Keeps q w) {m} : (s.mgt m).Keeps q w := h.same

theorem State.Keeps.advanceGen (h : s.Keeps q w) {g p} : (s.advanceGen g p).Keeps q w := h.same

theorem State.Keeps.freeGroups (h : s.Keeps q w) {g ps} : (s.freeGroups g ps).Keeps q w := by
  unfold State.freeGroups
  refine h.foldl fun _ _ hu => ?_
  exact hu.ctl.advanceGen.updServe

theorem State.Keeps.giveGroups (h : s.Keeps q w) {g e ps} : (s.giveGroups g e ps).Keeps q w := h.updServe

theorem State.Keeps.reqRecord (h : s.Keeps q w) {g e value pos type} : (s.reqRecord g e value pos type).Keeps q w :=
  .ite h h.tokenRecord

theorem State.Keeps.endRecord (h : s.Keeps q w) {g e code} : (s.endRecord g e code).Keeps q w := h.reqRecord

theorem State.Keeps.freeReq (h : s.Keeps q w) {g e} : (s.freeReq g e).Keeps q w := by
  unfold State.freeReq
  refine .updFunc (.updServe (.freeGroups ?_))
  split
  · exact .ite h h.complete
  · exact h

theorem State.Keeps.endReq (h : s.Keeps q w) {g e code} : (s.endReq g e code).Keeps q w := .freeReq (.ite h h.endRecord)

theorem State.Keeps.stopReq (h : s.Keeps q w) {g e code} : (s.stopReq g e code).Keeps q w :=
  .ite h.endRecord.updReq (.ite h.endRecord.updReq h.endRecord.freeReq)

theorem State.Keeps.putRecover (h : s.Keeps q w) {which journal} : (s.putRecover which journal).Keeps q w := by
  unfold State.putRecover
  refine h.foldl fun _ _ hu => ?_
  refine hu.foldl fun _ _ hu1 => ?_
  refine .ite hu1 ?_
  split
  · exact .ite (.ite hu1 hu1.updServe) hu1.endReq
  · exact hu1.endReq

/-! ### Activities and spill keys -/

theorem State.Keeps.updMaint (h : s.Keeps q w) {f} : (s.updMaint f).Keeps q w := h.same

theorem State.Keeps.updSpill (h : s.Keeps q w) {g f} : (s.updSpill g f).Keeps q w := h.same

theorem State.Keeps.sendSpillKey (h : s.Keeps q w) {g} : (s.sendSpillKey g).Keeps q w := .ite h h.mgt

theorem State.Keeps.startActivity (h : s.Keeps q w) {code arg byRec} : (s.startActivity code arg byRec).Keeps q w :=
  .ite h.updMaint.updSpill.sendSpillKey h.updMaint

theorem State.Keeps.requestRecovery (h : s.Keeps q w) {code arg} : (s.requestRecovery code arg).Keeps q w :=
  .ite h (.ite h.startActivity h.updMaint)

theorem State.Keeps.resumePaused (h : s.Keeps q w) : s.resumePaused.Keeps q w := by
  unfold State.resumePaused
  split
  · exact .ite h.updMaint h
  · exact h

theorem State.Keeps.askRetire (h : s.Keeps q w) {c} : (s.askRetire c).Keeps q w := h.requestRecovery

/-! ### The end of a step -/

theorem State.Keeps.putRecord (h : s.Keeps q w) {f r} : (s.putRecord f r).Keeps q w := h.ringWrite.raise

theorem State.Keeps.deliver (h : s.Keeps q w) {f r} : (s.deliver f r).Keeps q w := .ite h.putRecord h.updFunc

theorem State.Keeps.drainRec (h : s.Keeps q w) {f l} : (s.drainRec f l).Keeps q w := by
  induction l generalizing s with
  | nil => exact h
  | cons r l ih => exact .ite (ih h.putRecord.updFunc) h

theorem State.Keeps.answerStep (h : s.Keeps q w) {g st len} : (s.answerStep g st len).Keeps q w := by
  unfold State.answerStep
  split
  · exact h.complete.updStep
  · exact h

theorem State.Keeps.failBatch (h : s.Keeps q w) {g} : (s.failBatch g).Keeps q w := by
  unfold State.failBatch
  refine .updServe (h.foldl fun _ _ hu => ?_)
  exact .ite hu.endReq hu

theorem State.Keeps.resetCores (h : s.Keeps q w) {cs} : (s.resetCores cs).Keeps q w := by
  unfold State.resetCores
  refine h.same.foldl fun _ _ hu => ?_
  exact hu.updCore fun _ hx => Core.memWf_resetProgram hx

theorem State.Keeps.writeEnd (h : s.Keeps q w) {g} : (s.writeEnd g).Keeps q w := by
  unfold State.writeEnd
  refine .ite (.answerStep (.ite h.updStep.deliver.failBatch h.updStep.deliver)) ?_
  exact .ite h.updStep.deliver.failBatch h.updStep.deliver

theorem State.Keeps.closeStep (h : s.Keeps q w) {g st final} : (s.closeStep g st final).Keeps q w := by
  unfold State.closeStep
  refine .ite ?_ ?_
  · refine .writeEnd (h.updStep.foldl fun _ _ hu => ?_)
    exact .ite hu.updDet.askRetire hu
  · refine h.updStep.foldl fun _ _ hu => ?_
    exact .ite hu.updDet.askRetire hu

theorem State.Keeps.endStep (h : s.Keeps q w) {g st final} : (s.endStep g st final).Keeps q w := h.closeStep.resetCores

theorem State.Keeps.abortStep (h : s.Keeps q w) {g st} : (s.abortStep g st).Keeps q w := .ite h.endStep.ctl h.endStep.ctl

theorem State.Keeps.stopStep (h : s.Keeps q w) {g reason} : (s.stopStep g reason).Keeps q w :=
  .ite (.ite h.endStep.updStep.ctl h.ctl) h

theorem State.Keeps.commitBoundary (h : s.Keeps q w) {g} : (s.commitBoundary g).Keeps q w := by
  unfold State.commitBoundary
  refine h.foldl fun _ _ hu => ?_
  split
  · exact hu.endReq
  · exact hu.updReq
  · exact hu

theorem State.Keeps.endCommit (h : s.Keeps q w) {g} : (s.endCommit g).Keeps q w := .closeStep (.ite h.commitBoundary h)

theorem State.Keeps.stepEnd (h : s.Keeps q w) {g} : (s.stepEnd g).Keeps q w := .ite h.updStep h.updStep.endCommit

theorem State.Keeps.takeReport (h : s.Keeps q w) {g place report} : (s.takeReport g place report).Keeps q w := h.updStep

theorem State.Keeps.memberReported (h : s.Keeps q w) {g place report budget} :
    (s.memberReported g place report budget).Keeps q w := by
  unfold State.memberReported
  refine .ite (.ite (.ite h.takeReport.writeEnd h.takeReport) ?_) h
  exact .ite h (.ite h.takeReport.endStep.ctl (.ite h.takeReport.updServe.stepEnd h.takeReport.updServe))

theorem State.Keeps.checkFinished (h : s.Keeps q w) {g} : (s.checkFinished g).Keeps q w :=
  .ite (.ite h.updStep.memberReported h.updStep.ctl) h

theorem State.Keeps.coreFault (h : s.Keeps q w) {c reason cls outcome sub detail} :
    (s.coreFault c reason cls outcome sub detail).Keeps q w := by
  unfold State.coreFault
  split
  · exact .ite h.logFault.stopStep h.logFault
  · exact h.logFault

/-! ### Flags -/

theorem State.Keeps.orStatus (h : s.Keeps q w) {c m} : (s.orStatus c m).Keeps q w := h.updCtl

theorem State.Keeps.addFlag (h : s.Keeps q w) {c f n} : (s.addFlag c f n).Keeps q w := .ite h.updCtl h.updCtl.orStatus

/-! ### The directory, chunks and restorations -/

theorem State.Keeps.setWay (h : s.Keeps q w) {b n e} : (s.setWay b n e).Keeps q w := by
  unfold State.setWay
  split
  · exact h.updWs fun _ hm => WStore.wf_write hm
  · exact h

theorem State.Keeps.dirRead (h : s.Keeps q w) {b} : (s.dirRead b).Keeps q w := by
  unfold State.dirRead
  split
  · exact h.updWs
  · exact h

theorem State.Keeps.finishMove (h : s.Keeps q w) : s.finishMove.Keeps q w := by
  unfold State.finishMove
  split
  · exact h.setWay.update
  · exact h

theorem State.Keeps.dirApply (h : s.Keeps q w) {del e} : (s.dirApply del e).2.Keeps q w := by
  unfold State.dirApply
  dsimp only
  split
  · exact h
  · split
    · exact h
    · have hu := h.dirRead (b := (dirBuckets s.dirNb (wayKey e)).1) |>.dirRead (b := (dirBuckets s.dirNb (wayKey e)).2)
      split
      · split
        · exact hu.setWay
        · exact hu.setWay
      · split
        · exact hu
        · split
          · exact hu.setWay
          · exact hu.raiseTo

theorem State.Keeps.dirUpdate (h : s.Keeps q w) {del e} : (s.dirUpdate del e).2.Keeps q w := h.dirApply.same

theorem State.Keeps.dirRefetch (h : s.Keeps q w) {first count} : (s.dirRefetch first count).Keeps q w := h.raiseTo

theorem State.Keeps.updChunk (h : s.Keeps q w) {g i f} : (s.updChunk g i f).Keeps q w := h.updSwap

theorem State.Keeps.requestChunk (h : s.Keeps q w) {g i stream} : (s.requestChunk g i stream).Keeps q w := by
  unfold State.requestChunk
  split
  · exact h
  · exact .ite h.updChunk.updSwap.mgt h.updChunk.updSwap.update

theorem State.Keeps.refetchChunk (h : s.Keeps q w) {g i} : (s.refetchChunk g i).Keeps q w := by
  unfold State.refetchChunk
  split
  · exact .ite h.raise.updChunk.requestChunk h
  · exact h

theorem State.Keeps.tableLost (h : s.Keeps q w) {c b} : (s.tableLost c b).Keeps q w := by
  unfold State.tableLost
  split
  · exact h
  · split
    · exact h
    · refine .ite ?_ h.updServe
      dsimp only
      split
      · refine h.updServe.foldl fun _ _ hu => ?_
        exact hu.endReq
      · exact h.updServe

theorem State.Keeps.startRestore (h : s.Keeps q w) {c b} : (s.startRestore c b).Keeps q w := by
  unfold State.startRestore
  refine .ite h ?_
  dsimp only
  split
  · split
    · refine .ite h.updWs ?_
      split
      · exact h.updWs.refetchChunk
      · exact h.updWs
    · exact h.updWs
  · split
    · exact h.updWs.dirRefetch
    · exact h.updWs
  · exact .ite h.updWs.tableLost h.updWs
  · exact .ite h.updWs.tableLost h.updWs
  · exact h.updWs

/-! ### Digests -/

theorem State.Keeps.feed (h : s.Keeps q w) {c regs vec ints vals} : (s.feed c regs vec ints vals).Keeps q w := .ite h h.updXfer

/-! ### Element programs -/

theorem State.Keeps.vprogVec (h : s.Keeps q w) {c t o i e} : (s.vprogVec c t o i e).Keeps q w := by
  unfold State.vprogVec
  dsimp only
  split
  · exact h
  · exact .ite h.orStatus.feed.landEnd.landStart h.orStatus.feed.landEnd

/-! ### Results that land -/

theorem State.Keeps.spFault (h : s.Keeps q w) {c row} : (s.spFault c row).Keeps q w :=
  .ite h.updSp.coreFault.askRetire h.updSp.coreFault

theorem State.Keeps.wsFault (h : s.Keeps q w) {c block} : (s.wsFault c block).Keeps q w := h.startRestore.coreFault

theorem State.Keeps.transient (h : s.Keeps q w) {c} : (s.transient c).Keeps q w := .ite h.updDet h.updDet.askRetire

theorem State.Keeps.accResidue (h : s.Keeps q w) {c k} : (s.accResidue c k).Keeps q w := h.coreFault.transient

theorem State.Keeps.laneResidue (h : s.Keeps q w) {c j bow t} : (s.laneResidue c j bow t).Keeps q w :=
  .ite (.ite h.updDet h.updDet.update) h.coreFault.transient

theorem State.Keeps.doRelease (h : s.Keeps q w) {c t reg_ n e src opcode} : (s.doRelease c t reg_ n e src opcode).Keeps q w :=
  .ite h.logExc (.ite h h.updSp)

theorem State.Keeps.advanceTail (h : s.Keeps q w) {c t reg_ n} : (s.advanceTail c t reg_ n).Keeps q w :=
  .ite h.updSp.landEnd h.updSp

theorem State.Keeps.doCommit (h : s.Keeps q w) {c t reg_ n e src opcode} : (s.doCommit c t reg_ n e src opcode).Keeps q w :=
  .ite h.logExc (.ite h h.advanceTail)

theorem State.Keeps.logEntry (h : s.Keeps q w) {c e r d} : (s.logEntry c e r d).Keeps q w := .ite h.takeFree.logExc h.logExc

theorem State.Keeps.bowGo (h : s.Keeps q w) {c op set land e} : (s.bowGo c op set land e).Keeps q w := by
  unfold State.bowGo
  refine h.foldl fun _ _ hu => ?_
  exact hu.landEnd.use

theorem State.Keeps.noteTaken (h : s.Keeps q w) {c b e} : (s.noteTaken c b e).Keeps q w := .ite h.updLane h

theorem State.Keeps.bowTake (h : s.Keeps q w) {c b op g fail rel rows e} : (s.bowTake c b op g fail rel rows e).Keeps q w := by
  unfold State.bowTake
  dsimp only
  split
  · exact h.logEntry
  · split
    · exact h.spFault
    · split
      · refine .bowGo ?_
        split
        · exact h.updSp.use.noteTaken.landEnd
        · exact h.updSp.use.noteTaken
      · refine .landStart ?_
        split
        · exact h.updSp.use.noteTaken.landEnd
        · exact h.updSp.use.noteTaken

theorem State.Keeps.doRestring (h : s.Keeps q w) {c t set} : (s.doRestring c t set).Keeps q w := by
  unfold State.doRestring
  refine h.updLane.foldl fun _ _ hu => ?_
  exact hu.hazard

theorem State.Keeps.doGather (h : s.Keeps q w) {c t op g set e} : (s.doGather c t op g set e).Keeps q w := by
  unfold State.doGather
  refine .ite h.spFault ?_
  dsimp only
  split
  · exact h.spFault
  · exact h.updSp.orStatus.use.update.bowGo

theorem State.Keeps.doAccAdd (h : s.Keeps q w) {c t k terms bow} : (s.doAccAdd c t k terms bow).Keeps q w := by
  unfold State.doAccAdd
  refine .foldl ?_ fun _ _ hu => ?_
  · split
    · exact h.updLane
    · exact h.updLane.update.updLane
  · exact hu.laneResidue

theorem State.Keeps.emit (h : s.Keeps q w) {c cells} : (s.emit c cells).Keeps q w := h.updXfer

theorem State.Keeps.sinkRows (h : s.Keeps q w) {c sink i rows} : (s.sinkRows c sink i rows).Keeps q w := by
  unfold State.sinkRows
  split
  · exact h.emit
  · exact h.emit
  · exact h.updXfer
  · exact h

theorem State.Keeps.sinkEnd (h : s.Keeps q w) {c t r} : (s.sinkEnd c t r).Keeps q w := by
  unfold State.sinkEnd
  split
  · exact h.landEnd.use
  · exact .ite h.landEnd.use h.updXfer
  · exact h.same
  · exact h.same
  · exact h

theorem State.Keeps.doRowRead (h : s.Keeps q w) {c t r} : (s.doRowRead c t r).Keeps q w := by
  unfold State.doRowRead
  dsimp only
  split
  · exact h.spFault
  · split
    · refine .sinkEnd ?_
      split
      · exact h.updSp.use.sinkRows.landEnd
      · exact h.updSp.use.sinkRows
    · exact h.updSp.use.sinkRows.landStart

theorem State.Keeps.doRowRun (h : s.Keeps q w) {c t r} : (s.doRowRun c t r).Keeps q w := by
  unfold State.doRowRun
  dsimp only
  split
  · split
    · exact h.landEnd.use.landEnd
    · exact h.landEnd.use
    · exact h.landEnd.use.landStart
  · split
    · exact h.spFault
    · split
      · exact h.updSp.use.landEnd.use.landEnd
      · exact h.updSp.use.landEnd.use
      · exact h.updSp.use.landEnd.use.landStart

theorem State.Keeps.logArrival (h : s.Keeps q w) {c tid r d} : (s.logArrival c tid r d).Keeps q w := by
  unfold State.logArrival
  dsimp only
  split
  · exact h.logExc
  · exact h.logExc

theorem State.Keeps.updTid (h : s.Keeps q w) {c tid f} : (s.updTid c tid f).Keeps q w := h.updXfer

theorem State.Keeps.doAccPart (h : s.Keeps q w) {c t k n sums flags tid} : (s.doAccPart c t k n sums flags tid).Keeps q w := by
  unfold State.doAccPart
  refine .ite (.ite h h.logArrival.updTid) (h.updLane.foldl fun _ _ hu => ?_)
  exact hu.laneResidue

theorem State.Keeps.doXor (h : s.Keeps q w) {c addr bs} : (s.doXor c addr bs).Keeps q w :=
  .ite h.spFault (h.updSp fun _ hm => SPad.wf_write hm)

theorem State.Keeps.doFadd (h : s.Keeps q w) {c addr bs} : (s.doFadd c addr bs).Keeps q w :=
  .ite h.spFault (h.updSp fun _ hm => SPad.wf_write hm)

theorem State.Keeps.doArrCommit (h : s.Keeps q w) {c t reg_ n tid} : (s.doArrCommit c t reg_ n tid).Keeps q w :=
  .ite h.logArrival (.ite h h.advanceTail)

theorem State.Keeps.tidComplete (h : s.Keeps q w) {c tid} : (s.tidComplete c tid).Keeps q w := h.updXfer

theorem State.Keeps.applyEff (h : s.Keeps q w) {c t l} : (s.applyEff c t l).Keeps q w := by
  unfold State.applyEff
  split
  · exact h.doRestring
  · exact h.bowTake
  · exact h.doGather
  · exact h.updLane
  · exact h.updLane
  · exact h.doAccAdd
  · exact h.updVec
  · exact h.updSp fun _ hm => SPad.wf_write hm
  · exact h.updSp fun _ hm => SPad.wf_writeRows hm
  · exact h.updWs fun _ hm => WStore.wf_write hm
  · exact h.vprogVec
  · exact h.doRowRead
  · exact h.doRowRun
  · exact h.doRelease
  · exact h.doCommit
  · exact h.updCtl
  · exact h.addFlag
  · exact h.addFlag
  · exact .ite h.logEntry h.updCtl
  · exact h.tidComplete
  · exact h.updWs fun _ hm => WStore.wf_writeRows hm
  · exact State.Keeps.use (h.updSp fun _ hm => SPad.wf_write hm)
  · exact h.doXor.use
  · exact h.doFadd.use
  · exact h.doAccPart
  · exact h.doArrCommit

theorem State.Keeps.drainLandings (h : s.Keeps q w) {k n} : (s.drainLandings k n).Keeps q w := by
  induction n generalizing s with
  | zero => exact h
  | succ n ih =>
    unfold State.drainLandings
    split
    · exact h
    · exact .ite (ih (State.Keeps.applyEff h.same)) h

theorem State.Keeps.noteTrail (h : s.Keeps q w) {u} : (s.noteTrail u).Keeps q w := by
  unfold State.noteTrail
  split
  · exact h.updCore fun _ hx => hx
  · exact h

theorem State.Keeps.detect (h : s.Keeps q w) : s.detect.Keeps q w := by
  unfold State.detect
  refine .ite ?_ h
  refine .foldl ?_ fun _ _ hu => ?_
  · refine .foldl ?_ fun _ _ hu => ?_
    · refine h.foldl fun _ _ hu => ?_
      exact hu.hazard
    · refine hu.foldl fun _ _ hu1 => ?_
      exact hu1.hazard
  · exact hu.noteTrail

theorem State.Keeps.passTime (h : s.Keeps q w) : s.passTime.Keeps q w := .ite h.same h

/-! ### Vector words -/

theorem State.Keeps.takeSlot (h : s.Keeps q w) {x sl occ} : (s.takeSlot x sl occ).Keeps q w := .ite h (h.updCore fun _ hx => hx)

theorem State.Keeps.issueIn (h : s.Keeps q w) {x sl occ fails eff} (hf : ∀ u : State, u.Keeps q w → (eff u).Keeps q w) :
    (s.issueIn x sl occ fails eff).Keeps q w := by
  unfold State.issueIn
  split
  · exact h.takeSlot.logEntry
  · exact hf _ h.takeSlot.use

theorem State.Keeps.landReg (h : s.Keeps q w) {x usable prio v first es} : (s.landReg x usable prio v first es).Keeps q w :=
  h.landEnd.use

theorem State.Keeps.fxVld (h : s.Keeps q w) {x row vd n rls} : (s.fxVld x row vd n rls).Keeps q w := by
  unfold State.fxVld
  refine h.issueIn fun _ hu => ?_
  split
  · exact hu.spFault
  · exact .ite hu.updSp.use.landReg hu.updSp.use.landReg.landEnd

theorem State.Keeps.fxVst (h : s.Keeps q w) {x row vs n cmt} : (s.fxVst x row vs n cmt).Keeps q w := by
  unfold State.fxVst
  refine h.issueIn fun _ hu => ?_
  exact .ite hu.landEnd.use hu.landEnd.use.landEnd

theorem State.Keeps.fxVfill (h : s.Keeps q w) {x vd imm} : (s.fxVfill x vd imm).Keeps q w := by
  unfold State.fxVfill
  refine h.issueIn fun _ hu => ?_
  exact hu.landReg

theorem State.Keeps.fxVprog (h : s.Keeps q w) {x o} : (s.fxVprog x o).Keeps q w := by
  unfold State.fxVprog
  refine h.issueIn fun _ hu => ?_
  refine .vprogVec (hu.foldl fun _ _ hu1 => ?_)
  exact hu1.use

theorem State.Keeps.fxVcvt (h : s.Keeps q w) {x o} : (s.fxVcvt x o).Keeps q w := by
  unfold State.fxVcvt
  dsimp only
  split
  · refine h.issueIn fun _ hu => ?_
    exact hu.orStatus.feed.landReg
  · refine .ite ?_ ?_
    · refine h.issueIn fun _ hu => ?_
      refine .ite hu.accResidue (hu.feed.foldl fun _ _ hu1 => ?_)
      exact hu1.landReg
    · refine h.issueIn fun _ hu => ?_
      exact .ite hu.accResidue hu.orStatus.feed.landReg
  · refine .ite ?_ ?_
    · refine h.issueIn fun _ hu => ?_
      exact hu.landEnd.use
    · refine h.issueIn fun _ hu => ?_
      exact hu.landEnd
  · refine h.issueIn fun _ hu => ?_
    exact hu

theorem State.Keeps.fxVperm (h : s.Keeps q w) {x vd vs vi vl fsel freg} : (s.fxVperm x vd vs vi vl fsel freg).Keeps q w := by
  unfold State.fxVperm
  refine h.issueIn fun _ hu => ?_
  exact hu.orStatus.landReg

theorem State.Keeps.setRed (h : s.Keeps q w) {x n r} : (s.setRed x n r).Keeps q w := h.updVec

theorem State.Keeps.fxVredInit (h : s.Keeps q w) {x n v kind wsrc m elem} :
    (s.fxVredInit x n v kind wsrc m elem).Keeps q w := by
  unfold State.fxVredInit
  refine h.issueIn fun _ hu => ?_
  exact hu.setRed

theorem State.Keeps.fxVredAcc (h : s.Keeps q w) {x n v e fmt lay ssc imm base} :
    (s.fxVredAcc x n v e fmt lay ssc imm base).Keeps q w := by
  unfold State.fxVredAcc
  refine h.issueIn fun _ hu => ?_
  exact .ite hu.setRed hu.setRed.orStatus

theorem State.Keeps.fxVscan (h : s.Keeps q w) {x n vs e fmt lay ssc imm} : (s.fxVscan x n vs e fmt lay ssc imm).Keeps q w := by
  unfold State.fxVscan
  refine h.issueIn fun _ hu => ?_
  exact hu.setRed.orStatus

theorem State.Keeps.fxVredMerge (h : s.Keeps q w) {x n v} : (s.fxVredMerge x n v).Keeps q w := by
  unfold State.fxVredMerge
  refine h.issueIn fun _ hu => ?_
  exact hu.setRed

theorem State.Keeps.fxVredPhase (h : s.Keeps q w) {x n} : (s.fxVredPhase x n).Keeps q w := by
  unfold State.fxVredPhase
  refine h.issueIn fun _ hu => ?_
  exact hu.setRed

theorem State.Keeps.fxVredOut (h : s.Keeps q w) {x n v rm} : (s.fxVredOut x n v rm).Keeps q w := by
  unfold State.fxVredOut
  refine h.issueIn fun _ hu => ?_
  exact .landReg (.feed (.ite (.orStatus (.ite hu.orStatus hu)) (.ite hu.orStatus hu)))

theorem State.Keeps.fxVredSmout (h : s.Keeps q w) {x n v vs e} : (s.fxVredSmout x n v vs e).Keeps q w := by
  unfold State.fxVredSmout
  refine h.issueIn fun _ hu => ?_
  exact hu.orStatus.landReg

theorem State.Keeps.fxVtopkInit (h : s.Keeps q w) {x k} : (s.fxVtopkInit x k).Keeps q w := by
  unfold State.fxVtopkInit
  refine h.issueIn fun _ hu => ?_
  exact hu.updVec

theorem State.Keeps.fxVtopkAcc (h : s.Keeps q w) {x v e base} : (s.fxVtopkAcc x v e base).Keeps q w := by
  unfold State.fxVtopkAcc
  refine h.issueIn fun _ hu => ?_
  exact hu.updVec.orStatus

theorem State.Keeps.fxVtopkMerge (h : s.Keeps q w) {x v} : (s.fxVtopkMerge x v).Keeps q w := by
  unfold State.fxVtopkMerge
  refine h.issueIn fun _ hu => ?_
  exact hu.updVec.orStatus

theorem State.Keeps.fxVtopkOut (h : s.Keeps q w) {x v} : (s.fxVtopkOut x v).Keeps q w := by
  unfold State.fxVtopkOut
  refine h.issueIn fun _ hu => ?_
  exact hu.landReg.landReg

/-! ### Lane words -/

theorem State.Keeps.fxRestring (h : s.Keeps q w) {x block fmt l trans} : (s.fxRestring x block fmt l trans).Keeps q w := by
  unfold State.fxRestring
  refine h.issueIn fun _ hu => ?_
  exact .ite hu.wsFault hu.updWs.landStart.use.use

theorem State.Keeps.fxSwapt (h : s.Keeps q w) {x} : (s.fxSwapt x).Keeps q w := by
  unfold State.fxSwapt
  refine h.issueIn fun _ hu => ?_
  exact hu.updLane

theorem State.Keeps.fxBow (h : s.Keeps q w) {x data k nib e afmt ssrc scale rls} :
    (s.fxBow x data k nib e afmt ssrc scale rls).Keeps q w := by
  unfold State.fxBow
  dsimp only
  split
  · exact h.takeSlot.landEnd
  · exact h.takeSlot.landEnd

theorem State.Keeps.fxBowg (h : s.Keeps q w) {x list base k nib e afmt ssrc scale} :
    (s.fxBowg x list base k nib e afmt ssrc scale).Keeps q w := by
  unfold State.fxBowg
  dsimp only
  split
  · exact h.takeSlot.landEnd
  · exact h.takeSlot.landEnd

theorem State.Keeps.fxZacc (h : s.Keeps q w) {x k} : (s.fxZacc x k).Keeps q w := by
  unfold State.fxZacc
  refine h.issueIn fun _ hu => ?_
  exact hu.landEnd.use

theorem State.Keeps.fxWindow (h : s.Keeps q w) {x k wsrc n vs elem} : (s.fxWindow x k wsrc n vs elem).Keeps q w := by
  unfold State.fxWindow
  refine h.issueIn fun _ hu => ?_
  exact hu.landEnd.use

theorem State.Keeps.fxDrain (h : s.Keeps q w) {x k vd fmt rm clr} : (s.fxDrain x k vd fmt rm clr).Keeps q w := by
  unfold State.fxDrain
  refine h.issueIn fun _ hu => ?_
  exact .ite hu.accResidue (.ite hu.orStatus.feed.landReg.landEnd.use hu.orStatus.feed.landReg)

/-! ### Chunks of a load -/

theorem State.Keeps.restored (h : s.Keeps q w) {c b} : (s.restored c b).Keeps q w := h.updWs

theorem State.Keeps.loadStalled (h : s.Keeps q w) {g i reason} : (s.loadStalled g i reason).Keeps q w := h.raise.updSwap

theorem State.Keeps.chunkFailed (h : s.Keeps q w) {g i reason stream} : (s.chunkFailed g i reason stream).Keeps q w := by
  unfold State.chunkFailed
  split
  · exact h
  · exact .ite h.updChunk.requestChunk h.updChunk.loadStalled

theorem State.Keeps.writeChunk (h : s.Keeps q w) {g i stream enc} : (s.writeChunk g i stream enc).Keeps q w := by
  unfold State.writeChunk
  split
  · exact h
  · split
    · exact h.chunkFailed
    · exact h
    · refine .ite h.serviceRefused.chunkFailed (.ite ?_ ?_)
      · refine .updChunk (.foldl ?_ fun _ _ hu => hu.restored)
        exact h.foldl fun _ _ hu => hu.updWs fun _ hm => WStore.wf_writeFormed hm
      · refine .chunkFailed ?_
        exact h.foldl fun _ _ hu => hu.updWs fun _ hm => WStore.wf_writeFormed hm

theorem State.Keeps.flushHeld (h : s.Keeps q w) {g} : (s.flushHeld g).Keeps q w := by
  unfold State.flushHeld
  refine h.foldl fun _ _ hu => ?_
  split
  · exact .ite hu.writeChunk hu
  · exact hu

theorem State.Keeps.fetchChunks (h : s.Keeps q w) {g} : (s.fetchChunks g).Keeps q w := by
  unfold State.fetchChunks
  refine h.foldl fun _ _ hu => ?_
  exact .ite hu.requestChunk hu

theorem State.Keeps.chunkArrived (h : s.Keeps q w) {g i stream k data} : (s.chunkArrived g i stream k data).Keeps q w :=
  .ite h.chunkFailed (.ite h.chunkFailed (.ite h.writeChunk.fetchChunks h.updChunk))

theorem State.Keeps.chunkCell (h : s.Keeps q w) {cell g i} : (s.chunkCell cell g i).Keeps q w := by
  unfold State.chunkCell
  dsimp only
  split
  · exact h.updSwap.updSwap
  · exact .ite h.updSwap.updSwap.updSwap.chunkArrived h.updSwap.updSwap

theorem State.Keeps.releaseLayer (h : s.Keeps q w) {g c layer} : (s.releaseLayer g c layer).Keeps q w :=
  .ite h.updSwap.flushHeld.fetchChunks h

theorem State.Keeps.releaseEvery (h : s.Keeps q w) {g} : (s.releaseEvery g).Keeps q w := h.updSwap.flushHeld.fetchChunks

/-! ### Flag words and marks -/

theorem State.Keeps.fxSetf (h : s.Keeps q w) {x flag value} : (s.fxSetf x flag value).Keeps q w := by
  unfold State.fxSetf
  refine h.issueIn fun _ hu => ?_
  exact hu.landEnd

theorem State.Keeps.fxIncf (h : s.Keeps q w) {x flag} : (s.fxIncf x flag).Keeps q w := by
  unfold State.fxIncf
  refine h.issueIn fun _ hu => ?_
  exact hu.landEnd

theorem State.Keeps.fxDecf (h : s.Keeps q w) {x flag} : (s.fxDecf x flag).Keeps q w := by
  unfold State.fxDecf
  refine h.issueIn fun _ hu => ?_
  exact hu.landEnd

theorem State.Keeps.fxSignal (h : s.Keeps q w) {x flag dreg} : (s.fxSignal x flag dreg).Keeps q w := by
  unfold State.fxSignal
  refine .ite ?_ ?_
  · refine h.issueIn fun _ hu => ?_
    split
    · refine hu.landEnd.foldl fun _ _ hu1 => ?_
      exact hu1.use
    · exact hu
  · refine h.issueIn fun _ hu => ?_
    exact hu.emit

theorem State.Keeps.fxExpect (h : s.Keeps q w) {x tid} : (s.fxExpect x tid).Keeps q w := by
  unfold State.fxExpect
  refine h.issueIn fun _ hu => ?_
  exact hu.updXfer

theorem State.Keeps.stopReplay (h : s.Keeps q w) {g} : (s.stopReplay g).Keeps q w := .ite h.closeStep.ctl h.closeStep.ctl

theorem State.Keeps.replayStop (h : s.Keeps q w) {x mark} : (s.replayStop x mark).Keeps q w := by
  unfold State.replayStop
  refine .ite (.ite ?_ h.updCtl) h
  split
  · exact h.updCtl.updStep.addHold
  · exact h.updCtl.addHold

theorem State.Keeps.fxMark (h : s.Keeps q w) {x mark} : (s.fxMark x mark).Keeps q w := by
  unfold State.fxMark
  refine h.issueIn fun _ hu => ?_
  refine .replayStop ?_
  split
  · exact .releaseLayer (.ite (.updDet (.ite hu.updCtl.addTrace hu.updCtl)) (.ite hu.updCtl.addTrace hu.updCtl))
  · exact .ite (.updDet (.ite hu.updCtl.addTrace hu.updCtl)) (.ite hu.updCtl.addTrace hu.updCtl)

/-! ### Cells that arrive -/

theorem State.Keeps.countUnroutable (h : s.Keeps q w) {port} : (s.countUnroutable port).Keeps q w := h.same

theorem State.Keeps.security (h : s.Keeps q w) {p code} : (s.security p code).Keeps q w := h.raiseTo

theorem State.Keeps.discardHere (h : s.Keeps q w) {core tid} : (s.discardHere core tid).Keeps q w := by
  unfold State.discardHere
  split
  · exact h.coreFault
  · exact h.logFault

theorem State.Keeps.noteDiscard (h : s.Keeps q w) {port reason cell} : (s.noteDiscard port reason cell).Keeps q w := by
  unfold State.noteDiscard
  refine .ite (.ite h (.ite ?_ ?_)) h
  · refine .discardHere ?_
    split
    · exact h.same.logFault
    · exact h.same
  · refine .update ?_
    split
    · exact h.same.logFault
    · exact h.same

theorem State.Keeps.excessCell (h : s.Keeps q w) {c opened x} : (s.excessCell c opened x).Keeps q w := h.logArrival.noteDiscard

theorem State.Keeps.holdCell (h : s.Keeps q w) {c x} : (s.holdCell c x).Keeps q w := h.updXfer

theorem State.Keeps.holdOver (h : s.Keeps q w) {c n x} : (s.holdOver c n x).Keeps q w := h.holdCell.updSp

theorem State.Keeps.takeRowCell (h : s.Keeps q w) {c o x n} : (s.takeRowCell c o x n).Keeps q w := by
  unfold State.takeRowCell
  dsimp only
  split
  · exact h.updTid.landEnd
  · exact .updTid (.ite h.logArrival h)
  · exact h.holdOver

theorem State.Keeps.takePart (h : s.Keeps q w) {c o k n index p} : (s.takePart c o k n index p).Keeps q w :=
  .ite h.landEnd (.ite h.updTid.logArrival.updTid h.updTid.landEnd)

theorem State.Keeps.takeFast (h : s.Keeps q w) {c o m x n} : (s.takeFast c o m x n).Keeps q w := by
  unfold State.takeFast
  dsimp only
  split
  · exact h.updTid.landEnd
  · exact .ite h.updTid.logArrival h.updTid
  · exact h.holdOver

theorem State.Keeps.takeValue (h : s.Keeps q w) {c tid n x} : (s.takeValue c tid n x).Keeps q w := by
  unfold State.takeValue
  split
  · exact h
  · split
    · exact h.excessCell
    · refine .ite h.updTid ?_
      split
      · exact h.updTid.takePart
      · exact h.takeFast

theorem State.Keeps.takeContribution (h : s.Keeps q w) {c o x} : (s.takeContribution c o x).Keeps q w := by
  unfold State.takeContribution
  split
  · exact h.takeValue
  · refine .ite ?_ h.holdCell
    split
    · exact h.excessCell
    · refine .foldl (.updXfer (.ite h.updTid.logArrival h.updTid)) fun _ _ hu => ?_
      exact hu.takeValue

theorem State.Keeps.takeCell (h : s.Keeps q w) {c o x} : (s.takeCell c o x).Keeps q w := by
  unfold State.takeCell
  dsimp only
  split
  · exact h.excessCell
  · refine .ite (.ite h.updTid h.updTid.logArrival.updTid) ?_
    split
    · exact h.takeContribution
    · exact h.takeContribution
    · exact h.updTid
    · exact .ite h.updTid h.takeRowCell

theorem State.Keeps.takeKvCell (h : s.Keeps q w) {c x} : (s.takeKvCell c x).Keeps q w := by
  unfold State.takeKvCell
  dsimp only
  split
  · refine .ite h.excessCell ?_
    split
    · exact h.excessCell
    · exact h.updXfer
  · refine .ite (.ite h.excessCell ?_) h.holdCell
    split
    · exact h.excessCell
    · exact h.updXfer

theorem State.Keeps.signalAt (h : s.Keeps q w) {c x} : (s.signalAt c x).Keeps q w :=
  .ite h.landEnd (.ite h.updCtl (.ite h.holdCell h.logArrival))

theorem State.Keeps.cellAt (h : s.Keeps q w) {c x} : (s.cellAt c x).Keeps q w := by
  unfold State.cellAt
  split
  · exact h.takeKvCell
  · exact h.signalAt
  · exact h
  · split
    · exact h.takeCell
    · exact h.holdCell

theorem State.Keeps.badTarget (h : s.Keeps q w) {port tenant core} : (s.badTarget port tenant core).Keeps q w := by
  unfold State.badTarget
  split
  · exact h.logExc
  · exact h.countUnroutable

theorem State.Keeps.cellIn (h : s.Keeps q w) {x} : (s.cellIn x).Keeps q w := by
  unfold State.cellIn
  refine .ite h.countUnroutable (.ite ?_ ?_)
  · split
    · exact h.chunkCell
    · exact h.badTarget
  · split
    · exact h.badTarget
    · split
      · exact .ite h.logArrival.security h.cellAt
      · exact h.cellAt

theorem State.Keeps.retryCells (h : s.Keeps q w) {c cells} : (s.retryCells c cells).Keeps q w := by
  unfold State.retryCells
  refine h.foldl fun _ _ hu => ?_
  exact hu.cellAt

theorem State.Keeps.retryWaiting (h : s.Keeps q w) {c} : (s.retryWaiting c).Keeps q w := h.updXfer.retryCells

theorem State.Keeps.completeTid (h : s.Keeps q w) {c o} : (s.completeTid c o).Keeps q w := by
  unfold State.completeTid
  refine .ite ?_ ?_
  · refine .ite ?_ ?_
    · refine .coreFault (.ite ?_ ?_)
      · refine .logArrival (.ite ?_ ?_)
        · refine .logArrival ?_
          split
          · exact .ite h.tidComplete.landEnd h.tidComplete
          · exact h.tidComplete
        · split
          · exact .ite h.tidComplete.landEnd h.tidComplete
          · exact h.tidComplete
      · refine .ite ?_ ?_
        · refine .logArrival ?_
          split
          · exact .ite h.tidComplete.landEnd h.tidComplete
          · exact h.tidComplete
        · split
          · exact .ite h.tidComplete.landEnd h.tidComplete
          · exact h.tidComplete
    · refine .ite ?_ ?_
      · refine .logArrival (.ite ?_ ?_)
        · refine .logArrival ?_
          split
          · exact .ite h.tidComplete.landEnd h.tidComplete
          · exact h.tidComplete
        · split
          · exact .ite h.tidComplete.landEnd h.tidComplete
          · exact h.tidComplete
      · refine .ite ?_ ?_
        · refine .logArrival ?_
          split
          · exact .ite h.tidComplete.landEnd h.tidComplete
          · exact h.tidComplete
        · split
          · exact .ite h.tidComplete.landEnd h.tidComplete
          · exact h.tidComplete
  · split
    · exact .ite h.tidComplete.landEnd h.tidComplete
    · exact h.tidComplete

/-! ### Move words -/

theorem State.Keeps.openTid (h : s.Keeps q w) {x tid form rows want} : (s.openTid x tid form rows want).Keeps q w :=
  h.updXfer.updXfer.retryCells

theorem State.Keeps.startRead (h : s.Keeps q w) {x rows sink rel} : (s.startRead x rows sink rel).Keeps q w := h.doRowRead

theorem State.Keeps.fillWord (h : s.Keeps q w) {x psrc preg} : (s.fillWord x psrc preg).2.Keeps q w := by
  unfold State.fillWord
  split
  · exact h
  · exact h
  · exact h
  · exact h
  · exact h
  · exact h.takeFree

theorem State.Keeps.fxSpfill (h : s.Keeps q w) {x row c n psrc preg cmt} : (s.fxSpfill x row c n psrc preg cmt).Keeps q w := by
  unfold State.fxSpfill
  refine h.issueIn fun _ hu => ?_
  exact .doRowRun (.ite hu.fillWord.updXfer hu.fillWord)

theorem State.Keeps.fxSpcopy (h : s.Keeps q w) {x src dst c n} : (s.fxSpcopy x src dst c n).Keeps q w := by
  unfold State.fxSpcopy
  refine h.issueIn fun _ hu => ?_
  exact hu.doRowRun

theorem State.Keeps.fxWsrd (h : s.Keeps q w) {x block part row sp} : (s.fxWsrd x block part row sp).Keeps q w := by
  unfold State.fxWsrd
  refine h.issueIn fun _ hu => ?_
  refine .ite hu.wsFault (.ite (.landEnd (.ite hu.updWs.use.landEnd.use hu.updWs.use.landEnd.use.landEnd.use)) ?_)
  exact .ite hu.updWs.use.landEnd.use hu.updWs.use.landEnd.use.landEnd.use

theorem State.Keeps.fxWswr (h : s.Keeps q w) {x block part row sp} : (s.fxWswr x block part row sp).Keeps q w := by
  unfold State.fxWswr
  refine h.issueIn fun _ hu => ?_
  exact hu.startRead

theorem State.Keeps.fxKvrd (h : s.Keeps q w) {x hreg greg sp} : (s.fxKvrd x hreg greg sp).Keeps q w := by
  unfold State.fxKvrd
  refine h.issueIn fun _ hu => ?_
  refine .ite ?_ ?_
  · split
    · exact hu.wsFault
    · refine State.Keeps.foldl (hu.updWs fun m hm => ?_) fun _ _ hu1 => ?_
      · rwa [WStore.correctRows_mem]
      · exact hu1.landEnd.use.use
  · refine hu.updXfer.foldl fun _ _ hu1 => ?_
    exact hu1.landEnd.use.use

theorem State.Keeps.fxKvwr (h : s.Keeps q w) {x hreg greg sp} : (s.fxKvwr x hreg greg sp).Keeps q w := by
  unfold State.fxKvwr
  refine h.issueIn fun _ hu => ?_
  exact hu.startRead

theorem State.Keeps.fxKvwrRemote (h : s.Keeps q w) {x hreg greg sp dreg tid} :
    (s.fxKvwrRemote x hreg greg sp dreg tid).Keeps q w := by
  unfold State.fxKvwrRemote
  refine h.issueIn fun _ hu => ?_
  exact hu.openTid.emit.startRead

theorem State.Keeps.fxSend (h : s.Keeps q w) {x sp c dreg vc cls tid xor} :
    (s.fxSend x sp c dreg vc cls tid xor).Keeps q w := by
  unfold State.fxSend
  refine h.issueIn fun _ hu => ?_
  exact hu.startRead

theorem State.Keeps.fxSendacc (h : s.Keeps q w) {x k dreg enc cls tid} : (s.fxSendacc x k dreg enc cls tid).Keeps q w := by
  unfold State.fxSendacc
  refine h.issueIn fun _ hu => ?_
  exact .ite hu.accResidue (.emit (.feed (.ite hu.orStatus.updXfer hu)))

theorem State.Keeps.fxRecvRows (h : s.Keeps q w) {x tid sp form} : (s.fxRecvRows x tid sp form).Keeps q w := by
  unfold State.fxRecvRows
  refine h.issueIn fun _ hu => ?_
  exact .openTid (.ite hu.updXfer hu)

theorem State.Keeps.fxRecvAcc (h : s.Keeps q w) {x tid k} : (s.fxRecvAcc x tid k).Keeps q w := by
  unfold State.fxRecvAcc
  refine h.issueIn fun _ hu => ?_
  exact hu.openTid

theorem State.Keeps.fxOnDie (h : s.Keeps q w) {x score srow sp} : (s.fxOnDie x score srow sp).Keeps q w := by
  unfold State.fxOnDie
  refine h.issueIn fun _ hu => ?_
  split
  · exact hu
  · refine .ite (.ite hu.use hu.use.spFault) ?_
    refine .use (.foldl (.use (.landEnd (.ite hu.use hu.use.updSp))) fun _ _ hu1 => ?_)
    exact hu1.use

theorem State.Keeps.fxHostrd (h : s.Keeps q w) {x buf oreg sp c tid} : (s.fxHostrd x buf oreg sp c tid).Keeps q w := by
  unfold State.fxHostrd
  refine h.issueIn fun _ hu => ?_
  exact hu.openTid.update

theorem State.Keeps.fxHostwr (h : s.Keeps q w) {x buf oreg sp c tid} : (s.fxHostwr x buf oreg sp c tid).Keeps q w := by
  unfold State.fxHostwr
  refine h.issueIn fun _ hu => ?_
  exact hu.openTid.startRead

theorem State.Keeps.fxKdlook (h : s.Keeps q w) {x sp c rreg tid} : (s.fxKdlook x sp c rreg tid).Keeps q w := by
  unfold State.fxKdlook
  refine h.issueIn fun _ hu => ?_
  exact hu.openTid.startRead

theorem State.Keeps.fxKdput (h : s.Keeps q w) {x sp c op tid} : (s.fxKdput x sp c op tid).Keeps q w := by
  unfold State.fxKdput
  refine h.issueIn fun _ hu => ?_
  exact hu.openTid.startRead

/-! ### Issue, the clock cycle, decoding -/

theorem State.Keeps.fxOf (h : s.Keeps q w) {x l} : (s.fxOf x l).Keeps q w := by
  unfold State.fxOf
  split
  · exact h.fxSetf
  · exact h.fxIncf
  · exact h.fxDecf
  · exact h.fxSignal
  · exact h.fxExpect
  · exact h.fxMark
  · exact h.fxRestring
  · exact h.fxRestring
  · exact h.fxSwapt
  · exact h.fxBow
  · exact h.fxBowg
  · exact h.fxZacc
  · exact h.fxWindow
  · exact h.fxDrain
  · exact h.fxVld
  · exact h.fxVst
  · exact h.fxVfill
  · exact h.fxVprog
  · exact h.fxVcvt
  · exact h.fxVperm
  · exact h.fxVredInit
  · exact h.fxVredAcc
  · exact h.fxVredMerge
  · exact h.fxVredPhase
  · exact h.fxVredOut
  · exact h.fxVredSmout
  · exact h.fxVscan
  · exact h.fxVtopkInit
  · exact h.fxVtopkAcc
  · exact h.fxVtopkMerge
  · exact h.fxVtopkOut
  · exact h.fxSpfill
  · exact h.fxSpcopy
  · exact h.fxWsrd
  · exact h.fxWswr
  · exact h.fxKvrd
  · exact h.fxKvwr
  · exact h.fxKvwrRemote
  · exact h.fxSend
  · exact h.fxSendacc
  · exact h.fxSend
  · exact h.fxRecvRows
  · exact h.fxRecvAcc
  · exact h.fxRecvRows
  · exact h.fxRecvRows
  · exact h.fxOnDie
  · exact h.fxHostrd
  · exact h.fxHostwr
  · exact h.fxKdlook
  · exact h.fxKdput
  · exact h

theorem State.Keeps.addLate (h : s.Keeps q w) {i t} : (s.addLate i t).Keeps q w := .ite h h.same

theorem State.Keeps.lateChecks (h : s.Keeps q w) : s.lateChecks.Keeps q w := by
  unfold State.lateChecks
  refine h.foldl fun _ _ hu => ?_
  exact .ite hu.addLate hu

theorem State.Keeps.arrivals (h : s.Keeps q w) : s.arrivals.Keeps q w := h.same

theorem State.Keeps.readyChecks (h : s.Keeps q w) : s.readyChecks.Keeps q w := h.same

theorem State.Keeps.pump (h : s.Keeps q w) {n} : (State.pump n s).Keeps q w := by
  induction n generalizing s with
  | zero => exact h
  | succ n ih =>
    unfold State.pump
    split
    · exact h
    · refine .ite h ?_
      split
      · exact h.addLate
      · exact ih h.updCtl.fxOf

theorem State.Keeps.pumpAll (h : s.Keeps q w) : s.pumpAll.Keeps q w := h.pump

theorem State.Keeps.replayStops (h : s.Keeps q w) : s.replayStops.Keeps q w := by
  unfold State.replayStops
  refine h.foldl fun _ _ hu => ?_
  exact .ite hu.stopReplay hu

theorem State.Keeps.endTick (h : s.Keeps q w) : s.endTick.Keeps q w :=
  .replayStops (.ite h.drainLandings.detect.lateChecks h.drainLandings)

theorem State.Keeps.beginDecode (h : s.Keeps q w) {g} : (s.beginDecode g).Keeps q w := by
  unfold State.beginDecode
  refine .ite ?_ h
  refine .updStep (.foldl ?_ fun _ _ hu => ?_)
  · refine .foldl (.ite h.resetCores.dropHold h) fun _ _ hu => ?_
    exact hu.updCore fun _ hx => hx
  · exact hu.retryWaiting

theorem State.Keeps.beginDecodes (h : s.Keeps q w) : s.beginDecodes.Keeps q w := by
  unfold State.beginDecodes
  refine h.foldl fun _ _ hu => ?_
  exact hu.beginDecode

theorem State.Keeps.passTick (h : s.Keeps q w) : s.passTick.Keeps q w := h.same.drainLandings.pumpAll

theorem State.Keeps.cycle (h : s.Keeps q w) : s.cycle.Keeps q w := by
  unfold State.cycle
  refine .ite h.resumePaused.passTime.arrivals.endTick.beginDecodes.readyChecks.passTick ?_
  exact h.resumePaused.passTime.arrivals.endTick.beginDecodes.readyChecks.update

theorem State.Keeps.ahead (h : s.Keeps q w) {n} : (State.ahead n s).Keeps q w := by
  induction n generalizing s with
  | zero => exact h
  | succ n ih => exact ih h.endTick.passTick

theorem State.Keeps.logWord (h : s.Keeps q w) {c tick off i r d} : (s.logWord c tick off i r d).Keeps q w := h.logExc

theorem State.Keeps.setReg (h : s.Keeps q w) {c d v} : (s.setReg c d v).Keeps q w := h.updCtl

theorem State.Keeps.abortCore (h : s.Keeps q w) {c st} : (s.abortCore c st).Keeps q w := by
  unfold State.abortCore
  split
  · exact .ite h.abortStep h.resetCores
  · exact h.resetCores

theorem State.Keeps.tooLong (h : s.Keeps q w) {c off i} : (s.tooLong c off i).Keeps q w := h.logWord.abortCore

theorem State.Keeps.untimed (h : s.Keeps q w) {c tick off i} : (s.untimed c tick off i).Keeps q w := by
  unfold State.untimed
  dsimp only
  split
  · exact h.updCtl
  · exact .ite h.updCtl h.updCtl
  · split
    · exact h
    · exact .ite h.updCtl h.updCtl
  · exact .ite h.logWord h.updCtl
  · exact h.setReg
  · exact h.setReg
  · exact h.setReg
  · exact h.setReg
  · exact h.setReg
  · exact .ite h.logWord h.setReg
  · exact .ite (.ite h.logWord h.setReg) h.setReg
  · exact h

theorem State.Keeps.enqueue (h : s.Keeps q w) {c tick off i eng} : (s.enqueue c tick off i eng).Keeps q w :=
  .ite h.updCtl h.updCtl.pumpAll

theorem State.Keeps.decodeNow (h : s.Keeps q w) {c i} : (s.decodeNow c i).Keeps q w := by
  unfold State.decodeNow
  refine .ite h.tooLong ?_
  dsimp only
  split
  · exact h.updCtl.enqueue
  · exact h.updCtl.untimed

theorem State.Keeps.decode (h : s.Keeps q w) {c i} : (s.decode c i).Keeps q w := by
  unfold State.decode
  refine .ite h ?_
  dsimp only
  split
  · exact h
  · exact h.updCtl
  · exact h.updCtl
  · exact h.updCtl
  · exact h.decodeNow

theorem State.Keeps.decodeAll (h : s.Keeps q w) {c l} : (s.decodeAll c l).Keeps q w := by
  induction l generalizing s with
  | nil => exact h
  | cons i l ih => exact .ite (ih h.decode) h.decode

theorem State.Keeps.resume (h : s.Keeps q w) {c} : (s.resume c).Keeps q w := h.updCtl.decodeAll

theorem execWord_keeps (h : s.Keeps q w) {core i} : NextKeeps q w (execWord core i s) := .ite (.next h.decode) trivial

/-! ### The package: faults, pass-through mode, frequency -/

theorem State.Keeps.touch (h : s.Keeps q w) {reg bits} : (s.touch reg bits).Keeps q w := h.same

theorem State.Keeps.clearParity (h : s.Keeps q w) {g} : (s.clearParity g).Keeps q w := .ite h.updGroup h

theorem State.Keeps.updPower (h : s.Keeps q w) {f} : (s.updPower f).Keeps q w := h.same

theorem State.Keeps.updClk (h : s.Keeps q w) {f} : (s.updClk f).Keeps q w := h.same

theorem State.Keeps.refuse (h : s.Keeps q w) {at_} : (s.refuse at_).Keeps q w := h.same

theorem State.Keeps.stopAll (h : s.Keeps q w) {reason} : (s.stopAll reason).Keeps q w := by
  unfold State.stopAll
  refine h.foldl fun _ _ hu => ?_
  exact hu.stopStep

theorem State.Keeps.tellOwners (h : s.Keeps q w) {reason told l} : (s.tellOwners reason told l).Keeps q w := by
  induction l generalizing s told with
  | nil => exact h
  | cons g l ih => exact .ite (ih h) (ih h.raise)

theorem State.Keeps.packageFault (h : s.Keeps q w) {reason cls outcome unit sub detail} :
    (s.packageFault reason cls outcome unit sub detail).Keeps q w := by
  unfold State.packageFault
  split
  · exact h.logFault.tellOwners.stopAll
  · exact h.logFault

theorem State.Keeps.interrupted (h : s.Keeps q w) : s.interrupted.Keeps q w := h.raise

theorem State.Keeps.loseCompute (h : s.Keeps q w) : s.loseCompute.Keeps q w :=
  h.cores_of fun _ => by
    show (s.cores.map fun p => (p.1, p.2.unpowered)).all (fun p => p.2.memWf) = true
    rw [List.all_map, List.all_eq_true]
    exact fun _ _ => rfl

theorem State.Keeps.disableVfs (h : s.Keeps q w) : s.disableVfs.Keeps q w := by
  unfold State.disableVfs
  refine h.foldl fun _ _ hu => ?_
  exact hu.updFunc

theorem State.Keeps.stopRings (h : s.Keeps q w) : s.stopRings.Keeps q w := h.updFunc

theorem State.Keeps.enterPassThrough (h : s.Keeps q w) {reason} : (s.enterPassThrough reason).Keeps q w := by
  unfold State.enterPassThrough
  refine .ite h ?_
  exact .update (.stopRings (.disableVfs (.loseCompute (.updMaint (.ite h.stopAll.interrupted h.stopAll)))))

theorem State.Keeps.supplyFault (h : s.Keeps q w) {unit detail} : (s.supplyFault unit detail).Keeps q w :=
  h.packageFault.enterPassThrough

theorem State.Keeps.clockFault (h : s.Keeps q w) {reason unit detail} : (s.clockFault reason unit detail).Keeps q w :=
  .ite h.same.packageFault.enterPassThrough h.same.packageFault

theorem State.Keeps.decideFreq (h : s.Keeps q w) {step} : (s.decideFreq step).Keeps q w := h.updClk

/-! ### Submissions -/

theorem State.Keeps.answer (h : s.Keeps q w) {f x status detail step} : (s.answer f x status detail step).Keeps q w :=
  h.complete

theorem State.Keeps.popSub (h : s.Keeps q w) {f} : (s.popSub f).Keeps q w := h.updFunc

/-! ### The fabric switch -/

theorem State.Keeps.updPort (h : s.Keeps q w) {p f} : (s.updPort p f).Keeps q w := h.same

theorem State.Keeps.updNet (h : s.Keeps q w) {f} : (s.updNet f).Keeps q w := h.same

theorem State.Keeps.unroute (h : s.Keeps q w) {x} : (s.unroute x).Keeps q w := h.countUnroutable.noteDiscard

theorem State.Keeps.queueCell (h : s.Keeps q w) {p v x} : (s.queueCell p v x).Keeps q w := h.updPort

theorem State.Keeps.routeFree (h : s.Keeps q w) {shape d x} : (s.routeFree shape d x).Keeps q w := by
  unfold State.routeFree
  dsimp only
  split
  · exact h.queueCell
  · split
    · exact .ite h.queueCell (.ite h.same h.unroute)
    · exact .ite h.same h.unroute

theorem State.Keeps.forward (h : s.Keeps q w) {x} : (s.forward x).Keeps q w := by
  unfold State.forward
  refine .ite h.same (.ite h.unroute (.ite h.unroute ?_))
  split
  · exact .ite h.unroute h.same
  · exact h.unroute
  · exact .ite h.unroute h.queueCell
  · refine .ite ?_ h.routeFree
    split
    · exact .ite h.unroute h.queueCell
    · exact h.unroute

theorem State.Keeps.pumpFabric (h : s.Keeps q w) : s.pumpFabric.Keeps q w := by
  unfold State.pumpFabric
  refine h.same.foldl fun _ _ hu => ?_
  exact hu.forward

/-! ### Commands of arrivals and host reads -/

theorem execSignalArrival_keeps (h : s.Keeps q w) {port core flag step tenant} :
    NextKeeps q w (execSignalArrival port core flag step tenant s) := by
  unfold execSignalArrival
  split
  · exact .next h.same.cellIn
  · exact .next h

theorem execCellArrival_keeps (h : s.Keeps q w) {via chan cell} : NextKeeps q w (execCellArrival via chan cell s) :=
  .next (.ite h.same.cellIn h)

theorem execTransferComplete_keeps (h : s.Keeps q w) {core tid} : NextKeeps q w (execTransferComplete core tid s) := by
  unfold execTransferComplete
  dsimp only
  split
  · exact .next (.ite h.completeTid h)
  · exact .next h

theorem execWaitingArrivalWrite_keeps (h : s.Keeps q w) {core} : NextKeeps q w (execWaitingArrivalWrite core s) :=
  .next h.retryWaiting

theorem execKvWriteContextComplete_keeps (h : s.Keeps q w) {core tid} :
    NextKeeps q w (execKvWriteContextComplete core tid s) := by
  unfold execKvWriteContextComplete
  dsimp only
  split
  · exact .next h
  · split
    · exact .next h
    · exact .next (.retryWaiting (.updXfer (.ite h.updXfer.landEnd h.updXfer.updXfer)))

theorem execHostReadCompletion_keeps (h : s.Keeps q w) {core tid first data} :
    NextKeeps q w (execHostReadCompletion core tid first data s) := by
  unfold execHostReadCompletion
  dsimp only
  split
  · exact .next h
  · exact .ite (.next h.landEnd.updTid.completeTid) (.next h.landEnd.updTid)

theorem State.Keeps.stepDead (h : s.Keeps q w) {g reason detail} : (s.stepDead g reason detail).Keeps q w :=
  .ite h.logFault.abortStep h

theorem State.Keeps.ringFault (h : s.Keeps q w) {f ring} : (s.ringFault f ring).Keeps q w := by
  unfold State.ringFault
  refine .raise ?_
  split
  · exact h.updFunc
  · exact h

theorem execHostDmaError_keeps (h : s.Keeps q w) {read} : NextKeeps q w (execHostDmaError read s) := by
  unfold execHostDmaError
  split
  · split
    · exact .next h.stepDead
    · exact .next h.logFault
  · exact .next h.stepDead
  · exact .next h.ringFault
  · exact .next h.updFunc.ringFault
  · split
    · exact .next h.answer.popSub
    · exact .next h
  · split
    · exact .next h.complete.updSwap
    · exact .next h
  · split
    · split
      · exact .next h.complete.updReq
      · exact .next h
    · exact .next h

theorem execCellLeavesOutboundBuffer_keeps (h : s.Keeps q w) {core what} :
    NextKeeps q w (execCellLeavesOutboundBuffer core what s) := by
  have hreply (u : State) (r : InCell) (l : List InCell) (k : Xfer → Xfer) (hu : u = (s.updXfer core.val k).forward r) :
      u.Keeps q w := hu ▸ h.updXfer.forward
  unfold execCellLeavesOutboundBuffer
  dsimp only
  split
  · refine .next ?_
    split
    · exact h.updXfer.forward
    · exact h
  · split
    · split
      next u hu =>
        refine .next ?_
        split at hu
        · cases hu
        · split at hu
          · cases hu
            exact h.updXfer.forward
          · cases hu
      · exact .next h.updXfer.forward.pumpAll
    · exact .next h
  · split
    · refine .next (.pumpAll ?_)
      split
      · exact .ite h.updXfer.hostWrite.updTid.tidComplete h.updXfer.hostWrite.updTid
      · exact h.updXfer.hostWrite.updTid
    · exact .next h

/-! ### Commands of steps on a core -/

theorem execWaitfSatisfied_keeps (h : s.Keeps q w) {core} : NextKeeps q w (execWaitfSatisfied core s) := by
  unfold execWaitfSatisfied
  dsimp only
  split
  · exact .ite (.next h.updCtl.resume.pumpAll) (.next h)
  · exact .next h

theorem execDecodeResume_keeps (h : s.Keeps q w) {core} : NextKeeps q w (execDecodeResume core s) := by
  unfold execDecodeResume
  dsimp only
  split
  · split
    · exact .ite (.next h.updCtl.resume.pumpAll) (.next h)
    · exact .next h
  · exact .next h

theorem execSeqMiscompare_keeps (h : s.Keeps q w) {core} : NextKeeps q w (execSeqMiscompare core s) :=
  .ite (.next (.ite h.updDet.coreFault.askRetire h.updDet.coreFault)) (.next h)

theorem execFlagWaitTimeout_keeps (h : s.Keeps q w) {core} : NextKeeps q w (execFlagWaitTimeout core s) := by
  unfold execFlagWaitTimeout
  dsimp only
  split
  · exact .ite (.next h.logExc.abortCore) (.next h)
  · exact .next h

theorem execStepTooLong_keeps (h : s.Keeps q w) {core delta} : NextKeeps q w (execStepTooLong core delta s) :=
  .ite (.next h.tooLong) (.next h)

theorem State.Keeps.releaseLayers (h : s.Keeps q w) {g c} : (s.releaseLayers g c).Keeps q w := by
  unfold State.releaseLayers
  refine h.foldl fun _ _ hu => ?_
  exact hu.releaseLayer

theorem execCoreFinished_keeps (h : s.Keeps q w) {core} : NextKeeps q w (execCoreFinished core s) := by
  unfold execCoreFinished
  refine .ite ?_ (.next h)
  dsimp only
  split
  · exact .next h.updCtl.releaseLayers.checkFinished
  · exact .next h.updCtl

theorem execLateItemCheck_keeps (h : s.Keeps q w) {item} : NextKeeps q w (execLateItemCheck item s) := by
  unfold execLateItemCheck
  split
  · exact .next (.ite h.updClk h)
  · exact .next (.ite h.addLate h)

theorem execMuteRelease_keeps (h : s.Keeps q w) : NextKeeps q w (execMuteRelease s) := .next h.updClk

theorem execMuteTimeout_keeps (h : s.Keeps q w) : NextKeeps q w (execMuteTimeout s) := by
  unfold execMuteTimeout
  refine .ite ?_ (.next h)
  refine .next (.pumpAll (h.foldl fun _ _ hu => ?_))
  split
  · exact hu.logFault.abortCore
  · exact hu

theorem execFrequencyChange_keeps (h : s.Keeps q w) : NextKeeps q w (execFrequencyChange s) := by
  unfold execFrequencyChange
  split
  · exact .ite (.next h.updClk.addHold) (.next h)
  · exact .next h

theorem execPllLock_keeps (h : s.Keeps q w) : NextKeeps q w (execPllLock s) :=
  .ite (.next h.updClk.dropHold.dropHold.pumpAll) (.next h)

theorem State.Keeps.preview (h : s.Keeps q w) {c} : (s.preview c).Keeps q w := by
  unfold State.preview
  dsimp only
  split
  · refine .ite ?_ h
    split
    · exact h.spFault
    · exact h.updSp.updClk
  · exact h

theorem execBowgPreview_keeps (h : s.Keeps q w) {core} : NextKeeps q w (execBowgPreview core s) := .next h.preview

/-! ### Live fields -/

theorem State.Keeps.applyLive (h : s.Keeps q w) {p} : (s.applyLive p).Keeps q w :=
  .ite h.same (.ite h.updPower (.ite h.updPower (.ite h.updPort h)))

theorem State.Keeps.takeLive (h : s.Keeps q w) {p} : (s.takeLive p).Keeps q w := .ite h.applyLive h.applyLive.updMaint

theorem State.Keeps.pkgLiveIn (h : s.Keeps q w) : s.pkgLiveIn.Keeps q w := by
  unfold State.pkgLiveIn
  refine .update (h.foldl fun _ _ hu => ?_)
  exact hu.takeLive

theorem State.Keeps.liveReg (h : s.Keeps q w) {used o v} : (s.liveReg used o v).Keeps q w := .ite h.same h.takeLive

/-! ### The serving controller -/

theorem State.Keeps.liveWrite (h : s.Keeps q w) {g o v} : (s.liveWrite g o v).Keeps q w := h.updGroup

theorem State.Keeps.liveIn (h : s.Keeps q w) {g} : (s.liveIn g).Keeps q w := h.updGroup

theorem State.Keeps.rollBudgets (h : s.Keeps q w) {g} : (s.rollBudgets g).Keeps q w := by
  unfold State.rollBudgets
  exact h.updServe

theorem State.Keeps.answerRequest (h : s.Keeps q w) {r code final step} : (s.answerRequest r code final step).Keeps q w :=
  .ite h h.complete

theorem State.Keeps.admitOne (h : s.Keeps q w) {g r slot} : (s.admitOne g r slot).Keeps q w := by
  unfold State.admitOne
  refine .ite h.updServe.answerRequest (.ite ?_ ?_)
  · split
    · exact h
    · exact h.updServe.answerRequest
  · refine .answerRequest ?_
    split
    · exact h.updServe
    · exact h

theorem State.Keeps.admission (h : s.Keeps q w) {g} : (s.admission g).Keeps q w := by
  unfold State.admission
  refine .updServe (.foldl ?_ fun _ _ hu => ?_)
  · refine h.foldl fun _ _ hu => ?_
    exact hu.admitOne
  · exact hu.admitOne

theorem State.Keeps.startSpill (h : s.Keeps q w) {g e sub} : (s.startSpill g e sub).Keeps q w := .ite h.updServe h.updServe.ctl

theorem State.Keeps.startReload (h : s.Keeps q w) {g e sub} : (s.startReload g e sub).Keeps q w := by
  unfold State.startReload
  refine .ite ?_ ?_
  · refine .endReq (.updReq ?_)
    split
    · exact h.complete
    · exact h
  · split
    · exact h.updReq
    · exact .ite h.updReq.giveGroups h.updReq.giveGroups.ctl

theorem Sel.offer_keeps {x : Sel} (h : x.s.Keeps q w) {g batch pre e} : (x.offer g batch pre e).s.Keeps q w := by
  unfold Sel.offer
  extract_lets r count n rows
  split
  · exact h
  · split
    · exact h
    · exact h.giveGroups.updReq

theorem Sel.offers_keeps {α : Type} {x : Sel} {l : List α} (h : x.s.Keeps q w) {g batch pre} {e : α → Nat} :
    (l.foldl (fun x p => x.offer g batch pre (e p)) x).s.Keeps q w := by
  induction l generalizing x with
  | nil => exact h
  | cons a l ih => exact ih (Sel.offer_keeps h)

theorem State.Keeps.select (h : s.Keeps q w) {g v} : (s.select g v).1.Keeps q w := by
  unfold State.select
  split
  next batch ptok _ _ _ =>
    have h0 : (⟨s, [], 0, ptok, [], false⟩ : Sel).s.Keeps q w := h
    dsimp only
    split
    · exact Sel.offers_keeps (Sel.offers_keeps h0)
    · split
      · exact (Sel.offers_keeps (Sel.offers_keeps h0)).startSpill
      · split
        · exact (Sel.offers_keeps (Sel.offers_keeps h0)).endReq
        · exact Sel.offers_keeps (Sel.offers_keeps h0)

theorem State.Keeps.swapPoint (h : s.Keeps q w) {g} : (s.swapPoint g).Keeps q w := by
  unfold State.swapPoint
  refine .ite (.ite ?_ ?_) h
  · refine .releaseEvery (.ite ?_ ?_)
    · refine .updGroup (h.foldl fun _ _ hu => ?_)
      exact .ite hu.endReq hu
    · refine .ctl (.updGroup (h.foldl fun _ _ hu => ?_))
      exact .ite hu.endReq hu
  · refine .updGroup (h.foldl fun _ _ hu => ?_)
    exact .ite hu.endReq hu

theorem State.Keeps.sendBatch (h : s.Keeps q w) {g} : (s.sendBatch g).Keeps q w := .ite h (.ite h.same h.same.ctl)

theorem State.Keeps.launch (h : s.Keeps q w) {g} : (s.launch g).Keeps q w := by
  unfold State.launch
  refine .ite (.sendBatch (.ite h h.ctl)) (.ite (.stopStep (.logFault (.ite h h.ctl))) ?_)
  exact .ite (.stopStep (.logFault (.ite h h.ctl))) (.sendBatch (.hostWrite (.ite h h.ctl)))

theorem State.Keeps.freqAtStart (h : s.Keeps q w) : s.freqAtStart.Keeps q w := by
  unfold State.freqAtStart
  refine .updPower ?_
  split
  · exact h.decideFreq
  · exact h

theorem State.Keeps.begin (h : s.Keeps q w) {g r} : (s.begin g r).Keeps q w := h.pkgLiveIn.freqAtStart.updStep.beginDecode

theorem State.Keeps.startServing (h : s.Keeps q w) {g v rows} : (s.startServing g v rows).Keeps q w := h.updGroup.begin.launch

theorem State.Keeps.admissionBoundary (h : s.Keeps q w) {g} : (s.admissionBoundary g).Keeps q w := by
  unfold State.admissionBoundary
  refine h.foldl fun _ _ hu => ?_
  exact .ite hu.endReq hu

theorem State.Keeps.noStart (h : s.Keeps q w) {g} : (s.noStart g).Keeps q w := by
  unfold State.noStart
  refine h.foldl fun _ _ hu => ?_
  exact .ite hu.endReq hu

theorem State.Keeps.noGeneration (h : s.Keeps q w) {g} : (s.noGeneration g).Keeps q w := by
  unfold State.noGeneration
  refine .ite h (h.foldl fun _ _ hu => ?_)
  exact .ite hu.endReq hu

theorem State.Keeps.retryReloads (h : s.Keeps q w) {g} : (s.retryReloads g).Keeps q w := by
  unfold State.retryReloads
  refine h.foldl fun _ _ hu => ?_
  exact .ite hu.startReload hu

theorem State.Keeps.servePoint (h : s.Keeps q w) {g} : (s.servePoint g).Keeps q w := by
  unfold State.servePoint
  extract_lets a b v
  have hb : b.Keeps q w := h.liveIn.admissionBoundary.swapPoint.rollBudgets.noGeneration.retryReloads.admission
  refine .ite ?_ hb.noStart
  have hsel : (b.select g v).1.Keeps q w := hb.select
  split
  next u e =>
    rw [e] at hsel
    exact hsel.noStart
  next u rows _ e =>
    rw [e] at hsel
    exact hsel.startServing

/-! ### The commit of a step -/

theorem State.Keeps.readProposal (h : s.Keeps q w) {g} : (s.readProposal g).2.Keeps q w := by
  unfold State.readProposal
  split
  · exact h
  · dsimp only
    split
    · exact h.spFault
    · dsimp only
      exact h.updSp

theorem State.Keeps.releaseBlock (h : s.Keeps q w) {g n} : (s.releaseBlock g n).Keeps q w := by
  unfold State.releaseBlock
  split
  · exact h
  · exact h.updSp

theorem State.Keeps.chargeTokens (h : s.Keeps q w) {g cust n} : (s.chargeTokens g cust n).Keeps q w := by
  unfold State.chargeTokens
  exact h.updServe

theorem State.Keeps.feedToken (h : s.Keeps q w) {g id pos t} : (s.feedToken g id pos t).Keeps q w := .ite h h.updServe

theorem State.Keeps.tokenOut (h : s.Keeps q w) {g e pos drafts l} : (s.tokenOut g e pos drafts l).Keeps q w := by
  induction l generalizing s pos drafts with
  | nil => exact h
  | cons t l ih => exact ih h.reqRecord.feedToken

theorem State.Keeps.badProposal (h : s.Keeps q w) {g e} : (s.badProposal g e).Keeps q w :=
  .ite (.ite h h.endRecord.updReq) h.endReq

theorem State.Keeps.commitTokens (h : s.Keeps q w) {g b base p rows} : (s.commitTokens g b base p rows).Keeps q w :=
  .ite h.chargeTokens.tokenOut.updReq.updStep h.chargeTokens.tokenOut.updReq.updStep.stopReq

theorem State.Keeps.commitRow (h : s.Keeps q w) {g b} : (s.commitRow g b).Keeps q w := by
  unfold State.commitRow
  refine .ite (.ite h.badProposal h) (.ite h.updReq (.ite h ?_))
  split
  next u e =>
    have hu := h.readProposal.of_eq e
    exact .ite hu.updStep.badProposal hu.updStep
  next u e =>
    have hu := h.readProposal.of_eq e
    exact .ite hu.releaseBlock (.ite hu.releaseBlock.commitTokens hu.releaseBlock.badProposal)

theorem State.Keeps.commitCycle (h : s.Keeps q w) {g} : (s.commitCycle g).Keeps q w := by
  unfold State.commitCycle
  dsimp only
  split
  · exact .ite h.commitRow.updStep (.ite h.commitRow.updStep.endCommit h.commitRow.updStep.updServe)
  · split
    · exact .ite (.endCommit (.updServe (.ite h.reqRecord h))) (.updServe (.ite h.reqRecord h))
    · exact h.endCommit

theorem State.Keeps.cancelReq (h : s.Keeps q w) {g func id} : (s.cancelReq g func id).2.Keeps q w := by
  unfold State.cancelReq
  split
  · exact h
  · split
    · exact h
    · split
      · exact h.updReq
      · split
        · split
          · exact h
          · exact h.updReq
        · exact h.endReq

/-! ### Routes, epochs, lost packages -/

theorem State.Keeps.linkEvent (h : s.Keeps q w) {p cls} : (s.linkEvent p cls).Keeps q w := h.raise

theorem State.Keeps.setRoute (h : s.Keeps q w) {i r} : (s.setRoute i r).Keeps q w := h.same

theorem State.Keeps.shapeTaken (h : s.Keeps q w) : s.shapeTaken.Keeps q w := by
  unfold State.shapeTaken
  exact h.same.updMaint

theorem State.Keeps.stageSlot (h : s.Keeps q w) {common fence} : (s.stageSlot common fence).Keeps q w := h.setRoute

theorem State.Keeps.formAgain (h : s.Keeps q w) {g} : (s.formAgain g).Keeps q w := h.mgt.mgt.mgt

theorem State.Keeps.switchSlot (h : s.Keeps q w) : s.switchSlot.Keeps q w := by
  unfold State.switchSlot
  refine .ite ?_ h
  refine h.setRoute.setRoute.updNet.shapeTaken.foldl fun _ _ hu => ?_
  exact hu.formAgain.requestRecovery

theorem State.Keeps.dropCells (h : s.Keeps q w) {p} : (s.dropCells p).2.Keeps q w :=
  h.cores_of fun hw => by
    simp only [State.dropCells]
    rw [List.all_map]
    exact h.cores hw

theorem State.Keeps.purgeOld (h : s.Keeps q w) : s.purgeOld.Keeps q w := by
  unfold State.purgeOld
  split
  · exact h
  · refine State.Keeps.foldl h.dropCells fun _ _ hu => ?_
    exact hu.unroute

theorem State.Keeps.retireSlot (h : s.Keeps q w) : s.retireSlot.Keeps q w := by
  unfold State.retireSlot
  split
  · exact h.setRoute
  · exact h

theorem State.Keeps.updEpoch (h : s.Keeps q w) {f} : (s.updEpoch f).Keeps q w := h.updNet

theorem State.Keeps.startEpoch (h : s.Keeps q w) {shape fence} : (s.startEpoch shape fence).Keeps q w :=
  h.updNet.updEpoch.mgt.stageSlot

theorem State.Keeps.epochDue (h : s.Keeps q w) : s.epochDue.Keeps q w := .ite h.startEpoch h

theorem State.Keeps.declareLost (h : s.Keeps q w) {p} : (s.declareLost p).Keeps q w := by
  unfold State.declareLost
  refine .ite h (.ite ?_ ?_)
  · refine .epochDue (.requestRecovery (.ite ?_ ?_))
    · refine .logFault (.foldl ?_ fun _ _ hu => ?_)
      · refine .foldl ?_ fun _ _ hu => ?_
        · refine h.updNet.foldl fun _ _ hu => ?_
          exact hu.logFault.stopStep
        · exact hu.logFault
      · exact .ite hu.writeEnd hu
    · refine .foldl ?_ fun _ _ hu => ?_
      · refine .foldl ?_ fun _ _ hu => ?_
        · refine h.updNet.foldl fun _ _ hu => ?_
          exact hu.logFault.stopStep
        · exact hu.logFault
      · exact .ite hu.writeEnd hu
  · refine .foldl ?_ fun _ _ hu => ?_
    · refine .foldl ?_ fun _ _ hu => ?_
      · refine h.updNet.foldl fun _ _ hu => ?_
        exact hu.logFault.stopStep
      · exact hu.logFault
    · exact .ite hu.writeEnd hu

theorem State.Keeps.silentReport (h : s.Keeps q w) {p by_} : (s.silentReport p by_).Keeps q w :=
  .ite (.ite h.updNet.declareLost h.updNet) h

theorem State.Keeps.declareSilent (h : s.Keeps q w) {p} : (s.declareSilent p).Keeps q w := by
  unfold State.declareSilent
  dsimp only
  split
  · exact .ite h.updPort.ctl.silentReport h.updPort.ctl
  · exact h.updPort.ctl

theorem State.Keeps.portDown (h : s.Keeps q w) {p} : (s.portDown p).Keeps q w := by
  unfold State.portDown
  have hu := (h.updPort (p := p) (f := fun k => { k with outq := [] })).dropCells (p := fun x => x.port == p)
  refine .ite (.ite (.declareSilent ?_) ?_) hu.updPort
  · exact hu.updPort.logFault.linkEvent.foldl fun _ _ hv => hv.noteDiscard
  · exact hu.updPort.logFault.linkEvent.foldl fun _ _ hv => hv.noteDiscard

/-! ### Swaps and what leaves for other packages -/

theorem State.Keeps.saveSettings (h : s.Keeps q w) : s.saveSettings.Keeps q w := h.updMaint

theorem State.Keeps.retainedChanged (h : s.Keeps q w) : s.retainedChanged.Keeps q w := h.updMaint

theorem State.Keeps.endActivity (h : s.Keeps q w) : s.endActivity.Keeps q w := by
  unfold State.endActivity
  dsimp only
  split
  · exact .epochDue (.startActivity (.updMaint (.ite h.saveSettings h)))
  · exact .updMaint (.ite h.saveSettings h)

theorem State.Keeps.spillBoundary (h : s.Keeps q w) {g} : (s.spillBoundary g).Keeps q w :=
  .ite (.ite h.updSpill.endActivity h.updSpill) h

theorem State.Keeps.endSwap (h : s.Keeps q w) {g status} : (s.endSwap g status).Keeps q w := by
  unfold State.endSwap
  refine .ite ?_ ?_
  · refine .endActivity (.updSwap ?_)
    split
    · exact h.complete
    · exact h
  · refine .updSwap ?_
    split
    · exact h.complete
    · exact h

theorem State.Keeps.allLoaded (h : s.Keeps q w) {g} : (s.allLoaded g).Keeps q w := .ite h.clearParity.updGroup.endSwap h

theorem State.Keeps.checkLoaded (h : s.Keeps q w) {g} : (s.checkLoaded g).Keeps q w :=
  .ite (.ite h.updSwap.allLoaded h.clearParity.updGroup.endSwap.ctl) h

theorem State.Keeps.postTo (h : s.Keeps q w) {vc n way} : (s.postTo vc n way).Keeps q w := by
  unfold State.postTo
  split
  · exact .ite h.queueCell h
  · exact .ite h h.forward

theorem State.Keeps.post (h : s.Keeps q w) : s.post.Keeps q w := by
  unfold State.post
  refine .update (.foldl ?_ fun _ _ hu => ?_)
  · refine h.foldl fun _ _ hu => ?_
    refine hu.foldl fun _ _ hu1 => ?_
    split
    · refine hu1.foldl fun _ _ hu2 => ?_
      exact hu2.forward
    · exact hu1.postTo
  · refine hu.foldl fun _ _ hu1 => ?_
    exact hu1.postTo

theorem State.Keeps.idle (h : s.Keeps q w) : s.idle.Keeps q w := by
  unfold State.idle
  refine .post (.cycle (h.same.foldl fun _ _ hu => ?_))
  exact hu.checkLoaded

/-! ### Commands of steps and requests -/

theorem State.Keeps.installReqs (h : s.Keeps q w) {g f sub bs} : (s.installReqs g f sub bs).1.Keeps q w := by
  unfold State.installReqs
  suffices ∀ x : State × List BatchRow, x.1.Keeps q w → (bs.foldl _ x).1.Keeps q w from this (s, []) h
  induction bs with
  | nil => exact fun _ hx => hx
  | cons b bs ih => exact fun x hx => ih _ hx.updServe.giveGroups

theorem State.Keeps.refuseStep (h : s.Keeps q w) {g x code step} : (s.refuseStep g x code step).Keeps q w := h.complete.updServe

theorem State.Keeps.startQueued (h : s.Keeps q w) {g} : (s.startQueued g).Keeps q w := by
  unfold State.startQueued
  dsimp only
  split
  · exact h
  · refine .ite h (.ite h.refuseStep (.ite h.refuseStep (.ite h.refuseStep (.ite h (.ite h.refuseStep ?_)))))
    exact h.installReqs.updGroup.begin.launch

theorem State.Keeps.point (h : s.Keeps q w) {g} : (s.point g).Keeps q w := by
  unfold State.point
  refine .ite h.liveIn.swapPoint.startQueued (.ite h.servePoint ?_)
  exact h.liveIn.admissionBoundary.swapPoint.rollBudgets.noGeneration.retryReloads.admission.startQueued

theorem execAdmissionPoint_keeps (h : s.Keeps q w) {slot} : NextKeeps q w (execAdmissionPoint slot s) := by
  unfold execAdmissionPoint
  refine .ite (.ite (.next (.updGroup (.ite h.spillBoundary h))) ?_) (.next (.ite h.spillBoundary h))
  exact .next (.checkLoaded (.point (.updGroup (.ite h.spillBoundary h))))

theorem execStepStartReceived_keeps (h : s.Keeps q w) {slot num entry voicing seed params replay lastOld} :
    NextKeeps q w (execStepStartReceived slot num entry voicing seed params replay lastOld s) :=
  .ite (.next h.spillBoundary.updSwap.begin) (.next h)

theorem State.Keeps.answerDir (h : s.Keeps q w) {j} : (s.answerDir j).Keeps q w := h.complete

theorem State.Keeps.applyHostDir (h : s.Keeps q w) {start n} : (State.applyHostDir start n s).Keeps q w := by
  induction n generalizing s with
  | zero => exact h
  | succ n ih =>
    unfold State.applyHostDir
    split
    · exact h
    · refine .ite h ?_
      split
      · exact ih (State.Keeps.answerDir h.same)
      · exact .ite (ih (State.Keeps.answerDir h.dirUpdate.same)) (ih h.dirUpdate.same)

theorem execTickZero_keeps (h : s.Keeps q w) {slot} : NextKeeps q w (execTickZero slot s) := by
  unfold execTickZero
  refine .ite ?_ (.next h)
  refine .next (.pumpAll (.checkFinished (.checkLoaded (.foldl ?_ fun _ _ hu => ?_))))
  · refine .updStep (.update (h.finishMove.applyHostDir.foldl fun _ _ hu => ?_))
    exact hu.updCtl
  · exact hu.retryWaiting

theorem execAdvance_keeps (h : s.Keeps q w) {slot group} : NextKeeps q w (execAdvance slot group s) :=
  .ite (.next h.advanceGen.ctl) (.next h)

theorem execAdvanceAck_keeps (h : s.Keeps q w) {slot place group} : NextKeeps q w (execAdvanceAck slot place group s) :=
  .next h.updServe

theorem State.Keeps.writeSpill (h : s.Keeps q w) {g id groups} : (s.writeSpill g id groups).Keeps q w := by
  unfold State.writeSpill
  refine h.foldl fun _ _ hu => ?_
  exact hu.updSec.update

theorem State.Keeps.spillDone (h : s.Keeps q w) {g e} : (s.spillDone g e).Keeps q w := by
  unfold State.spillDone
  refine .ite ?_ ?_
  · refine .ite ?_ ?_
    · refine .updReq (.updReq (.freeGroups ?_))
      split
      · exact .ite h h.complete
      · exact h
    · refine .endReq (.updReq (.freeGroups ?_))
      split
      · exact .ite h h.complete
      · exact h
  · refine .ite ?_ ?_
    · refine .startReload (.updReq (.freeGroups ?_))
      split
      · exact .ite h h.complete
      · exact h
    · refine .updReq (.freeGroups ?_)
      split
      · exact .ite h h.complete
      · exact h

theorem execSpillRecordsWritten_keeps (h : s.Keeps q w) {slot place id groups oldest newest full} :
    NextKeeps q w (execSpillRecordsWritten slot place id groups oldest newest full s) := by
  unfold execSpillRecordsWritten
  refine .ite (.next h) (.ite (.ite (.next h.writeSpill.ctl) (.next h)) ?_)
  split
  · exact .next h
  · refine .ite (.next ?_) (.next h)
    refine .ite (.spillDone (.updReq (.ite (.requestRecovery (.ite h.writeSpill h)) (.ite h.writeSpill h)))) ?_
    exact .updReq (.ite (.requestRecovery (.ite h.writeSpill h)) (.ite h.writeSpill h))

theorem State.Keeps.restorePage (h : s.Keeps q w) {g id p b} : (s.restorePage g id p b).2.Keeps q w := by
  unfold State.restorePage
  dsimp only
  split
  · exact h
  · split
    · exact h
    · split
      · exact h
      · exact h.updWs fun _ hm => WStore.wf_writeRows hm

theorem State.Keeps.restorePages (h : s.Keeps q w) {g id l bs} : (s.restorePages g id l bs).2.Keeps q w := by
  induction l generalizing s bs with
  | nil => exact h
  | cons p l ih =>
    cases bs with
    | nil => exact h
    | cons b bs =>
      unfold State.restorePages
      split
      next u e => exact ih (h.restorePage.of_eq e)
      next u e => exact h.restorePage.of_eq e

theorem State.Keeps.reloadDone (h : s.Keeps q w) {g e code} : (s.reloadDone g e code).Keeps q w := by
  unfold State.reloadDone
  refine .ite ?_ ?_
  · refine .endReq (.updServe (.updReq ?_))
    split
    · exact .ite h h.complete
    · exact h
  · refine .ite ?_ ?_
    · refine .ite ?_ ?_
      · refine .updReq (.updServe (.updReq ?_))
        split
        · exact .ite h h.complete
        · exact h
      · refine .endReq (.updServe (.updReq ?_))
        split
        · exact .ite h h.complete
        · exact h
    · refine .ite ?_ ?_
      · refine .updReq (.updServe (.updReq ?_))
        split
        · exact .ite h h.complete
        · exact h
      · refine .updReq (.updServe (.updReq ?_))
        split
        · exact .ite h h.complete
        · exact h

theorem execReloadComplete_keeps (h : s.Keeps q w) {slot place id groups records status} :
    NextKeeps q w (execReloadComplete slot place id groups records status s) := by
  unfold execReloadComplete
  refine .ite (.next h) (.ite (.ite (.next h.restorePages.ctl) (.next h)) ?_)
  split
  · exact .next h
  · refine .ite ?_ (.next h)
    split
    next code u e =>
      have hu : u.Keeps q w := by
        split at e
        · exact h.restorePages.of_eq e
        · exact h.of_eq e
      exact .next (.ite hu.updReq.reloadDone hu.updReq)

theorem execStepFinishedReport_keeps (h : s.Keeps q w) {slot place step budget report} :
    NextKeeps q w (execStepFinishedReport slot place step budget report s) := .ite (.next h.memberReported) (.next h)

theorem execRequestCommit_keeps (h : s.Keeps q w) {slot} : NextKeeps q w (execRequestCommit slot s) :=
  .ite (.next h.commitCycle) (.next h)

theorem execCancelRegister_keeps (h : s.Keeps q w) {slot} : NextKeeps q w (execCancelRegister slot s) := by
  unfold execCancelRegister
  dsimp only
  split
  · exact .next h.updServe.cancelReq.complete
  · exact .next h

/-! ### The soundpost -/

theorem State.Keeps.setMeasure (h : s.Keeps q w) {i v} : (s.setMeasure i v).Keeps q w := h.updSec

theorem State.Keeps.remeasure (h : s.Keeps q w) {i} : (s.remeasure i).Keeps q w := h.setMeasure

theorem State.Keeps.bootMeasures (h : s.Keeps q w) : s.bootMeasures.Keeps q w := by
  unfold State.bootMeasures
  refine h.foldl fun _ _ hu => ?_
  exact hu.updSec

theorem State.Keeps.securityEvent (h : s.Keeps q w) {p code} : (s.securityEvent p code).Keeps q w := h.security

theorem State.Keeps.oweSecurity (h : s.Keeps q w) {code} : (s.oweSecurity code).Keeps q w := .ite h.security h.updSec

theorem State.Keeps.payOwed (h : s.Keeps q w) : s.payOwed.Keeps q w := by
  unfold State.payOwed
  refine .ite ?_ h
  refine h.updSec.foldl fun _ _ hu => ?_
  exact hu.security

theorem State.Keeps.ringHost (h : s.Keeps q w) {f bits} : (s.ringHost f bits).Keeps q w :=
  .ite h.updFunc.touch.msix h.updFunc.touch

theorem State.Keeps.reply (h : s.Keeps q w) {who type status seq payload} :
    (s.reply who type status seq payload).Keeps q w := by
  unfold State.reply
  dsimp only
  split
  · exact h.updFunc
  · exact h.same

theorem State.Keeps.runStored (h : s.Keeps q w) : s.runStored.Keeps q w := h.updSec.bootMeasures

theorem State.Keeps.recordFailed (h : s.Keeps q w) {r} : (s.recordFailed r).Keeps q w := h.logFault.oweSecurity

theorem State.Keeps.bootSoundpost (h : s.Keeps q w) : s.bootSoundpost.Keeps q w :=
  .ite h.updSec.runStored h.updSec.updSec.updMaint

theorem State.Keeps.cancelAll (h : s.Keeps q w) {f g} : (s.cancelAll f g).Keeps q w := by
  unfold State.cancelAll
  refine h.updServe.foldl fun _ _ hu => ?_
  exact .ite hu (.ite hu.updReq.updReq hu.updReq.endReq)

theorem State.Keeps.functionReset (h : s.Keeps q w) {f} : (s.functionReset f).Keeps q w := by
  unfold State.functionReset
  refine .updFunc (h.foldl fun _ _ hu => ?_)
  exact .cancelAll (.ite hu.abortStep hu)

theorem State.Keeps.zeroPartition (h : s.Keeps q w) {p} : (s.zeroPartition p).Keeps q w := by
  unfold State.zeroPartition
  refine .updSec (.foldl (.foldl (.resetCores ?_) fun _ _ hu => ?_) fun _ _ hu => ?_)
  · exact h.foldl fun _ _ hu => .ite hu.abortStep hu
  · exact hu.updWs fun _ hm => WStore.wf_zeroRegions hm
  · exact hu.foldl fun _ _ hu1 => hu1.freeReq

theorem State.Keeps.askZeroing (h : s.Keeps q w) {arg} : (s.askZeroing arg).Keeps q w := .ite h.startActivity h.updMaint

theorem State.Keeps.spdm (h : s.Keeps q w) {r a} : (s.spdm r a).Keeps q w := h.same

theorem State.Keeps.zeroingDone (h : s.Keeps q w) {arg} : (s.zeroingDone arg).Keeps q w :=
  .ite h.zeroPartition.update.remeasure.spdm h.zeroPartition

/-! ### Images -/

theorem State.Keeps.dirInvalid (h : s.Keeps q w) : s.dirInvalid.Keeps q w := by
  unfold State.dirInvalid
  refine .dirRefetch (.touch (.update ?_))
  refine h.foldl fun _ _ hu => ?_
  exact hu.updWs fun _ hm => WStore.wf_write hm

theorem State.Keeps.installImage (h : s.Keeps q w) {m g} : (s.installImage m g).Keeps q w := by
  unfold State.installImage
  have hu : ((List.range s.n).foldl (fun t l => match t.physOf l with
      | none => t
      | some c => t.updCore c (fun x => { x with
          ws := ({ x.ws with regions := (planFor (s.group g).lead (m.plan s.n l)).zipIdx.map (fun (r : Region × Nat) => (r.2, r.1)) } :
            WStore).linearRecords
          sp := { x.sp with circ := (match m.circs.find? (fun (p : Nat × List Circ) => p.1 == l) with
            | some p => p.2 | none => []).zipIdx.map (fun (r : Circ × Nat) => (r.2, r.1)) }
          vec := { x.vec with
            progs := m.progs.zipIdx.map (fun (p : EProg × Nat) => (p.2, p.1))
            consts := Tab.setList 0 [] 0 (t.relocate m s.n l (s.group g).members).2 } })) s).Keeps q w := by
    refine h.foldl fun t l ht => ?_
    split
    · exact ht
    · refine ht.updCore fun x hx => ?_
      rw [Core.memWf_iff] at hx ⊢
      exact ⟨hx.1, (WStore.linearRecords_mem _).symm ▸ hx.2⟩
  exact .resetCores (.update (.ite hu hu.dirInvalid))

theorem State.Keeps.loadImage (h : s.Keeps q w) {m slot headerOk differ} : (s.loadImage m slot headerOk differ).2.2.Keeps q w := by
  unfold State.loadImage
  extract_lets u
  have hu : u.Keeps q w := by
    unfold u
    split
    · exact h.setMeasure
    · exact h
  split
  · exact hu
  · exact hu
  · exact .ite hu.installImage.updServe (.ite hu.installImage hu.installImage.updServe)

/-! ### Commands of loads and swaps -/

theorem execSwap_keeps (h : s.Keeps q w) {func manifest others} : NextKeeps q w (execSwap func manifest others s) := by
  unfold execSwap
  split
  · exact .next h
  · dsimp only
    split
    · exact .next h.popSub.answer
    · refine .ite (.next h.popSub.answer) ?_
      refine .ite (.next h.popSub.answer) (.ite (.next h.popSub.answer) (.ite (.next h.popSub.answer) ?_))
      exact .next (.ite h.popSub.setMeasure.startActivity.updSwap h.popSub.setMeasure.startActivity.updSwap.mgt)

theorem State.Keeps.allStaged (h : s.Keeps q w) {g} : (s.allStaged g).Keeps q w :=
  .ite (.ite (.checkLoaded (.releaseEvery (.ite h.updSwap h.updSwap.ctl))) h.updSwap) h

theorem execSwapStage_keeps (h : s.Keeps q w) {slot manifest section_} :
    NextKeeps q w (execSwapStage slot manifest section_ s) := by
  unfold execSwapStage
  refine .ite (.next h) (.ite (.next h.ctl) ?_)
  dsimp only
  split
  · exact .next (.ite h.endSwap h.ctl)
  · refine .ite (.next (.allStaged (.updSwap (.fetchChunks (.updSwap (.ite h h.startActivity)))))) ?_
    exact .next (.ctl (.setMeasure (.fetchChunks (.updSwap (.ite h h.startActivity)))))

theorem execStaged_keeps (h : s.Keeps q w) {slot place status} : NextKeeps q w (execStaged slot place status s) :=
  .ite (.ite (.next h.endSwap) (.ite (.next h) (.next h.updSwap.allStaged))) (.next h)

theorem execReleaseAll_keeps (h : s.Keeps q w) {slot} : NextKeeps q w (execReleaseAll slot s) :=
  .ite (.next h.updSwap.releaseEvery.checkLoaded) (.next h)

theorem execLoaded_keeps (h : s.Keeps q w) {slot place} : NextKeeps q w (execLoaded slot place s) :=
  .ite (.next h.updSwap.allLoaded) (.next h)

theorem execChunkReceived_keeps (h : s.Keeps q w) {slot chunk stream data} :
    NextKeeps q w (execChunkReceived slot chunk stream data s) := by
  unfold execChunkReceived
  dsimp only
  split
  · exact .next h
  · exact .ite (.next h) (.next (.ite h.updSwap.chunkArrived.checkLoaded h.updSwap.chunkArrived))

theorem execChunkTimeout_keeps (h : s.Keeps q w) {slot chunk stream} :
    NextKeeps q w (execChunkTimeout slot chunk stream s) := by
  unfold execChunkTimeout
  dsimp only
  split
  · exact .next h
  · exact .ite (.next h) (.next h.chunkFailed)

theorem State.Keeps.abandon (h : s.Keeps q w) {g} : (s.abandon g).Keeps q w := .ite h.refuse h.updServe.endSwap

theorem execAbandon_keeps (h : s.Keeps q w) {slot} : NextKeeps q w (execAbandon slot s) := .next (.ite h h.abandon)

theorem execParityValid_keeps (h : s.Keeps q w) {slot} : NextKeeps q w (execParityValid slot s) :=
  .next (.ite h h.updGroup.touch)

/-! ### Commands of routes and epochs -/

theorem execRouteInstall_keeps (h : s.Keeps q w) : NextKeeps q w (execRouteInstall s) :=
  .ite (.next h.updNet.refuse) (.next (.shapeTaken (.updNet (.setRoute (.ite h.setRoute h)))))

theorem State.Keeps.finishEpoch (h : s.Keeps q w) : s.finishEpoch.Keeps q w :=
  .ite h.retireSlot.ctl.updNet.endActivity h.retireSlot.ctl.updNet

theorem State.Keeps.nextEpoch (h : s.Keeps q w) {n} : (State.nextEpoch n s).Keeps q w := by
  induction n generalizing s with
  | zero => exact h
  | succ n ih =>
    unfold State.nextEpoch
    refine .ite ?_ h
    split
    · exact ih h.ctl.switchSlot.updEpoch
    · exact .ite h.updEpoch h.updEpoch.ctl
    · exact h.finishEpoch
    · exact h

theorem execRouteEpoch_keeps (h : s.Keeps q w) : NextKeeps q w (execRouteEpoch s) :=
  .ite (.next h.updNet.refuse) (.ite (.next h.updNet) (.next h.startActivity.startEpoch.nextEpoch))

theorem execEpochStage_keeps (h : s.Keeps q w) {common fence} : NextKeeps q w (execEpochStage common fence s) :=
  .ite (.next h) (.next h.stageSlot.ctl)

theorem execEpochAck_keeps (h : s.Keeps q w) {place} : NextKeeps q w (execEpochAck place s) := by
  unfold execEpochAck
  split
  · exact .next h
  · exact .next h
  · exact .next h.updEpoch.nextEpoch

theorem execEpochAckTimeout_keeps (h : s.Keeps q w) : NextKeeps q w (execEpochAckTimeout s) := by
  unfold execEpochAckTimeout
  dsimp only
  split
  · exact .next h
  · exact .next h
  · refine .ite (.next h.nextEpoch) (.ite ?_ ?_)
    · refine .next ?_
      split
      · exact h.updEpoch.mgt
      · exact h.updEpoch.ctl
      · exact h.updEpoch.ctl
    · refine .next (.nextEpoch (.updEpoch (h.foldl fun _ _ hu => ?_)))
      exact hu.declareLost

theorem execSwitch_keeps (h : s.Keeps q w) : NextKeeps q w (execSwitch s) := .ite (.next h) (.next h.switchSlot.ctl)

theorem execDrainQuery_keeps (h : s.Keeps q w) : NextKeeps q w (execDrainQuery s) := .ite (.next h) (.next h.ctl.updNet)

theorem execDrainWave_keeps (h : s.Keeps q w) {answers} : NextKeeps q w (execDrainWave answers s) :=
  .ite (.next h) (.ite (.next h.updNet.finishEpoch) (.next h.updNet.updEpoch.ctl))

theorem execPurge_keeps (h : s.Keeps q w) : NextKeeps q w (execPurge s) :=
  .ite (.ite (.next h.ctl.purgeOld.updEpoch.nextEpoch) (.next h)) (.next h.purgeOld.ctl)

theorem execRetire_keeps (h : s.Keeps q w) : NextKeeps q w (execRetire s) := .ite (.next h) (.next h.retireSlot)

/-! ### Commands of faults -/

theorem execMeshCrc_keeps (h : s.Keeps q w) {core lost} : NextKeeps q w (execMeshCrc core lost s) := by
  unfold execMeshCrc
  refine .ite (.next (.ite ?_ ?_)) (.next h)
  · refine .enterPassThrough (.coreFault (.update ?_))
    split
    · exact h.same
    · exact h
  · refine .coreFault (.update ?_)
    split
    · exact h.same
    · exact h

theorem execClockLockLoss_keeps (h : s.Keeps q w) {course} : NextKeeps q w (execClockLockLoss course s) :=
  .ite (.next h) (.next h.logFault.updClk.addHold)

theorem State.Keeps.resync (h : s.Keeps q w) : s.resync.Keeps q w := .ite h.updClk.dropHold.dropHold h

theorem execRelockTimeout_keeps (h : s.Keeps q w) : NextKeeps q w (execRelockTimeout s) :=
  .ite (.next h.clockFault.resync) (.next h)

theorem execTickDiverge_keeps (h : s.Keeps q w) : NextKeeps q w (execTickDiverge s) :=
  .ite (.next h) (.next h.clockFault.updClk.resync)

theorem execSupplyFault_keeps (h : s.Keeps q w) : NextKeeps q w (execSupplyFault s) :=
  .ite (.next h) (.next h.supplyFault.updPower)

theorem execStop_keeps (h : s.Keeps q w) {slot step status} : NextKeeps q w (execStop slot step status s) :=
  .ite (.next (.ctl (.ite h.closeStep.addHold h.endStep))) (.next h)

theorem State.Keeps.recoverStep (h : s.Keeps q w) {g e tokens done} : (s.recoverStep g e tokens done).Keeps q w :=
  h.updGroup.updServe.begin.launch

theorem execStepRetry_keeps (h : s.Keeps q w) {slot released} : NextKeeps q w (execStepRetry slot released s) := by
  unfold execStepRetry
  refine .ite ?_ (.next h)
  dsimp only
  split
  · refine .next (.recoverStep ?_)
    split
    · exact h.updServe
    · exact h
  · refine .ite ?_ ?_
    · refine .next (.updGroup ?_)
      split
      · exact h.updServe
      · exact h
    · refine .ite ?_ ?_
      · refine .next (.answerStep (.foldl ?_ fun _ _ hu => ?_))
        · refine .updStep (.updGroup ?_)
          split
          · exact h.updServe
          · exact h
        · exact .ite hu.endReq hu
      · refine .next (.launch (.begin (.updGroup ?_)))
        split
        · exact h.updServe
        · exact h

theorem execDiscard_keeps (h : s.Keeps q w) {core tid} : NextKeeps q w (execDiscard core tid s) := .next (.ite h h.discardHere)

theorem execHeartbeatSend_keeps (h : s.Keeps q w) : NextKeeps q w (execHeartbeatSend s) := by
  unfold execHeartbeatSend
  refine .next (h.foldl fun _ _ hu => ?_)
  exact .ite hu.ctl hu

theorem execHeartbeat_keeps (h : s.Keeps q w) {port compute} : NextKeeps q w (execHeartbeat port compute s) :=
  .next (.ite h.updPort.declareSilent h.updPort)

theorem execSilent_keeps (h : s.Keeps q w) {port} : NextKeeps q w (execSilent port s) := .next (.ite h.declareSilent h)

theorem State.Keeps.recoverLost (h : s.Keeps q w) {before p journal} : (s.recoverLost before p journal).Keeps q w :=
  .ite h.putRecover h

theorem execSilentReport_keeps (h : s.Keeps q w) {silent reporter journal} :
    NextKeeps q w (execSilentReport silent reporter journal s) := .next h.silentReport.recoverLost

theorem execPackageLost_keeps (h : s.Keeps q w) {place journal} : NextKeeps q w (execPackageLost place journal s) :=
  .ite (.next h.declareLost.recoverLost) (.next h)

theorem State.Keeps.retireCore (h : s.Keeps q w) {c} : (s.retireCore c).Keeps q w := by
  unfold State.retireCore
  extract_lets a b d
  have hb : b.Keeps q w := h.resetCores.cores_of fun hw => by
    have ha := (h.resetCores (cs := [c])).cores hw
    rw [List.all_eq_true] at ha ⊢
    exact fun p hp => ha p (List.mem_of_mem_filter hp)
  exact .remeasure (.ite (hb.updMaint.takeFree (n := 8)).logFault.logFault (hb.updMaint.takeFree (n := 8)).logFault)

theorem State.Keeps.interruptSwap (h : s.Keeps q w) {g} : (s.interruptSwap g).Keeps q w := .ite h.raise.updMaint h

theorem State.Keeps.reloadWeights (h : s.Keeps q w) {g} : (s.reloadWeights g).Keeps q w := by
  unfold State.reloadWeights
  refine .ite h.interruptSwap ?_
  split
  · exact h.interruptSwap.clearParity.updSwap.fetchChunks
  · exact .ite h.interruptSwap.updServe h.interruptSwap.updServe.endSwap

theorem execCoreRetirementAndReload_keeps (h : s.Keeps q w) {core journal} :
    NextKeeps q w (execCoreRetirementAndReload core journal s) := by
  unfold execCoreRetirementAndReload
  refine .ite (.ite (.next h.stopAll.retireCore.enterPassThrough) ?_) (.next h)
  refine .next (.putRecover (h.stopAll.retireCore.foldl fun _ _ hu => ?_))
  exact hu.installImage.reloadWeights

/-! ### Commands of the scrubber and the checkers -/

theorem State.Keeps.scrub (h : s.Keeps q w) {c flips raced} : (s.scrub c flips raced).Keeps q w := by
  unfold State.scrub
  extract_lets b known u rows v
  have hu : u.Keeps q w := h.updWs fun m hm => by rwa [WStore.upset_mem]
  have hv : v.Keeps q w := hu.updWs
  exact .ite hv (.ite hv.logFault.startRestore hv)

theorem execScrubVisit_keeps (h : s.Keeps q w) {core finds} : NextKeeps q w (execScrubVisit core finds s) :=
  .ite (.next h.scrub) (.next h)

theorem execScrubForcedAccess_keeps (h : s.Keeps q w) {core finds} : NextKeeps q w (execScrubForcedAccess core finds s) :=
  .ite (.next h.updClk.scrub) (.next h)

theorem State.Keeps.advanceEverywhere (h : s.Keeps q w) {g p} : (s.advanceEverywhere g p).Keeps q w := h.advanceGen.ctl

theorem execBlockRestoration_keeps (h : s.Keeps q w) {core block data} :
    NextKeeps q w (execBlockRestoration core block data s) := by
  have hw (a : Nat) (bs : List Byte) : (s.updWs core.val fun x => x.write a bs).Keeps q w :=
    h.updWs fun _ hm => WStore.wf_write hm
  unfold execBlockRestoration
  refine .ite (.next h) ?_
  split
  · split
    · exact .next (hw _ _).restored
    · split
      · exact .next (hw _ _).restored
      · have hf : (s.updWs core.val fun x => x.writeFormed block.val data.bytes).Keeps q w :=
          h.updWs fun _ hm => WStore.wf_writeFormed hm
        refine .ite ?_ (.next h)
        dsimp only
        split
        · exact .ite (.next hf.restored) (.next h.refetchChunk)
        · exact .next hf.restored
  · split
    · exact .next (hw _ _).restored.advanceEverywhere.putRecover
    · exact .next (hw _ _).restored
  · exact .next (hw _ _).restored
  · refine .ite (.next h) ?_
    split
    · exact .next (hw _ _).restored
    · exact .next h
  · refine .ite (.next h) ?_
    split
    · exact .next (hw _ _).restored
    · exact .next h
  · exact .next (hw _ _).restored

theorem execSpareRowSubstitution_keeps (h : s.Keeps q w) {core bank row} :
    NextKeeps q w (execSpareRowSubstitution core bank row s) :=
  .ite (.next h) (.ite (.next h.updWs.updMaint.logFault) (.next h.updWs.askRetire))

theorem execArbitrationOutcome_keeps (h : s.Keeps q w) {core v1 v2} : NextKeeps q w (execArbitrationOutcome core v1 v2 s) := by
  unfold execArbitrationOutcome
  dsimp only
  split
  · exact .next h
  · split
    · refine .next ?_
      split
      · exact h.updDet.dropHold.coreFault.transient.checkFinished.pumpAll
      · exact h.updDet.dropHold.coreFault.transient.pumpAll
    · refine .ite ?_ ?_
      · refine .next ?_
        split
        · exact h.updDet.dropHold.updDet.coreFault.askRetire.checkFinished.pumpAll
        · exact h.updDet.dropHold.updDet.coreFault.askRetire.pumpAll
      · refine .next ?_
        split
        · refine .pumpAll (.checkFinished (.ite ?_ ?_))
          · refine .updDet (.logFault (h.updDet.dropHold.updDet.foldl fun _ _ hu => ?_))
            exact hu.updLane
          · refine .askRetire (.logFault (h.updDet.dropHold.updDet.foldl fun _ _ hu => ?_))
            exact hu.updLane
        · refine .pumpAll (.ite ?_ ?_)
          · refine .updDet (.logFault (h.updDet.dropHold.updDet.foldl fun _ _ hu => ?_))
            exact hu.updLane
          · refine .askRetire (.logFault (h.updDet.dropHold.updDet.foldl fun _ _ hu => ?_))
            exact hu.updLane
    · refine .next ?_
      split
      · exact h.updDet.dropHold.coreFault.transient.checkFinished.pumpAll
      · exact h.updDet.dropHold.coreFault.transient.pumpAll
    · refine .next ?_
      split
      · exact h.updDet.dropHold.coreFault.askRetire.checkFinished.pumpAll
      · exact h.updDet.dropHold.coreFault.askRetire.pumpAll
    · refine .next ?_
      split
      · refine .pumpAll (.checkFinished ?_)
        split
        · exact h.updDet.dropHold.coreFault.askRetire.askRetire
        · exact h.updDet.dropHold.coreFault.askRetire
      · refine .pumpAll ?_
        split
        · exact h.updDet.dropHold.coreFault.askRetire.askRetire
        · exact h.updDet.dropHold.coreFault.askRetire

theorem State.Keeps.sampleBad (h : s.Keeps q w) {c x} : (s.sampleBad c x).Keeps q w := h.logFault.askRetire

theorem execSampleReferenceCheck_keeps (h : s.Keeps q w) {core} : NextKeeps q w (execSampleReferenceCheck core s) := by
  unfold execSampleReferenceCheck
  dsimp only
  split
  · exact .next h
  · exact .next (.ite h.updLane h.updLane.sampleBad)

theorem execDroneVisit_keeps (h : s.Keeps q w) {core vectors finds} : NextKeeps q w (execDroneVisit core vectors finds s) := by
  unfold execDroneVisit
  refine .ite (.next h) ?_
  have hu : (s.updSp core.val fun m => m.upset (finds.upsets.map (fun u => (u.1.val, u.2.1, u.2.2)))).Keeps q w :=
    h.updSp fun m hm => by rwa [SPad.upset_mem]
  refine .ite (.next hu.updDet.updSp.updLane) (.next (.foldl (.ite hu.updDet hu.updDet.logFault.askRetire) fun _ _ hv => ?_))
  exact hv.sampleBad

/-! ### Optical ports -/

theorem State.Keeps.rxCount (h : s.Keeps q w) {p i n} : (s.rxCount p i n).Keeps q w := h.updPort

theorem State.Keeps.txCount (h : s.Keeps q w) {p i n} : (s.txCount p i n).Keeps q w := h.updPort

theorem State.Keeps.updLaser (h : s.Keeps q w) {k f} : (s.updLaser k f).Keeps q w := h.same

theorem State.Keeps.laserEnable (h : s.Keeps q w) {k} : (s.laserEnable k).Keeps q w := by
  unfold State.laserEnable
  exact h.updLaser

theorem State.Keeps.bringUp (h : s.Keeps q w) {p} : (s.bringUp p).Keeps q w := .ite h.updPort h

theorem State.Keeps.enterUp (h : s.Keeps q w) {p} : (s.enterUp p).Keeps q w := h.updPort.linkEvent

theorem State.Keeps.retrain (h : s.Keeps q w) {p} : (s.retrain p).Keeps q w := h.updPort.rxCount.txCount

theorem State.Keeps.replay (h : s.Keeps q w) {p} : (s.replay p).Keeps q w := .ite h.updPort.txCount.retrain h.updPort.txCount

theorem State.Keeps.sessionDown (h : s.Keeps q w) {p} : (s.sessionDown p).Keeps q w := h.portDown.securityEvent

theorem State.Keeps.retireDue (h : s.Keeps q w) {p} : (s.retireDue p).Keeps q w := .ite h.updPort.mgt h

theorem State.Keeps.frameFields (h : s.Keeps q w) {p f} : (s.frameFields p f).Keeps q w := by
  unfold State.frameFields
  refine .ite ?_ ?_
  · refine .ite ?_ ?_
    · refine .portDown (.updPort (.ite ?_ ?_))
      · refine .replay (.updPort (.retireDue ?_))
        split
        · exact h.updPort
        · exact h
      · refine .updPort (.retireDue ?_)
        split
        · exact h.updPort
        · exact h
    · refine .ite ?_ ?_
      · refine .ite ?_ ?_
        · refine .txCount (.updPort (.updPort (.ite ?_ ?_)))
          · refine .replay (.updPort (.retireDue ?_))
            split
            · exact h.updPort
            · exact h
          · refine .updPort (.retireDue ?_)
            split
            · exact h.updPort
            · exact h
        · refine .updPort (.updPort (.ite ?_ ?_))
          · refine .replay (.updPort (.retireDue ?_))
            split
            · exact h.updPort
            · exact h
          · refine .updPort (.retireDue ?_)
            split
            · exact h.updPort
            · exact h
      · refine .updPort (.ite ?_ ?_)
        · refine .replay (.updPort (.retireDue ?_))
          split
          · exact h.updPort
          · exact h
        · refine .updPort (.retireDue ?_)
          split
          · exact h.updPort
          · exact h
  · refine .ite ?_ ?_
    · refine .replay (.updPort (.retireDue ?_))
      split
      · exact h.updPort
      · exact h
    · refine .updPort (.retireDue ?_)
      split
      · exact h.updPort
      · exact h

theorem State.Keeps.startEpisode (h : s.Keeps q w) {p} : (s.startEpisode p).Keeps q w := .ite h h.updPort.rxCount

theorem State.Keeps.releaseCells (h : s.Keeps q w) {p limited cells} : (s.releaseCells p limited cells).Keeps q w := by
  unfold State.releaseCells
  refine .pumpFabric (h.foldl fun _ _ hu => ?_)
  exact .ite (.ite hu.updNet hu) (.forward (.ite hu.updNet hu))

theorem State.Keeps.dataFrame (h : s.Keeps q w) {p f marks} : (s.dataFrame p f marks).Keeps q w := by
  unfold State.dataFrame
  refine .ite (.securityEvent (.portDown (.ite h.rxCount.updPort h.updPort))) ?_
  split
  · exact .startEpisode (.ite h.rxCount.updPort h.updPort)
  · refine .ite (.releaseCells (.updPort (.ite h.rxCount.updPort h.updPort))) ?_
    exact .ite (.ite h.rxCount.updPort h.updPort) (.startEpisode (.ite h.rxCount.updPort h.updPort))

theorem State.Keeps.takeFrame (h : s.Keeps q w) {p bs good marks} : (s.takeFrame p bs good marks).Keeps q w := by
  unfold State.takeFrame
  refine .ite (.ite (.startEpisode (.ite h h.rxCount)) (.ite h h.rxCount)) ?_
  refine .ite (.frameFields (.ite h h.rxCount)) (.ite (.dataFrame (.frameFields (.ite h h.rxCount))) ?_)
  refine .ite (.startEpisode (.frameFields (.ite h h.rxCount))) ?_
  exact .pumpFabric (.frameFields (.ite h h.rxCount))

theorem execFrameReceived_keeps (h : s.Keeps q w) {port words chans marks} :
    NextKeeps q w (execFrameReceived port words chans marks s) := by
  unfold execFrameReceived
  refine .ite (.next h) ?_
  dsimp only
  split
  · exact .next h.updPort.rxCount.rxCount
  · exact .next h.updPort.rxCount.rxCount.updPort.takeFrame

theorem State.Keeps.sendFrame (h : s.Keeps q w) {p f} : (s.sendFrame p f).Keeps q w := h.updPort.update

theorem execFrameTransmit_keeps (h : s.Keeps q w) {port} : NextKeeps q w (execFrameTransmit port s) := by
  unfold execFrameTransmit
  refine .ite (.next h) (.ite (.next h.same) (.ite (.next h.updPort.updPort.sendFrame) ?_))
  split
  · exact .next h.updPort.updPort.updPort.sendFrame
  · refine .ite (.next h.updPort.updPort.sendFrame) (.ite (.next h.updPort.updPort.sendFrame) ?_)
    refine .next (.ite h.updPort.updPort.updPort.sendFrame.sessionDown ?_)
    exact h.updPort.updPort.updPort.sendFrame.pumpFabric

theorem execReplayTimeout_keeps (h : s.Keeps q w) {port} : NextKeeps q w (execReplayTimeout port s) := .next (.ite h.replay h)

theorem execLaneDrop_keeps (h : s.Keeps q w) {port lane} : NextKeeps q w (execLaneDrop port lane s) :=
  .ite (.next (.ite h.updPort.rxCount.portDown h.updPort.rxCount)) (.next h)

theorem execLaserFault_keeps (h : s.Keeps q w) {die} : NextKeeps q w (execLaserFault die s) :=
  .ite (.next (.ite h.updLaser.portDown.portDown h.updLaser.portDown.portDown.linkEvent)) (.next h)

theorem execLaserInputGood_keeps (h : s.Keeps q w) {die} : NextKeeps q w (execLaserInputGood die s) :=
  .ite (.next h.updLaser.bringUp.bringUp) (.next h)

theorem State.Keeps.portEnable (h : s.Keeps q w) {p on} : (s.portEnable p on).Keeps q w :=
  .ite h.updPort.laserEnable.bringUp h.updPort.laserEnable.portDown

theorem execPortEnable_keeps (h : s.Keeps q w) {port on} : NextKeeps q w (execPortEnable port on s) :=
  .next h.portEnable.updMaint

theorem execSignalPresent_keeps (h : s.Keeps q w) {port lanes} : NextKeeps q w (execSignalPresent port lanes s) :=
  .next (.ite h.updPort h)

theorem execEqualisationConverged_keeps (h : s.Keeps q w) {port lanes} :
    NextKeeps q w (execEqualisationConverged port lanes s) := .ite (.next (.ite h.updPort.portDown h.updPort)) (.next h)

theorem execAlignmentLock_keeps (h : s.Keeps q w) {port} : NextKeeps q w (execAlignmentLock port s) :=
  .ite (.next h.updPort) (.ite (.next h.updPort) (.next h))

theorem execHello_keeps (h : s.Keeps q w) {port rec_} : NextKeeps q w (execHello port rec_ s) := by
  unfold execHello
  refine .ite (.next h) (.ite (.next h.updPort.linkEvent) ?_)
  exact .ite (.next h.updPort.updPort) (.ite (.next h.updPort.updPort.linkEvent) (.next h.updPort.enterUp))

theorem State.Keeps.linkKeys (h : s.Keeps q w) {p} : (s.linkKeys p).Keeps q w := .ite h.updPort.enterUp h

theorem execPortStateTimeout_keeps (h : s.Keeps q w) {port} : NextKeeps q w (execPortStateTimeout port s) := by
  unfold execPortStateTimeout
  dsimp only
  split
  · exact .next h.bringUp
  · exact .next h
  · exact .next h
  · exact .ite (.next h) (.ite (.next h.portDown) (.next h.updPort.linkEvent))

theorem execRetune_keeps (h : s.Keeps q w) {port lanes} : NextKeeps q w (execRetune port lanes s) :=
  .ite (.next h.updPort.updPort.sendFrame) (.next h)

theorem execLinkKeyRotation_keeps (h : s.Keeps q w) {port busy} : NextKeeps q w (execLinkKeyRotation port busy s) := by
  unfold execLinkKeyRotation
  refine .ite (.next h) ?_
  split
  · exact .next h.updPort.mgt
  · exact .next h.updPort
  · exact .next h.updPort.retireDue
  · exact .next h

theorem execRotateRetry_keeps (h : s.Keeps q w) {port} : NextKeeps q w (execRotateRetry port s) :=
  .ite (.next h.updPort.mgt) (.next h)

theorem execRotate_keeps (h : s.Keeps q w) {port index} : NextKeeps q w (execRotate port index s) :=
  .ite (.next h) (.ite (.next h.mgt) (.next h.updPort.mgt))

theorem execRetireKey_keeps (h : s.Keeps q w) {port acked} : NextKeeps q w (execRetireKey port acked s) := by
  unfold execRetireKey
  refine .ite (.next (.ite h.updPort h)) ?_
  split
  · exact .next h.updPort.mgt
  · exact .next h

theorem State.Keeps.renewSession (h : s.Keeps q w) {p good} : (s.renewSession p good).Keeps q w :=
  .ite (.ite h.sessionDown h.updPort) (.ite h.updPort.updPort.mgt h.updPort)

theorem execRotationTimeout_keeps (h : s.Keeps q w) {port} : NextKeeps q w (execRotationTimeout port s) :=
  .ite (.next h) (.ite (.next h.sessionDown) (.next h.updPort))

/-! ### Commands of the directory -/

theorem execDirLookup_keeps (h : s.Keeps q w) {course} : NextKeeps q w (execDirLookup course s) := by
  unfold execDirLookup
  split
  · exact .next h
  · split
    · exact .next h
    · dsimp only
      split
      · exact .next h.same.startRestore.coreFault
      · exact .next h.same.startRestore.coreFault
      · exact .ite (.next h.dirRead.dirRead.landEnd.update.tidComplete) (.next h.dirRead.dirRead.landEnd.update)

theorem execDirUpdateApply_keeps (h : s.Keeps q w) : NextKeeps q w (execDirUpdateApply s) := by
  unfold execDirUpdateApply
  split
  · split
    · exact .next h
    · dsimp only
      split
      · exact .next h.same.startRestore.coreFault
      · exact .next h.same.startRestore.coreFault
      · exact .ite (.next (State.Keeps.tidComplete h.dirUpdate.same)) (.next h.dirUpdate.same)
  · exact .next h

theorem execCompactionMove_keeps (h : s.Keeps q w) : NextKeeps q w (execCompactionMove s) := by
  unfold execCompactionMove
  dsimp only
  split
  · exact .next h.finishMove
  · refine .ite (.next h) ?_
    split
    · exact .next h.same
    · split
      · exact .next h.setWay.update
      · exact .next h.same

theorem execDirReadySet_keeps (h : s.Keeps q w) : NextKeeps q w (execDirReadySet s) := .next (.ite h h.same)

theorem execDirUpdate_keeps (h : s.Keeps q w) {func data} : NextKeeps q w (execDirUpdate func data s) := by
  unfold execDirUpdate
  split
  · exact .next h
  · exact .ite (.next h.popSub.answer) (.ite (.next h.popSub.answer) (.next h.popSub.update))

/-! ### Commands of the host -/

theorem State.Keeps.startFetch (h : s.Keeps q w) {f} : (s.startFetch f).Keeps q w := .ite h (.ite h.updFunc h.updFunc.update)

theorem execKick_keeps (h : s.Keeps q w) {func} : NextKeeps q w (execKick func s) := .next (.ite h.startFetch h)

theorem execPoll_keeps (h : s.Keeps q w) {func} : NextKeeps q w (execPoll func s) := .next (.ite h.startFetch h)

theorem State.Keeps.takeSub (h : s.Keeps q w) {f x} : (s.takeSub f x).Keeps q w := by
  unfold State.takeSub
  refine .ite h.answer (.ite ?_ h.updFunc)
  split
  · exact h.answer
  · exact h.updFunc

theorem State.Keeps.takeRing (h : s.Keeps q w) {f page entries r} : (s.takeRing f page entries r).Keeps q w := by
  unfold State.takeRing
  refine .ite h (.ite h.ringFault (h.updFunc.writeIndex.foldl fun _ _ hu => ?_))
  exact hu.takeSub

theorem execDoorbellFetchComplete_keeps (h : s.Keeps q w) {func page entries} :
    NextKeeps q w (execDoorbellFetchComplete func page entries s) := by
  unfold execDoorbellFetchComplete
  refine .ite (.next h) (.next (.ite ?_ ?_))
  · refine .startFetch ?_
    refine .updFunc (.ite h.updFunc.drainRings.drainRec (h.updFunc.drainRings.drainRec.foldl fun _ _ hu => ?_))
    exact hu.takeRing
  · refine .updFunc (.ite h.updFunc.drainRings.drainRec (h.updFunc.drainRings.drainRec.foldl fun _ _ hu => ?_))
    exact hu.takeRing

theorem execRequest_keeps (h : s.Keeps q w) {func prompt} : NextKeeps q w (execRequest func prompt s) := by
  unfold execRequest
  dsimp only
  split
  · exact .next h
  · split
    · exact .next h.popSub.answer
    · exact .ite (.next h.popSub.answer) (.next h.popSub.updServe)

theorem execCancel_keeps (h : s.Keeps q w) {func} : NextKeeps q w (execCancel func s) := by
  unfold execCancel
  dsimp only
  split
  · exact .next h
  · split
    · exact .next h.popSub.answer
    · exact .ite (.next h.popSub.answer) (.next h.popSub.updServe)

theorem execContinueReq_keeps (h : s.Keeps q w) {func tokens} : NextKeeps q w (execContinueReq func tokens s) := by
  unfold execContinueReq
  dsimp only
  split
  · exact .next h
  · split
    · exact .next h.popSub.answer
    · exact .next h.popSub
    · split
      · exact .next h.popSub
      · split
        · exact .next h.popSub.answer.updReq
        · exact .next h.popSub.answer.updServe.startReload
        · exact .next h.popSub.answer.updServe

theorem execSpill_keeps (h : s.Keeps q w) {func} : NextKeeps q w (execSpill func s) := by
  unfold execSpill
  dsimp only
  split
  · exact .next h
  · split
    · exact .next h.popSub.answer
    · exact .next (.ite h.popSub.startSpill h.popSub.answer)

theorem execReload_keeps (h : s.Keeps q w) {func} : NextKeeps q w (execReload func s) := by
  unfold execReload
  dsimp only
  split
  · exact .next h
  · split
    · exact .next h.popSub.answer
    · exact .next (.ite h.popSub.startReload h.popSub.answer)

theorem execRelease_keeps (h : s.Keeps q w) {func} : NextKeeps q w (execRelease func s) := by
  unfold execRelease
  dsimp only
  split
  · exact .next h
  · split
    · exact .next h.popSub.answer
    · exact .next (.ite h.popSub.endReq.answer h.popSub.answer)

theorem execStep_keeps (h : s.Keeps q w) {func block} : NextKeeps q w (execStep func block s) := by
  unfold execStep
  dsimp only
  split
  · exact .next h
  · split
    · exact .next h.popSub.answer
    · exact .ite (.next h.popSub.answer) (.ite (.next h.popSub.answer) (.next h.popSub.updServe))

theorem execLoadImage_keeps (h : s.Keeps q w) {func file} : NextKeeps q w (execLoadImage func file s) := by
  unfold execLoadImage
  dsimp only
  split
  · exact .next h
  · exact .ite (.next h.popSub.answer) (.ite (.next h.popSub.answer) (.ite (.next h) (.next h.popSub.loadImage.answer)))

theorem execMsixTimeThreshold_keeps (h : s.Keeps q w) {func ring} : NextKeeps q w (execMsixTimeThreshold func ring s) :=
  .next (.ite h.updFunc.msix h)

theorem State.Keeps.drainFunc (h : s.Keeps q w) {f} : (s.drainFunc f).Keeps q w :=
  .ite h.drainRings.drainRec.payOwed h.drainRings.drainRec

theorem State.Keeps.writeRingCtrl (h : s.Keeps q w) {f k value} : (s.writeRingCtrl f k value).Keeps q w := by
  unfold State.writeRingCtrl
  refine .ite h.refuse ?_
  exact .ite (.ite h h.updFunc) (.ite h.refuse (.ite h.updFunc.updFunc.drainFunc h.updFunc))

theorem execRingEnable_keeps (h : s.Keeps q w) {func ring value} : NextKeeps q w (execRingEnable func ring value s) :=
  .next (.ite h.writeRingCtrl h)

theorem execRingDisable_keeps (h : s.Keeps q w) {func ring} : NextKeeps q w (execRingDisable func ring s) :=
  .next (.ite h.updFunc h)

theorem execFunctionLevelReset_keeps (h : s.Keeps q w) {func} : NextKeeps q w (execFunctionLevelReset func s) :=
  .next (.ite h.functionReset h)

theorem execPerst_keeps (h : s.Keeps q w) : NextKeeps q w (execPerst s) := by
  unfold execPerst
  refine .next (.updMaint (h.foldl fun _ _ hu => ?_))
  exact hu.functionReset

theorem execPerstRelease_keeps (h : s.Keeps q w) : NextKeeps q w (execPerstRelease s) := .next h.updMaint

theorem State.Keeps.updMbo (h : s.Keeps q w) {f g} : (s.updMbo f g).Keeps q w := h.updFunc

theorem State.Keeps.updMbi (h : s.Keeps q w) {f g} : (s.updMbi f g).Keeps q w := h.updFunc

theorem State.Keeps.ringSp (h : s.Keeps q w) {f bits} : (s.ringSp f bits).Keeps q w := h.updFunc

theorem State.Keeps.withdrawMbo (h : s.Keeps q w) {f} : (s.withdrawMbo f).Keeps q w := h.updMbo

theorem State.Keeps.sendMbo (h : s.Keeps q w) {f} : (s.sendMbo f).Keeps q w := .ite h h.updMbo.ringSp

theorem State.Keeps.writeMboCtrl (h : s.Keeps q w) {f v} : (s.writeMboCtrl f v).Keeps q w :=
  .ite (.sendMbo (.updMbo (.ite h.withdrawMbo h))) (.updMbo (.ite h.withdrawMbo h))

theorem execSendMbo_keeps (h : s.Keeps q w) {func value data} : NextKeeps q w (execSendMbo func value data s) :=
  .ite (.next h.updMbo.writeMboCtrl) (.next h)

theorem execWithdraw_keeps (h : s.Keeps q w) {func} : NextKeeps q w (execWithdraw func s) := .next (.ite h.withdrawMbo h)

theorem execMboTimeout_keeps (h : s.Keeps q w) {func} : NextKeeps q w (execMboTimeout func s) :=
  .next (.ite h.updMbo.touch.ringHost h)

theorem execMboRead_keeps (h : s.Keeps q w) {func} : NextKeeps q w (execMboRead func s) :=
  .ite (.next (.ite h.withdrawMbo.ringHost h.withdrawMbo.ringHost.reply)) (.next h)

theorem execMbiDeliver_keeps (h : s.Keeps q w) {func dbbit} : NextKeeps q w (execMbiDeliver func dbbit s) := by
  unfold execMbiDeliver
  dsimp only
  split
  · exact .next h
  · exact .ite (.next h) (.next h.updFunc.updMbi.ringHost)

theorem execMbiConsume_keeps (h : s.Keeps q w) {func} : NextKeeps q w (execMbiConsume func s) := .next (.ite h.updMbi h)

theorem execMbiWithdrawn_keeps (h : s.Keeps q w) {func} : NextKeeps q w (execMbiWithdrawn func s) :=
  .next (.ite h.updMbi.touch.ringHost h)

theorem State.Keeps.clearDbHost (h : s.Keeps q w) {f bits} : (s.clearDbHost f bits).Keeps q w := by
  unfold State.clearDbHost
  exact h.updFunc

theorem execDbHostClear_keeps (h : s.Keeps q w) {func bits} : NextKeeps q w (execDbHostClear func bits s) :=
  .next (.ite h.clearDbHost h)

theorem State.Keeps.setDbMask (h : s.Keeps q w) {f mask} : (s.setDbMask f mask).Keeps q w := .ite h.updFunc.msix h.updFunc

theorem execDbHostMaskWrite_keeps (h : s.Keeps q w) {func mask} : NextKeeps q w (execDbHostMaskWrite func mask s) :=
  .next (.ite h.setDbMask h)

theorem execDbSpSet_keeps (h : s.Keeps q w) {func bits} : NextKeeps q w (execDbSpSet func bits s) := .next (.ite h.ringSp h)

theorem execMgtMessage_keeps (h : s.Keeps q w) {peer bytes read} : NextKeeps q w (execMgtMessage peer bytes read s) := by
  unfold execMgtMessage
  split
  · exact .ite (.next h.logFault) (.next h.updSec)
  · exact .next h.updSec

theorem execMgtSlotTimeout_keeps (h : s.Keeps q w) {peer} : NextKeeps q w (execMgtSlotTimeout peer s) := .next h.updSec

/-! ### Rails, resets, start-up -/

theorem State.Keeps.islandOff (h : s.Keeps q w) : s.islandOff.Keeps q w := h.same

theorem State.Keeps.hostOff (h : s.Keeps q w) : s.hostOff.Keeps q w := h.same

theorem State.Keeps.railsOff (h : s.Keeps q w) : s.railsOff.Keeps q w := h.loseCompute.islandOff.hostOff.updMaint.updSec

theorem State.Keeps.powerDown (h : s.Keeps q w) : s.powerDown.Keeps q w := h.railsOff.updPower

theorem State.Keeps.steerCores (h : s.Keeps q w) : s.steerCores.Keeps q w := by
  unfold State.steerCores
  refine h.foldl fun _ _ hu => ?_
  exact hu.updLane

theorem State.Keeps.selfTest (h : s.Keeps q w) {t} : (s.selfTest t).Keeps q w := by
  unfold State.selfTest
  have fresh (l : List (Nat × Core)) : (l.map fun p => (p.1, { Core.reset with sp := { SPad.reset with unc := p.2.sp.unc } })).all
      (fun p => p.2.memWf) = true := by
    rw [List.all_map, List.all_eq_true]
    exact fun _ _ => rfl
  refine .foldl (.steerCores (.foldl (h.cores_of fun _ => fresh _) fun _ _ hu => ?_)) fun _ _ hu => ?_
  · exact hu.retireCore
  · exact .ite hu hu.updWs

theorem State.Keeps.applyRetained (h : s.Keeps q w) : s.applyRetained.Keeps q w := by
  unfold State.applyRetained
  split
  · exact h
  · exact .ite h.same h.same.setRoute.remeasure

theorem State.Keeps.hostOn (h : s.Keeps q w) : s.hostOn.Keeps q w := h.updMaint

theorem State.Keeps.testAndApply (h : s.Keeps q w) {t} : (s.testAndApply t).Keeps q w :=
  h.selfTest.applyRetained.remeasure.remeasure.saveSettings.decideFreq

theorem State.Keeps.comeUp (h : s.Keeps q w) : s.comeUp.Keeps q w := by
  unfold State.comeUp
  refine .foldl ?_ fun _ _ hu => ?_
  · refine h.same.updMaint.hostOn.foldl fun _ _ hu => ?_
    exact hu.updFunc
  · exact hu.laserEnable.bringUp

theorem State.Keeps.readyNow (h : s.Keeps q w) : s.readyNow.Keeps q w := by
  unfold State.readyNow
  refine .ite ?_ ?_
  · refine .endActivity ?_
    split
    · exact h.reply.updMaint
    · exact h
  · split
    · exact h.reply.updMaint
    · exact h

theorem State.Keeps.finishStart (h : s.Keeps q w) {t} : (s.finishStart t).Keeps q w := h.testAndApply.comeUp.readyNow

theorem State.Keeps.startOn (h : s.Keeps q w) : s.startOn.Keeps q w := by
  unfold State.startOn
  refine .ite h (.ite (.ite h.updPower h) (.ite (.disableVfs (.hostOn (.updPower (.ite h.updPower h)))) ?_))
  refine .ite (.update (.stopRings (.disableVfs (.hostOn (.updMaint (.updMaint (.ite (.ite h.updPower h) (.update (.ite h.updPower h))))))))) ?_
  exact .updPower (.updMaint (.ite (.ite h.updPower h) (.update (.ite h.updPower h))))

theorem State.Keeps.bootPackage (h : s.Keeps q w) {bad} : (s.bootPackage bad).Keeps q w := by
  unfold State.bootPackage
  refine .startOn (.updMaint (.bootSoundpost (.update ?_)))
  refine .foldl (.updSec (.updMaint (.ite h.updMaint.update.updMaint h.updMaint.update)) ?_) fun _ _ hu => ?_
  · split <;> rfl
  · exact hu.recordFailed

theorem State.Keeps.resetPackage (h : s.Keeps q w) : s.resetPackage.Keeps q w :=
  h.cores_of fun _ => rfl

theorem State.Keeps.resumeBoot (h : s.Keeps q w) : s.resumeBoot.Keeps q w :=
  .ite h.runStored.updMaint.startOn (.ite h.runStored.endActivity h.runStored)

theorem State.Keeps.resetSoundpost (h : s.Keeps q w) : s.resetSoundpost.Keeps q w :=
  .ite h.bootPackage (.bootSoundpost (.ite h h.recordFailed))

theorem State.Keeps.setStation (h : s.Keeps q w) {value} : (s.setStation value).Keeps q w := .ite h.same h.refuse

/-! ### Maintenance commands -/

theorem execPassThroughEnter_keeps (h : s.Keeps q w) {asker seq payload} :
    NextKeeps q w (execPassThroughEnter asker seq payload s) := by
  unfold execPassThroughEnter
  split
  · exact .next h.reply
  · exact .next h.enterPassThrough.reply

theorem execPassThroughLeave_keeps (h : s.Keeps q w) {asker seq payload persists} :
    NextKeeps q w (execPassThroughLeave asker seq payload persists s) := by
  unfold execPassThroughLeave
  split
  · exact .next h.reply
  · exact .ite (.next h.reply) (.ite (.next h) (.ite (.next h.reply) (.next h.updPower.updMaint.startOn)))

theorem execPackageReset_keeps (h : s.Keeps q w) {asker seq payload bad hot} :
    NextKeeps q w (execPackageReset asker seq payload bad hot s) := by
  unfold execPackageReset
  split
  · exact .next h.reply
  · exact .next h.resetPackage.update.updPower.updMaint.bootPackage

theorem execSoundpostReset_keeps (h : s.Keeps q w) {asker seq payload} :
    NextKeeps q w (execSoundpostReset asker seq payload s) := by
  unfold execSoundpostReset
  split
  · exact .next h.reply
  · exact .ite (.next h.reply) (.next h.reply.resetSoundpost)

theorem execSaveSettings_keeps (h : s.Keeps q w) {asker seq payload} :
    NextKeeps q w (execSaveSettings asker seq payload s) := by
  unfold execSaveSettings
  split
  · exact .next h.reply
  · exact .ite (.next h.reply) (.next h.startActivity.saveSettings.endActivity.reply)

theorem execMaintQuery_keeps (h : s.Keeps q w) {asker seq payload} : NextKeeps q w (execMaintQuery asker seq payload s) := by
  unfold execMaintQuery
  split
  · exact .next h.reply
  · exact .next h.reply

theorem execPausePointReached_keeps (h : s.Keeps q w) : NextKeeps q w (execPausePointReached s) := by
  unfold execPausePointReached
  dsimp only
  split
  · exact .ite (.next h.updMaint.startActivity.epochDue) (.next h)
  · exact .next h

theorem execStructuralActivityEnd_keeps (h : s.Keeps q w) : NextKeeps q w (execStructuralActivityEnd s) := by
  unfold execStructuralActivityEnd
  split
  · exact .next h.zeroingDone.endActivity
  · exact .next (.ite h.endActivity h)
  · exact .next (.ite h.endActivity h)
  · exact .next h.endActivity
  · exact .next h.endActivity
  · exact .next h

theorem execFreqApply_keeps (h : s.Keeps q w) {admitted} : NextKeeps q w (execFreqApply admitted s) := by
  unfold execFreqApply
  refine .ite (.next h) ?_
  refine .ite (.next h.updPower) (.ite (.next h.startActivity.updPower.retainedChanged.decideFreq) ?_)
  exact .next h.startActivity.updPower.endActivity

/-! ### Commands of power -/

theorem execColdStart_keeps (h : s.Keeps q w) {slotId bootMode bad} : NextKeeps q w (execColdStart slotId bootMode bad s) :=
  .next (.bootPackage (.ite h.resetPackage.updMaint.updPower.oweSecurity h.resetPackage.updMaint.updPower))

theorem execVanaGood_keeps (h : s.Keeps q w) : NextKeeps q w (execVanaGood s) := .next h.updPower.startOn

theorem execVmainGood_keeps (h : s.Keeps q w) : NextKeeps q w (execVmainGood s) := .next h.updPower.startOn

theorem execCourseUngate_keeps (h : s.Keeps q w) {course group tests} : NextKeeps q w (execCourseUngate course group tests s) :=
  .ite (.next (.ite h.updPower.updMaint.finishStart h.updPower)) (.next h)

theorem execVauxFail_keeps (h : s.Keeps q w) : NextKeeps q w (execVauxFail s) := .next h.powerDown.update

theorem execVanaFail_keeps (h : s.Keeps q w) : NextKeeps q w (execVanaFail s) := .next h.powerDown.updPower

theorem execUndervoltageLockout_keeps (h : s.Keeps q w) : NextKeeps q w (execUndervoltageLockout s) := .next h.railsOff.updPower

theorem execConverterStageFault_keeps (h : s.Keeps q w) {stage} : NextKeeps q w (execConverterStageFault stage s) :=
  .next (.ite h.supplyFault.updPower.islandOff.hostOff h.supplyFault.updPower)

theorem execRefclkLoss_keeps (h : s.Keeps q w) : NextKeeps q w (execRefclkLoss s) := by
  unfold execRefclkLoss
  refine .next (h.logFault.updClk.addHold.foldl fun _ _ hu => ?_)
  exact hu.portDown

theorem execRefclkReturn_keeps (h : s.Keeps q w) : NextKeeps q w (execRefclkReturn s) := by
  unfold execRefclkReturn
  refine .next (h.updClk.foldl fun _ _ hu => ?_)
  exact hu.bringUp

theorem execFwWatchdog_keeps (h : s.Keeps q w) : NextKeeps q w (execFwWatchdog s) := by
  unfold execFwWatchdog
  refine .ite (.next h.logFault.resetSoundpost) ?_
  exact .next (.resetSoundpost (.ite h.logFault h.logFault.interrupted.updMaint))

theorem State.Keeps.thermalOff (h : s.Keeps q w) : s.thermalOff.Keeps q w := .ite h h.same.packageFault.enterPassThrough

theorem State.Keeps.toFloor (h : s.Keeps q w) : s.toFloor.Keeps q w := .ite h.decideFreq h

theorem execSensorSample_keeps (h : s.Keeps q w) {tmax p1ms p1s vmain current} :
    NextKeeps q w (execSensorSample tmax p1ms p1s vmain current s) := by
  unfold execSensorSample
  refine .ite (.next h) (.ite (.next h.updPower) (.ite (.next h.updPower.supplyFault.updPower) ?_))
  exact .ite (.next h.updPower.thermalOff) (.next (.ite h.updPower.toFloor h.updPower))

theorem execBudgetEvaluation_keeps (h : s.Keeps q w) : NextKeeps q w (execBudgetEvaluation s) := by
  unfold execBudgetEvaluation
  refine .ite (.next h) ?_
  exact .next (.ite (.toFloor (.ite h.updPower.updPower h.updPower)) (.ite h.updPower.updPower h.updPower))

theorem execThermtrip_keeps (h : s.Keeps q w) : NextKeeps q w (execThermtrip s) :=
  .ite (.next h) (.next h.powerDown.updPower.updMaint.update)

/-! ### Commands of the soundpost -/

theorem State.Keeps.endFwWrite (h : s.Keeps q w) : s.endFwWrite.Keeps q w :=
  .ite h.updSec.endActivity (.ite h.updSec.updMaint h.updSec)

theorem execFwBegin_keeps (h : s.Keeps q w) {asker seq payload} : NextKeeps q w (execFwBegin asker seq payload s) := by
  unfold execFwBegin
  refine .ite (.next h.reply) (.ite (.next h.reply) (.ite (.next h.updSec.reply) ?_))
  exact .ite (.next h.updSec.reply) (.ite (.next h.reply) (.next h.startActivity.updSec.reply))

theorem execFwPiece_keeps (h : s.Keeps q w) {asker seq payload} : NextKeeps q w (execFwPiece asker seq payload s) := by
  unfold execFwPiece
  refine .ite (.next h.reply) (.ite (.next h.reply) ?_)
  split
  · exact .next h.reply
  · refine .ite (.next h.reply) (.next (.reply ?_))
    exact ⟨h.queue, h.cores, fun hw => Mem.wf_write _ _ (h.image hw)⟩

theorem execFwEnd_keeps (h : s.Keeps q w) {asker seq payload} : NextKeeps q w (execFwEnd asker seq payload s) := by
  unfold execFwEnd
  refine .ite (.next h.reply) (.ite (.next h.reply) (.ite (.next h.reply) ?_))
  split
  · exact .next h.reply
  · refine .ite (.next (.reply (.ite h.updSec.endFwWrite.resumeBoot h.updSec.endFwWrite))) ?_
    exact .next (.reply (.ite h.updSec.endFwWrite h.updSec.endFwWrite.securityEvent))

theorem execFwWriteTimeout_keeps (h : s.Keeps q w) : NextKeeps q w (execFwWriteTimeout s) := .next (.ite h.endFwWrite h)

theorem Sec.setKey_fwBytes (x : Sec) (kind slot : Nat) (key : Option (List Byte)) : (x.setKey kind slot key).fwBytes = x.fwBytes := by
  unfold Sec.setKey
  dsimp only
  split <;> rfl

theorem execKeyInstall_keeps (h : s.Keeps q w) {asker seq payload} : NextKeeps q w (execKeyInstall asker seq payload s) := by
  unfold execKeyInstall
  refine .ite (.next h.reply) (.ite (.next h.reply) (.ite (.next h.reply) (.next ?_)))
  exact (h.updSec (Sec.setKey_fwBytes ..)).remeasure.retainedChanged.reply

theorem execKeyRemove_keeps (h : s.Keeps q w) {asker seq payload} : NextKeeps q w (execKeyRemove asker seq payload s) := by
  unfold execKeyRemove
  refine .ite (.next h.reply) (.ite (.next h.reply) (.ite (.next h.reply) (.next ?_)))
  exact (h.updSec (Sec.setKey_fwBytes ..)).remeasure.retainedChanged.reply

theorem execStatus_keeps (h : s.Keeps q w) {asker seq payload} : NextKeeps q w (execStatus asker seq payload s) :=
  .next (.ite h.reply h.reply)

theorem execSpillRotate_keeps (h : s.Keeps q w) {asker seq payload} : NextKeeps q w (execSpillRotate asker seq payload s) := by
  unfold execSpillRotate
  refine .ite (.next h.reply) ?_
  split
  · exact .next h.reply
  · exact .ite (.next h.reply) (.ite (.next h.reply) (.next h.startActivity.reply))

theorem execSpillKeyDistribute_keeps (h : s.Keeps q w) {slot gen ack} :
    NextKeeps q w (execSpillKeyDistribute slot gen ack s) := by
  unfold execSpillKeyDistribute
  refine .ite (.next h) (.ite ?_ (.next h.updSpill.mgt))
  split
  · exact .next h.updSpill
  · exact .next h

theorem execSpillKeyAckTimeout_keeps (h : s.Keeps q w) {slot} : NextKeeps q w (execSpillKeyAckTimeout slot s) := by
  unfold execSpillKeyAckTimeout
  refine .ite (.next h) (.ite (.next h.updSpill.sendSpillKey) ?_)
  exact .next (.ite h.updSpill.securityEvent.endActivity h.updSpill.securityEvent)

theorem State.Keeps.setSpdm (h : s.Keeps q w) {x} : (s.setSpdm x).Keeps q w := h.updSec

theorem State.Keeps.spdmTurn (h : s.Keeps q w) {r low high next a} : (s.spdmTurn r low high next a).Keeps q w :=
  .ite h.setSpdm.spdm h.spdm

theorem State.Keeps.attest (h : s.Keeps q w) {r a} : (s.attest r a).Keeps q w := .ite h.spdmTurn h.spdm

theorem execGetVersion_keeps (h : s.Keeps q w) {requester} : NextKeeps q w (execGetVersion requester s) := .next h.setSpdm.spdm

theorem execGetCapabilities_keeps (h : s.Keeps q w) {requester} : NextKeeps q w (execGetCapabilities requester s) :=
  .next h.spdmTurn

theorem execNegotiateAlgorithms_keeps (h : s.Keeps q w) {requester} : NextKeeps q w (execNegotiateAlgorithms requester s) :=
  .next h.spdmTurn

theorem execGetDigests_keeps (h : s.Keeps q w) {requester} : NextKeeps q w (execGetDigests requester s) := .next h.attest

theorem execGetCertificate_keeps (h : s.Keeps q w) {requester} : NextKeeps q w (execGetCertificate requester s) :=
  .next h.attest

theorem execChallenge_keeps (h : s.Keeps q w) {requester nonce} : NextKeeps q w (execChallenge requester nonce s) :=
  .next h.attest

theorem execGetMeasurements_keeps (h : s.Keeps q w) {requester index} : NextKeeps q w (execGetMeasurements requester index s) :=
  .next h.attest

theorem execKeyExchange_keeps (h : s.Keeps q w) {requester share} : NextKeeps q w (execKeyExchange requester share s) :=
  .next (.ite h.spdmTurn h.spdm)

theorem execFinish_keeps (h : s.Keeps q w) {requester port good} : NextKeeps q w (execFinish requester port good s) := by
  unfold execFinish
  split
  · exact .next (.ite h.spdmTurn (.ite h.setSpdm.spdm h.spdm))
  · refine .ite (.next h.renewSession) ?_
    exact .ite (.next h) (.ite (.next h.linkKeys) (.ite (.next h.sessionDown) (.next h.updPort)))

theorem execKeyUpdate_keeps (h : s.Keeps q w) {requester} : NextKeeps q w (execKeyUpdate requester s) :=
  .next (.ite h.setSpdm.spdm h.spdm)

theorem execHeartbeatSpdm_keeps (h : s.Keeps q w) {requester} : NextKeeps q w (execHeartbeatSpdm requester s) :=
  .next h.spdmTurn

theorem execEndSession_keeps (h : s.Keeps q w) {requester} : NextKeeps q w (execEndSession requester s) :=
  .next (.ite h.setSpdm.spdm h.spdm)

theorem State.Keeps.updPart (h : s.Keeps q w) {p f} : (s.updPart p f).Keeps q w := h.same

theorem execLockInterfaceRequest_keeps (h : s.Keeps q w) {func} : NextKeeps q w (execLockInterfaceRequest func s) :=
  .ite (.next h.spdm) (.next h.updPart.update.remeasure.spdm)

theorem execStartInterfaceRequest_keeps (h : s.Keeps q w) {func} : NextKeeps q w (execStartInterfaceRequest func s) :=
  .ite (.next h.updPart.spdm) (.next h.spdm)

theorem execStopInterfaceRequest_keeps (h : s.Keeps q w) {func} : NextKeeps q w (execStopInterfaceRequest func s) :=
  .ite (.next h.spdm) (.ite (.next h.askZeroing) (.next h.spdm))

theorem State.Keeps.tdiError (h : s.Keeps q w) {p} : (s.tdiError p).Keeps q w :=
  .ite h.updPart.securityEvent.functionReset.askZeroing h

theorem execTdiError_keeps (h : s.Keeps q w) {func} : NextKeeps q w (execTdiError func s) := .next h.tdiError

theorem execIdeKm_keeps (h : s.Keeps q w) {stream active} : NextKeeps q w (execIdeKm stream active s) := by
  unfold execIdeKm
  refine .ite (.next h.spdm) ?_
  split
  · exact .next h.updSec.spdm
  · exact .next h.updSec.spdm

/-! ### Groups -/

theorem State.Keeps.formFails (h : s.Keeps q w) {g code} : (s.formFails g code).Keeps q w := h.updGroup

theorem State.Keeps.setFormed (h : s.Keeps q w) {g runs} : (s.setFormed g runs).Keeps q w := by
  unfold State.setFormed
  exact h.updGroup.updSpill.updStep

theorem State.Keeps.takeOver (h : s.Keeps q w) {g runs} : (s.takeOver g runs).Keeps q w := by
  unfold State.takeOver
  split
  · exact h
  · exact h.updStep.ctl

theorem State.Keeps.formReady (h : s.Keeps q w) {g} : (s.formReady g).Keeps q w := by
  unfold State.formReady
  split
  · exact h
  · refine .ite h (.ite h.formFails ?_)
    exact .ite h.formFails (.ite h.formFails (.takeOver (.setFormed (.ite h.updGroup h.updGroup.mgt.mgt))))

theorem State.Keeps.formGroup (h : s.Keeps q w) {g} : (s.formGroup g).Keeps q w :=
  .ite h.refuse (.ite h.formFails (.ite h.formFails (.formReady (.updGroup (.ite h h.mgt)))))

theorem State.Keeps.dissolve (h : s.Keeps q w) {g} : (s.dissolve g).Keeps q w := .ite h.refuse (.ite h.updGroup h.updGroup.mgt)

theorem State.Keeps.formFieldsIn (h : s.Keeps q w) {g x} : (s.formFieldsIn g x).Keeps q w := .ite h (.mgt (.ite h h.updGroup))

theorem State.Keeps.formAnswerIn (h : s.Keeps q w) {g place ws shards n budget held run} :
    (s.formAnswerIn g place ws shards n budget held run).Keeps q w := by
  unfold State.formAnswerIn
  split
  · exact h
  · exact .ite h h.updGroup.formReady

theorem State.Keeps.selectReq (h : s.Keeps q w) {g e} : (s.selectReq g e).Keeps q w := by
  unfold State.selectReq
  exact h.updGroup

/-! ### Registers -/

theorem State.Keeps.writeDirCtrl (h : s.Keeps q w) {v} : (s.writeDirCtrl v).Keeps q w := .ite h.refuse h.same

theorem State.Keeps.writePowerLimit (h : s.Keeps q w) {v} : (s.writePowerLimit v).Keeps q w := .ite h.refuse h.liveReg

theorem State.Keeps.writePowerControl (h : s.Keeps q w) {v} : (s.writePowerControl v).Keeps q w := .ite h.refuse h.liveReg

theorem State.Keeps.writeRateAdj (h : s.Keeps q w) {v} : (s.writeRateAdj v).Keeps q w := .ite h.refuse (.ite h.same h)

theorem State.Keeps.writeFreqStage (h : s.Keeps q w) {k v} : (s.writeFreqStage k v).Keeps q w := h.updPower

theorem State.Keeps.writePortCtrl (h : s.Keeps q w) {p v} : (s.writePortCtrl p v).Keeps q w := by
  unfold State.writePortCtrl
  refine .ite h.refuse ?_
  exact .retainedChanged (.ite (.ite h.updPort h.updPort.remeasure) (.portEnable (.ite h.updPort h.updPort.remeasure)))

theorem State.Keeps.writeVcAlloc (h : s.Keeps q w) {p hi v} : (s.writeVcAlloc p hi v).Keeps q w :=
  .ite h.refuse h.updPort.retainedChanged

theorem State.Keeps.writeShares (h : s.Keeps q w) {p hi v} : (s.writeShares p hi v).Keeps q w := .ite h.refuse h.liveReg

theorem State.Keeps.writePort (h : s.Keeps q w) {p r v} : (s.writePort p r v).Keeps q w := by
  unfold State.writePort
  split
  · exact h.writePortCtrl
  · exact h.writeVcAlloc
  · exact h.writeVcAlloc
  · exact h.writeShares
  · exact h.writeShares
  · exact h

theorem State.Keeps.writeRoute (h : s.Keeps q w) {r v} : (s.writeRoute r v).Keeps q w :=
  .ite h.updNet (.ite h.updNet (.ite h.updNet h))

theorem State.Keeps.writePartDesc (h : s.Keeps q w) {p v} : (s.writePartDesc p v).Keeps q w :=
  .ite (.ite h.tdiError h) (.ite h.refuse h.updPart.remeasure)

theorem State.Keeps.writeFlagExp (h : s.Keeps q w) {p v} : (s.writeFlagExp p v).Keeps q w :=
  .ite h.refuse h.updPart.retainedChanged

theorem State.Keeps.runGuard (h : s.Keeps q w) {f act} (hf : ∀ u : State, u.Keeps q w → (act u).Keeps q w) :
    (s.runGuard f act).Keeps q w := .ite h.tdiError (hf _ h)

theorem State.Keeps.writeFunc (h : s.Keeps q w) {f r v} : (s.writeFunc f r v).Keeps q w := by
  unfold State.writeFunc
  refine .ite h.updFunc (.ite h.updFunc (.ite (.ite h.refuse h.updFunc) (.ite ?_ ?_)))
  · refine h.runGuard fun _ hu => ?_
    exact .ite hu.updFunc (.ite hu.refuse hu.updFunc)
  · refine .ite ?_ h
    refine h.runGuard fun _ hu => ?_
    exact .ite hu.writeRingCtrl (.ite hu.refuse hu.updFunc)

theorem State.Keeps.fixedField (h : s.Keeps q w) {g r f} : (s.fixedField g r f).Keeps q w := .ite h.refuse h.updGroup

theorem State.Keeps.writeGroupCtrl (h : s.Keeps q w) {g v} : (s.writeGroupCtrl g v).Keeps q w := by
  unfold State.writeGroupCtrl
  refine .ite (.ite h.dissolve (.ite h.formGroup h)) ?_
  exact .ite h.fixedField.formGroup (.ite h.fixedField.dissolve h.fixedField)

theorem State.Keeps.writeServeA (h : s.Keeps q w) {g v} : (s.writeServeA g v).Keeps q w := .ite h.refuse h.updGroup.liveWrite

theorem State.Keeps.writeSlotLow (h : s.Keeps q w) {g r v} : (s.writeSlotLow g r v).Keeps q w := by
  unfold State.writeSlotLow
  split
  · exact h.writeGroupCtrl
  · exact .ite h h.updGroup
  · exact h.fixedField
  · exact h.fixedField
  · exact h.fixedField
  · exact .ite h.refuse h.fixedField
  · exact h.writeServeA
  · exact h.fixedField
  · exact h.liveWrite
  · exact h.liveWrite
  · exact h.fixedField
  · exact h.fixedField
  · exact h.fixedField
  · exact .ite h.updGroup.touch h
  · exact .ite h.liveWrite (.ite h.fixedField h)

theorem State.Keeps.writeSlotHigh (h : s.Keeps q w) {g r v} : (s.writeSlotHigh g r v).Keeps q w := by
  unfold State.writeSlotHigh
  dsimp only
  split
  · exact h.fixedField
  · exact h.updGroup
  · exact h.fixedField
  · exact h.selectReq
  · exact h.updGroup
  · exact h.liveWrite
  · exact h.liveWrite
  · exact h.liveWrite
  · exact h.updGroup
  · exact h.liveWrite
  · refine .ite ?_ (.ite h.liveWrite h)
    refine h.foldl fun _ _ hu => ?_
    exact hu.liveWrite

theorem State.Keeps.writeSlot (h : s.Keeps q w) {g r v} : (s.writeSlot g r v).Keeps q w := .ite h.writeSlotLow h.writeSlotHigh

theorem State.Keeps.readBack (h : s.Keeps q w) {c b} : (s.readBack c b).Keeps q w := by
  unfold State.readBack
  refine .ite h ?_
  exact .ite (.update (.ite h.serviceRefused h)) (.ite h.updWs.logFault.startRestore.update h.updWs.update)

theorem State.Keeps.writeDebugCtrl (h : s.Keeps q w) {v} : (s.writeDebugCtrl v).Keeps q w := .ite h h.same.remeasure

theorem State.Keeps.debugItem (h : s.Keeps q w) : s.debugItem.2.Keeps q w := by
  unfold State.debugItem
  split
  · exact h
  · dsimp only
    split
    · exact h
    · exact h
    · exact h
    · split
      · exact h.takeFree (n := 32)
      · exact h
    · exact h
    · exact h

theorem State.Keeps.writeStateSel (h : s.Keeps q w) {v} : (s.writeStateSel v).Keeps q w := by
  unfold State.writeStateSel
  extract_lets d u
  have hu : u.Keeps q w := h.same
  have hp : (if u.liveSlots.isEmpty then u.debugItem else match u.takeFree 16384 with | (b, u) => (leBytes 2048 b.toNat, u)).2.Keeps q w := by
    split
    · exact hu.debugItem
    · exact hu.takeFree (n := 16384)
  exact .ite h hp.same

theorem State.Keeps.writeDebug (h : s.Keeps q w) {r v} : (s.writeDebug r v).Keeps q w :=
  .ite h (.ite h.writeDebugCtrl (.ite h.writeStateSel (.ite h.same (.ite h.same (.ite h.same h)))))

theorem State.Keeps.clearRefused (h : s.Keeps q w) : s.clearRefused.Keeps q w := .ite h.same h

theorem State.Keeps.writeReadback (h : s.Keeps q w) {r v} : (s.writeReadback r v).Keeps q w :=
  .ite h (.ite (.ite h.readBack h.same) (.ite h.same (.ite h.same h)))

theorem State.Keeps.thenOf (h : s.Keeps q w) {r} (hr : NextKeeps q w r) : (s.thenOf r).Keeps q w := by
  unfold State.thenOf
  split
  · exact hr
  · exact h

theorem State.Keeps.writePf0 (h : s.Keeps q w) {o v} : (s.writePf0 o v).Keeps q w := by
  have hi := h.thenOf (execRouteInstall_keeps h)
  unfold State.writePf0
  refine .ite h (.ite (.ite h.abandon h) (.ite (.ite h.clearRefused h) (.ite (.ite h.refuse h.same.retainedChanged) ?_)))
  refine .ite h.writePowerLimit (.ite h.writePowerControl (.ite h.writeFreqStage ?_))
  refine .ite (.ite (h.thenOf (execFreqApply_keeps h)) h) (.ite h.setStation (.ite h.writeRateAdj (.ite h.writePort ?_)))
  refine .ite ?_ (.ite h.writeRoute (.ite (.ite h.writePartDesc (.ite h.writeFlagExp h)) ?_))
  · have hr : (if bitN v 0 then s.thenOf (execRouteInstall s) else s).Keeps q w := .ite hi h
    exact .ite (hr.thenOf (execRouteEpoch_keeps hr)) hr
  · exact .ite h.writeSlot (.ite h.writeReadback (.ite h.writeDebug h))

theorem State.Keeps.writeReg (h : s.Keeps q w) {f o v} : (s.writeReg f o v).Keeps q w := by
  unfold State.writeReg
  refine .ite h (.ite (.ite h.writeFunc h) ?_)
  exact .ite (.ite h.liveReg h) (.ite (.ite h.writeDirCtrl h) (.ite h.writePf0 h))

theorem State.Keeps.writeHalf (h : s.Keeps q w) {f o v} : (s.writeHalf f o v).Keeps q w := by
  unfold State.writeHalf
  refine .ite h.writeReg (.ite h.same ?_)
  split
  · exact h.same.writeReg
  · exact h

theorem State.Keeps.writePage (h : s.Keeps q w) {f o v} : (s.writePage f o v).Keeps q w := by
  unfold State.writePage
  split
  · exact h.startFetch
  · exact h.clearDbHost
  · exact h.setDbMask
  · exact h.ringSp
  · exact h.writeMboCtrl
  · exact .ite h.updMbi h
  · exact .ite h h.updFunc
  · exact .ite h.updMbo h

theorem State.Keeps.busWrite (h : s.Keeps q w) {f bar2 offset data} : (s.busWrite f bar2 offset data).Keeps q w := by
  unfold State.busWrite
  refine h.foldl fun _ _ hu => ?_
  exact .ite hu.writePage hu.writeHalf

/-! ### Commands of registers -/

theorem execForm_keeps (h : s.Keeps q w) {slot} : NextKeeps q w (execForm slot s) := .next (.ite h.formGroup h)

theorem execFormMessage_keeps (h : s.Keeps q w) {slot msg} : NextKeeps q w (execFormMessage slot msg s) := by
  unfold execFormMessage
  dsimp only
  split
  · exact .next h.formFieldsIn
  · exact .next (.ite h.updGroup h)
  · exact .next (.ite h.setFormed h)
  · exact .next (.ite h.updGroup h)
  · exact .next h.formAnswerIn

theorem execFormTimeout_keeps (h : s.Keeps q w) {slot} : NextKeeps q w (execFormTimeout slot s) := by
  unfold execFormTimeout
  dsimp only
  split
  · exact .next h
  · exact .ite (.next h.updGroup.mgt) (.next h.formFails)

theorem execDissolve_keeps (h : s.Keeps q w) {slot} : NextKeeps q w (execDissolve slot s) := .next (.ite h.dissolve h)

theorem execReqIndexWrite_keeps (h : s.Keeps q w) {slot index} : NextKeeps q w (execReqIndexWrite slot index s) :=
  .next (.ite h.selectReq h)

theorem execGo_keeps (h : s.Keeps q w) {core block} : NextKeeps q w (execGo core block s) := .next (.ite h.readBack h)

theorem execDebugEnWrite_keeps (h : s.Keeps q w) {value} : NextKeeps q w (execDebugEnWrite value s) :=
  .next (.ite h.writeDebugCtrl h)

theorem execStateSelWrite_keeps (h : s.Keeps q w) {value} : NextKeeps q w (execStateSelWrite value s) :=
  .next (.ite h.writeStateSel h)

theorem execRefusedClear_keeps (h : s.Keeps q w) : NextKeeps q w (execRefusedClear s) := .next (.ite h.clearRefused h)

theorem execRegisterWrite_keeps (h : s.Keeps q w) {func bar2 offset data} :
    NextKeeps q w (execRegisterWrite func bar2 offset data s) := .next (.ite h.busWrite h)

/-! ### Station time -/

theorem State.Keeps.updSync (h : s.Keeps q w) {f} : (s.updSync f).Keeps q w := h.same

theorem execSyncExchange_keeps (h : s.Keeps q w) {port frac} : NextKeeps q w (execSyncExchange port frac s) :=
  .ite (.next h.ctl.ctl) (.next h)

theorem execSync_keeps (h : s.Keeps q w) {port frac} : NextKeeps q w (execSync port frac s) := .next (.ite h.updSync h)

theorem execFollowUp_keeps (h : s.Keeps q w) {port t1 hops frac} : NextKeeps q w (execFollowUp port t1 hops frac s) :=
  .ite (.next h.updSync.ctl) (.next h)

theorem execDelayReq_keeps (h : s.Keeps q w) {port frac} : NextKeeps q w (execDelayReq port frac s) := .next (.ite h.ctl h)

theorem execDelayResp_keeps (h : s.Keeps q w) {port t4} : NextKeeps q w (execDelayResp port t4 s) :=
  .ite (.ite (.next h.same) (.next h.updSync)) (.next h)

theorem execHoldover_keeps (h : s.Keeps q w) : NextKeeps q w (execHoldover s) := .next (.ite h.updSync h)

theorem execSourceSynced_keeps (h : s.Keeps q w) : NextKeeps q w (execSourceSynced s) := .next (.ite h.updSync h)

theorem execStationSet_keeps (h : s.Keeps q w) {value} : NextKeeps q w (execStationSet value s) := .next (.ite h.setStation h)

/-! ### Every command -/

theorem exec_keeps (h : s.Keeps q w) (i : Instr) : NextKeeps q w (exec i s) := by
  cases hc : wordCore i with
  | some c =>
    rw [exec_word hc]
    exact execWord_keeps h
  | none =>
    cases i
    case waitfSatisfied => exact execWaitfSatisfied_keeps h
    case signalArrival => exact execSignalArrival_keeps h
    case bowgPreview => exact execBowgPreview_keeps h
    case decodeResume => exact execDecodeResume_keeps h
    case seqMiscompare => exact execSeqMiscompare_keeps h
    case flagWaitTimeout => exact execFlagWaitTimeout_keeps h
    case stepTooLong => exact execStepTooLong_keeps h
    case coreFinished => exact execCoreFinished_keeps h
    case lateItemCheck => exact execLateItemCheck_keeps h
    case cellArrival => exact execCellArrival_keeps h
    case transferComplete => exact execTransferComplete_keeps h
    case waitingArrivalWrite => exact execWaitingArrivalWrite_keeps h
    case kvWriteContextComplete => exact execKvWriteContextComplete_keeps h
    case hostReadCompletion => exact execHostReadCompletion_keeps h
    case hostDmaError => exact execHostDmaError_keeps h
    case scrubVisit => exact execScrubVisit_keeps h
    case scrubForcedAccess => exact execScrubForcedAccess_keeps h
    case blockRestoration => exact execBlockRestoration_keeps h
    case spareRowSubstitution => exact execSpareRowSubstitution_keeps h
    case arbitrationOutcome => exact execArbitrationOutcome_keeps h
    case sampleReferenceCheck => exact execSampleReferenceCheck_keeps h
    case droneVisit => exact execDroneVisit_keeps h
    case meshCrc => exact execMeshCrc_keeps h
    case clockLockLoss => exact execClockLockLoss_keeps h
    case stop => exact execStop_keeps h
    case stepRetry => exact execStepRetry_keeps h
    case discard => exact execDiscard_keeps h
    case heartbeat => exact execHeartbeat_keeps h
    case silent => exact execSilent_keeps h
    case silentReport => exact execSilentReport_keeps h
    case packageLost => exact execPackageLost_keeps h
    case coreRetirementAndReload => exact execCoreRetirementAndReload_keeps h
    case frameTransmit => exact execFrameTransmit_keeps h
    case frameReceived => exact execFrameReceived_keeps h
    case replayTimeout => exact execReplayTimeout_keeps h
    case laneDrop => exact execLaneDrop_keeps h
    case laserFault => exact execLaserFault_keeps h
    case laserInputGood => exact execLaserInputGood_keeps h
    case portEnable => exact execPortEnable_keeps h
    case signalPresent => exact execSignalPresent_keeps h
    case equalisationConverged => exact execEqualisationConverged_keeps h
    case hello => exact execHello_keeps h
    case portStateTimeout => exact execPortStateTimeout_keeps h
    case retune => exact execRetune_keeps h
    case epochStage => exact execEpochStage_keeps h
    case epochAck => exact execEpochAck_keeps h
    case drainWave => exact execDrainWave_keeps h
    case admissionPoint => exact execAdmissionPoint_keeps h
    case stepStartReceived => exact execStepStartReceived_keeps h
    case tickZero => exact execTickZero_keeps h
    case advance => exact execAdvance_keeps h
    case advanceAck => exact execAdvanceAck_keeps h
    case spillRecordsWritten => exact execSpillRecordsWritten_keeps h
    case reloadComplete => exact execReloadComplete_keeps h
    case stepFinishedReport => exact execStepFinishedReport_keeps h
    case requestCommit => exact execRequestCommit_keeps h
    case cancelRegister => exact execCancelRegister_keeps h
    case dirLookup => exact execDirLookup_keeps h
    case swapStage => exact execSwapStage_keeps h
    case staged => exact execStaged_keeps h
    case releaseAll => exact execReleaseAll_keeps h
    case chunkReceived => exact execChunkReceived_keeps h
    case chunkTimeout => exact execChunkTimeout_keeps h
    case loaded => exact execLoaded_keeps h
    case abandon => exact execAbandon_keeps h
    case parityValid => exact execParityValid_keeps h
    case kick => exact execKick_keeps h
    case poll => exact execPoll_keeps h
    case doorbellFetchComplete => exact execDoorbellFetchComplete_keeps h
    case request => exact execRequest_keeps h
    case cancel => exact execCancel_keeps h
    case continueReq => exact execContinueReq_keeps h
    case spill => exact execSpill_keeps h
    case reload => exact execReload_keeps h
    case release => exact execRelease_keeps h
    case step => exact execStep_keeps h
    case loadImage => exact execLoadImage_keeps h
    case swap => exact execSwap_keeps h
    case dirUpdate => exact execDirUpdate_keeps h
    case msixTimeThreshold => exact execMsixTimeThreshold_keeps h
    case ringEnable => exact execRingEnable_keeps h
    case ringDisable => exact execRingDisable_keeps h
    case functionLevelReset => exact execFunctionLevelReset_keeps h
    case sendMbo => exact execSendMbo_keeps h
    case withdraw => exact execWithdraw_keeps h
    case mboTimeout => exact execMboTimeout_keeps h
    case mbiConsume => exact execMbiConsume_keeps h
    case mbiDeliver => exact execMbiDeliver_keeps h
    case mbiWithdrawn => exact execMbiWithdrawn_keeps h
    case mboRead => exact execMboRead_keeps h
    case dbHostClear => exact execDbHostClear_keeps h
    case dbHostMaskWrite => exact execDbHostMaskWrite_keeps h
    case dbSpSet => exact execDbSpSet_keeps h
    case mgtMessage => exact execMgtMessage_keeps h
    case fwBegin => exact execFwBegin_keeps h
    case fwPiece => exact execFwPiece_keeps h
    case fwEnd => exact execFwEnd_keeps h
    case keyInstall => exact execKeyInstall_keeps h
    case keyRemove => exact execKeyRemove_keeps h
    case spillRotate => exact execSpillRotate_keeps h
    case status => exact execStatus_keeps h
    case getVersion => exact execGetVersion_keeps h
    case getCapabilities => exact execGetCapabilities_keeps h
    case negotiateAlgorithms => exact execNegotiateAlgorithms_keeps h
    case getDigests => exact execGetDigests_keeps h
    case getCertificate => exact execGetCertificate_keeps h
    case challenge => exact execChallenge_keeps h
    case getMeasurements => exact execGetMeasurements_keeps h
    case keyExchange => exact execKeyExchange_keeps h
    case finish => exact execFinish_keeps h
    case keyUpdate => exact execKeyUpdate_keeps h
    case heartbeatSpdm => exact execHeartbeatSpdm_keeps h
    case endSession => exact execEndSession_keeps h
    case lockInterfaceRequest => exact execLockInterfaceRequest_keeps h
    case stopInterfaceRequest => exact execStopInterfaceRequest_keeps h
    case tdiError => exact execTdiError_keeps h
    case linkKeyRotation => exact execLinkKeyRotation_keeps h
    case rotate => exact execRotate_keeps h
    case retireKey => exact execRetireKey_keeps h
    case rotationTimeout => exact execRotationTimeout_keeps h
    case spillKeyDistribute => exact execSpillKeyDistribute_keeps h
    case spillKeyAckTimeout => exact execSpillKeyAckTimeout_keeps h
    case coldStart => exact execColdStart_keeps h
    case courseUngate => exact execCourseUngate_keeps h
    case sensorSample => exact execSensorSample_keeps h
    case converterStageFault => exact execConverterStageFault_keeps h
    case syncExchange => exact execSyncExchange_keeps h
    case sync => exact execSync_keeps h
    case followUp => exact execFollowUp_keeps h
    case delayReq => exact execDelayReq_keeps h
    case delayResp => exact execDelayResp_keeps h
    case stationSet => exact execStationSet_keeps h
    case passThroughEnter => exact execPassThroughEnter_keeps h
    case passThroughLeave => exact execPassThroughLeave_keeps h
    case packageReset => exact execPackageReset_keeps h
    case soundpostReset => exact execSoundpostReset_keeps h
    case saveSettings => exact execSaveSettings_keeps h
    case maintQuery => exact execMaintQuery_keeps h
    case freqApply => exact execFreqApply_keeps h
    case form => exact execForm_keeps h
    case formMessage => exact execFormMessage_keeps h
    case formTimeout => exact execFormTimeout_keeps h
    case dissolve => exact execDissolve_keeps h
    case reqIndexWrite => exact execReqIndexWrite_keeps h
    case go => exact execGo_keeps h
    case debugEnWrite => exact execDebugEnWrite_keeps h
    case stateSelWrite => exact execStateSelWrite_keeps h
    case registerWrite => exact execRegisterWrite_keeps h
    case cellLeavesOutboundBuffer => exact execCellLeavesOutboundBuffer_keeps h
    case alignmentLock => exact execAlignmentLock_keeps h
    case rotateRetry => exact execRotateRetry_keeps h
    case startInterfaceRequest => exact execStartInterfaceRequest_keeps h
    case ideKm => exact execIdeKm_keeps h
    case mgtSlotTimeout => exact execMgtSlotTimeout_keeps h
    case muteRelease => exact execMuteRelease_keeps h
    case muteTimeout => exact execMuteTimeout_keeps h
    case frequencyChange => exact execFrequencyChange_keeps h
    case pllLock => exact execPllLock_keeps h
    case tickDiverge => exact execTickDiverge_keeps h
    case supplyFault => exact execSupplyFault_keeps h
    case fwWatchdog => exact execFwWatchdog_keeps h
    case heartbeatSend => exact execHeartbeatSend_keeps h
    case routeInstall => exact execRouteInstall_keeps h
    case routeEpoch => exact execRouteEpoch_keeps h
    case epochAckTimeout => exact execEpochAckTimeout_keeps h
    case switch => exact execSwitch_keeps h
    case drainQuery => exact execDrainQuery_keeps h
    case purge => exact execPurge_keeps h
    case retire => exact execRetire_keeps h
    case dirUpdateApply => exact execDirUpdateApply_keeps h
    case compactionMove => exact execCompactionMove_keeps h
    case dirReadySet => exact execDirReadySet_keeps h
    case perst => exact execPerst_keeps h
    case fwWriteTimeout => exact execFwWriteTimeout_keeps h
    case vanaGood => exact execVanaGood_keeps h
    case budgetEvaluation => exact execBudgetEvaluation_keeps h
    case thermtrip => exact execThermtrip_keeps h
    case vauxFail => exact execVauxFail_keeps h
    case vanaFail => exact execVanaFail_keeps h
    case undervoltageLockout => exact execUndervoltageLockout_keeps h
    case refclkLoss => exact execRefclkLoss_keeps h
    case holdover => exact execHoldover_keeps h
    case sourceSynced => exact execSourceSynced_keeps h
    case pausePointReached => exact execPausePointReached_keeps h
    case structuralActivityEnd => exact execStructuralActivityEnd_keeps h
    case refusedClear => exact execRefusedClear_keeps h
    case relockTimeout => exact execRelockTimeout_keeps h
    case perstRelease => exact execPerstRelease_keeps h
    case vmainGood => exact execVmainGood_keeps h
    case refclkReturn => exact execRefclkReturn_keeps h
    all_goals cases hc

/-! ### A step -/

/-- A step keeps the commands behind the front one and the canonical form of the memories. -/
theorem step_keeps {s : State} : NextKeeps (s.pending.drop 1) (s.memWf = true) (step s) := by
  unfold step
  split
  next hp =>
    exact .next (State.keeps_memWf (by rw [hp]; rfl)).idle
  next c rest hp =>
    have h : s.Keeps s.pending (s.memWf = true) := State.keeps_memWf rfl
    refine exec_keeps (s := { s with pending := rest }) ⟨by rw [hp]; rfl, h.cores, h.image⟩ c

end

/-! ### The obligations -/

/-- Settles O1. -/
theorem stepRunsTheFrontCommand : Obligations.StepRunsTheFrontCommand := by
  unfold Obligations.StepRunsTheFrontCommand
  intro s c rest h
  rw [step, h]

/-- Settles O43: every command and every idle cycle keep the commands that wait (log entries 1 and 2). -/
theorem queueIsFirstInFirstOut : Obligations.QueueIsFirstInFirstOut := by
  unfold Obligations.QueueIsFirstInFirstOut
  intro s t h
  have hk := step_keeps (s := s)
  rw [h] at hk
  exact hk.queue

/-- Settles O44: a byte memory is only ever written from an address on, emptied, or stripped of entries. -/
theorem memoriesStayCanonical : Obligations.MemoriesStayCanonical := by
  unfold Obligations.MemoriesStayCanonical
  intro s t hs h
  have hk := step_keeps (s := s)
  rw [h] at hk
  exact hk.memWf hs

end Sys2Proof.Machine
end

section
/-! PROOF. The values after reset (22 R513; 24 Tables 24.3 to 24.14; 18 Tables 18.10 to 18.12; 21 Table 21.9). -/

namespace Sys2Proof.Machine

/-- Settles O26: every value is the field of a record at reset; no core is listed, so no queue holds an entry. -/
theorem resetValues : Obligations.ResetValues := by
  unfold Obligations.ResetValues
  intro s
  have hqueue : s.NoQueue := fun _ h => nomatch h
  have hsteps : ∀ n : Fin 15, s.power.freqStep[n.val]? = some (6 + n.val, 600 + 20 * n.val) := by decide
  exact ⟨rfl, rfl, hqueue, rfl, fun _ => ⟨rfl, rfl⟩, rfl, rfl, rfl, rfl, rfl, rfl, rfl, rfl, rfl, rfl, rfl, rfl, rfl, rfl, rfl, rfl,
    rfl, hsteps, rfl, rfl, fun _ => ⟨rfl, rfl, rfl, rfl, rfl, rfl, rfl⟩,
    fun _ => ⟨rfl, rfl, rfl, fun _ => ⟨rfl, rfl, rfl, rfl⟩⟩, fun _ => ⟨rfl, rfl, rfl, rfl⟩,
    fun _ => ⟨rfl, rfl, rfl, rfl⟩, rfl, rfl, rfl⟩

end Sys2Proof.Machine
end

section
/-! PROOF. The key directory: lookups, updates, compaction, READY and the host's updates (16 R368 to R376; log entry 101). -/

namespace Sys2Proof.Machine

/-! ### What the directory's operations leave as it was -/

section
variable (s : State)

theorem State.setWay_onlyCores (b v : Nat) (e : List Byte) : s.setWay b v e = { s with cores := (s.setWay b v e).cores } := by
  unfold State.setWay
  split <;> rfl

theorem State.dirRead_onlyCores (b : Nat) : s.dirRead b = { s with cores := (s.dirRead b).cores } := by
  unfold State.dirRead
  split <;> rfl

@[simp] theorem State.setWay_dir (b v : Nat) (e : List Byte) : (s.setWay b v e).dir = s.dir := by rw [State.setWay_onlyCores]
@[simp] theorem State.setWay_kdq (b v : Nat) (e : List Byte) : (s.setWay b v e).kdq = s.kdq := by rw [State.setWay_onlyCores]
@[simp] theorem State.dirRead_kdq (b : Nat) : (s.dirRead b).kdq = s.kdq := by rw [State.dirRead_onlyCores]
@[simp] theorem State.dirRead_clk (b : Nat) : (s.dirRead b).clk = s.clk := by rw [State.dirRead_onlyCores]

theorem State.raiseTo_hostOnly (owner : Nat) (e : Event) : s.HostOnly (s.raiseTo owner e) := by
  unfold State.raiseTo
  dsimp only
  split
  · exact s.raise_hostOnly ..
  · exact (s.raise_hostOnly ..).trans (State.raise_hostOnly ..)

@[simp] theorem State.raiseTo_kdq (owner : Nat) (e : Event) : (s.raiseTo owner e).kdq = s.kdq := by rw [s.raiseTo_hostOnly owner e]

/-- An entry that is applied takes no job from the engines. -/
@[simp] theorem State.dirApply_kdq (del : Bool) (e : List Byte) : (s.dirApply del e).2.kdq = s.kdq := by
  unfold State.dirApply
  dsimp only
  split
  · rfl
  split
  · rfl
  split
  · split <;> simp
  · split
    · simp
    · split <;> simp

end

/-- The state of a lookup engine that has written the result of a key: the two buckets read, the result in flight (R369). -/
def State.lookedUp (s : State) (j : KdJob) (key : W64) : State :=
  let b := dirBuckets (max 1 s.dirNb) key
  let q := (s.dirRead b.1).dirRead b.2
  q.landEnd q.clk.tick 13 j.core (.bytes (64 * (j.row + j.done / 8) + 8 * (j.done % 8)) (q.lookupResult key))

@[simp] theorem State.lookedUp_kdq (s : State) (j : KdJob) (key : W64) : (s.lookedUp j key).kdq = s.kdq := by simp [State.lookedUp]

theorem State.lookedUp_eq (s : State) (j : KdJob) (key : W64) :
    s.lookedUp j key =
      let b := dirBuckets (max 1 s.dirNb) key
      let q := (s.dirRead b.1).dirRead b.2
      q.landEnd s.clk.tick 13 j.core (.bytes (64 * (j.row + j.done / 8) + 8 * (j.done % 8)) (q.lookupResult key)) := by
  simp [State.lookedUp]

/-- What follows an uncorrectable bucket: the job ends, its block is restored and its step stopped (R370; log entry 101). -/
def State.bucketLost (s : State) (j : KdJob) (c blk : Nat) : State :=
  (({ s with kdq := [] } : State).startRestore c blk).coreFault j.core 0x0010 2 1 0xFFFF blk

section
variable {s : State} {j : KdJob} {e e2 : List Byte} {l : List (List Byte)}

/-! ### A job that stands alone -/

/-- The lookup engine goes on with its job, or ends it with its last key (R369). -/
theorem exec_dirLookup_good {course : Fin 8} (hkdq : s.kdq = [j]) (hput : j.put = false) (hcourse : courseOf j.core = course.val)
    (hitems : j.items = e :: l)
    (h1 : s.bucketBad (dirBuckets (max 1 s.dirNb) (BitVec.ofNat 64 (leNat e))).1 = none)
    (h2 : s.bucketBad (dirBuckets (max 1 s.dirNb) (BitVec.ofNat 64 (leNat e))).2 = none) :
    exec (.dirLookup course) s = .next (let t := s.lookedUp j (BitVec.ofNat 64 (leNat e))
      if l.isEmpty then ({ t with kdq := [] } : State).tidComplete j.core j.tid
      else { t with kdq := [{ j with items := l, done := j.done + 1 }] }) := by
  have hfind : s.kdq.findIdx? (fun j => !j.put && courseOf j.core == course.val) = some 0 := by simp [hkdq, hput, hcourse]
  have hget : s.kdq[0]? = some j := by simp [hkdq]
  let t := s.lookedUp j (BitVec.ofNat 64 (leNat e))
  have hleft : t.kdq = [j] := (s.lookedUp_kdq j (BitVec.ofNat 64 (leNat e))).trans hkdq
  show execDirLookup course s = _
  unfold execDirLookup
  simp only [hfind, hget, hitems, List.headD_cons, h1, h2, List.drop_succ_cons, List.drop_zero]
  change (if l.isEmpty = true
    then Host.Outcome.next (State.tidComplete { t with kdq := t.kdq.eraseIdx 0 } j.core j.tid)
    else Host.Outcome.next { t with kdq := t.kdq.set 0 { j with items := l, done := j.done + 1 } }) = _
  rw [hleft]
  exact (apply_ite Host.Outcome.next ..).symm

theorem exec_dirLookup_bad {course : Fin 8} {c blk : Nat} (hkdq : s.kdq = [j]) (hput : j.put = false)
    (hcourse : courseOf j.core = course.val) (hitems : j.items = e :: l)
    (h1 : s.bucketBad (dirBuckets (max 1 s.dirNb) (BitVec.ofNat 64 (leNat e))).1 = some (c, blk)) :
    exec (.dirLookup course) s = .next (s.bucketLost j c blk) := by
  have hfind : s.kdq.findIdx? (fun j => !j.put && courseOf j.core == course.val) = some 0 := by simp [hkdq, hput, hcourse]
  have hget : s.kdq[0]? = some j := by simp [hkdq]
  have herase : s.kdq.eraseIdx 0 = [] := by simp [hkdq]
  show execDirLookup course s = _
  unfold execDirLookup
  simp only [hfind, hget, hitems, List.headD_cons, h1, herase]
  rfl

/-- The sequencer applies an entry that is not its job's last (R371). -/
theorem exec_dirUpdateApply_good (hclear : s.dir.clearing = none) (hkdq : s.kdq = [j]) (hput : j.put = true)
    (hitems : j.items = e :: e2 :: l) (h1 : s.bucketBad (dirBuckets (max 1 s.dirNb) (wayKey e)).1 = none)
    (h2 : s.bucketBad (dirBuckets (max 1 s.dirNb) (wayKey e)).2 = none) :
    exec .dirUpdateApply s = .next { (s.dirUpdate j.del e).2 with kdq := [{ j with items := e2 :: l }] } := by
  have hfind : s.kdq.findIdx? (fun j => j.put) = some 0 := by simp [hkdq, hput]
  have hget : s.kdq[0]? = some j := by simp [hkdq]
  have hleft : (s.dirUpdate j.del e).2.kdq = [j] := (s.dirApply_kdq j.del e).trans hkdq
  show execDirUpdateApply s = _
  unfold execDirUpdateApply
  simp only [hclear, hfind, hget, hitems, List.headD_cons, h1, h2, List.drop_succ_cons, List.drop_zero, List.isEmpty_cons,
    Bool.false_eq_true, if_false, hleft, List.set_cons_zero]

theorem exec_dirUpdateApply_bad {c blk : Nat} (hclear : s.dir.clearing = none) (hkdq : s.kdq = [j]) (hput : j.put = true)
    (hitems : j.items = e :: e2 :: l) (h1 : s.bucketBad (dirBuckets (max 1 s.dirNb) (wayKey e)).1 = some (c, blk)) :
    exec .dirUpdateApply s = .next (s.bucketLost j c blk) := by
  have hfind : s.kdq.findIdx? (fun j => j.put) = some 0 := by simp [hkdq, hput]
  have hget : s.kdq[0]? = some j := by simp [hkdq]
  have herase : s.kdq.eraseIdx 0 = [] := by simp [hkdq]
  show execDirUpdateApply s = _
  unfold execDirUpdateApply
  simp only [hclear, hfind, hget, hitems, List.headD_cons, h1, herase]
  rfl

/-! ### Compaction -/

theorem exec_compactionMove_clear {b w : Nat} (hclear : s.dir.clearing = some (b, w)) :
    exec .compactionMove s = .next (let t := s.setWay b w (List.replicate 16 0)
      { t with dir := { t.dir with visit := (t.dir.visit + 1) % max 1 t.dirNb, clearing := none } }) := by
  show execCompactionMove s = _
  simp only [execCompactionMove, hclear, State.finishMove]

/-- A bucket with room is passed over (R373). -/
theorem exec_compactionMove_pass (hclear : s.dir.clearing = none) (hnb : s.dirNb ≠ 0) (hrun : s.backgroundPaused = false)
    (hroom : s.dirCount (s.dir.visit % s.dirNb) < 4) :
    exec .compactionMove s = .next { s with dir := { s.dir with visit := (s.dir.visit + 1) % s.dirNb, clearing := none } } := by
  have hmax : max 1 s.dirNb = s.dirNb := by omega
  show execCompactionMove s = _
  simp only [execCompactionMove, hclear, hnb, hrun, Bool.false_eq_true, or_self, if_false, hroom, if_true, hmax]

/-- Of a full bucket the first way that its other bucket can take is written there (R373). -/
theorem exec_compactionMove_write {w v : Nat} {ws : List Nat} (hclear : s.dir.clearing = none) (hnb : s.dirNb ≠ 0)
    (hrun : s.backgroundPaused = false) (hfull : 4 ≤ s.dirCount (s.dir.visit % s.dirNb))
    (hways : (List.range 4).filter (fun w => decide (s.dirCount (otherBucket s.dirNb (s.dir.visit % s.dirNb)
      (wayKey (s.dirWay (s.dir.visit % s.dirNb) w))) ≤ 2)) = w :: ws)
    (hfree : s.dirFree (otherBucket s.dirNb (s.dir.visit % s.dirNb) (wayKey (s.dirWay (s.dir.visit % s.dirNb) w))) = some v) :
    exec .compactionMove s = .next (let e := s.dirWay (s.dir.visit % s.dirNb) w
      let t := s.setWay (otherBucket s.dirNb (s.dir.visit % s.dirNb) (wayKey e)) v e
      { t with dir := { t.dir with clearing := some (s.dir.visit % s.dirNb, w) } }) := by
  have hpick : (List.range 4).find? (fun w => decide (s.dirCount (otherBucket s.dirNb (s.dir.visit % s.dirNb)
      (wayKey (s.dirWay (s.dir.visit % s.dirNb) w))) ≤ 2)) = some w := by
    rw [← List.head?_filter, hways, List.head?_cons]
  show execCompactionMove s = _
  simp only [execCompactionMove, hclear, hnb, hrun, Bool.false_eq_true, or_self, if_false, Nat.not_lt.mpr hfull, hpick, hfree]

end

/-! ### READY and the host's updates -/

theorem exec_dirReadySet {s : State} (hpass : s.passThrough = false) (hready : s.dir.ready = true ∨ s.freshBits 0x1024 = 0) :
    exec .dirReadySet s = .next { s with dir := { s.dir with ready := true } } := by
  show execDirReadySet s = _
  rcases hready with hready | hready <;> simp [execDirReadySet, hpass, hready]

section
variable {s : State} {f : FuncId} {x : Sub} {data : List Byte}

theorem exec_dirUpdate_other (hfront : s.front f.val 0x13 = some x) (howner : f.val ≠ s.dir.owner) :
    exec (.dirUpdate f data) s = .next ((s.popSub f.val).answer f.val x 0xFD 0 0) := by
  show execDirUpdate f data s = _
  simp only [execDirUpdate, hfront, howner, ne_eq, not_false_iff, if_true]

/-- The owner's entries wait for the step boundary (R375). -/
theorem exec_dirUpdate_owner (hfront : s.front f.val 0x13 = some x) (howner : f.val = s.dir.owner) (hop : fieldN x.bytes 1 1 ≤ 1)
    (hlow : 1 ≤ fieldN x.bytes 8 4) (hhigh : fieldN x.bytes 8 4 ≤ 65535)
    (hzero : x.reservedZero [(1, 1), (8, 4), (40, 1), (48, 8)] = true)
    (hrange : s.rangeOk f.val x (16 * fieldN x.bytes 8 4) = true) :
    exec (.dirUpdate f data) s = .next (let q := s.popSub f.val
      { q with dir := { q.dir with host := q.dir.host ++
        [⟨x.ref f.val, fieldN x.bytes 1 1 == 1, (List.range (fieldN x.bytes 8 4)).map (fun i => sliceB data (16 * i) 16), [], s.now⟩] } })
    := by
  have hgood : ¬ (1 < fieldN x.bytes 1 1 ∨ fieldN x.bytes 8 4 = 0 ∨ 65535 < fieldN x.bytes 8 4 ∨
      (!(x.reservedZero [(1, 1), (8, 4), (40, 1), (48, 8)])) = true ∨ (!(s.rangeOk f.val x (16 * fieldN x.bytes 8 4))) = true) := by
    simp only [hzero, hrange, Bool.not_true, Bool.false_eq_true, or_false]
    omega
  show execDirUpdate f data s = _
  simp only [execDirUpdate, hfront, if_neg (not_not_intro howner), if_neg hgood]

end

/-- Settles O14: each clause is the lemma of its command and case. -/
theorem dirEventsComplete : Obligations.DirEventsComplete := by
  unfold Obligations.DirEventsComplete
  intro s
  refine ⟨fun course j key l hkdq hput hcourse hitems => ⟨fun h1 h2 => ?_, fun c blk h1 => exec_dirLookup_bad hkdq hput hcourse hitems h1⟩,
    fun j e e2 l hclear hkdq hput hitems => ⟨exec_dirUpdateApply_good hclear hkdq hput hitems,
      fun c blk h1 => exec_dirUpdateApply_bad hclear hkdq hput hitems h1⟩,
    fun b w => exec_compactionMove_clear,
    fun hclear hnb hrun => ⟨exec_compactionMove_pass hclear hnb hrun,
      fun w l v hfull hways hfree => exec_compactionMove_write hclear hnb hrun hfull hways hfree⟩,
    exec_dirReadySet,
    fun f x data hfront => ⟨exec_dirUpdate_other hfront, fun howner hop hlow hhigh hzero hrange =>
      exec_dirUpdate_owner hfront howner hop hlow hhigh hzero hrange⟩⟩
  have hstep := exec_dirLookup_good hkdq hput hcourse hitems h1 h2
  constructor
  · intro hl
    rw [hstep, if_neg (by simpa using hl), State.lookedUp_eq]
  · intro hl
    rw [hstep, if_pos (by simpa using hl), State.lookedUp_eq]

end Sys2Proof.Machine
end

section
/-! PROOF. Weight loads and swaps (17 R381 to R395; 24 R531; log entries 9, 25, 46). -/

namespace Sys2Proof.Machine

/-! ### What the requests of chunks change -/

/-- Work on the chunks of a slot that leaves its phase and the count of its chunks: only groups and what leaves for elsewhere change,
and no control message leaves. -/
structure State.Fetches (g : Nat) (s t : State) : Prop where
  frame : t = { s with groups := t.groups, out := t.out }
  ctl : t.out.ctl = s.out.ctl
  phase : (t.group g).swap.phase = (s.group g).swap.phase
  count : (t.group g).swap.chunks.length = (s.group g).swap.chunks.length

section
variable {g : Nat} {s t u : State}

theorem State.Fetches.refl : State.Fetches g s s := ⟨rfl, rfl, rfl, rfl⟩

theorem State.Fetches.trans (h : State.Fetches g s t) (h2 : State.Fetches g t u) : State.Fetches g s u where
  frame := by
    have hu := h2.frame
    rw [h.frame] at hu
    exact hu
  ctl := h2.ctl.trans h.ctl
  phase := h2.phase.trans h.phase
  count := h2.count.trans h.count

theorem State.updSwap_group (s : State) (g : Nat) (f : Swap → Swap) :
    (s.updSwap g f).group g = { s.group g with swap := f (s.group g).swap } := State.updGroup_group ..

@[simp] theorem State.updSwap_swap (s : State) (g : Nat) (f : Swap → Swap) : ((s.updSwap g f).group g).swap = f (s.group g).swap := by
  simp [State.updSwap]

theorem State.updSwap_fetches {f : Swap → Swap} (hphase : ∀ w, (f w).phase = w.phase) (hcount : ∀ w, (f w).chunks.length = w.chunks.length) :
    State.Fetches g s (s.updSwap g f) := ⟨rfl, rfl, by simp [hphase], by simp [hcount]⟩

theorem State.updChunk_fetches (i : Nat) (f : Chunk → Chunk) : State.Fetches g s (s.updChunk g i f) :=
  State.updSwap_fetches (fun _ => rfl) (fun _ => List.length_modify ..)

theorem State.requestChunk_fetches (i stream : Nat) : State.Fetches g s (s.requestChunk g i stream) := by
  unfold State.requestChunk
  split
  · exact .refl
  · have hwork (f : Chunk → Chunk) : State.Fetches g s
        ((s.updChunk g i f).updSwap g (fun w => { w with inbox := w.inbox.filter (fun x => x.tid / 64 != stream) })) :=
      (State.updChunk_fetches i f).trans (State.updSwap_fetches (fun _ => rfl) (fun _ => rfl))
    dsimp only
    split <;> exact (hwork _).trans ⟨rfl, rfl, rfl, rfl⟩

theorem State.fetchChunks_fetches : State.Fetches g s (s.fetchChunks g) := by
  refine List.foldlRecOn (motive := fun t => State.Fetches g s t) _ _ .refl (fun t h p _ => ?_)
  dsimp only
  split
  · exact h.trans (State.requestChunk_fetches ..)
  · exact h

end

section
variable {s : State} {g : Slot} {f : FuncId} {x : Sub} {manifest sec data : List Byte} {others : List (List Byte × Nat)}

/-! ### The commands of a swap -/

/-- The activity notes of an activity that begins, but for what "key retirement" sends (22 R511). -/
def Maint.begun (m : Maint) (code arg : Nat) (byRec : Bool) : Maint :=
  { m with running := code, arg := arg, byRec := byRec, pauseAsked := false, subs := m.subs ++ m.pendingSubs, pendingSubs := [] }

theorem State.startActivity_plain (s : State) {code : Nat} (arg : Nat) (byRec : Bool) (hcode : code ≠ 4) :
    s.startActivity code arg byRec = s.updMaint (fun m => m.begun code arg byRec) := by
  unfold State.startActivity
  exact if_neg hcode

theorem exec_swap_other (hfront : s.front f.val 0x12 = some x) (hf : f.val ≠ 0) :
    exec (.swap f manifest others) s = .next ((s.popSub f.val).answer f.val x 0xFD 0 0) := by
  show execSwap f manifest others s = _
  simp only [execSwap, hfront]
  split
  · rw [if_neg hf]
  · rw [if_pos hf]

end

/-- The state of a lead whose swap has begun (17 R381): the activity runs, the manifest is measured, its sections are awaited. -/
def State.swapBegun (s : State) (g : Nat) (x : Sub) (manifest : List Byte) : State :=
  let k := s.group g
  let digest := Config.sha512 manifest
  let q := (((s.popSub 0).setMeasure (0x20 + k.owner) digest).startActivity 3 g false).updSwap g (fun w => { w with
    phase := .staging, policy := 1, limit := fieldN x.bytes 12 4, nextGen := BitVec.ofNat 32 (fieldN manifest 8 4)
    nextDigest := digest, sub := some (x.ref 0), staged := [], loadedBy := [], lastOldRunning := false
    releasedAll := false, released := [], stalled := none })
  if (q.others g).isEmpty then q else q.mgt (.manifest g manifest)

section
variable {s : State} {g : Slot} {x : Sub} {manifest sec data : List Byte} {others : List (List Byte × Nat)}

theorem exec_swap_led (hfront : s.front 0 0x12 = some x)
    (hled : (List.range 16).find? (fun h => (s.group h).formed && (s.group h).id == x.id && (s.group h).lead) = some g.val)
    (hbusy : s.maintBusy = false) (hpolicy : fieldN x.bytes 1 1 = 1) (hsrc : (s.group g.val).loadSrc.toNat % 2 = 1)
    (hzero : x.reservedZero [(1, 1), (8, 8), (40, 1), (48, 16)] = true) (hrange : s.rangeOk 0 x manifest.length = true) :
    exec (.swap 0 manifest others) s = .next (if s.manifestFail g.val manifest others true ≠ 0
      then (s.popSub 0).answer 0 x (s.manifestFail g.val manifest others true) 0 0
      else s.swapBegun g.val x manifest) := by
  show execSwap 0 manifest others s = _
  have hpeer : ((s.group g.val).loadSrc.toNat % 2 == 0) = false := by simp [hsrc]
  unfold execSwap
  simp only [Fin.val_zero, Fin.isValue, hfront, hled, hpeer, ne_eq, not_true_eq_false, if_false, hpolicy, hzero, hbusy, Bool.false_eq_true]
  rw [if_neg (by simp [hrange]), show ((1 : Nat) != 2) = true from rfl]
  split <;> rfl

/-- What a swap that begins changes (17 R381). -/
theorem State.swapBegun_spec (s : State) (g : Nat) (x : Sub) (manifest : List Byte) :
    let t := s.swapBegun g x manifest
    t = { s with groups := t.groups, funcs := t.funcs, maint := t.maint, sec := { s.sec with meas := t.sec.meas }, out := t.out } ∧
      t.maint.running = 3 ∧ t.maint.arg = g ∧ (t.group g).swap.phase = .staging ∧ (t.group g).swap.policy = 1 ∧
      (t.group g).swap.nextGen = BitVec.ofNat 32 (fieldN manifest 8 4) ∧ (t.group g).serve.gen = (s.group g).serve.gen ∧
      t.out.mgt = s.out.mgt ++ (if (s.others g).isEmpty then [] else [.manifest g manifest]) := by
  let q := (((s.popSub 0).setMeasure (0x20 + (s.group g).owner) (Config.sha512 manifest)).updMaint (fun m => m.begun 3 g false)).updSwap g
    (fun w => { w with
      phase := .staging, policy := 1, limit := fieldN x.bytes 12 4, nextGen := BitVec.ofNat 32 (fieldN manifest 8 4)
      nextDigest := Config.sha512 manifest, sub := some (x.ref 0), staged := [], loadedBy := [], lastOldRunning := false
      releasedAll := false, released := [], stalled := none })
  obtain ⟨w, hgroup⟩ : ∃ w, q.group g = { s.group g with swap := w } := ⟨_, State.updSwap_group ..⟩
  have hswap : (q.group g).swap.phase = .staging ∧ (q.group g).swap.policy = 1 ∧
      (q.group g).swap.nextGen = BitVec.ofNat 32 (fieldN manifest 8 4) := by simp [q]
  have hothers : q.others g = s.others g := by
    rw [State.others, hgroup]
    rfl
  have hbegun : s.swapBegun g x manifest = if (q.others g).isEmpty then q else q.mgt (.manifest g manifest) := by
    simp only [State.swapBegun, State.startActivity_plain _ g false (show 3 ≠ 4 by decide)]
    rfl
  obtain ⟨hphase, hpolicy, hgen⟩ := hswap
  dsimp only
  rw [hbegun, hothers]
  split_ifs
  · refine ⟨?_, rfl, rfl, hphase, hpolicy, hgen, congrArg (·.serve.gen) hgroup, (List.append_nil _).symm⟩
    dsimp only [q, State.updSwap, State.updGroup, State.updMaint, State.setMeasure, State.updSec, State.popSub, State.updFunc]
  · refine ⟨?_, rfl, rfl, hphase, hpolicy, hgen, congrArg (·.serve.gen) hgroup, rfl⟩
    dsimp only [q, State.mgt, State.updSwap, State.updGroup, State.updMaint, State.setMeasure, State.updSec, State.popSub, State.updFunc]

end

/-! ### The sections of a swap -/

section
variable {s : State} {g : Slot} {manifest sec : List Byte}

/-- The state of a member that has staged its section: its chunks are fetched, the manifest is measured (17 R382). -/
def State.sectionStaged (s : State) (g : Nat) (manifest sec : List Byte) (ks : List Chunk) : State :=
  let q := (s.startActivity 3 g false).updSwap g (fun w => { w with
    phase := .staging, chunks := ks, inbox := [], section_ := sec, nmin := fieldN manifest 16 2
    nextGen := BitVec.ofNat 32 (fieldN manifest 8 4), nextDigest := Config.sha512 manifest, releasedAll := false
    released := [], stalled := none, lastOldRunning := false })
  ((q.fetchChunks g).setMeasure (0x20 + (s.group g).owner) (Config.sha512 manifest)).ctl (.staged g 0)

section
variable (hpass : s.passThrough = false) (hformed : (s.group g.val).formed = true) (hlead : (s.group g.val).lead = false)
  (hbusy : s.maintBusy = false)
include hpass hformed hlead hbusy

/-- A section of another length or hash than its entry's is answered PLACEMENT (17 R382). -/
theorem exec_swapStage_bad
    (hbad : ¬ (sec.length = fieldN (sliceB manifest (256 + 80 * s.memberIndex g.val) 80) 8 8 ∧
      Config.sha512 sec = sliceB (sliceB manifest (256 + 80 * s.memberIndex g.val) 80) 16 64)) :
    exec (.swapStage g manifest sec) s = .next (s.ctl (.staged g.val 7)) := by
  show execSwapStage g manifest sec s = _
  simp only [execSwapStage, hpass, hformed, hlead, hbusy, Bool.not_true, Bool.or_false, Bool.false_eq_true, if_false,
    Bool.and_false, if_neg hbad]

theorem exec_swapStage_good {ks : List Chunk}
    (hgood : sec.length = fieldN (sliceB manifest (256 + 80 * s.memberIndex g.val) 80) 8 8 ∧
      Config.sha512 sec = sliceB (sliceB manifest (256 + 80 * s.memberIndex g.val) 80) 16 64)
    (hks : s.sectionChunks sec (fieldN manifest 16 2) (fieldN manifest 20 2) = some ks) :
    exec (.swapStage g manifest sec) s = .next (s.sectionStaged g.val manifest sec ks) := by
  have hidle : (s.maint.running == 3 && s.maint.arg == g.val) = false := by
    simp only [State.maintBusy, Bool.or_eq_false_iff, bne_eq_false_iff_eq] at hbusy
    simp [hbusy.1.1]
  show execSwapStage g manifest sec s = _
  simp only [execSwapStage, hpass, hformed, hlead, hbusy, hidle, Bool.not_true, Bool.or_false, Bool.false_eq_true, if_false,
    Bool.and_false, if_pos hgood, hks]
  rfl

end

theorem State.sectionStaged_spec (s : State) (g : Nat) (manifest sec : List Byte) (ks : List Chunk) :
    let t := s.sectionStaged g manifest sec ks
    t = { s with groups := t.groups, maint := t.maint, sec := { s.sec with meas := t.sec.meas }, out := t.out } ∧
      t.maint.running = 3 ∧ (t.group g).swap.phase = .staging ∧ (t.group g).swap.chunks.length = ks.length ∧
      t.out.ctl = s.out.ctl ++ [.staged g 0] := by
  let q := (s.updMaint (fun m => m.begun 3 g false)).updSwap g (fun w => { w with
    phase := .staging, chunks := ks, inbox := [], section_ := sec, nmin := fieldN manifest 16 2
    nextGen := BitVec.ofNat 32 (fieldN manifest 8 4), nextDigest := Config.sha512 manifest, releasedAll := false
    released := [], stalled := none, lastOldRunning := false })
  obtain ⟨hframe, hctl, hphase, hcount⟩ : State.Fetches g q (q.fetchChunks g) := State.fetchChunks_fetches
  obtain ⟨gs, o, hr⟩ : ∃ gs o, q.fetchChunks g = { q with groups := gs, out := o } := ⟨_, _, hframe⟩
  have hstate : s.sectionStaged g manifest sec ks =
      (({ q with groups := gs, out := o } : State).setMeasure (0x20 + (s.group g).owner) (Config.sha512 manifest)).ctl (.staged g 0) := by
    rw [← hr]
    simp only [State.sectionStaged, State.startActivity_plain _ g false (show 3 ≠ 4 by decide)]
    rfl
  rw [hr] at hctl hphase hcount
  dsimp only
  rw [hstate]
  exact ⟨rfl, rfl, hphase.trans (by simp [q]), hcount.trans (by simp [q]), congrArg (· ++ [CtlMsg.staged g 0]) hctl⟩

/-! ### The messages of a swap -/

section
variable {place other : Place}

theorem exec_staged_failed {status : Byte} (hlead : (s.group g.val).lead = true) (hphase : (s.group g.val).swap.phase = .staging)
    (hplace : place ∈ s.others g.val) (hstatus : status ≠ 0) :
    exec (.staged g place status) s = .next (s.endSwap g.val status.toNat) := by
  show execStaged g place status s = _
  simp only [execStaged, hlead, hphase]
  rw [if_pos (by simpa using hplace), if_pos hstatus]

theorem State.allStaged_of_open {s : State} {g : Nat} (hother : other ∈ (s.group g).places) (hopen : other ∉ (s.group g).swap.staged) :
    s.allStaged g = s := by
  unfold State.allStaged
  rw [if_neg]
  simp only [List.all_eq_true, not_forall]
  exact ⟨other, hother, by simpa using hopen⟩

theorem State.allLoaded_of_open {s : State} {g : Nat} (hother : other ∈ (s.group g).places) (hopen : other ∉ (s.group g).swap.loadedBy) :
    s.allLoaded g = s := by
  unfold State.allLoaded
  dsimp only
  rw [if_neg]
  simp only [List.all_eq_true, not_forall]
  exact ⟨other, hother, by simpa using hopen⟩

theorem State.updSwap_places (s : State) (g : Nat) (f : Swap → Swap) : ((s.updSwap g f).group g).places = (s.group g).places := by
  rw [State.updSwap_group]
  rfl

theorem exec_staged_collected (hlead : (s.group g.val).lead = true) (hphase : (s.group g.val).swap.phase = .staging)
    (hplace : place ∈ s.others g.val) (hnew : place ∉ (s.group g.val).swap.staged)
    (hother : other ∈ (s.group g.val).places) (hopen : other ∉ (s.group g.val).swap.staged) (hne : other ≠ place) :
    exec (.staged g place 0) s = .next (s.updSwap g.val (fun w => { w with staged := w.staged ++ [place] })) := by
  show execStaged g place 0 s = _
  have hrest := State.allStaged_of_open (other := other) (g := g.val)
    (s := s.updSwap g.val (fun w => { w with staged := w.staged ++ [place] }))
    (by rwa [State.updSwap_places]) (by simp [hopen, hne])
  simp [execStaged, hlead, hphase, hplace, hnew, hrest]

theorem exec_loaded_collected (hlead : (s.group g.val).lead = true) (hphase : (s.group g.val).swap.phase = .loading)
    (hplace : place ∈ s.others g.val) (hnew : place ∉ (s.group g.val).swap.loadedBy)
    (hother : other ∈ (s.group g.val).places) (hopen : other ∉ (s.group g.val).swap.loadedBy) (hne : other ≠ place) :
    exec (.loaded g place) s = .next (s.updSwap g.val (fun w => { w with loadedBy := w.loadedBy ++ [place] })) := by
  show execLoaded g place s = _
  have hrest := State.allLoaded_of_open (other := other) (g := g.val)
    (s := s.updSwap g.val (fun w => { w with loadedBy := w.loadedBy ++ [place] }))
    (by rwa [State.updSwap_places]) (by simp [hopen, hne])
  simp [execLoaded, hlead, hphase, hplace, hnew, hrest]

end

theorem exec_releaseAll_member (hlead : (s.group g.val).lead = false) (hphase : (s.group g.val).swap.phase = .staging) :
    exec (.releaseAll g) s =
      .next (((s.updSwap g.val (fun w => { w with phase := .loading })).releaseEvery g.val).checkLoaded g.val) := by
  show execReleaseAll g s = _
  simp [execReleaseAll, hlead, hphase]

/-! ### Chunks -/

/-- The chunk that arrives ends a stall on it (17 R391). -/
def State.chunkHere (s : State) (g i : Nat) : State :=
  s.updSwap g (fun w => { w with stalled := if w.stalled.map (·.1) == some i then none else w.stalled })

/-- A chunk that is awaited goes through its checks; where it can be placed, the loads that end are looked at (17 R390, R391). -/
theorem exec_chunkReceived_awaited {i : W32} {x : Chunk} {stream : BitVec 6} {data : List Byte}
    (hchunk : (s.group g.val).swap.chunk i.toNat = some x) (hasked : x.attempts ≠ 0) (hopen : x.verified = false) (hheld : x.held = none) :
    exec (.chunkReceived g i stream data) s = .next (
      let q := s.chunkHere g.val i.toNat
      let t := q.chunkArrived g.val i.toNat stream.toNat x data
      if data.length = x.encLen ∧ Config.sha512 data = x.srcHash ∧ q.chunkFree g.val x = true then t.checkLoaded g.val else t) := by
  have hawaited : ¬ (x.attempts = 0 ∨ x.verified = true ∨ x.held.isSome = true) := by simp [hasked, hopen, hheld]
  show execChunkReceived g i stream data s = _
  simp only [execChunkReceived, hchunk, if_neg hawaited, State.chunkHere]
  rfl

theorem exec_chunkTimeout_awaited {i : W32} {x : Chunk} {stream : BitVec 6} (hchunk : (s.group g.val).swap.chunk i.toNat = some x)
    (hasked : x.attempts ≠ 0) (hopen : x.verified = false) (hheld : x.held = none)
    (hstall : (s.group g.val).swap.stalled.map (·.1) ≠ some i.toNat) :
    exec (.chunkTimeout g i stream) s = .next (s.chunkFailed g.val i.toNat 1 stream.toNat) := by
  have hawaited : ¬ (x.attempts = 0 ∨ x.verified = true ∨ x.held.isSome = true ∨
      (s.group g.val).swap.stalled.map (·.1) = some i.toNat) := by simp only [hasked, hopen, hheld, hstall]; simp
  show execChunkTimeout g i stream s = _
  simp only [execChunkTimeout, hchunk, if_neg hawaited]

/-! ### ABANDON and VALID -/

theorem exec_abandon (hpass : s.passThrough = false) : exec (.abandon g) s = .next (s.abandon g.val) := by
  show execAbandon g s = _
  simp [execAbandon, hpass]

end

/-- Settles O15: the clauses are the lemmas of the commands; of SWAP and of a staged section the specifications of the states they reach. -/
theorem loadEventsComplete : Obligations.LoadEventsComplete := by
  unfold Obligations.LoadEventsComplete
  intro s g hpass
  refine ⟨fun f x manifest others hfront hf => exec_swap_other hfront hf, ?_, ?_, ?_, exec_releaseAll_member, ?_, ?_, ?_, ?_, ?_⟩
  · intro x manifest others hfront hled hbusy _ hpolicy hsrc hzero hrange
    have hstep := exec_swap_led (others := others) hfront hled hbusy hpolicy hsrc hzero hrange
    by_cases hstatus : s.manifestFail g.val manifest others true = 0
    · rw [if_neg (not_not_intro hstatus)] at hstep
      obtain ⟨hframe, hspec⟩ := s.swapBegun_spec g.val x manifest
      exact ⟨_, hstep, hframe, fun h => absurd hstatus h, fun _ => hspec⟩
    · rw [if_pos hstatus] at hstep
      obtain ⟨fs, o, ht⟩ : ∃ fs o, (s.popSub 0).answer 0 x (s.manifestFail g.val manifest others true) 0 0 =
          { s.popSub 0 with funcs := fs, out := o } := ⟨_, _, State.complete_hostOnly ..⟩
      exact ⟨_, hstep, by rw [ht]; rfl, fun _ => rfl, fun h => absurd h hstatus⟩
  · intro manifest sec hformed hlead hbusy _
    refine ⟨fun hlen => exec_swapStage_bad hpass hformed hlead hbusy (fun h => hlen h.1), fun ks hlen hks => ?_⟩
    by_cases hhash : Config.sha512 sec = sliceB (sliceB manifest (256 + 80 * s.memberIndex g.val) 80) 16 64
    · obtain ⟨hframe, hspec⟩ := s.sectionStaged_spec g.val manifest sec ks
      exact ⟨_, exec_swapStage_good hpass hformed hlead hbusy ⟨hlen, hhash⟩ hks, hframe, fun h => absurd hhash h, fun _ => hspec⟩
    · exact ⟨_, exec_swapStage_bad hpass hformed hlead hbusy (fun h => hhash h.2), rfl, fun _ => rfl, fun h => absurd h hhash⟩
  · intro place other hlead hphase hplace hnew
    exact ⟨fun status => exec_staged_failed hlead hphase hplace, exec_staged_collected hlead hphase hplace hnew⟩
  · intro place other hlead hphase hplace hnew hother hopen hne
    exact exec_loaded_collected hlead hphase hplace hnew hother hopen hne
  · intro i x stream data hchunk hasked hopen hheld
    have hstep (data : List Byte) := exec_chunkReceived_awaited (stream := stream) (data := data) hchunk hasked hopen hheld
    refine ⟨fun hlen => ?_, fun hlen hhash => ?_, fun hlen hhash (hfree : (s.chunkHere g.val i.toNat).chunkFree g.val x = false) => ?_,
      fun hlen hhash (hfree : (s.chunkHere g.val i.toNat).chunkFree g.val x = true) => ?_, exec_chunkTimeout_awaited hchunk hasked hopen hheld⟩
    · rw [hstep, if_neg (fun h => hlen h.1), State.chunkArrived, if_pos hlen]
      rfl
    · rw [hstep, if_neg (fun h => hhash h.2.1), State.chunkArrived, if_neg (not_not_intro hlen), if_pos hhash]
      rfl
    · rw [hstep, if_neg (fun h => by simp [hfree] at h), State.chunkArrived, if_neg (not_not_intro hlen),
        if_neg (not_not_intro hhash), if_neg (by simp [hfree])]
      rfl
    · rw [hstep, if_pos ⟨hlen, hhash, hfree⟩, State.chunkArrived, if_neg (not_not_intro hlen), if_neg (not_not_intro hhash),
        if_pos hfree]
      rfl
  · intro h
    rw [exec_abandon hpass, State.abandon, if_pos (by simp [h])]
  · intro h
    rw [exec_abandon hpass, State.abandon, if_neg (by simpa [Option.isSome_iff_ne_none] using h)]
  · show execParityValid g s = _
    simp [execParityValid, hpass]

end Sys2Proof.Machine
end

section
/-! PROOF. The submissions of a ring (18 R409, R410, R413, R414; log entries 36, 58). -/

namespace Sys2Proof.Machine

section
variable {s : State} {f : FuncId} {x : Sub} {g e : Nat} {r : Req}

/-! ### REQUEST and CANCEL -/

theorem exec_request_unserved {prompt : List W32} (hfront : s.front f.val 1 = some x) (hserve : (s.popSub f.val).servingOf f.val x = none) :
    exec (.request f prompt) s = .next ((s.popSub f.val).answer f.val x 0xFD 0 0) := by
  show execRequest f prompt s = _
  simp only [execRequest, hfront, hserve]

theorem exec_request_served {prompt : List W32} (hfront : s.front f.val 1 = some x) (hserve : (s.popSub f.val).servingOf f.val x = some g)
    (hflags : fieldN x.bytes 1 1 < 4) (hprio : fieldN x.bytes 2 1 < 64) (hlen : fieldN x.bytes 12 2 < 16384)
    (hzero : x.reservedZero [(1, 3), (8, 19), (28, 3), (32, 9), (48, 12)] = true)
    (hrange : (s.popSub f.val).rangeOk f.val x (4 * fieldN x.bytes 24 3) = true) :
    exec (.request f prompt) s = .next ((s.popSub f.val).updServe g (fun v => { v with
      news := v.news ++ [⟨x.ref f.val, x.bytes, fitTokens (fieldN x.bytes 24 3) prompt⟩] })) := by
  show execRequest f prompt s = _
  simp only [execRequest, hfront, hserve]
  rw [if_neg (by simp [hzero, hrange, hflags, hprio, hlen])]

theorem exec_cancel_served (hfront : s.front f.val 2 = some x) (hserve : (s.popSub f.val).servingOf f.val x = some g)
    (hzero : x.reservedZero [(8, 4), (56, 4)] = true) :
    exec (.cancel f) s = .next ((s.popSub f.val).updServe g (fun v => { v with cancels := v.cancels ++ [(x.ref f.val, x.id)] })) := by
  show execCancel f s = _
  simp only [execCancel, hfront, hserve]
  rw [if_neg (by simp [hzero])]

/-! ### CONTINUE -/

theorem exec_continueReq_refused {status : Nat} {tokens : List W32} (hfront : s.front f.val 3 = some x)
    (hstatus : (s.popSub f.val).continueStatus f.val x = some status) :
    exec (.continueReq f tokens) s = .next ((s.popSub f.val).answer f.val x status 0 0) := by
  show execContinueReq f tokens s = _
  simp only [execContinueReq, hfront, hstatus]

theorem exec_continueReq_idle {tokens : List W32} (hfront : s.front f.val 3 = some x)
    (hstatus : (s.popSub f.val).continueStatus f.val x = none) (hserve : (s.popSub f.val).servingOf f.val x = some g)
    (hown : (s.popSub f.val).ownReq f.val g x = some (e, r)) (hidle : r.state = .idle) :
    exec (.continueReq f tokens) s = .next (((s.popSub f.val).answer f.val x 0 0 0).updReq g e
      (fun r => { r with state := .decode, unrun := fitTokens (fieldN x.bytes 24 3) tokens })) := by
  show execContinueReq f tokens s = _
  simp only [execContinueReq, hfront, hstatus, hserve, hown, hidle]

/-! ### SPILL, RELOAD and RELEASE -/

theorem exec_spill_refused {status : Nat} (hfront : s.front f.val 4 = some x)
    (htarget : (s.popSub f.val).reqTarget f.val x = .error status) :
    exec (.spill f) s = .next ((s.popSub f.val).answer f.val x status 0 0) := by
  show execSpill f s = _
  simp only [execSpill, hfront, htarget]

theorem exec_spill (hfront : s.front f.val 4 = some x) (htarget : (s.popSub f.val).reqTarget f.val x = .ok (g, e, r)) :
    exec (.spill f) s = .next (if r.state = .idle then (s.popSub f.val).startSpill g e (some (x.ref f.val))
      else (s.popSub f.val).answer f.val x 2 0 0) := by
  show execSpill f s = _
  simp only [execSpill, hfront, htarget, beq_iff_eq]

theorem exec_reload (hfront : s.front f.val 5 = some x) (htarget : (s.popSub f.val).reqTarget f.val x = .ok (g, e, r)) :
    exec (.reload f) s = .next (if r.state = .spilled ∧ r.waitSub = none then (s.popSub f.val).startReload g e (some (x.ref f.val))
      else (s.popSub f.val).answer f.val x 2 0 0) := by
  show execReload f s = _
  simp only [execReload, hfront, htarget, Bool.and_eq_true, beq_iff_eq, Option.isNone_iff_eq_none]

theorem exec_release (hfront : s.front f.val 6 = some x) (htarget : (s.popSub f.val).reqTarget f.val x = .ok (g, e, r)) :
    exec (.release f) s = .next (if r.state = .idle ∨ r.state = .spilled
      then ((s.popSub f.val).endReq g e 0x0B).answer f.val x 0 0 0 else (s.popSub f.val).answer f.val x 2 0 0) := by
  show execRelease f s = _
  simp only [execRelease, hfront, htarget, Bool.or_eq_true, beq_iff_eq]

/-! ### STEP and LOAD_IMAGE -/

theorem exec_step_waits {block : List Byte} (hfront : s.front f.val 0x10 = some x)
    (hgroup : (List.range 16).find? (fun g => ((s.popSub f.val).group g).formed && ((s.popSub f.val).group g).lead &&
      ((s.popSub f.val).group g).owner == f.val && ((s.popSub f.val).group g).id == x.id) = some g)
    (hsolver : ((s.popSub f.val).group g).solver = true)
    (hzero : x.reservedZero [(1, 3), (8, 4), (16, 16), (40, 1), (48, 8)] = true)
    (hplain : fieldN x.bytes 1 1 = 0) (hprio : fieldN x.bytes 2 1 < 64) (hnum : fieldN x.bytes 24 8 = 0)
    (hrange : (s.popSub f.val).rangeOk f.val x (368 + 32 * fieldN block 236 4) = true) :
    exec (.step f block) s = .next ((s.popSub f.val).updServe g (fun v => { v with
      stepq := v.stepq ++ [(x.ref f.val, x.bytes, sliceB block 0 (368 + 32 * fieldN block 236 4))] })) := by
  have hreplay : bitN 0 0 = false := by decide
  have hforce : bitN 0 1 = false := by decide
  show execStep f block s = _
  simp only [execStep, hfront, hgroup, hplain, hreplay, hforce]
  rw [if_neg (by simp [hsolver]), if_neg (by simp [hzero, hrange, hprio, hnum])]

theorem exec_loadImage_other {file : ImageFile} (hfront : s.front f.val 0x11 = some x) (hf : f.val ≠ 0) :
    exec (.loadImage f file) s = .next ((s.popSub f.val).answer f.val x 0xFD 0 0) := by
  show execLoadImage f file s = _
  simp only [execLoadImage, hfront]
  rw [if_pos hf]

/-- A load by PF0 waits in its ring while a step holds cores (18 R414; log entry 40). -/
theorem exec_loadImage {file : ImageFile} (hfront : s.front f.val 0x11 = some x) (hf : f.val = 0)
    (hzero : x.reservedZero [(8, 4), (40, 1), (48, 16)] = true) (hlen : fieldN x.bytes 56 8 = file.raw.length)
    (hrange : (s.popSub f.val).rangeOk f.val x (fieldN x.bytes 56 8) = true) :
    exec (.loadImage f file) s = .next (
      let q := s.popSub f.val
      let r := q.loadImage (Image.ofFile file) ((List.range 16).find? (fun g => (q.group g).formed && (q.group g).id == x.id))
        (imageSound file) file.differ
      if (List.range 16).any (fun h => (q.step' h).holdsCores) = true then s else r.2.2.answer f.val x r.1 r.2.1 0) := by
  show execLoadImage f file s = _
  simp only [execLoadImage, hfront]
  rw [if_neg (not_not_intro hf), if_neg (by simp [hzero, hlen, hlen ▸ hrange])]
  exact (apply_ite Host.Outcome.next ..).symm

end

/-- Settles O16: one submission after another, by the lemmas of the commands that carry them out. -/
theorem submissionsComplete : Obligations.SubmissionsComplete := by
  unfold Obligations.SubmissionsComplete
  intro s f x
  refine ⟨fun hfront => ⟨fun _ => exec_request_unserved hfront, fun g _ => exec_request_served hfront⟩,
    fun hfront g => exec_cancel_served hfront,
    fun hfront => ⟨fun _ _ => exec_continueReq_refused hfront, fun g e r _ => exec_continueReq_idle hfront⟩,
    fun hfront => ⟨fun _ => exec_spill_refused hfront, fun g e r htarget => ?_⟩,
    fun hfront g e r htarget => ?_, fun hfront g e r htarget => ?_,
    fun hfront g block => exec_step_waits hfront,
    fun hfront file => ⟨exec_loadImage_other hfront, fun hf hzero hlen hrange => ?_⟩⟩
  · rw [exec_spill hfront htarget]
    exact ⟨fun h => by rw [if_pos h], fun h => by rw [if_neg h]; rfl⟩
  · rw [exec_reload hfront htarget]
    exact ⟨fun h hw => by rw [if_pos ⟨h, hw⟩], fun h => by rw [if_neg (fun hs => h hs.1)]; rfl⟩
  · rw [exec_release hfront htarget]
    exact ⟨fun h => by rw [if_pos h]; rfl, fun h hs => by rw [if_neg (not_or_intro h hs)]; rfl⟩
  · have hstep := exec_loadImage hfront hf hzero hlen hrange
    refine ⟨fun hfree => ?_, fun h hh hheld => ?_⟩
    · rw [hstep, if_neg]
      show ¬ (List.range 16).any (fun h => (s.step' h).holdsCores) = true
      simpa using hfree
    · rw [hstep, if_pos]
      exact List.any_eq_true.mpr ⟨h, List.mem_range.mpr hh, hheld⟩

end Sys2Proof.Machine
end

section
/-! PROOF. Doorbells, rings, and the resets of functions and of the bus (18 R398, R402 to R406, R411; 22 R500, R501; 24 R539; log entries
9, 28, 59, 60). -/

namespace Sys2Proof.Machine

/-! ### What the records of a function leave of its set-up -/

/-- From s to t no function is switched on or off, and none changes the mask of its doorbell. -/
structure State.SetUpKept (s t : State) : Prop where
  enabled : ∀ h, (t.func h).enabled = (s.func h).enabled
  dbMask : ∀ h, (t.func h).dbMask = (s.func h).dbMask

section
variable {s t : State}

theorem State.SetUpKept.refl : s.SetUpKept s := ⟨fun _ => rfl, fun _ => rfl⟩

theorem State.SetUpKept.of_funcs {u : State} (h : s.SetUpKept t) (hfuncs : u.funcs = t.funcs) : s.SetUpKept u where
  enabled := fun n => by simpa only [State.func, hfuncs] using h.enabled n
  dbMask := fun n => by simpa only [State.func, hfuncs] using h.dbMask n

theorem State.SetUpKept.hostWrite (h : s.SetUpKept t) {f a : Nat} {bs : List Byte} : s.SetUpKept (t.hostWrite f a bs) := h.of_funcs rfl

theorem State.SetUpKept.updServe (h : s.SetUpKept t) {g : Nat} {v : Serve → Serve} : s.SetUpKept (t.updServe g v) := h.of_funcs rfl

theorem State.SetUpKept.updStep (h : s.SetUpKept t) {g : Nat} {r : StepRun → StepRun} : s.SetUpKept (t.updStep g r) := h.of_funcs rfl

theorem State.SetUpKept.updDet (h : s.SetUpKept t) {c : Nat} {d : Detect → Detect} : s.SetUpKept (t.updDet c d) := h.of_funcs rfl

theorem State.SetUpKept.updReq (h : s.SetUpKept t) {g e : Nat} {r : Req → Req} : s.SetUpKept (t.updReq g e r) := h.of_funcs rfl

theorem State.SetUpKept.ctl (h : s.SetUpKept t) {m : CtlMsg} : s.SetUpKept (t.ctl m) := h.of_funcs rfl

theorem State.SetUpKept.foldl {α : Type} {l : List α} {op : State → α → State} (h : s.SetUpKept t)
    (hop : ∀ (q : State) a, s.SetUpKept q → s.SetUpKept (op q a)) : s.SetUpKept (l.foldl op t) :=
  List.foldlRecOn (motive := fun q => s.SetUpKept q) _ _ h (fun q hq a _ => hop q a hq)

theorem State.updFunc_func_ne (s : State) {f h : Nat} (g : Func → Func) (hne : h ≠ f) : (s.updFunc f g).func h = s.func h :=
  Recs.get_put_ne _ _ _ hne

theorem State.SetUpKept.updFunc (h : s.SetUpKept t) {f : Nat} {g : Func → Func} (henabled : ∀ x, (g x).enabled = x.enabled)
    (hmask : ∀ x, (g x).dbMask = x.dbMask) : s.SetUpKept (t.updFunc f g) := by
  have hfunc (n : Nat) : ((t.updFunc f g).func n).enabled = (t.func n).enabled ∧ ((t.updFunc f g).func n).dbMask = (t.func n).dbMask := by
    by_cases hf : n = f
    · rw [hf, State.updFunc_func]
      exact ⟨henabled _, hmask _⟩
    · rw [State.updFunc_func_ne _ _ hf]
      exact ⟨rfl, rfl⟩
  exact ⟨fun n => (hfunc n).1.trans (h.enabled n), fun n => (hfunc n).2.trans (h.dbMask n)⟩

theorem State.SetUpKept.writeIndex (h : s.SetUpKept t) {f k : Nat} {v : W32} : s.SetUpKept (t.writeIndex f k v) := by
  unfold State.writeIndex
  split
  · exact h.of_funcs rfl
  · exact h

theorem State.SetUpKept.msix (h : s.SetUpKept t) {f v : Nat} : s.SetUpKept (t.msix f v) := by
  unfold State.msix
  split
  · exact h.updFunc (fun _ => rfl) (fun _ => rfl)
  · exact h.of_funcs rfl

theorem State.SetUpKept.updRing (h : s.SetUpKept t) {f k : Nat} {q : Ring → Ring} :
    s.SetUpKept (t.updFunc f (fun x => x.updRing k q)) := h.updFunc (fun _ => rfl) (fun _ => rfl)

theorem State.SetUpKept.ringWrite (h : s.SetUpKept t) {f k : Nat} {bs : List Byte} : s.SetUpKept (t.ringWrite f k bs) := by
  have hindex (a : Nat) (q : Ring → Ring) (v : W32) :
      s.SetUpKept (((t.hostWrite f a bs).updFunc f (fun x => x.updRing k q)).writeIndex f k v) := h.hostWrite.updRing.writeIndex
  unfold State.ringWrite
  dsimp only
  split
  · exact (hindex _ _ _).updRing.msix
  · exact hindex _ _ _

theorem State.SetUpKept.complete (h : s.SetUpKept t) {x : SubRef} {bs : List Byte} : s.SetUpKept (t.complete x bs) := by
  unfold State.complete
  split
  · exact h.ringWrite
  · exact h.updFunc (fun _ => rfl) (fun _ => rfl)

theorem State.SetUpKept.raise (h : s.SetUpKept t) {f : Nat} {e : Event} : s.SetUpKept (t.raise f e) := by
  unfold State.raise
  split_ifs
  · exact h.ringWrite
  · exact h.updFunc (fun _ => rfl) (fun _ => rfl)
  · exact h.updFunc (fun _ => rfl) (fun _ => rfl)

theorem State.SetUpKept.tokenRecord (h : s.SetUpKept t) {f ring : Nat} {bs : List Byte} : s.SetUpKept (t.tokenRecord f ring bs) := by
  unfold State.tokenRecord
  split
  · exact h.ringWrite
  · exact h.updFunc (fun _ => rfl) (fun _ => rfl)

theorem State.SetUpKept.deliver (h : s.SetUpKept t) {f : Nat} {r : StepRec} : s.SetUpKept (t.deliver f r) := by
  unfold State.deliver State.putRecord
  split
  · exact h.ringWrite.raise
  · exact h.updFunc (fun _ => rfl) (fun _ => rfl)

/-! ### What the end of a request and of a step leave of it -/

theorem State.SetUpKept.freeGroups (h : s.SetUpKept t) {g : Nat} {ps : List Nat} : s.SetUpKept (t.freeGroups g ps) :=
  h.foldl (fun _ _ hq => hq.of_funcs rfl)

theorem State.SetUpKept.freeReq (h : s.SetUpKept t) {g e : Nat} : s.SetUpKept (t.freeReq g e) := by
  have hrest {q : State} (hq : s.SetUpKept q) (ps : List Nat) (v : Serve → Serve) (f : Nat) (l : List W32 → List W32) :
      s.SetUpKept (((q.freeGroups g ps).updServe g v).updFunc f (fun f => { f with recent := l f.recent })) :=
    hq.freeGroups.updServe.updFunc (fun _ => rfl) (fun _ => rfl)
  unfold State.freeReq
  dsimp only
  refine hrest ?_ _ _ _ (fun r => ((t.req g e).id :: r).take 1024)
  split
  · split_ifs
    · exact h
    · exact h.complete
    · exact h.complete
  · exact h

theorem State.SetUpKept.endReq (h : s.SetUpKept t) {g e code : Nat} : s.SetUpKept (t.endReq g e code) := by
  have hrecord : s.SetUpKept (t.endRecord g e code) := by
    unfold State.endRecord State.reqRecord
    dsimp only
    split
    · exact h
    · exact h.tokenRecord
  unfold State.endReq
  split
  · exact h.freeReq
  · exact hrecord.freeReq

theorem State.SetUpKept.requestRecovery (h : s.SetUpKept t) {code arg : Nat} : s.SetUpKept (t.requestRecovery code arg) := by
  unfold State.requestRecovery State.startActivity State.sendSpillKey
  dsimp only
  split_ifs
  · exact h
  all_goals exact h.of_funcs rfl

theorem State.SetUpKept.failBatch (h : s.SetUpKept t) {g : Nat} : s.SetUpKept (t.failBatch g) := by
  unfold State.failBatch
  refine (h.foldl (fun q b hq => ?_)).of_funcs rfl
  dsimp only
  split
  · exact hq.endReq
  · exact hq

theorem State.SetUpKept.answerStep (h : s.SetUpKept t) {g : Nat} {st : StepStatus} {len : Nat} : s.SetUpKept (t.answerStep g st len) := by
  unfold State.answerStep
  split
  · exact h.complete.of_funcs rfl
  · exact h

/-- The record of a step that ends is delivered; the batch of one that failed ends with it. -/
theorem State.SetUpKept.recorded (h : s.SetUpKept t) {f g : Nat} {r : StepRec} {b : Bool} :
    s.SetUpKept (if b then (t.deliver f r).failBatch g else t.deliver f r) := by
  split
  · exact h.deliver.failBatch
  · exact h.deliver

theorem State.SetUpKept.writeEnd (h : s.SetUpKept t) {g : Nat} : s.SetUpKept (t.writeEnd g) := by
  unfold State.writeEnd
  dsimp only
  split
  · exact h.updStep.recorded.answerStep
  · exact h.updStep.recorded

theorem State.SetUpKept.ended (h : s.SetUpKept t) {g : Nat} {b : Bool} : s.SetUpKept (if b then t.writeEnd g else t) := by
  split
  · exact h.writeEnd
  · exact h

theorem State.SetUpKept.askRetire (h : s.SetUpKept t) {c : Nat} : s.SetUpKept (t.askRetire c) := h.requestRecovery

theorem State.SetUpKept.closeStep (h : s.SetUpKept t) {g : Nat} {st : StepStatus} {final : Bool} : s.SetUpKept (t.closeStep g st final) := by
  have hretire {q : State} (hq : s.SetUpKept q) (cs : List Nat) : s.SetUpKept (cs.foldl (fun s c =>
      if (s.core c).det.retireAtEnd then (s.updDet c (fun d => { d with retireAtEnd := false })).askRetire c else s) q) := by
    refine hq.foldl (fun q c hq => ?_)
    split
    · exact hq.updDet.askRetire
    · exact hq
  unfold State.closeStep
  exact (hretire h.updStep _).ended

theorem State.SetUpKept.endStep (h : s.SetUpKept t) {g : Nat} {st : StepStatus} {final : Bool} : s.SetUpKept (t.endStep g st final) := by
  unfold State.endStep State.resetCores
  exact State.SetUpKept.foldl (h.closeStep.of_funcs rfl) (fun _ _ hq => hq.of_funcs rfl)

theorem State.SetUpKept.abortStep (h : s.SetUpKept t) {g : Nat} {st : StepStatus} : s.SetUpKept (t.abortStep g st) := by
  unfold State.abortStep
  dsimp only
  split <;> exact h.endStep.ctl

theorem State.SetUpKept.cancelAll (h : s.SetUpKept t) {f g : Nat} : s.SetUpKept (t.cancelAll f g) := by
  unfold State.cancelAll
  refine h.updServe.foldl (fun q p hq => ?_)
  dsimp only
  split_ifs
  · exact hq
  · exact hq.updReq.updReq
  · exact hq.updReq.endReq

end

/-! ### The consumer indices of the doorbell page -/

/-- What the page says of one ring: its consumer index comes forward, up to the producer index (18 R403). -/
def Func.bringForward (page : List Byte) (x : Func) (k : Nat) : Func :=
  let c := pageIndex page k
  let r := x.ring k
  if (c - r.c).toNat ≤ (r.p - r.c).toNat ∧ c ≠ r.c then x.updRing k (fun r => { r with c := c }) else x

theorem Func.takeConsumers_eq (x : Func) (page : List Byte) :
    x.takeConsumers page = ((List.range 130).map (64 + ·)).foldl (Func.bringForward page) x := rfl

section
variable (page : List Byte) (x : Func) {k n : Nat}

theorem Func.bringForward_ring : (Func.bringForward page x k).ring k =
    { x.ring k with c := if (pageIndex page k - (x.ring k).c).toNat ≤ ((x.ring k).p - (x.ring k).c).toNat then pageIndex page k else (x.ring k).c } := by
  unfold Func.bringForward
  dsimp only
  by_cases hc : pageIndex page k = (x.ring k).c
  · simp [hc]
  · by_cases hle : (pageIndex page k - (x.ring k).c).toNat ≤ ((x.ring k).p - (x.ring k).c).toNat
    · rw [if_pos ⟨hle, hc⟩, if_pos hle]
      exact Recs.get_put_self ..
    · rw [if_neg (fun h => hle h.1), if_neg hle]

theorem Func.bringForward_ring_ne (h : n ≠ k) : (Func.bringForward page x k).ring n = x.ring n := by
  unfold Func.bringForward
  dsimp only
  split
  · exact Recs.get_put_ne _ _ _ h
  · rfl

theorem Func.bringForward_rings : Func.bringForward page x k = { x with rings := (Func.bringForward page x k).rings } := by
  unfold Func.bringForward
  dsimp only
  split <;> rfl

theorem Func.foldl_bringForward_ring_ne {l : List Nat} (h : n ∉ l) : (l.foldl (Func.bringForward page) x).ring n = x.ring n := by
  induction l generalizing x with
  | nil => rfl
  | cons k l ih =>
    obtain ⟨hne, hl⟩ := not_or.mp (List.mem_cons.not.mp h)
    exact (ih _ hl).trans (Func.bringForward_ring_ne page x hne)

theorem Func.foldl_bringForward_ring {l : List Nat} (hl : l.Nodup) (h : n ∈ l) :
    (l.foldl (Func.bringForward page) x).ring n = (Func.bringForward page x n).ring n := by
  induction l generalizing x with
  | nil => simp at h
  | cons k l ih =>
    obtain ⟨hk, hl⟩ := List.nodup_cons.mp hl
    by_cases hn : n = k
    · rw [hn]
      exact Func.foldl_bringForward_ring_ne page _ hk
    · have hring := Func.bringForward_ring_ne page x hn
      rw [List.foldl_cons, ih _ hl ((List.mem_cons.mp h).resolve_left hn), Func.bringForward_ring, Func.bringForward_ring, hring]

theorem Func.foldl_bringForward_rings (l : List Nat) : ∃ rs, l.foldl (Func.bringForward page) x = { x with rings := rs } := by
  induction l generalizing x with
  | nil => exact ⟨_, rfl⟩
  | cons k l ih =>
    obtain ⟨rs, h⟩ := ih (Func.bringForward page x k)
    refine ⟨rs, h.trans ?_⟩
    rw [Func.bringForward_rings]

theorem Func.takeConsumers_ring {r : Nat} (hr : r < 130) : (x.takeConsumers page).ring (64 + r) =
    let c := pageIndex page (64 + r)
    let q := x.ring (64 + r)
    { q with c := if (c - q.c).toNat ≤ (q.p - q.c).toNat then c else q.c } := by
  have hnodup : ((List.range 130).map (64 + ·)).Nodup := List.nodup_range.map (fun _ _ h => Nat.add_left_cancel h)
  rw [Func.takeConsumers_eq, Func.foldl_bringForward_ring page x hnodup (List.mem_map.mpr ⟨r, List.mem_range.mpr hr, rfl⟩),
    Func.bringForward_ring]

theorem Func.takeConsumers_ring_sub (hn : n < 64) : (x.takeConsumers page).ring n = x.ring n := by
  refine Func.foldl_bringForward_ring_ne page x (fun h => ?_)
  obtain ⟨r, _, hr⟩ := List.mem_map.mp h
  omega

theorem Func.takeConsumers_rings : ∃ rs, x.takeConsumers page = { x with rings := rs } := Func.foldl_bringForward_rings page x _

end

theorem Recs.get_mem_or {α : Type} (d : α) (m : List (Nat × α)) (k : Nat) : (k, Recs.get d m k) ∈ m ∨ Recs.get d m k = d := by
  induction m with
  | nil => exact .inr rfl
  | cons p m ih =>
    obtain ⟨j, v⟩ := p
    simp only [Recs.get]
    split_ifs with h
    · exact .inl (h ▸ List.mem_cons_self)
    · exact ih.imp (fun h => List.mem_cons_of_mem _ h) id

/-- Every submission ring is disabled where every listed one is. -/
theorem Func.ring_en_of_listed {x : Func} {k : Nat} (h : ∀ r ∈ x.rings, r.1 < 64 → r.2.en = false) (hk : k < 64) :
    (x.ring k).en = false := by
  rcases Recs.get_mem_or Ring.reset x.rings k with hmem | hreset
  · exact h _ hmem hk
  · exact congrArg Ring.en hreset

/-! ### What waits for a ring -/

theorem Func.waits_eq_false {x : Func} (h : x.waits = false) :
    x.cqBuf = [] ∧ x.tqBuf = [] ∧ x.evBuf = [] ∧ x.evLost = 0 ∧ x.recWait = [] := by
  simpa [Func.waits, and_assoc] using h

section
variable {s : State} {f : Nat}

theorem State.drainRings_of_none (h : (s.func f).waits = false) : s.drainRings f = s := by
  obtain ⟨hcq, htq, hev, hlost, _⟩ := Func.waits_eq_false h
  simp only [State.drainRings, hcq, State.drainCq, htq, State.drainTq, hev, State.drainEv, hlost, if_true]

theorem State.payOwed_of_none (h : s.sec.owed = []) : s.payOwed = s := by
  have hsec : s.updSec (fun x => { x with owed := [] }) = s := by
    rw [State.updSec, ← h]
  unfold State.payOwed
  rw [h, List.foldl_nil, hsec, ite_self]

theorem State.drainFunc_of_none (h : (s.func f).waits = false) (howed : s.sec.owed = []) : s.drainFunc f = s := by
  obtain ⟨_, _, _, _, hrec⟩ := Func.waits_eq_false h
  unfold State.drainFunc
  dsimp only
  rw [State.drainRings_of_none h, hrec, State.drainRec, State.payOwed_of_none howed, ite_self]

theorem State.takeRing_of_disabled {page : List Byte} {entries : List (List Byte)} {r : Nat} (h : ((s.func f).ring r).en = false) :
    s.takeRing f page entries r = s := by
  unfold State.takeRing
  rw [if_pos (by simp [h])]

end

/-! ### The commands of the doorbell page -/

section
variable {s : State} {f : FuncId}

theorem Func.ring_fetched (x : Func) (k : Nat) : ({ x with fetching := false, noted := false } : Func).ring k = x.ring k := rfl

theorem exec_kick (hup : s.funcUp f.val = true) : exec (.kick f) s = .next (s.startFetch f.val) := by
  show execKick f s = _
  rw [execKick, if_pos hup]

theorem exec_poll (hup : s.funcUp f.val = true) :
    exec (.poll f) s = .next (if (s.func f.val).poll = 0 ∧ (s.func f.val).waits = false then s else s.startFetch f.val) := by
  show execPoll f s = _
  simp only [execPoll, hup, Bool.true_and]
  by_cases hpoll : (s.func f.val).poll = 0 <;> cases hwaits : (s.func f.val).waits <;> simp [hpoll]

/-- The page of a function for which nothing waits, whose submission rings are all disabled, brings its consumer indices forward (18 R403). -/
theorem exec_doorbellFetchComplete_quiet {page : List Byte} (hfetching : (s.func f.val).fetching = true)
    (hnoted : (s.func f.val).noted = false) (hwaits : (s.func f.val).waits = false)
    (hrings : ∀ r ∈ (s.func f.val).rings, r.1 < 64 → r.2.en = false) :
    exec (.doorbellFetchComplete f page []) s = .next ((s.updFunc f.val (fun x => x.takeConsumers page)).updFunc f.val
      (fun x => { x with fetching := false, noted := false })) := by
  obtain ⟨rs, htake⟩ := Func.takeConsumers_rings page (s.func f.val)
  let q := s.updFunc f.val (fun x => x.takeConsumers page)
  have hq : q.func f.val = (s.func f.val).takeConsumers page := State.updFunc_func ..
  have hqwaits : (q.func f.val).waits = false := by
    rw [hq, htake]
    exact hwaits
  have hqrec : (q.func f.val).recWait = [] := (Func.waits_eq_false hqwaits).2.2.2.2
  have hqnoted : (q.func f.val).noted = false := by
    rw [hq, htake]
    exact hnoted
  have hfold : (List.range 64).foldl (fun s r => s.takeRing f.val page ((([] : List (BitVec 6 × List Byte)).filter
      (fun e => e.1.toNat == r)).map (·.2)) r) q = q := by
    refine List.foldlRecOn (motive := fun t => t = q) _ _ rfl (fun t ht r hr => ?_)
    rw [ht]
    refine State.takeRing_of_disabled ?_
    rw [hq, Func.takeConsumers_ring_sub _ _ (List.mem_range.mp hr)]
    exact Func.ring_en_of_listed hrings (List.mem_range.mp hr)
  show execDoorbellFetchComplete f page [] s = _
  unfold execDoorbellFetchComplete
  dsimp only
  rw [if_neg (by simp [hfetching])]
  rw [show s.updFunc f.val (fun x => x.takeConsumers page) = q from rfl, State.drainRings_of_none hqwaits, hqrec, State.drainRec, hfold,
    ite_self, hqnoted, if_neg Bool.false_ne_true]

/-! ### Rings -/

theorem State.updFunc_updFunc (s : State) (f : Nat) (g h : Func → Func) :
    (s.updFunc f g).updFunc f h = s.updFunc f (fun x => h (g x)) := by
  show ({ s with funcs := Recs.put (Recs.put s.funcs f _) f (h ((s.updFunc f g).func f)) } : State) = _
  rw [Recs.put_put, State.updFunc_func]
  rfl

theorem Func.updRing_updRing (x : Func) (k : Nat) (g h : Ring → Ring) : (x.updRing k g).updRing k h = x.updRing k (fun r => h (g r)) := by
  show ({ x with rings := Recs.put (Recs.put x.rings k _) k (h (Recs.get Ring.reset (Recs.put x.rings k _) k)) } : Func) = _
  rw [Recs.put_put, Recs.get_put_self]
  rfl

theorem exec_msixTimeThreshold_due {ring : Fin 194} (hup : s.funcUp f.val = true) (hring : 64 ≤ ring.val)
    (hen : ((s.func f.val).ring ring.val).en = true) (hsince : ((s.func f.val).ring ring.val).since ≠ 0)
    (hthr : ((s.func f.val).ring ring.val).timeThr ≠ 0) :
    exec (.msixTimeThreshold f ring) s = .next ((s.updFunc f.val (fun x => x.updRing ring.val (fun r => { r with since := 0 }))).msix f.val
      ((s.func f.val).ring ring.val).vector) := by
  show execMsixTimeThreshold f ring s = _
  unfold execMsixTimeThreshold
  dsimp only
  rw [if_pos (by simp [hup, hring, hen, hsince, hthr])]

theorem exec_ringEnable {ring : Fin 194} {value : W64} (hup : s.funcUp f.val = true) (hen : bitN value.toNat 5 = true) :
    exec (.ringEnable f ring value) s = .next (s.writeRingCtrl f.val ring.val value) := by
  show execRingEnable f ring value s = _
  rw [execRingEnable, if_pos (by simp [hup, hen])]

/-- A ring that is enabled takes the fields of RING_CTRL, with its indices at 0 (24 R539). -/
theorem State.writeRingCtrl_enable {f k : Nat} {value : W64} (hvalue : bitN value.toNat 5 = true) (hen : ((s.func f).ring k).en = false)
    (hstopped : ((s.func f).ring k).stopped = true) (hpages : (s.func f).pagesSet = true) (hpass : s.passThrough = false)
    (hwaits : (s.func f).waits = false) (howed : s.sec.owed = []) (hlow : 4 ≤ bitsN value.toNat 4 0) (hhigh : bitsN value.toNat 4 0 ≤ 16)
    (hcount : 1 ≤ bitsN value.toNat 22 14) (hcount2 : bitsN value.toNat 22 14 ≤ 256) (htime : bitsN value.toNat 32 23 ≤ 1000)
    (hslot : 12 ≤ bitsN value.toNat 37 33) (hslot2 : bitsN value.toNat 37 33 ≤ 16) :
    s.writeRingCtrl f k value = s.updFunc f (fun x => x.updRing k (fun r => { r with
      s := bitsN value.toNat 4 0, vector := bitsN value.toNat 13 8, countThr := bitsN value.toNat 22 14
      timeThr := bitsN value.toNat 32 23, slot := if k = 193 then bitsN value.toNat 37 33 else r.slot
      en := true, stopped := false, p := 0, c := 0, since := 0 })) := by
  have hrange : ¬ (bitsN value.toNat 4 0 < 4 ∨ 16 < bitsN value.toNat 4 0 ∨ bitsN value.toNat 22 14 = 0 ∨ 256 < bitsN value.toNat 22 14 ∨
      1000 < bitsN value.toNat 32 23 ∨ (k = 193 ∧ (bitsN value.toNat 37 33 < 12 ∨ 16 < bitsN value.toNat 37 33))) := by omega
  have hquiet (g : Ring → Ring) : (s.updFunc f (fun x => x.updRing k g)).drainFunc f = s.updFunc f (fun x => x.updRing k g) := by
    refine State.drainFunc_of_none ?_ howed
    rw [State.updFunc_func]
    exact hwaits
  unfold State.writeRingCtrl
  dsimp only
  rw [if_neg hrange, hen, if_neg Bool.false_ne_true, hvalue, if_neg (by simp [hstopped, hpages, hpass]), if_pos rfl,
    State.updFunc_updFunc]
  simp only [Func.updRing_updRing]
  exact hquiet _

theorem State.writeRingCtrl_small {f k : Nat} {value : W64} (hlow : bitsN value.toNat 4 0 < 4) :
    s.writeRingCtrl f k value = s.refuse (ringAt f k + 8) := by
  unfold State.writeRingCtrl
  dsimp only
  rw [if_pos (.inl hlow)]

theorem exec_ringDisable {ring : Fin 194} (hup : s.funcUp f.val = true) : exec (.ringDisable f ring) s =
    .next (s.updFunc f.val (fun x => x.updRing ring.val (fun r => { r with en := false, stopped := true }))) := by
  show execRingDisable f ring s = _
  rw [execRingDisable, if_pos hup]

end

/-! ### The reset of a function -/

/-- What a function's reset ends in the groups: the live steps of the solver groups that it owns, and its requests (22 R501). -/
def State.workEnded (s : State) (f : Nat) : State :=
  (List.range 16).foldl (fun s g =>
    (if (s.group g).formed && (s.group g).solver && (s.group g).owner == f && (s.step' g).live then s.abortStep g .stepError else s).cancelAll
      f g) s

theorem State.functionReset_eq (s : State) (f : Nat) : s.functionReset f = (s.workEnded f).updFunc f (fun x => { Func.reset with
    enabled := x.enabled, evBuf := x.evBuf, evLost := x.evLost, recWait := x.recWait, recent := x.recent
    dbVector := x.dbVector, dbHost := x.dbHost, dbMask := x.dbMask, dbSp := x.dbSp }) := rfl

theorem State.workEnded_setUp (s : State) (f : Nat) : s.SetUpKept (s.workEnded f) := by
  refine State.SetUpKept.refl.foldl (fun q g hq => ?_)
  split
  · exact hq.abortStep.cancelAll
  · exact hq.cancelAll

/-- No group is formed and none keeps a request. -/
def State.NoGroups (s : State) : Prop := ∀ g, (s.group g).formed = false ∧ (s.group g).serve.reqs = []

theorem State.NoGroups.updServe {s : State} (h : s.NoGroups) {g : Nat} {v : Serve → Serve} (hv : ∀ x, (v x).reqs = x.reqs) :
    (s.updServe g v).NoGroups := by
  intro n
  by_cases hn : n = g
  · rw [hn]
    simp only [State.updServe, State.updGroup_group, hv]
    exact h g
  · unfold State.updServe
    rw [State.updGroup_group_ne _ _ hn]
    exact h n

/-- Where no group is formed the reset only clears the function's waiting submissions. -/
theorem State.NoGroups.workEnded {s : State} (h : s.NoGroups) (f : Nat) : ∃ gs, s.workEnded f = { s with groups := gs } := by
  suffices hfold : (s.workEnded f).NoGroups ∧ ∃ gs, s.workEnded f = { s with groups := gs } from hfold.2
  refine List.foldlRecOn (motive := fun t => t.NoGroups ∧ ∃ gs, t = { s with groups := gs }) _ _ ⟨h, _, rfl⟩ (fun t ht g _ => ?_)
  obtain ⟨hnone, gs, hframe⟩ := ht
  rw [if_neg (by simp [(hnone g).1])]
  have hcleared := hnone.updServe (g := g) (v := fun v => { v with
    news := v.news.filter (fun n => n.sub.func != f)
    cancels := v.cancels.filter (fun c => c.1.func != f)
    conts := v.conts.filter (fun c => c.1.func != f)
    stepq := v.stepq.filter (fun c => c.1.func != f) }) (fun _ => rfl)
  have hcancel := hcleared g
  unfold State.cancelAll
  dsimp only
  rw [hcancel.2, List.foldl_nil]
  refine ⟨hcleared, ?_⟩
  rw [hframe]
  exact ⟨_, rfl⟩

theorem exec_functionLevelReset {s : State} {f : FuncId} (hup : s.funcUp f.val = true) :
    exec (.functionLevelReset f) s = .next (s.functionReset f.val) := by
  show execFunctionLevelReset f s = _
  rw [execFunctionLevelReset, if_pos hup]

/-- Settles O17: each clause is the lemma of its command; the reset's frame is that of the work it ends. -/
theorem hostEventsComplete : Obligations.HostEventsComplete := by
  unfold Obligations.HostEventsComplete
  intro s f hup
  refine ⟨fun hpages hfetching => ?_, fun hpages hfetching => ?_, fun hpoll hwaits => ?_, fun page ring hfetching hnoted hwaits hrings => ?_,
    fun ring => exec_msixTimeThreshold_due hup, ?_, fun ring value hen hlow => ?_, fun ring => exec_ringDisable hup, ?_, rfl, rfl⟩
  · have hfetch : s.startFetch f.val = { s.updFunc f.val (fun x => { x with fetching := true }) with
        out := { s.out with hostReads := s.out.hostReads ++ [(f.val, (s.func f.val).dbPage, 776)] } } := by
      rw [State.startFetch, if_neg (by simp [hpages]), if_neg (by simp [hfetching])]
    refine ⟨by rw [exec_kick hup, hfetch], fun hpoll => ?_⟩
    rw [exec_poll hup, if_neg (fun h => hpoll h.1), hfetch]
  · rw [exec_kick hup, State.startFetch, if_neg (by simp [hpages]), if_pos hfetching]
  · rw [exec_poll hup, if_pos ⟨hpoll, hwaits⟩]
  · have hring := Func.takeConsumers_ring page (s.func f.val) ring.isLt
    refine ⟨_, exec_doorbellFetchComplete_quiet hfetching hnoted hwaits hrings, ?_⟩
    rw [State.updFunc_updFunc, State.updFunc_func]
    refine ⟨rfl, ?_, ?_, rfl, fun h hne => State.updFunc_func_ne _ _ hne⟩
    · rw [Func.ring_fetched, hring]
    · rw [Func.ring_fetched, hring]
  · intro ring value hvalue hen hstopped hpages hpass hwaits howed h1 h2 h3 h4 h5 h6 h7
    rw [exec_ringEnable hup hvalue, State.writeRingCtrl_enable hvalue hen hstopped hpages hpass hwaits howed h1 h2 h3 h4 h5 h6 h7]
  · rw [exec_ringEnable hup hen, State.writeRingCtrl_small hlow]
  · refine ⟨_, exec_functionLevelReset hup, ?_⟩
    have hkept := s.workEnded_setUp f.val
    rw [State.functionReset_eq, State.updFunc_func]
    dsimp only
    refine ⟨rfl, rfl, rfl, rfl, rfl, rfl, hkept.enabled _, hkept.dbMask _, fun hnone => ?_⟩
    obtain ⟨gs, hended⟩ := State.NoGroups.workEnded hnone f.val
    rw [hended]
    exact ⟨rfl, fun h hne => State.updFunc_func_ne _ _ hne⟩

end Sys2Proof.Machine
end

section
/-! PROOF. Mailboxes, doorbells and the management messages of peers (18 R422 to R425; 19 R437; log entries 61, 62, 100). -/

namespace Sys2Proof.Machine

/-! ### Writes of MBO_CTRL -/

theorem State.updFunc_congr {s : State} {f : Nat} {g h : Func → Func} (heq : g (s.func f) = h (s.func f)) :
    s.updFunc f g = s.updFunc f h := by rw [State.updFunc, heq, State.updFunc]

/-- A value whose bits 27 to 24 are 1 sends, and neither withdraws nor clears TIMEOUT (Table 18.10). -/
theorem sendBits_of_code {v : Nat} (h : bitsN v 27 24 = 1) : bitN v 24 = true ∧ bitN v 26 = false ∧ bitN v 27 = false := by
  simp only [bitsN, bitN, beq_iff_eq, beq_eq_false_iff_ne] at h ⊢
  omega

section
variable {s : State} {f : Nat} {value : W32}

/-- A message in a mailbox that is not full: LEN, DBBIT and FULL are set and the soundpost is rung (R423, R424). -/
theorem State.writeMboCtrl_send (hcode : bitsN value.toNat 27 24 = 1) (hfull : (s.func f).mbo.full = false)
    (hlow : 1 ≤ value.toNat % 512) (hhigh : value.toNat % 512 ≤ 256) (hbit : 8 ≤ bitsN value.toNat 20 16) :
    s.writeMboCtrl f value = s.updFunc f (fun x => { x with
      mbo := { x.mbo with len := value.extractLsb' 0 9, dbbit := value.extractLsb' 16 5, full := true }
      dbSp := x.dbSp ||| dbBit (value.extractLsb' 16 5) }) := by
  obtain ⟨hsend, htimeout, hwithdraw⟩ := sendBits_of_code hcode
  let q := s.updFunc f (fun x => { x with mbo := { x.mbo with len := value.extractLsb' 0 9, dbbit := value.extractLsb' 16 5 } })
  have hq : (q.func f).mbo = { (s.func f).mbo with len := value.extractLsb' 0 9, dbbit := value.extractLsb' 16 5 } := by
    rw [State.updFunc_func]
  have hset : s.updMbo f (fun m =>
      let m := if bitN value.toNat 26 && s.freshBits (bar2Key f 0x20) == 0 then { m with timeout := false } else m
      if m.full then m
      else { m with len := value.extractLsb' 0 9, dbbit := if bitsN value.toNat 20 16 < 8 then m.dbbit else value.extractLsb' 16 5 }) = q := by
    refine State.updFunc_congr ?_
    simp only [htimeout, Bool.false_and, Bool.false_eq_true, if_false, hfull, Nat.not_lt.mpr hbit]
  have hlen : (value.extractLsb' 0 9).toNat = value.toNat % 512 := by simp [BitVec.extractLsb'_toNat]
  have hfits : ((q.func f).mbo.full || (q.func f).mbo.len == 0 || decide (256 < (q.func f).mbo.len.toNat)) = false := by
    have hne : ¬ value.extractLsb' 0 9 = 0#9 := fun h => by simp [h] at hlen; omega
    rw [hq]
    simp [hfull, hne, hlen, hhigh]
  unfold State.writeMboCtrl
  dsimp only
  rw [hwithdraw, if_neg Bool.false_ne_true, hset, if_pos hsend, State.sendMbo, if_neg (by simpa using hfits), hq]
  simp only [State.ringSp, State.updMbo, q, State.updFunc_updFunc]

theorem State.writeMboCtrl_full (hcode : bitsN value.toNat 27 24 = 1) (hfull : (s.func f).mbo.full = true) :
    s.writeMboCtrl f value = s.updFunc f id := by
  obtain ⟨hsend, htimeout, hwithdraw⟩ := sendBits_of_code hcode
  have hset : s.updMbo f (fun m =>
      let m := if bitN value.toNat 26 && s.freshBits (bar2Key f 0x20) == 0 then { m with timeout := false } else m
      if m.full then m
      else { m with len := value.extractLsb' 0 9, dbbit := if bitsN value.toNat 20 16 < 8 then m.dbbit else value.extractLsb' 16 5 }) =
      s.updFunc f id := by
    refine State.updFunc_congr ?_
    simp only [htimeout, Bool.false_and, Bool.false_eq_true, if_false, hfull, if_true, id]
  unfold State.writeMboCtrl
  dsimp only
  rw [hwithdraw, if_neg Bool.false_ne_true, hset, if_pos hsend, State.sendMbo, if_pos (by simp [hfull])]

end

section
variable {s : State} {f : FuncId} {value : W32} {data : List Byte}

theorem exec_sendMbo (hup : s.funcUp f.val = true) (hcode : bitsN value.toNat 27 24 = 1) :
    exec (.sendMbo f value data) s = .next ((s.updMbo f.val (fun m =>
      if m.full then m else { m with data := Tab.setList 0 [] 0 (data.take 256) })).writeMboCtrl f.val value) := by
  show execSendMbo f value data s = _
  rw [execSendMbo, if_pos (by simp [hup, sendBits_of_code hcode])]

theorem exec_sendMbo_empty (hup : s.funcUp f.val = true) (hcode : bitsN value.toNat 27 24 = 1) (hfull : (s.func f.val).mbo.full = false)
    (hlow : 1 ≤ value.toNat % 512) (hhigh : value.toNat % 512 ≤ 256) (hbit : 8 ≤ bitsN value.toNat 20 16) :
    exec (.sendMbo f value data) s = .next (s.updFunc f.val (fun x => { x with
      mbo := { x.mbo with data := Tab.setList 0 [] 0 (data.take 256), len := value.extractLsb' 0 9, dbbit := value.extractLsb' 16 5
                          full := true }
      dbSp := x.dbSp ||| dbBit (value.extractLsb' 16 5) })) := by
  rw [exec_sendMbo hup hcode, State.writeMboCtrl_send hcode (by simp [State.updMbo, hfull]) hlow hhigh hbit, State.updMbo,
    State.updFunc_updFunc]
  congr 1
  refine State.updFunc_congr ?_
  simp only [hfull, Bool.false_eq_true, if_false]

theorem exec_sendMbo_full (hup : s.funcUp f.val = true) (hcode : bitsN value.toNat 27 24 = 1) (hfull : (s.func f.val).mbo.full = true) :
    exec (.sendMbo f value data) s = .next (s.updFunc f.val id) := by
  rw [exec_sendMbo hup hcode, State.writeMboCtrl_full hcode (by simp [State.updMbo, hfull]), State.updMbo, State.updFunc_updFunc]
  congr 1
  refine State.updFunc_congr ?_
  simp only [hfull, if_true, id]

/-! ### The host's reads and the soundpost's -/

theorem exec_mboTimeout_full (hfull : (s.func f.val).mbo.full = true) : exec (.mboTimeout f) s =
    .next (((s.updFunc f.val (fun x => { x with mbo := { x.mbo with timeout := true } })).touch (bar2Key f.val 0x20) 1).ringHost
      f.val 4) := by
  show execMboTimeout f s = _
  rw [execMboTimeout, if_pos hfull]
  rfl

theorem exec_mboRead_known (hfull : (s.func f.val).mbo.full = true)
    (htype : mailboxTypes.contains (fieldN (Tab.getList 0 (s.func f.val).mbo.data 0 (s.func f.val).mbo.len.toNat) 0 2) = true) :
    exec (.mboRead f) s = .next ((s.updFunc f.val (fun x => { x with mbo := { x.mbo with full := false } })).ringHost f.val 2) := by
  show execMboRead f s = _
  unfold execMboRead
  dsimp only
  rw [if_pos hfull, if_pos htype]
  rfl

theorem exec_mbiWithdrawn_full (hfull : (s.func f.val).mbi.full = true) : exec (.mbiWithdrawn f) s =
    .next (((s.updFunc f.val (fun x => { x with mbi := { x.mbi with full := false, withdrawn := true } })).touch
      (bar2Key f.val 0x24) 1).ringHost f.val 8) := by
  show execMbiWithdrawn f s = _
  rw [execMbiWithdrawn, if_pos hfull]
  rfl

/-! ### Replies that wait -/

/-- The host's doorbell takes the bits; of the function nothing else changes but the vectors that wait for their mask. -/
theorem State.ringHost_func (s : State) (f : Nat) (bits : W32) : ∃ vs, (s.ringHost f bits).func f =
    { s.func f with dbHost := (s.func f).dbHost ||| bits, pendingMsix := vs } := by
  have hq : ((s.updFunc f (fun x => { x with dbHost := x.dbHost ||| bits })).touch (bar2Key f 0x10) bits.toNat).func f =
      { s.func f with dbHost := (s.func f).dbHost ||| bits } :=
    s.updFunc_func f (fun x => { x with dbHost := x.dbHost ||| bits })
  unfold State.ringHost State.msix
  dsimp only
  split_ifs
  · rw [State.updFunc_func, hq]
    exact ⟨_, rfl⟩
  · exact ⟨_, hq⟩
  · exact ⟨_, hq⟩

theorem State.ringHost_func_ne (s : State) {f h : Nat} (bits : W32) (hne : h ≠ f) : (s.ringHost f bits).func h = s.func h := by
  have hq : ((s.updFunc f (fun x => { x with dbHost := x.dbHost ||| bits })).touch (bar2Key f 0x10) bits.toNat).func h = s.func h :=
    s.updFunc_func_ne (fun x => { x with dbHost := x.dbHost ||| bits }) hne
  unfold State.ringHost State.msix
  dsimp only
  split_ifs
  · exact (State.updFunc_func_ne _ _ hne).trans hq
  · exact hq
  · exact hq

theorem State.ringHost_frame (s : State) (f : Nat) (bits : W32) : ∃ fs o l, s.ringHost f bits =
    { s with funcs := fs, out := o, pkg := { s.pkg with fresh := l } } := by
  unfold State.ringHost State.msix
  dsimp only
  split_ifs <;> exact ⟨_, _, _, rfl⟩

theorem exec_mbiDeliver {dbbit : BitVec 5} {m : List Byte} {l : List (List Byte)} (hwait : (s.func f.val).mbiWait = m :: l)
    (hfull : (s.func f.val).mbi.full = false) (hlow : 1 ≤ m.length) (hhigh : m.length ≤ 256) :
    exec (.mbiDeliver f dbbit) s = .next ((s.updFunc f.val (fun x => { x with
      mbiWait := l
      mbi := { x.mbi with len := BitVec.ofNat 9 m.length, dbbit := dbbit, full := true, data := Tab.setList 0 [] 0 m } })).ringHost f.val
        (if 8 ≤ dbbit.toNat then 1 ||| dbBit dbbit else 1)) := by
  have hm : m.isEmpty = false := by cases m <;> simp_all
  show execMbiDeliver f dbbit s = _
  unfold execMbiDeliver
  simp only [hwait]
  rw [if_neg (by simp [hfull, hm, hhigh]), State.updMbi, State.updFunc_updFunc]

/-! ### The doorbells and the messages of peers -/

theorem exec_dbHostMaskWrite {mask : W32} (hup : s.funcUp f.val = true) :
    exec (.dbHostMaskWrite f mask) s = .next (s.setDbMask f.val mask) := by
  show execDbHostMaskWrite f mask s = _
  rw [execDbHostMaskWrite, if_pos hup]

theorem exec_mgtMessage_new {peer : Place} {bytes : List Byte} {read : Bool} (hnew : s.sec.mgtSlots.find? (fun m => m.peer == peer) = none) :
    exec (.mgtMessage peer bytes read) s =
      .next (s.updSec (fun y => { y with mgtSlots := y.mgtSlots ++ [⟨peer, true, false, bytes.take 256⟩] })) := by
  show execMgtMessage peer bytes read s = _
  simp only [execMgtMessage, hnew]

theorem exec_mgtMessage_full {m : MgtSlot} {bytes : List Byte} (hslots : s.sec.mgtSlots = [m]) (hfull : m.full = true) :
    exec (.mgtMessage m.peer bytes false) s = .next (s.logFault 0x0082 6 0 none 0 0xFFFF 0xFFFF 0) := by
  have hfind : s.sec.mgtSlots.find? (fun n => n.peer == m.peer) = some m := by simp [hslots]
  show execMgtMessage m.peer bytes false s = _
  simp only [execMgtMessage, hfind]
  rw [if_pos (by simp [hfull])]

theorem exec_mgtSlotTimeout_full {m : MgtSlot} (hslots : s.sec.mgtSlots = [m]) (hfull : m.full = true) :
    exec (.mgtSlotTimeout m.peer) s = .next (s.updSec (fun y => { y with mgtSlots := [{ m with timeout := true }] })) := by
  show execMgtSlotTimeout m.peer s = _
  simp [execMgtSlotTimeout, State.updSec, hslots, hfull]

end

/-- Settles O18: each clause is the lemma of its command; of a reply that is delivered, what rings the host leaves of the function. -/
theorem mailboxesComplete : Obligations.MailboxesComplete := by
  unfold Obligations.MailboxesComplete
  intro s f hup
  refine ⟨fun value data => exec_sendMbo_empty hup, fun value data => exec_sendMbo_full hup, ?_, exec_mboTimeout_full, exec_mboRead_known, ?_,
    ?_, exec_mbiWithdrawn_full, fun bits => ?_, fun mask => ?_, fun bits => ?_, fun peer bytes read => exec_mgtMessage_new,
    fun m hslots hfull => ⟨fun bytes => exec_mgtMessage_full hslots hfull, exec_mgtSlotTimeout_full hslots hfull⟩⟩
  · show execWithdraw f s = _
    rw [execWithdraw, if_pos hup]
    rfl
  · intro dbbit m l hwait hfull hlow hhigh
    refine ⟨_, exec_mbiDeliver hwait hfull hlow hhigh, ?_⟩
    let q := s.updFunc f.val (fun x => { x with
      mbiWait := l
      mbi := { x.mbi with len := BitVec.ofNat 9 m.length, dbbit := dbbit, full := true, data := Tab.setList 0 [] 0 m } })
    obtain ⟨vs, hfunc⟩ := q.ringHost_func f.val (if 8 ≤ dbbit.toNat then 1 ||| dbBit dbbit else 1)
    obtain ⟨fs, o, fresh, hframe⟩ := q.ringHost_frame f.val (if 8 ≤ dbbit.toNat then 1 ||| dbBit dbbit else 1)
    rw [State.updFunc_func] at hfunc
    refine ⟨?_, ?_, ?_, ?_, ?_, ?_, ?_, fun h hne => ?_, ?_⟩
    · rw [hfunc]
    · rw [hfunc]
    · rw [hfunc]
    · rw [hfunc]
    · rw [hfunc]
      exact apply_ite ((s.func f.val).dbHost ||| ·) _ _ _
    · rw [hfunc]
    · rw [hfunc]
    · exact (q.ringHost_func_ne _ hne).trans (State.updFunc_func_ne _ _ hne)
    · rw [hframe]
      rfl
  · show execMbiConsume f s = _
    rw [execMbiConsume, if_pos hup]
    rfl
  · show execDbHostClear f bits s = _
    rw [execDbHostClear, if_pos hup]
    rfl
  · dsimp only
    rw [exec_dbHostMaskWrite hup, State.setDbMask]
    exact ⟨fun h => by rw [if_neg (by simpa using h)], fun h => by rw [if_pos (by simpa using h)]⟩
  · show execDbSpSet f bits s = _
    rw [execDbSpSet, if_pos hup]
    rfl

end Sys2Proof.Machine
end

section
/-! PROOF. Firmware writes, key slots and the rotation of spill keys (19 R430, R436, R437, R448, R449; 20 R466; log entries 10, 26, 63, 64). -/

namespace Sys2Proof.Machine

/-! ### Fields of a payload -/

theorem sliceB_append_left (a b : List Byte) : sliceB (a ++ b) 0 a.length = a := by simp [sliceB]

theorem fieldN_leBytes_append (n v : Nat) (b : List Byte) : fieldN (leBytes n v ++ b) 0 n = v % 256 ^ n := by
  have h := sliceB_append_left (leBytes n v) b
  rw [leBytes_length] at h
  rw [fieldN, h, leNat_leBytes]

theorem fieldN_leBytes (n v : Nat) : fieldN (leBytes n v) 0 n = v % 256 ^ n := by
  simpa using fieldN_leBytes_append n v []

/-- The kind and the slot stand first in the payloads of KEY_INSTALL and KEY_REMOVE (19 R437). -/
theorem keyPayload_slot {kind slot : Nat} (hkind : kind ≤ 1) (hslot : slot < if kind = 0 then 8 else 4) (rest : List Byte) :
    fieldN (leBytes 1 kind ++ leBytes 1 slot ++ rest) 0 1 = kind ∧ fieldN (leBytes 1 kind ++ leBytes 1 slot ++ rest) 1 1 = slot := by
  have hslot8 : slot < 8 := by split_ifs at hslot <;> omega
  have hbytes : leBytes 1 kind ++ leBytes 1 slot ++ rest = BitVec.ofNat 8 kind :: BitVec.ofNat 8 slot :: rest := rfl
  rw [hbytes]
  constructor
  · simp [fieldN, sliceB, leNat]
    omega
  · simp [fieldN, sliceB, leNat]
    omega

/-- The payload of KEY_INSTALL: its kind, its slot and its key (19 R437). -/
theorem keyPayload_key (kind slot : Nat) {key : List Byte} (hkey : key.length = 133) :
    let bytes := leBytes 1 kind ++ leBytes 1 slot ++ key
    bytes.length = 135 ∧ fieldN bytes 2 1 = fieldN key 0 1 ∧ sliceB bytes 2 133 = key ∧ bytes.take 2 = leBytes 1 kind ++ leBytes 1 slot :=
  ⟨by simp [hkey], rfl, hkey ▸ sliceB_length_self key, rfl⟩

theorem keySlotOk_of_fields {bytes : List Byte} {kind slot : Nat} (hkind : kind ≤ 1) (hslot : slot < if kind = 0 then 8 else 4)
    (h0 : fieldN bytes 0 1 = kind) (h1 : fieldN bytes 1 1 = slot) : keySlotOk bytes = true := by
  simp [keySlotOk, h0, h1, hkind, hslot]

section
variable {s : State} {a : Asker} {seq : W32}

/-! ### Firmware writes -/

/-- Replies change only what waits for a host and what leaves. -/
theorem State.reply_hostOnly (s : State) (a : Asker) (type status : Nat) (seq : W32) (bs : List Byte) :
    s.HostOnly (s.reply a type status seq bs) := by
  cases a <;> rfl

theorem exec_fwBegin_good {payload : List Byte} (ha : askerPf0 a = true) (hrec : s.sec.recovery = false) (hidle : s.sec.fwLen = none)
    (hlen : payload.length = 4) (hlow : 196 ≤ fieldN payload 0 4) (hhigh : fieldN payload 0 4 ≤ 32 * 2 ^ 20) :
    exec (.fwBegin a seq payload) s = .next (if s.maintBusy then s.reply a 1 3 seq []
      else ((s.startActivity 7 0 false).updSec (fun x => { x with fwLen := some (fieldN payload 0 4) })).reply a 1 0 seq []) := by
  show execFwBegin a seq payload s = _
  unfold execFwBegin
  dsimp only
  rw [if_neg (by simp [ha]), if_neg (by omega), if_neg (by simp [hrec]), if_neg (by simp [hidle])]
  exact (apply_ite Host.Outcome.next ..).symm

theorem exec_fwPiece_good {len off : Nat} {bs : List Byte} (ha : askerPf0 a = true) (hsusp : s.maint.suspended = none)
    (hopen : s.sec.fwLen = some len) (hoff : off % 4 = 0) (hbs : bs.length ≤ 244) (hfit : off + bs.length ≤ len) (hlen : len ≤ 32 * 2 ^ 20) :
    exec (.fwPiece a seq (leBytes 4 off ++ bs)) s = .next ((s.updSec (fun x => { x with
      fwBytes := x.fwBytes.write off bs, stored := { x.stored with verifies := false } })).reply a 2 0 seq []) := by
  have hfield : fieldN (leBytes 4 off ++ bs) 0 4 = off := by
    rw [fieldN_leBytes_append]
    omega
  have hdrop : (leBytes 4 off ++ bs).drop 4 = bs := rfl
  show execFwPiece a seq _ s = _
  simp only [execFwPiece, hfield, hdrop, hopen, hsusp, ha]
  rw [if_neg (by simp), if_neg (by simp), if_neg (by simp; omega)]

theorem State.updSec_updSec (s : State) (f g : Sec → Sec) : (s.updSec f).updSec g = s.updSec (fun x => g (f x)) := rfl

/-- "Key retirement" alone writes to the soundpost's security state as it begins: the spill keys of its slot. -/
theorem State.startActivity_sec (s : State) (code arg : Nat) (byRec : Bool) :
    ∃ l, (s.startActivity code arg byRec).sec = { s.sec with spill := l } := by
  unfold State.startActivity State.sendSpillKey
  dsimp only
  split_ifs <;> exact ⟨_, rfl⟩

theorem State.epochDue_sec (s : State) : s.epochDue.sec = s.sec := by
  unfold State.epochDue
  dsimp only
  split
  · simp only [State.startEpoch, State.stageSlot, State.setRoute, State.mgt, State.updEpoch, State.updNet_sec]
  · rfl

theorem State.endActivity_sec (s : State) : ∃ l, s.endActivity.sec = { s.sec with spill := l } := by
  have hsaved : (if s.maint.dirty then s.saveSettings else s).sec = s.sec := by split <;> rfl
  unfold State.endActivity
  dsimp only
  split
  next c arg l _ =>
    rw [State.epochDue_sec]
    obtain ⟨l, h⟩ := State.startActivity_sec ((if s.maint.dirty then s.saveSettings else s).updMaint (fun m => { m with queue := l })) c arg true
    rw [h, State.updMaint_sec, hsaved]
    exact ⟨l, rfl⟩
  next => exact ⟨_, hsaved⟩

theorem State.endActivity_recovery (s : State) : s.endActivity.sec.recovery = s.sec.recovery := by
  obtain ⟨_, h⟩ := s.endActivity_sec
  rw [h]

theorem State.endFwWrite_running (hrun : s.maint.running = 7) :
    s.endFwWrite = (s.updSec (fun x => { x with fwLen := none })).endActivity := by
  unfold State.endFwWrite
  dsimp only
  rw [State.updSec_maint, if_pos hrun]

/-- The image of a write that ends is judged; a bad one raises FW_REJECTED (19 R430). -/
theorem exec_fwEnd_good {len : Nat} (ha : askerPf0 a = true) (hsusp : s.maint.suspended = none) (hopen : s.sec.fwLen = some len)
    (hrec : s.sec.recovery = false) (hrun : s.maint.running = 7) :
    exec (.fwEnd a seq []) s = .next (
      let img := s.imageOf s.sec.fwBytes len
      let q := (s.updSec (fun x => { x with stored := img, fwLen := none })).endActivity
      if img.verifies then q.reply a 3 0 seq [] else (q.security 0 5).reply a 3 5 seq []) := by
  have hqrec (img : FwImage) : (s.updSec (fun x => { x with stored := img, fwLen := none })).endActivity.sec.recovery = false :=
    (State.endActivity_recovery _).trans hrec
  show execFwEnd a seq [] s = _
  unfold execFwEnd
  simp only [hsusp, hopen]
  rw [if_neg (by simp [ha]), if_neg (by simp), if_neg (by simp), State.endFwWrite_running (by exact hrun), State.updSec_updSec, hqrec]
  exact (apply_ite Host.Outcome.next ..).symm

theorem exec_fwWriteTimeout_running (hopen : s.sec.fwLen.isSome = true) (hsusp : s.maint.suspended = none) (hrun : s.maint.running = 7) :
    exec .fwWriteTimeout s = .next (s.updSec (fun x => { x with fwLen := none })).endActivity := by
  show execFwWriteTimeout s = _
  rw [execFwWriteTimeout, if_pos (by simp [hopen, hsusp]), State.endFwWrite_running hrun]

/-- Where nothing is under way the watchdog logs its fault and boots the soundpost (19 R430). -/
theorem exec_fwWatchdog_idle (hrun : s.maint.running = 0) (hsteps : ∀ g, (s.step' g).phase = .none) :
    exec .fwWatchdog s = .next (s.logFault 0x0070 10 0 none 0 0xFFFF 0xFFFF 0).resetSoundpost := by
  have hlive : s.liveSlots = [] := by
    refine List.filter_eq_nil_iff.mpr (fun g _ => ?_)
    simp [StepRun.onCores, hsteps g]
  obtain ⟨_, _, _, _, hadds⟩ := s.logFault_adds 0x0070 10 0 0 0xFFFF 0xFFFF 0
  have hmaint : (s.logFault 0x0070 10 0 none 0 0xFFFF 0xFFFF 0).maint.running = 0 := by
    rw [hadds]
    exact hrun
  show execFwWatchdog s = _
  unfold execFwWatchdog
  simp only [hlive, List.head?_nil]
  rw [if_neg (by rw [hmaint]; decide), if_pos hmaint]

/-! ### Key slots -/

theorem exec_keyInstall_good {payload : List Byte} (ha : askerPf0 a = true) (hlen : payload.length = 135) (hslot : keySlotOk payload = true)
    (hform : fieldN payload 2 1 = 4) :
    exec (.keyInstall a seq payload) s = .next (if s.anyLocked then s.reply a 0x10 4 seq []
      else (((s.updSec (fun x => x.setKey (fieldN payload 0 1) (fieldN payload 1 1) (some (sliceB payload 2 133)))).remeasure
        7).retainedChanged).reply a 0x10 0 seq []) := by
  show execKeyInstall a seq payload s = _
  unfold execKeyInstall
  dsimp only
  rw [if_neg (by simp [ha]), if_neg (by simp [hlen, hslot, hform])]
  exact (apply_ite Host.Outcome.next ..).symm

theorem exec_keyRemove_good {payload : List Byte} (ha : askerPf0 a = true) (hlen : payload.length = 2) (hslot : keySlotOk payload = true) :
    exec (.keyRemove a seq payload) s = .next (if s.anyLocked then s.reply a 0x11 4 seq []
      else (((s.updSec (fun x => x.setKey (fieldN payload 0 1) (fieldN payload 1 1) none)).remeasure 7).retainedChanged).reply a 0x11 0
        seq []) := by
  show execKeyRemove a seq payload s = _
  unfold execKeyRemove
  dsimp only
  rw [if_neg (by simp [ha]), if_neg (by simp [hlen, hslot])]
  exact (apply_ite Host.Outcome.next ..).symm

/-! ### Spill keys -/

@[simp] theorem State.updSpill_spillKeys (s : State) (g : Nat) (k : SpillKeys → SpillKeys) : (s.updSpill g k).spillKeys g = k (s.spillKeys g) :=
  Recs.get_put_self ..

theorem State.updSpill_congr {g : Nat} {k l : SpillKeys → SpillKeys} (h : k (s.spillKeys g) = l (s.spillKeys g)) :
    s.updSpill g k = s.updSpill g l := by rw [State.updSpill, h, State.updSpill]

theorem exec_spillRotate_led {g : Nat} {payload : List Byte} (ha : askerPf0 a = true) (hlen : payload.length = 4)
    (hled : (List.range 16).find? (fun g => (s.group g).formed && (s.group g).lead && (s.group g).id.toNat == fieldN payload 0 4) = some g)
    (hbusy : s.maintBusy = false) :
    exec (.spillRotate a seq payload) s = .next ((s.startActivity 4 g false).reply a 0x20 0 seq []) := by
  show execSpillRotate a seq payload s = _
  unfold execSpillRotate
  rw [if_neg (not_not_intro hlen)]
  simp only [hled]
  rw [if_neg (by simp [ha]), if_neg (by simp [hbusy])]

/-- The state of a lead that has sent the key of the next generation to every other member (19 R448, R449). -/
theorem State.sendSpillKey_frame (s : State) (g : Nat) : ∃ m, s.sendSpillKey g = { s with out := { s.out with mgt := m } } := by
  unfold State.sendSpillKey
  split <;> exact ⟨_, rfl⟩

/-- "Key retirement" begins with the key of the next generation on its way to every other member (19 R449). -/
theorem State.startActivity_retirement (s : State) (g : Nat) (byRec : Bool) : ∃ m, s.startActivity 4 g byRec =
    let q := (s.updMaint (fun m => m.begun 4 g byRec)).updSpill g (fun k => { k with next := true, waiting := s.others g, repeats := 0 })
    { q with out := { s.out with mgt := m } } := by
  unfold State.startActivity
  dsimp only
  rw [if_pos rfl]
  exact State.sendSpillKey_frame ..

theorem exec_spillKeyDistribute_member {g : Slot} {gen : W32} (hformed : (s.group g.val).formed = true)
    (hlead : (s.group g.val).lead = false) (hgen : gen.toNat = ((s.spillKeys g.val).gen + 1) % 2 ^ 32) :
    exec (.spillKeyDistribute g gen none) s =
      .next ((s.updSpill g.val (fun k => { k with next := true, waiting := [] })).mgt (.spillKeyAck g.val gen.toNat)) := by
  have hkeys := s.updSpill_congr (g := g.val) (k := fun k => if gen.toNat = (k.gen + 1) % 2 ^ 32 then { k with next := true, waiting := [] } else k)
    (l := fun k => { k with next := true, waiting := [] }) (if_pos hgen)
  show execSpillKeyDistribute g gen none s = _
  unfold execSpillKeyDistribute
  dsimp only
  rw [if_neg (by simp [hformed]), if_neg (by simp [hlead]), hkeys]

theorem exec_spillKeyDistribute_acked {g : Slot} {gen : W32} {p : Place} (hformed : (s.group g.val).formed = true)
    (hlead : (s.group g.val).lead = true) :
    exec (.spillKeyDistribute g gen (some p)) s = .next (s.updSpill g.val (fun k => { k with waiting := k.waiting.filter (· != p) })) := by
  show execSpillKeyDistribute g gen (some p) s = _
  unfold execSpillKeyDistribute
  dsimp only
  rw [if_neg (by simp [hformed]), if_pos hlead]

theorem exec_spillKeyAckTimeout_waiting {g : Slot} (hlead : (s.group g.val).lead = true) (hnext : (s.spillKeys g.val).next = true)
    (hwait : (s.spillKeys g.val).waiting ≠ []) :
    exec (.spillKeyAckTimeout g) s = .next (if (s.spillKeys g.val).repeats < 3
      then (s.updSpill g.val (fun k => { k with repeats := k.repeats + 1 })).sendSpillKey g.val
      else
        let q := (s.updSpill g.val (fun k => { k with next := false, waiting := [], repeats := 0 })).security (s.group g.val).owner 2
        if q.maint.running = 4 ∧ q.maint.arg = g.val then q.endActivity else q) := by
  show execSpillKeyAckTimeout g s = _
  unfold execSpillKeyAckTimeout
  dsimp only
  rw [if_neg (by simp [hlead, hnext, hwait])]
  exact (apply_ite Host.Outcome.next ..).symm

end

/-- Settles O19: the clauses are the lemmas of the commands, at the payloads and the states that they name. -/
theorem firmwareAndKeysComplete : Obligations.FirmwareAndKeysComplete := by
  unfold Obligations.FirmwareAndKeysComplete
  intro s a seq
  refine ⟨fun payload ha => ?_, fun payload ha hrec hidle hlen hlow hhigh => ?_, fun len bs off ha hsusp hopen => exec_fwPiece_good ha hsusp hopen,
    fun len ha hsusp hopen => exec_fwEnd_good ha hsusp hopen, exec_fwWriteTimeout_running, exec_fwWatchdog_idle,
    fun kind slot key ha hkind hslot hkey hform => ?_, rfl, fun g hbusy hsusp ha hled => ?_,
    fun g gen => exec_spillKeyDistribute_member, fun g gen p => exec_spillKeyDistribute_acked, fun g hlead hnext hwait => ?_⟩
  · refine ⟨?_, ?_, ?_, ?_, ?_⟩
    · show execFwBegin a seq payload s = _
      rw [execFwBegin, if_pos (by simp [ha])]
    · show execFwPiece a seq payload s = _
      rw [execFwPiece, if_pos (by simp [ha])]
    · show execFwEnd a seq payload s = _
      rw [execFwEnd, if_pos (by simp [ha])]
    · show execKeyInstall a seq payload s = _
      rw [execKeyInstall, if_pos (by simp [ha])]
    · show execKeyRemove a seq payload s = _
      rw [execKeyRemove, if_pos (by simp [ha])]
  · have hstep := exec_fwBegin_good (seq := seq) ha hrec hidle hlen hlow hhigh
    refine ⟨fun hbusy => by rw [hstep, if_pos hbusy], fun hbusy _ => ⟨_, hstep, ?_⟩⟩
    rw [if_neg (by simp [hbusy]), State.startActivity_plain _ _ _ (by decide)]
    cases a <;> exact ⟨rfl, rfl⟩
  · obtain ⟨hlen, h2, hbytes, htake⟩ := keyPayload_key kind slot hkey
    obtain ⟨h0, h1⟩ := keyPayload_slot hkind hslot key
    obtain ⟨hr0, hr1⟩ := keyPayload_slot hkind hslot []
    rw [List.append_nil] at hr0 hr1
    have hinstall := exec_keyInstall_good (s := s) (seq := seq) ha hlen (keySlotOk_of_fields hkind hslot h0 h1) (h2.trans hform)
    have hremove := exec_keyRemove_good (s := s) (seq := seq) (payload := leBytes 1 kind ++ leBytes 1 slot) ha rfl
      (keySlotOk_of_fields hkind hslot hr0 hr1)
    rw [h0, h1, hbytes] at hinstall
    rw [hr0, hr1] at hremove
    dsimp only
    rw [htake, hinstall, hremove]
    exact ⟨fun h => by simp only [if_pos h, and_self], fun h => by simp only [h, Bool.false_eq_true, if_false, and_self]⟩
  · have hid : fieldN (leBytes 4 (s.group g.val).id.toNat) 0 4 = (s.group g.val).id.toNat := by
      rw [fieldN_leBytes]
      exact Nat.mod_eq_of_lt (s.group g.val).id.isLt
    have hsame (h : Nat) : ((s.group h).id.toNat == (s.group g.val).id.toNat) = ((s.group h).id == (s.group g.val).id) := by
      rw [Bool.eq_iff_iff, beq_iff_eq, beq_iff_eq, BitVec.toNat_inj]
    have hstep := exec_spillRotate_led (seq := seq) (payload := leBytes 4 (s.group g.val).id.toNat) ha rfl (g := g.val)
      (by simpa only [hid, hsame] using hled) hbusy
    obtain ⟨m, hbegun⟩ := s.startActivity_retirement g.val false
    obtain ⟨fs, o, hreply⟩ : ∃ fs o, (s.startActivity 4 g.val false).reply a 0x20 0 seq [] =
        { s.startActivity 4 g.val false with funcs := fs, out := o } := ⟨_, _, State.reply_hostOnly ..⟩
    have hkeys := (s.updMaint (fun m => m.begun 4 g.val false)).updSpill_spillKeys g.val
      (fun k => { k with next := true, waiting := s.others g.val, repeats := 0 })
    rw [hreply, hbegun] at hstep
    exact ⟨_, hstep, rfl, rfl, congrArg SpillKeys.next hkeys, congrArg SpillKeys.waiting hkeys, (congrArg SpillKeys.gen hkeys :), rfl⟩
  · have hstep := exec_spillKeyAckTimeout_waiting hlead hnext hwait
    obtain ⟨fs, o, hevent⟩ : ∃ fs o, (s.updSpill g.val (fun k => { k with next := false, waiting := [], repeats := 0 })).security
        (s.group g.val).owner 2 = { s.updSpill g.val (fun k => { k with next := false, waiting := [], repeats := 0 }) with
          funcs := fs, out := o } := ⟨_, _, State.raiseTo_hostOnly ..⟩
    refine ⟨fun h => by rw [hstep, if_pos h], fun h hrun => ?_⟩
    rw [hstep, if_neg (by omega)]
    dsimp only
    rw [if_neg (fun hr => hrun (by rw [hevent] at hr; exact hr.1))]

end Sys2Proof.Machine
end

section
/-! PROOF. SPDM sessions, TDISP states and IDE streams (19 R434, R435, R440 to R442, R444; log entries 10, 29, 65 to 67, 97). -/

namespace Sys2Proof.Machine

section
variable {s : State} {r : Requester}

/-! ### SPDM -/

/-- A request in turn is answered and moves its connection on. -/
theorem State.spdmTurn_in {low high next : Nat} {a : SpdmReply} (hlow : low ≤ (s.spdmOf r).phase) (hhigh : (s.spdmOf r).phase ≤ high)
    (hnext : next ≠ 0) : s.spdmTurn r low high next a = (s.setSpdm { s.spdmOf r with phase := next }).spdm r a := by
  unfold State.spdmTurn
  dsimp only
  rw [if_pos ⟨hlow, hhigh⟩, if_neg hnext]

/-- One that leaves the phase of its connection as it is. -/
theorem State.spdmTurn_stay {low high : Nat} {a : SpdmReply} (hlow : low ≤ (s.spdmOf r).phase) (hhigh : (s.spdmOf r).phase ≤ high) :
    s.spdmTurn r low high 0 a = (s.setSpdm (s.spdmOf r)).spdm r a := by
  unfold State.spdmTurn
  dsimp only
  rw [if_pos ⟨hlow, hhigh⟩, if_pos rfl]

/-- A request out of turn is answered with an error. -/
theorem State.spdmTurn_out {low high next : Nat} {a : SpdmReply} (h : ¬ (low ≤ (s.spdmOf r).phase ∧ (s.spdmOf r).phase ≤ high)) :
    s.spdmTurn r low high next a = s.spdm r .error := by
  unfold State.spdmTurn
  dsimp only
  rw [if_neg h]

theorem State.attest_ready {a : SpdmReply} (hid : s.sec.identity = true) (hlow : 3 ≤ (s.spdmOf r).phase) (hhigh : (s.spdmOf r).phase ≤ 5) :
    s.attest r a = (s.setSpdm (s.spdmOf r)).spdm r a := by
  rw [State.attest, if_pos hid, State.spdmTurn_stay hlow hhigh]

theorem State.attest_unready {a : SpdmReply} (hid : s.sec.identity = false) : s.attest r a = s.spdm r .error := by
  rw [State.attest, if_neg (by simp [hid])]

theorem exec_getMeasurements_all : exec (.getMeasurements r 0xFF) s =
    .next (s.attest r (.measurements ((s.visible r).map (fun m => (m.1, m.2.value, m.2.changes))))) := by
  have hall : (s.visible r).filter (fun (m : Nat × Measurement) => (0xFF : Byte) == 0xFF || m.1 == (0xFF : Byte).toNat) = s.visible r :=
    List.filter_eq_self.mpr (fun _ _ => rfl)
  show execGetMeasurements r 0xFF s = _
  unfold execGetMeasurements
  dsimp only
  rw [hall]

theorem exec_finish_good (hphase : (s.spdmOf r).phase = 4) :
    exec (.finish r none true) s = .next ((s.setSpdm { s.spdmOf r with phase := 5 }).spdm r .finish) := by
  show execFinish r none true s = _
  simp only [execFinish, if_true]
  rw [State.spdmTurn_in hphase.ge hphase.le (by decide)]

theorem exec_finish_bad (hphase : (s.spdmOf r).phase = 4) :
    exec (.finish r none false) s = .next ((s.setSpdm { s.spdmOf r with phase := 3 }).spdm r .error) := by
  show execFinish r none false s = _
  simp only [execFinish, Bool.false_eq_true, if_false]
  rw [if_pos hphase]

theorem exec_keyUpdate : exec (.keyUpdate r) s = .next (if (s.spdmOf r).phase = 5
    then (s.setSpdm { s.spdmOf r with updates := (s.spdmOf r).updates + 1 }).spdm r .keyUpdate else s.spdm r .error) := rfl

theorem exec_endSession : exec (.endSession r) s = .next (if (s.spdmOf r).phase = 5
    then (s.setSpdm { s.spdmOf r with phase := 3, updates := 0 }).spdm r .endSession else s.spdm r .error) := rfl

/-! ### The sessions of links -/

theorem State.updPort_port_ne (s : State) {p n : Nat} (f : Port → Port) (h : n ≠ p) : (s.updPort p f).port n = s.port n :=
  Recs.get_put_ne _ _ _ h

/-- What a port has when it comes up: its counters at 0, and the cells of its unacknowledged frames wait to be sent again. -/
def Port.cameUp (k : Port) (now : Nat) : Port :=
  { k with
    st := .up, miswired := false, seq := 0, frames := 0, rxFrames := 0, expect := 0, buffer := [], resend := [], episode := false
    nakDue := false, replayRun := 0, replayTimes := [], tagRun := 0, heard := now, silent := false, farOff := 0
    offSince := [], starve := [], credits := [], retraining := false, retrainFails := 0
    outq := k.buffer.flatMap (fun f => f.cells.map (fun c => (c.1, (⟨8, c.1, c.2⟩ : InCell)))) ++ k.outq }

theorem State.enterUp_hostOnly (s : State) (p : Nat) : (s.updPort p (fun k => k.cameUp s.station)).HostOnly (s.enterUp p) :=
  State.linkEvent_hostOnly ..

/-- The keys of a port whose session is new. -/
def Port.newSession (k : Port) : Port :=
  { k with
    session := k.session + 1, txKeys := ⟨some ⟨k.session + 1, 0⟩, none⟩, rxKeys := ⟨some ⟨k.session + 1, 0⟩, none⟩, key := false
    rotIndex := 0, keyFrames := 0, rotation := .idle, sessionFails := 0 }

/-- A port that leaves LIMITED for UP: its keys are those of the new session, its counters at 0, and the cells of its unacknowledged
frames wait to be sent again (log entry 97). -/
theorem State.linkKeys_spec {p : Nat} (hst : (s.port p).st = .limited) :
    let t := s.linkKeys p
    (t.port p).st = .up ∧ (t.port p).txKeys = ⟨some ⟨(s.port p).session + 1, 0⟩, none⟩ ∧
      (t.port p).rxKeys = ⟨some ⟨(s.port p).session + 1, 0⟩, none⟩ ∧ (t.port p).key = false ∧ (t.port p).seq = 0 ∧ (t.port p).expect = 0 ∧
      (t.port p).outq = (s.port p).buffer.flatMap (fun f => f.cells.map (fun c => (c.1, ⟨8, c.1, c.2⟩))) ++ (s.port p).outq ∧
      State.OnlyPort { s with funcs := t.funcs, out := t.out } t p := by
  let q := (s.updPort p Port.newSession).updPort p (fun k => k.cameUp s.station)
  have hlink : s.linkKeys p = (s.updPort p Port.newSession).enterUp p := by
    rw [State.linkKeys, if_pos (by simp [hst])]
    rfl
  have hhost : q.HostOnly (s.linkKeys p) := hlink ▸ State.enterUp_hostOnly ..
  have hport : (s.linkKeys p).port p = (s.port p).newSession.cameUp s.station := by
    rw [hhost.port, State.updPort_port, State.updPort_port]
  have hothers (n : Nat) (hn : n ≠ p) : (s.linkKeys p).port n = s.port n := by
    rw [hhost.port, State.updPort_port_ne _ _ hn, State.updPort_port_ne _ _ hn]
  dsimp only
  rw [hport]
  refine ⟨rfl, rfl, rfl, rfl, rfl, rfl, rfl, hothers, ?_⟩
  obtain ⟨fs, o, hframe⟩ : ∃ fs o, s.linkKeys p = { q with funcs := fs, out := o } := ⟨_, _, hhost⟩
  rw [hframe]
  rfl

theorem exec_finish_link {p : PortId} {good : Bool} (hst : (s.port p.val).st = .limited) :
    exec (.finish r (some p) good) s = .next (if good && s.sec.identity then s.linkKeys p.val
      else if 2 ≤ (s.port p.val).sessionFails then s.sessionDown p.val
      else s.updPort p.val (fun k => { k with sessionFails := k.sessionFails + 1 })) := by
  show execFinish r (some p) good s = _
  simp only [execFinish]
  rw [if_neg (by simp [hst]), if_neg (by simp [hst])]
  split_ifs <;> rfl

theorem exec_finish_up {p : PortId} {good : Bool} (hst : (s.port p.val).st = .up) (hpolicy : (s.port p.val).policy = true) :
    exec (.finish r (some p) good) s = .next (s.renewSession p.val (good && s.sec.identity)) := by
  show execFinish r (some p) good s = _
  simp only [execFinish]
  rw [if_pos (by simp [hst, hpolicy])]

end

/-! ### TDISP and IDE -/

section
variable {s : State} {p : FuncId}

theorem exec_lockInterfaceRequest_refused (h : s.lockRefused p.val = true) :
    exec (.lockInterfaceRequest p) s = .next (s.spdm (.func p) .error) := by
  show execLockInterfaceRequest p s = _
  unfold execLockInterfaceRequest
  dsimp only
  rw [if_pos (.inr (.inr h))]

theorem exec_lockInterfaceRequest_locks (hp : p.val ≠ 0) (hfree : (s.part p.val).tdisp = 0) (h : s.lockRefused p.val = false) :
    exec (.lockInterfaceRequest p) s = .next (({ s.updPart p.val (fun x => { x with tdisp := 1, conf := true }) with
      dbg := { s.dbg with en := false } }.remeasure 6).spdm (.func p) (.locked p.val)) := by
  show execLockInterfaceRequest p s = _
  unfold execLockInterfaceRequest
  dsimp only
  rw [if_neg (by simp [hp, hfree, h])]
  rfl

theorem exec_startInterfaceRequest : exec (.startInterfaceRequest p) s = .next (if p.val ≠ 0 ∧ (s.part p.val).tdisp = 1
    then (s.updPart p.val (fun x => { x with tdisp := 2 })).spdm (.func p) (.started p.val) else s.spdm (.func p) .error) := by
  show execStartInterfaceRequest p s = _
  exact (apply_ite Host.Outcome.next ..).symm

theorem exec_stopInterfaceRequest (hp : p.val ≠ 0) : exec (.stopInterfaceRequest p) s = .next (if (s.part p.val).conf
    then s.askZeroing (16 + p.val) else s.spdm (.func p) (.stopped p.val)) := by
  show execStopInterfaceRequest p s = _
  unfold execStopInterfaceRequest
  dsimp only
  rw [if_neg hp]
  exact (apply_ite Host.Outcome.next ..).symm

theorem exec_ideKm {stream : Option (Fin 9)} {active : Bool} (hphase : (s.spdmOf (.func 0)).phase = 5) :
    exec (.ideKm stream active) s = .next (match stream with
      | none => (s.updSec (fun x => { x with linkIde := active })).spdm (.func 0) .ideKm
      | some p => (s.updSec (fun x => { x with
          ideSel := (x.ideSel.filter (· != p.val)) ++ (if active then [p.val] else []) })).spdm (.func 0) .ideKm) := by
  show execIdeKm stream active s = _
  unfold execIdeKm
  dsimp only
  rw [if_neg (not_not_intro hphase)]
  split <;> rfl

end

/-- Settles O20: the clauses are the lemmas of the requests, in turn and out of turn. -/
theorem sessionsComplete : Obligations.SessionsComplete := by
  unfold Obligations.SessionsComplete
  intro s
  refine ⟨fun r => ?_, fun p => ?_, fun hphase active => ⟨exec_ideKm hphase, fun p => ⟨_, exec_ideKm hphase, ?_, fun q hq => ?_, rfl⟩⟩⟩
  · refine ⟨rfl, fun h => ?_, fun h => ?_, fun h => ?_, fun h => ?_, fun hid hlow hhigh => ⟨?_, ?_, fun nonce => ?_, ?_⟩,
      fun hid => ⟨?_, ?_, fun bytes => ⟨?_, ?_⟩, fun index => ?_⟩, fun share hid h => ?_, fun h => ⟨exec_finish_good h, exec_finish_bad h⟩,
      fun h => ⟨?_, ?_, ?_⟩, fun h => ⟨?_, ?_, ?_⟩, fun p hst => ⟨fun hid => ?_, fun hfails => ?_, fun hfails => ?_⟩,
      fun p hst hpolicy good => exec_finish_up hst hpolicy⟩
    · exact congrArg Host.Outcome.next (State.spdmTurn_in h.ge h.le (by decide))
    · exact congrArg Host.Outcome.next (State.spdmTurn_out (by omega))
    · exact congrArg Host.Outcome.next (State.spdmTurn_in h.ge h.le (by decide))
    · exact congrArg Host.Outcome.next (State.spdmTurn_out (by omega))
    · exact congrArg Host.Outcome.next (State.attest_ready hid hlow hhigh)
    · exact congrArg Host.Outcome.next (State.attest_ready hid hlow hhigh)
    · exact congrArg Host.Outcome.next (State.attest_ready hid hlow hhigh)
    · rw [exec_getMeasurements_all, State.attest_ready hid hlow hhigh]
    · exact congrArg Host.Outcome.next (State.attest_unready hid)
    · exact congrArg Host.Outcome.next (State.attest_unready hid)
    · exact congrArg Host.Outcome.next (State.attest_unready hid)
    · exact congrArg Host.Outcome.next (if_neg (by simp [hid]))
    · exact congrArg Host.Outcome.next (State.attest_unready hid)
    · exact congrArg Host.Outcome.next ((if_pos hid).trans (State.spdmTurn_in h.ge h.le (by decide)))
    · rw [exec_keyUpdate, if_pos h]
    · refine congrArg Host.Outcome.next ((State.spdmTurn_stay h.ge h.le).trans ?_)
      rw [← h]
    · rw [exec_endSession, if_pos h]
    · rw [exec_keyUpdate, if_neg h]
    · exact congrArg Host.Outcome.next (State.spdmTurn_out (by omega))
    · rw [exec_endSession, if_neg h]
    · refine ⟨s.linkKeys p.val, by rw [exec_finish_link hst, if_pos (by simp [hid])], State.linkKeys_spec hst⟩
    · rw [exec_finish_link hst, if_neg (by simp), if_neg (by omega)]
    · rw [exec_finish_link hst, if_neg (by simp), if_pos hfails]
      rfl
  · refine ⟨exec_lockInterfaceRequest_refused, exec_lockInterfaceRequest_locks, fun hp h => ?_, fun h => ?_, fun hp h => ?_, fun hp h => ?_,
      fun hp h => ?_, fun h => ?_⟩
    · rw [exec_startInterfaceRequest, if_pos ⟨hp, h⟩]
    · rw [exec_startInterfaceRequest, if_neg (fun hs => h hs.2)]
    · rw [exec_stopInterfaceRequest hp, if_neg (by simp [h])]
    · rw [exec_stopInterfaceRequest hp, if_pos h]
    · show Host.Outcome.next (s.tdiError p.val) = _
      rw [State.tdiError, if_pos ⟨hp, h⟩]
      rfl
    · show Host.Outcome.next (s.tdiError p.val) = _
      rw [State.tdiError, if_neg (by simp [h])]
  · cases active <;> simp [State.spdm, State.updSec]
  · cases active <;> simp [State.spdm, State.updSec, hq]

end Sys2Proof.Machine
end

section
/-! PROOF. Link keys: their rotation and retirement (19 R446, R447; log entry 56). -/

namespace Sys2Proof.Machine

section
variable {s : State} {p : PortId}

/-- The port whose acknowledged rotation has switched: the key of the session in the idle slot, KEY the other one (19 R446). -/
def Port.switched (k : Port) : Port :=
  let n := k.rotIndex + 1
  { k with
    rotation := .switched, key := !k.key, rotIndex := n, keyFrames := 0
    txKeys := if k.key then { k.txKeys with s0 := some ⟨k.session, n⟩ } else { k.txKeys with s1 := some ⟨k.session, n⟩ } }

theorem Port.switched_slot_new (k : Port) : k.switched.txKeys.slot (!k.key) = some ⟨k.session, k.rotIndex + 1⟩ := by
  cases h : k.key <;> simp [Port.switched, KeySlots.slot, h]

theorem Port.switched_slot_old (k : Port) : k.switched.txKeys.slot k.key = k.txKeys.slot k.key := by
  cases h : k.key <;> simp [Port.switched, KeySlots.slot, h]

/-- The port that has asked for the retirement of the key it does not use. -/
def Port.retiringKey (k : Port) : Port :=
  { k with rotation := .retiring, txKeys := if k.key then { k.txKeys with s0 := none } else { k.txKeys with s1 := none } }

theorem Port.switched_retiringKey_slot_new (k : Port) : k.switched.retiringKey.txKeys.slot (!k.key) = some ⟨k.session, k.rotIndex + 1⟩ := by
  cases h : k.key <;> simp [Port.switched, Port.retiringKey, KeySlots.slot, h]

theorem Port.switched_retiringKey_slot_old (k : Port) : k.switched.retiringKey.txKeys.slot k.key = none := by
  cases h : k.key <;> simp [Port.switched, Port.retiringKey, KeySlots.slot, h]

/-- Once it has switched, retirement follows at once where every unacknowledged frame uses the new key (19 R446). -/
theorem State.retireDue_switched (s : State) (p : Nat) : (s.updPort p Port.switched).retireDue p =
    if (s.port p).buffer.all (fun f => !f.enc || f.key == !(s.port p).key) then
      (s.updPort p (fun k => k.switched.retiringKey)).mgt (.retireKey p (s.port p).rotIndex)
    else s.updPort p Port.switched := by
  have hport : (s.updPort p Port.switched).port p = (s.port p).switched := s.updPort_port p _
  have hcompose : (s.updPort p Port.switched).updPort p Port.retiringKey = s.updPort p (fun k => k.switched.retiringKey) := by
    rw [State.updPort, hport, State.updPort, Recs.put_put, State.updPort]
  have hif (b : Bool) (t u : State) : (if (true && b) = true then t else u) = if b = true then t else u := by rw [Bool.true_and]
  rw [← hcompose]
  unfold State.retireDue
  rw [hport]
  exact hif _ _ _

theorem State.updPort_congr {p : Nat} {f g : Port → Port} (h : f (s.port p) = g (s.port p)) : s.updPort p f = s.updPort p g := by
  rw [State.updPort, h, State.updPort]

section
variable (hup : (s.port p.val).st = .up) (hpolicy : (s.port p.val).policy = true)
include hup hpolicy

theorem exec_linkKeyRotation_expiry (hidle : (s.port p.val).rotation = .idle) :
    exec (.linkKeyRotation p none) s =
      .next ((s.updPort p.val (fun k => { k with rotation := .asked })).mgt (.rotate p.val ((s.port p.val).rotIndex + 1))) := by
  show execLinkKeyRotation p none s = _
  simp [execLinkKeyRotation, hup, hpolicy, hidle]

theorem exec_linkKeyRotation_busy (hasked : (s.port p.val).rotation = .asked) :
    exec (.linkKeyRotation p (some true)) s = .next (s.updPort p.val (fun k => { k with rotation := .busy })) := by
  show execLinkKeyRotation p (some true) s = _
  simp [execLinkKeyRotation, hup, hpolicy, hasked]

theorem exec_linkKeyRotation_acked (hasked : (s.port p.val).rotation = .asked) :
    exec (.linkKeyRotation p (some false)) s = .next ((s.updPort p.val Port.switched).retireDue p.val) := by
  show execLinkKeyRotation p (some false) s = _
  unfold execLinkKeyRotation
  simp only [hasked]
  rw [if_neg (by simp [hup, hpolicy])]
  rfl

theorem exec_rotate_full {index : W32} (h0 : (s.port p.val).rxKeys.s0.isSome = true) (h1 : (s.port p.val).rxKeys.s1.isSome = true) :
    exec (.rotate p index) s = .next (s.mgt (.rotateAck p.val true)) := by
  show execRotate p index s = _
  unfold execRotate
  dsimp only
  rw [if_neg (by simp [hup, hpolicy]), if_pos (by simp [h0, h1])]

/-- A receiver with an idle slot installs the index in the first of them (19 R446). -/
theorem exec_rotate_idle {index : W32} (hidle : ¬ ((s.port p.val).rxKeys.s0.isSome = true ∧ (s.port p.val).rxKeys.s1.isSome = true)) :
    exec (.rotate p index) s = .next ((s.updPort p.val (fun k => { k with
      rxKeys := if k.rxKeys.s0 = none then { k.rxKeys with s0 := some ⟨k.session, index.toNat⟩ }
        else { k.rxKeys with s1 := some ⟨k.session, index.toNat⟩ } })).mgt (.rotateAck p.val false)) := by
  show execRotate p index s = _
  unfold execRotate
  dsimp only
  rw [if_neg (by simp [hup, hpolicy]), if_neg (by simpa using hidle)]
  simp only [Option.isNone_iff_eq_none]
  rfl

end

theorem exec_rotateRetry_busy (hbusy : (s.port p.val).rotation = .busy) :
    exec (.rotateRetry p) s =
      .next ((s.updPort p.val (fun k => { k with rotation := .asked })).mgt (.rotate p.val ((s.port p.val).rotIndex + 1))) := by
  show execRotateRetry p s = _
  simp [execRotateRetry, hbusy]

/-- The older of two keys is erased (19 R446). -/
theorem exec_retireKey {a b : LinkKey} (hkeys : (s.port p.val).rxKeys = ⟨some a, some b⟩) :
    exec (.retireKey p false) s = .next ((s.updPort p.val (fun k => { k with
      rxKeys := if a.session < b.session ∨ (a.session = b.session ∧ a.index < b.index) then ⟨none, some b⟩ else ⟨some a, none⟩ })).mgt
        (.retireKeyAck p.val)) := by
  show execRetireKey p false s = _
  simp only [execRetireKey, hkeys, Bool.false_eq_true, if_false]

theorem exec_retireKey_acked (hretiring : (s.port p.val).rotation = .retiring) :
    exec (.retireKey p true) s = .next (s.updPort p.val (fun k => { k with rotation := .idle, sessionFails := 0 })) := by
  show execRetireKey p true s = _
  simp [execRetireKey, hretiring]

theorem exec_rotationTimeout (hrot : (s.port p.val).rotation ≠ .idle) :
    exec (.rotationTimeout p) s = .next (if 2 ≤ (s.port p.val).sessionFails then s.sessionDown p.val
      else s.updPort p.val (fun k => { k with rotation := .renewing, sessionFails := k.sessionFails + 1 })) := by
  show execRotationTimeout p s = _
  unfold execRotationTimeout
  dsimp only
  rw [if_neg (by simpa using hrot)]
  exact (apply_ite Host.Outcome.next ..).symm

end

/-- Settles O58: one event of a rotation after another; after the switch, by whether an unacknowledged frame uses the old key. -/
theorem linkKeysComplete : Obligations.LinkKeysComplete := by
  unfold Obligations.LinkKeysComplete
  intro s p k hup hpolicy
  refine ⟨exec_linkKeyRotation_expiry hup hpolicy, exec_linkKeyRotation_busy hup hpolicy, fun hasked => ?_, exec_rotateRetry_busy,
    fun index => ⟨fun h0 => ?_, fun h0 h1 => ?_, exec_rotate_full hup hpolicy⟩, fun a b hkeys => ⟨fun h => ?_, fun h => ?_⟩,
    exec_retireKey_acked, fun hrot hfails => ?_, fun hrot hfails => ?_⟩
  · have hstep := exec_linkKeyRotation_acked hup hpolicy hasked
    rw [State.retireDue_switched] at hstep
    by_cases hall : k.buffer.all (fun f => !f.enc || f.key == !k.key) = true
    · rw [if_pos hall] at hstep
      have hport : ((s.updPort p.val (fun k => k.switched.retiringKey)).mgt (.retireKey p.val k.rotIndex)).port p.val =
          k.switched.retiringKey := s.updPort_port p.val (fun k => k.switched.retiringKey)
      refine ⟨_, hstep, ?_, ?_, fun _ => ⟨?_, ?_, rfl⟩, fun hold => ?_,
        fun n hn => s.updPort_port_ne (fun k => k.switched.retiringKey) hn, rfl⟩
      · rw [hport]
        rfl
      · rw [hport]
        exact k.switched_retiringKey_slot_new
      · rw [hport]
        rfl
      · rw [hport]
        exact k.switched_retiringKey_slot_old
      · simp only [List.any_eq_true, List.all_eq_true] at hold hall
        obtain ⟨f, hf, hboth⟩ := hold
        have hnew := hall f hf
        cases hkey : k.key <;> simp_all
    · rw [if_neg hall] at hstep
      have hport : (s.updPort p.val Port.switched).port p.val = k.switched := s.updPort_port p.val _
      refine ⟨_, hstep, ?_, ?_, fun hnone => absurd (by simp [hnone]) hall, fun _ => ⟨?_, ?_, rfl⟩,
        fun n hn => s.updPort_port_ne Port.switched hn, rfl⟩
      · rw [hport]
        rfl
      · rw [hport]
        exact k.switched_slot_new
      · rw [hport]
        rfl
      · rw [hport]
        exact k.switched_slot_old
  · have hnone : (s.port p.val).rxKeys.s0 = none := h0
    rw [exec_rotate_idle hup hpolicy (fun h => by simp [hnone] at h)]
    congr 2
    exact State.updPort_congr (by simp only [hnone, if_true])
  · have hsome : (s.port p.val).rxKeys.s0 ≠ none := Option.isSome_iff_ne_none.mp h0
    have hnone : (s.port p.val).rxKeys.s1 = none := h1
    rw [exec_rotate_idle hup hpolicy (fun h => by simp [hnone] at h)]
    congr 2
    exact State.updPort_congr (by simp only [hsome, if_false])
  · rw [exec_retireKey hkeys]
    simp only [if_pos h]
  · rw [exec_retireKey hkeys]
    simp only [if_neg (show ¬ (a.session < b.session ∨ (a.session = b.session ∧ a.index < b.index)) by omega)]
  · rw [exec_rotationTimeout hrot, if_neg (Nat.not_le.mpr hfails)]
  · rw [exec_rotationTimeout hrot, if_pos hfails]
    rfl

end Sys2Proof.Machine
end

section
/-! PROOF. Station time: the exchange with the parent, holdover and the source (21 R495 to R498; 24 Table 24.5; log entry 74). -/

namespace Sys2Proof.Machine

section
variable {s : State} {p : PortId} {frac : BitVec 4}

/-! ### The exchange -/

theorem exec_syncExchange_sends (htalks : s.talks p.val = true) (hsynced : s.sync.synced = true) (hparent : s.parentPort ≠ some p.val) :
    exec (.syncExchange p frac) s =
      .next ((s.ctl (.sync p.val)).ctl (.followUp p.val (16 * s.station + frac.toNat) s.station s.sync.hops)) := by
  show execSyncExchange p frac s = _
  unfold execSyncExchange
  dsimp only
  rw [if_pos (by simp [htalks, hsynced, hparent])]
  rfl

theorem exec_sync_parent (hparent : s.parentPort = some p.val) :
    exec (.sync p frac) s = .next { s with sync := { s.sync with t2 := 16 * s.station + frac.toNat } } := by
  show execSync p frac s = _
  rw [execSync, if_pos hparent]
  rfl

theorem exec_followUp_parent {t1 : BitVec 68} {hops : Byte} (hparent : s.parentPort = some p.val) :
    exec (.followUp p t1 hops frac) s =
      .next ({ s with sync := { s.sync with t1 := t1.toNat, parentHops := hops.toNat, t3 := 16 * s.station + frac.toNat } }.ctl
        (.delayReq p.val)) := by
  show execFollowUp p t1 hops frac s = _
  rw [execFollowUp, if_pos hparent]
  rfl

theorem exec_delayReq_answers (htalks : s.talks p.val = true) (hsynced : s.sync.synced = true) :
    exec (.delayReq p frac) s = .next (s.ctl (.delayResp p.val (16 * s.station + frac.toNat))) := by
  show execDelayReq p frac s = _
  rw [execDelayReq, if_pos (by simp [htalks, hsynced])]
  rfl

/-- The first exchange sets station time to the parent's (R496). -/
theorem exec_delayResp_first {t4 : BitVec 68} (hparent : s.parentPort = some p.val) (hsynced : s.sync.synced = false) :
    exec (.delayResp p t4) s = .next { s with
      station := ((16 * s.station : Int) - s.sync.offset t4.toNat).toNat / 16 % 2 ^ 64
      sync := { s.sync with
        synced := true, hops := s.sync.parentHops + 1, slew := 0
        part := ((16 * s.station : Int) - s.sync.offset t4.toNat).toNat % 16 * (stationUnit / 16), lastParent := s.sync.t1
        lastOwn := ((s.sync.t2 : Int) - s.sync.offset t4.toNat).toNat } } := by
  show execDelayResp p t4 s = _
  unfold execDelayResp
  dsimp only
  rw [if_pos hparent, if_pos (by simp [hsynced])]

/-- A later one steers the rate and slews (R496). -/
theorem exec_delayResp_later {t4 : BitVec 68} (hparent : s.parentPort = some p.val) (hsynced : s.sync.synced = true) :
    exec (.delayResp p t4) s = .next (s.updSync (fun y => { y with
      rate := y.newRate, slew := -s.sync.offset t4.toNat * (stationUnit / 16), hops := s.sync.parentHops + 1, lastParent := s.sync.t1
      lastOwn := s.sync.t2
      holdover := y.holdover && !decide (100 * (s.sync.offset t4.toNat).natAbs ≤ 3200 + 432 * (s.sync.parentHops + 1)) })) := by
  show execDelayResp p t4 s = _
  unfold execDelayResp
  dsimp only
  rw [if_pos hparent, if_neg (by simp [hsynced])]
  rfl

/-! ### Holdover and the source -/

theorem exec_holdover_synced (hsynced : s.sync.synced = true) (hsource : s.isSource = false) :
    exec .holdover s = .next { s with sync := { s.sync with holdover := true } } := by
  show execHoldover s = _
  rw [execHoldover, if_pos (by simp [hsynced, hsource])]
  rfl

theorem exec_sourceSynced_source (hsource : s.isSource = true) (hrail : s.power.railFabric = true) :
    exec .sourceSynced s = .next { s with sync := { s.sync with synced := true } } := by
  show execSourceSynced s = _
  rw [execSourceSynced, if_pos (by simp [hsource, hrail])]
  rfl

theorem exec_stationSet_up {value : W64} (hup : s.funcUp 0 = true) : exec (.stationSet value) s = .next (s.setStation value) := by
  show execStationSet value s = _
  rw [execStationSet, if_pos hup]

end

/-- Settles O22: one message of the exchange after another, then holdover and what sets the source's time. -/
theorem stationTimeComplete : Obligations.StationTimeComplete := by
  unfold Obligations.StationTimeComplete
  intro s p frac
  refine ⟨exec_syncExchange_sends, exec_sync_parent, fun t1 hops => exec_followUp_parent, exec_delayReq_answers,
    fun t4 hparent hsynced => ⟨_, exec_delayResp_first hparent hsynced, rfl, rfl, rfl, rfl⟩,
    fun t4 hparent hsynced => ⟨_, exec_delayResp_later hparent hsynced, rfl, rfl, rfl, rfl, fun hnear => ?_, rfl⟩,
    exec_holdover_synced, exec_sourceSynced_source, fun value hup => ⟨fun hsource hsynced hformed => ?_, fun h => ?_⟩⟩
  · show (s.sync.holdover && !decide _) = false
    rw [decide_eq_true hnear, Bool.not_true, Bool.and_false]
  · rw [exec_stationSet_up hup, State.setStation, if_pos (by simp [hsource, hsynced, hformed])]
  · rw [exec_stationSet_up hup, State.setStation, if_neg (by rcases h with h | h <;> simp [h])]

end Sys2Proof.Machine
end

section
/-! PROOF. The fault log, and the faults of the package's parts (20 R463 to R465, R474; log entries 13, 18, 57). -/

namespace Sys2Proof.Machine

/-! ### An entry of the log -/

/-- The entry that a fault adds, with the fields that it was given, and what follows it: events to the host (R474). -/
theorem State.logFault_entry (s : State) (reason : BitVec 16) (cls outcome : Nat) (slot : Option Nat) (step : W64) (unit sub : BitVec 16)
    (detail : Nat) : ∃ (e : FaultEntry) (n : Nat), (e.reason = reason ∧ e.cls = cls ∧ e.outcome = outcome ∧ e.step = step ∧ e.unit = unit ∧
      e.sub = sub) ∧ (s.withFault e n).HostOnly (s.logFault reason cls outcome slot step unit sub detail) := by
  have hevents (q : State) (g : Nat) (ev : Event) : q.HostOnly
      (if ((q.raise 0 ev).group g).owner == 0 then q.raise 0 ev else (q.raise 0 ev).raise ((q.raise 0 ev).group g).owner ev) := by
    split
    · exact q.raise_hostOnly ..
    · exact (q.raise_hostOnly ..).trans (State.raise_hostOnly ..)
  let group : W32 := match slot with | some g => (s.group g).id | none => 0
  cases hgiven : detailGiven reason with
  | true =>
    refine ⟨⟨reason, cls, outcome, group, step, s.station, unit, sub, BitVec.ofNat 32 detail⟩, s.free, ⟨rfl, rfl, rfl, rfl, rfl, rfl⟩, ?_⟩
    simp only [State.logFault, hgiven, if_true]
    cases slot with
    | none => exact State.raise_hostOnly ..
    | some g => exact hevents _ g _
  | false =>
    refine ⟨⟨reason, cls, outcome, group, step, s.station, unit, sub, Config.freeWord 32 s.free⟩, s.free + 1,
      ⟨rfl, rfl, rfl, rfl, rfl, rfl⟩, ?_⟩
    simp only [State.logFault, hgiven, Bool.false_eq_true, if_false]
    cases slot with
    | none => exact State.raise_hostOnly ..
    | some g => exact hevents _ g _

/-- The state after a logged fault is the one before with its entry, but for what the functions and the host are told. -/
theorem State.logFault_eq (s : State) (reason : BitVec 16) (cls outcome : Nat) (slot : Option Nat) (step : W64) (unit sub : BitVec 16)
    (detail : Nat) : ∃ (e : FaultEntry) (n : Nat) (fs : List (Nat × Func)) (o : Out),
      (e.reason = reason ∧ e.cls = cls ∧ e.outcome = outcome ∧ e.step = step ∧ e.unit = unit ∧ e.sub = sub) ∧
      s.logFault reason cls outcome slot step unit sub detail = { s.withFault e n with funcs := fs, out := o } := by
  obtain ⟨e, n, hfields, hhost⟩ := s.logFault_entry reason cls outcome slot step unit sub detail
  exact ⟨e, n, _, _, hfields, hhost⟩

section
variable {s : State}

/-! ### Faults of the parts -/

theorem exec_meshCrc_enabled {c : CoreId} (hpass : s.passThrough = false) (hen : s.isEnabled c.val = true) :
    exec (.meshCrc c none) s = .next (
      let recent := s.meshFaults.filter (fun t => s.station < t + 3600000000000)
      let q := ({ s with meshFaults := recent ++ [s.station] } : State).coreFault c.val 0x0020 5 (if 2 ≤ recent.length then 4 else 1) 0xFFFF 0
      if 2 ≤ recent.length then q.enterPassThrough 0x0020 else q) := by
  show execMeshCrc c none s = _
  unfold execMeshCrc
  rw [if_pos (by simp [hpass, hen])]
  simp only [Option.bind_none, decide_eq_true_eq]

theorem State.addHold_holds (s : State) (h : Hold) : ∃ l, s.addHold h = { s with clk := { s.clk with holds := l } } ∧
    ∀ x, x ∈ l ↔ x ∈ s.clk.holds ∨ x = h := by
  unfold State.addHold
  split
  next hmem => exact ⟨_, rfl, fun x => ⟨.inl, fun hx => hx.elim id (fun heq => heq ▸ List.contains_iff_mem.mp hmem)⟩⟩
  next => exact ⟨_, rfl, fun x => by simp⟩

theorem exec_clockLockLoss {course : Fin 8} (hpass : s.passThrough = false) : ∃ slot step, exec (.clockLockLoss course) s =
    .next (((s.logFault 0x0050 8 0 slot step 0xFFFF (BitVec.ofNat 16 course.val) 0).updClk (fun k => { k with
      locked := k.locked.set course.val false, lockLosses := k.lockLosses + 1 })).addHold .lockLoss) := by
  show ∃ slot step, execClockLockLoss course s = _
  unfold execClockLockLoss
  rw [if_neg (by simp [hpass])]
  exact ⟨_, _, rfl⟩

theorem exec_relockTimeout_held (hpass : s.passThrough = false) (h : Hold.lockLoss ∈ s.clk.holds ∨ Hold.frequency ∈ s.clk.holds) :
    exec .relockTimeout s = .next (s.clockFault 0x0050 0xFFFF 0).resync := by
  show execRelockTimeout s = _
  rw [execRelockTimeout, if_pos (by simpa [hpass] using h)]

theorem exec_tickDiverge (hpass : s.passThrough = false) : exec .tickDiverge s =
    .next ((s.clockFault 0x0051 0xFFFF 0).updClk (fun k => { k with diverges := k.diverges + 1 })).resync := by
  show execTickDiverge s = _
  rw [execTickDiverge, if_neg (by simp [hpass])]

theorem exec_supplyFault (hpass : s.passThrough = false) : exec .supplyFault s =
    .next ((s.supplyFault 0xFFFF 0).updPower (fun p => { p with railFault := true })) := by
  show execSupplyFault s = _
  rw [execSupplyFault, if_neg (by simp [hpass])]

end

/-- Settles O53: the log's clauses by the entry that a fault adds, the others by the lemmas of their events. -/
theorem partFaultsComplete : Obligations.PartFaultsComplete := by
  unfold Obligations.PartFaultsComplete
  intro s hpass
  refine ⟨fun reason cls outcome slot step unit sub d => ?_, fun c hen => ⟨fun hfew => ?_, fun hmany => ?_⟩, fun course => ?_,
    exec_relockTimeout_held hpass, exec_tickDiverge hpass, exec_supplyFault hpass⟩
  · obtain ⟨e, n, fs, o, hfields, hlog⟩ := s.logFault_eq reason cls outcome slot step unit sub d
    dsimp only
    rw [hlog]
    refine ⟨rfl, ⟨e, rfl, hfields⟩, fun hlen => ?_, rfl⟩
    show ((if s.faultLog.length < 1024 then s.faultLog else s.faultLog.drop 1) ++ [e]).length ≤ 1024
    split_ifs <;> simp <;> omega
  · rw [exec_meshCrc_enabled hpass hen]
    simp only [if_neg (Nat.not_le.mpr hfew)]
  · rw [exec_meshCrc_enabled hpass hen]
    simp only [if_pos hmany]
  · obtain ⟨slot, step, hstep⟩ := exec_clockLockLoss (course := course) hpass
    obtain ⟨e, n, fs, o, hfields, hlog⟩ := s.logFault_eq 0x0050 8 0 slot step 0xFFFF (BitVec.ofNat 16 course.val) 0
    rw [hlog] at hstep
    obtain ⟨l, hadd, hmem⟩ := State.addHold_holds ((({ s.withFault e n with funcs := fs, out := o } : State)).updClk (fun k => { k with
      locked := k.locked.set course.val false, lockLosses := k.lockLosses + 1 })) .lockLoss
    rw [hadd] at hstep
    exact ⟨_, hstep, rfl, rfl, hmem⟩

end Sys2Proof.Machine
end

section
/-! PROOF. Arbitrations, sample references and drone visits (20 R458 to R462; log entries 12, 16, 17). -/

namespace Sys2Proof.Machine

/-! ### Faults of a core that runs no step, and what asks for a retirement -/

section
variable {s t : State}

theorem State.slotOf_congr (hgroups : t.groups = s.groups) (hsteps : t.steps = s.steps) (hparts : t.parts = s.parts)
    (henabled : t.enabled = s.enabled) (c : Nat) : t.slotOf c = s.slotOf c := by
  cases s
  cases t
  cases hgroups
  cases hsteps
  cases hparts
  cases henabled
  rfl

theorem State.coreFault_noSlot {c : Nat} (h : s.slotOf c = none) (reason : BitVec 16) (cls outcome : Nat) (sub : BitVec 16) (detail : Nat) :
    s.coreFault c reason cls outcome sub detail = s.logFault reason cls outcome none 0 (BitVec.ofNat 16 c) sub detail := by
  simp only [State.coreFault, h]

/-- What asks for the retirement of a core writes to the soundpost's activities alone. -/
theorem State.askRetire_maint (s : State) (c : Nat) : ∃ m, s.askRetire c = { s with maint := m } := by
  unfold State.askRetire State.requestRecovery
  rw [State.startActivity_plain _ _ _ (by decide)]
  split_ifs <;> exact ⟨_, rfl⟩

@[simp] theorem State.logFault_slotOf (s : State) (reason : BitVec 16) (cls outcome : Nat) (slot : Option Nat) (step : W64)
    (unit sub : BitVec 16) (detail c : Nat) : (s.logFault reason cls outcome slot step unit sub detail).slotOf c = s.slotOf c := by
  obtain ⟨e, n, fs, o, _, h⟩ := s.logFault_eq reason cls outcome slot step unit sub detail
  rw [h]
  exact State.slotOf_congr rfl rfl rfl rfl c

@[simp] theorem State.askRetire_slotOf (s : State) (d c : Nat) : (s.askRetire d).slotOf c = s.slotOf c := by
  obtain ⟨m, h⟩ := s.askRetire_maint d
  rw [h]
  exact State.slotOf_congr rfl rfl rfl rfl c

theorem State.NoQueue.askRetire (h : s.NoQueue) (c : Nat) : (s.askRetire c).NoQueue := State.noQueue_congr (s.askRetire_cores c) h

/-- Once an arbitration has its outcome a core that runs no step resumes nothing. -/
theorem State.resume_noSlot {c : Nat} (h : s.slotOf c = none) (hqueue : s.NoQueue) :
    (match s.slotOf c with | some g => (s.checkFinished g).pumpAll | none => s.pumpAll) = s := by
  rw [h]
  exact State.pumpAll_noQueue hqueue

/-! ### Arbitrations -/

/-- The state of a core whose arbitration has its outcome: nothing is open, and its hold is released (R458). -/
def State.arbitrated (s : State) (c : Nat) : State := (s.updDet c (fun d => { d with arbOpen := none })).dropHold (.arbitration c)

@[simp] theorem State.arbitrated_slotOf (s : State) (c d : Nat) : (s.arbitrated c).slotOf d = s.slotOf d := State.slotOf_congr rfl rfl rfl rfl d

theorem State.NoQueue.arbitrated (h : s.NoQueue) (c : Nat) : (s.arbitrated c).NoQueue :=
  h.updCore c (f := fun x => { x with det := { x.det with arbOpen := none } }) fun _ hx => hx

end

section
variable {s : State} {c : CoreId} {tick d : Nat} {v1 v2 : List Int}

/-- The journal entries of the arbitrated tick. -/
def Core.arbitrated (x : Core) (tick : Nat) : List Journal := x.lane.journal.filter (fun j => j.tick == tick)

/-- The row of Table 20.5 of an arbitration whose blocks have not been written since: it turns on the alternate's values alone. -/
theorem arbitrationRow_unagreed {v0 v1 v2 : List Int} {rho : List Nat} (h : v2 ≠ v0) (hr : v2.map residue ≠ rho) :
    arbitrationRow false v0 v1 v2 rho = 5 := by
  rw [arbitrationRow, if_neg Bool.false_ne_true, if_neg h, if_neg hr]

theorem arbitrationRow_trusted (v0 v1 : List Int) (rho : List Nat) : arbitrationRow false v0 v1 v0 rho = 2 := by
  rw [arbitrationRow, if_neg Bool.false_ne_true, if_pos rfl]

section
variable (hopen : (s.core c.val).det.arbOpen = some tick) (hslot : s.slotOf c.val = none) (halt : s.alternate c.val = some d)
  (hqueue : s.NoQueue)
  (hwritten : ((s.core c.val).arbitrated tick).all (fun j => Tab.get 0 (s.core c.val).ws.writes j.set.block == j.writes) = true)
include hopen hslot halt hqueue hwritten

theorem exec_arbitrationOutcome_unagreed (hvalues : v2 ≠ ((s.core c.val).arbitrated tick).flatMap (·.sums))
    (hresidues : v2.map residue ≠ ((s.core c.val).arbitrated tick).flatMap (·.residues)) :
    exec (.arbitrationOutcome c v1 v2) s = .next ((((s.arbitrated c.val).logFault 0x0001 1 6 none 0 (BitVec.ofNat 16 c.val)
      (BitVec.ofNat 16 d) 5).askRetire c.val).askRetire d) := by
  have hany : ((s.core c.val).arbitrated tick).any (fun j => Tab.get 0 (s.core c.val).ws.writes j.set.block != j.writes) = false := by
    simpa [List.any_eq_false] using hwritten
  have hrow := arbitrationRow_unagreed (v1 := v1) hvalues hresidues
  unfold Core.arbitrated at hany hrow
  have hcslot : (s.arbitrated c.val).slotOf c.val = none := by rw [State.arbitrated_slotOf, hslot]
  have hresume := State.resume_noSlot (s := (((s.arbitrated c.val).coreFault c.val 0x0001 1 6 (BitVec.ofNat 16 d) 5).askRetire
    c.val).askRetire d) (c := c.val) (by simp [State.coreFault_noSlot hcslot, hslot])
    ((((hqueue.arbitrated c.val).coreFault c.val 0x0001 1 6 (BitVec.ofNat 16 d) 5).askRetire c.val).askRetire d)
  show execArbitrationOutcome c v1 v2 s = _
  unfold execArbitrationOutcome
  simp only [hopen, halt, hany, hrow]
  rw [← State.coreFault_noSlot hcslot]
  exact congrArg Host.Outcome.next hresume

end

/-! ### The values that are trusted -/

/-- The accumulators of m stand in canonical form and hold the values of l's. -/
structure Lane.SameValues (l m : Lane) : Prop where
  wf : Tab.wf Acc.zero m.acc = true
  acc : ∀ n i, m.accAt n i = l.accAt n i

theorem Lane.SameValues.setAcc {l m : Lane} (h : l.SameValues m) (k j r : Nat) : l.SameValues (m.setAcc k j (m.accAt k j) r) where
  wf := Tab.wf_set (64 * k + j) (m.accAt k j) h.wf
  acc := fun n i => by
    refine Eq.trans ?_ (h.acc n i)
    show Tab.get Acc.zero (Tab.set Acc.zero m.acc (64 * k + j) (m.accAt k j)) (64 * n + i) = _
    rw [Tab.get_set _ _ _ h.wf]
    split_ifs with heq
    · rw [Lane.accAt, Lane.accAt, heq]
    · rfl

/-- Every accumulator whose recomputed value is trusted keeps its value; its residue is made to agree (R459). -/
theorem Lane.SameValues.trustValues {l m : Lane} (h : l.SameValues m) (k : Nat) : l.SameValues (m.trustValues k) :=
  List.foldlRecOn (motive := fun m => l.SameValues m) _ _ h (fun _ hm j _ => hm.setAcc k j _)

/-- The trusted values of every accumulator that the journal's entries name: of the core only its lane changes, and no value of it. -/
structure State.Trusts (s : State) (c : Nat) (t : State) : Prop where
  core : t.core c = { s.core c with lane := (t.core c).lane }
  others : ∀ e, e ≠ c → t.core e = s.core e
  frame : t = { s with cores := t.cores }
  values : (s.core c).lane.SameValues (t.core c).lane
  noQueue : t.NoQueue

theorem State.trusts_foldl {s : State} {c : Nat} (hwf : Tab.wf Acc.zero (s.core c).lane.acc = true) (hqueue : s.NoQueue) (js : List Journal) :
    s.Trusts c (js.foldl (fun s j => s.updLane c (fun l => l.trustValues j.k)) s) := by
  refine List.foldlRecOn (motive := fun t => s.Trusts c t) _ _ ⟨rfl, fun _ _ => rfl, rfl, ⟨hwf, fun _ _ => rfl⟩, hqueue⟩
    (fun t h j _ => ?_)
  refine ⟨?_, fun e he => ?_, ?_, ?_, ?_⟩
  · rw [State.updLane_core, h.core]
  · rw [State.updLane_core_ne _ _ he, h.others e he]
  · obtain ⟨cs, hframe⟩ : ∃ cs, t = { s with cores := cs } := ⟨_, h.frame⟩
    rw [hframe]
    rfl
  · rw [State.updLane_core]
    exact h.values.trustValues j.k
  · exact h.noQueue.updCore c (f := fun x => { x with lane := x.lane.trustValues j.k }) fun _ hx => hx

end

section
variable {s : State} {c : CoreId}

/-- The state of a core whose checker has failed once more. -/
def State.checkerFailed (s : State) (c : Nat) : State :=
  (s.arbitrated c).updDet c (fun d => { d with checkerFaults := ((s.arbitrated c).core c).det.checkerFaults + 1 })

/-- The state before the fault of an arbitration that trusts the values: the values' residues made to agree (R459). -/
def State.trusting (s : State) (c tick : Nat) : State :=
  ((s.core c).arbitrated tick).foldl (fun s j => s.updLane c (fun l => l.trustValues j.k)) (s.checkerFailed c)

theorem State.arbitrated_core (s : State) (c : Nat) :
    (s.arbitrated c).core c = { s.core c with det := { (s.core c).det with arbOpen := none } } :=
  s.updDet_core c (fun d => { d with arbOpen := none })

theorem State.checkerFailed_core (s : State) (c : Nat) : (s.checkerFailed c).core c =
    { s.core c with det := { (s.core c).det with arbOpen := none, checkerFaults := (s.core c).det.checkerFaults + 1 } } := by
  rw [State.checkerFailed, State.updDet_core, State.arbitrated_core]

theorem State.checkerFailed_core_ne (s : State) {c e : Nat} (he : e ≠ c) : (s.checkerFailed c).core e = s.core e :=
  (State.updDet_core_ne _ _ he).trans (s.updDet_core_ne (fun d => { d with arbOpen := none }) he)

theorem State.NoQueue.checkerFailed (h : s.NoQueue) (c : Nat) : (s.checkerFailed c).NoQueue :=
  (h.arbitrated c).updCore c (f := fun x => { x with
    det := { x.det with checkerFaults := ((s.arbitrated c).core c).det.checkerFaults + 1 } }) fun _ hx => hx

theorem State.trusting_trusts {c tick : Nat} (hwf : Tab.wf Acc.zero (s.core c).lane.acc = true) (hqueue : s.NoQueue) :
    (s.checkerFailed c).Trusts c (s.trusting c tick) :=
  State.trusts_foldl (by rw [State.checkerFailed_core]; exact hwf) (hqueue.checkerFailed c) _

theorem exec_arbitrationOutcome_trusted {tick d : Nat} {v1 : List Int} (hopen : (s.core c.val).det.arbOpen = some tick)
    (hslot : s.slotOf c.val = none) (halt : s.alternate c.val = some d) (hqueue : s.NoQueue)
    (hwritten : ((s.core c.val).arbitrated tick).all (fun j => Tab.get 0 (s.core c.val).ws.writes j.set.block == j.writes) = true)
    (hfaults : (s.core c.val).det.checkerFaults + 1 < 4) (hwf : Tab.wf Acc.zero (s.core c.val).lane.acc = true) :
    exec (.arbitrationOutcome c v1 (((s.core c.val).arbitrated tick).flatMap (·.sums))) s =
      .next (((s.trusting c.val tick).logFault 0x0001 1 3 none 0 (BitVec.ofNat 16 c.val) (BitVec.ofNat 16 d) 2).askRetire c.val) := by
  have hany : ((s.core c.val).arbitrated tick).any (fun j => Tab.get 0 (s.core c.val).ws.writes j.set.block != j.writes) = false := by
    simpa [List.any_eq_false] using hwritten
  have hrow := arbitrationRow_trusted (((s.core c.val).arbitrated tick).flatMap (·.sums)) v1
    (((s.core c.val).arbitrated tick).flatMap (·.residues))
  have htrust := State.trusting_trusts (tick := tick) hwf hqueue
  have htslot : (s.trusting c.val tick).slotOf c.val = none := by
    rw [htrust.frame]
    exact (State.slotOf_congr rfl rfl rfl rfl c.val).trans hslot
  have hlive : ((s.trusting c.val tick).stepOf c.val).onCores = false := by
    rw [State.stepOf, htslot]
    rfl
  have hcount : ((s.arbitrated c.val).core c.val).det.checkerFaults = (s.core c.val).det.checkerFaults := by
    rw [State.arbitrated_core]
  have hresume := State.resume_noSlot (c := c.val)
    (s := ((s.trusting c.val tick).logFault 0x0001 1 3 none 0 (BitVec.ofNat 16 c.val) (BitVec.ofNat 16 d) 2).askRetire c.val)
    (by rw [State.askRetire_slotOf, State.logFault_slotOf, htslot])
    ((htrust.noQueue.logFault 0x0001 1 3 none 0 (BitVec.ofNat 16 c.val) (BitVec.ofNat 16 d) 2).askRetire c.val)
  unfold State.trusting State.checkerFailed at hlive
  unfold Core.arbitrated at hany hrow hlive ⊢
  unfold State.arbitrated at hcount hlive
  show execArbitrationOutcome c v1 _ s = _
  unfold execArbitrationOutcome
  simp only [hopen, halt, hany, hrow, hlive, Bool.false_eq_true, if_false]
  rw [if_neg (by omega)]
  exact congrArg Host.Outcome.next hresume

/-! ### Samples and drone visits -/

theorem exec_sampleReferenceCheck_good {y : Sample} {rest : List Sample} (hsamples : (s.core c.val).lane.samples = y :: rest)
    (hopen : y.checked = false) (hgood : y.entry.reference = y.entry.sums) :
    exec (.sampleReferenceCheck c) s = .next (s.updLane c.val (fun l => { l with
      samples := l.samples.modify 0 (fun y => { y with checked := true }) })) := by
  have hfind : (s.core c.val).lane.samples.find? (fun x => !x.checked) = some y := by simp [hsamples, hopen]
  have hidx : (s.core c.val).lane.samples.findIdx? (fun x => !x.checked) = some 0 := by
    simp [hsamples, List.findIdx?_cons, hopen]
  show execSampleReferenceCheck c s = _
  simp only [execSampleReferenceCheck, hfind, hidx, Option.getD_some]
  rw [if_pos hgood]

/-- A visit without finds is one of the core as it stands. -/
theorem State.updSp_then_updDet (s : State) (c : Nat) (f : Detect → Detect) : (s.updSp c (fun m => m.upset [])).updDet c f = s.updDet c f := by
  show (s.setCore c _).setCore c { (s.updSp c _).core c with det := _ } = _
  rw [State.setCore_setCore, State.updSp_core]
  rfl

section
variable (hen : s.isEnabled c.val = true) (hpass : s.passThrough = false) (hpaused : s.backgroundPaused = false)
  (hidle : s.idleFor c.val = true)
include hen hpass hpaused hidle

theorem exec_droneVisit_passes : exec (.droneVisit c true ⟨[], []⟩) s = .next (((s.updDet c.val (fun d => { d with
    lastVisit := s.station, visitAsked := false })).updSp c.val (fun m => { m with unc := 0 })).updLane c.val (fun l => { l with
      samples := l.samples.filter (fun x => !x.checked) })) := by
  show execDroneVisit c true ⟨[], []⟩ s = _
  unfold execDroneVisit
  dsimp only
  rw [if_neg (by simp [hen, hpass, hpaused, hidle]), if_pos rfl]
  simp only [List.map_nil, State.updSp_then_updDet]
  rfl

theorem exec_droneVisit_fails (hstep : (s.stepOf c.val).onCores = false) : exec (.droneVisit c false ⟨[], []⟩) s =
    .next (((s.updDet c.val (fun d => { d with visitAsked := false })).logFault 0x0090 12 3 none 0 (BitVec.ofNat 16 c.val) 0xFFFF
      0).askRetire c.val) := by
  have hlive : ((s.updSp c.val (fun m => m.upset [])).stepOf c.val).onCores = false := hstep
  show execDroneVisit c false ⟨[], []⟩ s = _
  unfold execDroneVisit
  dsimp only
  rw [if_neg (by simp [hen, hpass, hpaused, hidle]), if_neg (by simp)]
  simp only [List.map_nil, State.updSp_then_updDet, hlive, Bool.false_eq_true, if_false, List.filterMap_nil, List.foldl_nil]

end

end

/-- Settles O52: of each outcome the state it reaches, whose core, log and holds are read off. -/
theorem checkerEventsComplete : Obligations.CheckerEventsComplete := by
  unfold Obligations.CheckerEventsComplete
  intro s c
  refine ⟨fun tick d v1 v2 hopen hslot halt hqueue hwritten => ⟨fun hvalues hresidues => ?_, fun hvalues hfaults hwf => ?_⟩,
    fun y rest hsamples hopen hgood => ?_, fun hen hpass hpaused hidle => ⟨?_, fun hstep => ?_⟩⟩
  · have hstep := exec_arbitrationOutcome_unagreed (v1 := v1) hopen hslot halt hqueue hwritten hvalues hresidues
    obtain ⟨e, n, fs, o, ⟨hreason, _, houtcome, _, hunit, hsub⟩, hlog⟩ :=
      (s.arbitrated c.val).logFault_eq 0x0001 1 6 none 0 (BitVec.ofNat 16 c.val) (BitVec.ofNat 16 d) 5
    obtain ⟨m, hm⟩ := ((s.arbitrated c.val).logFault 0x0001 1 6 none 0 (BitVec.ofNat 16 c.val) (BitVec.ofNat 16 d) 5).askRetire_maint c.val
    obtain ⟨m2, hm2⟩ := (((s.arbitrated c.val).logFault 0x0001 1 6 none 0 (BitVec.ofNat 16 c.val) (BitVec.ofNat 16 d) 5).askRetire
      c.val).askRetire_maint d
    rw [hm2, hm, hlog] at hstep
    exact ⟨_, hstep, rfl, s.arbitrated_core c.val, fun x hx => s.updDet_core_ne (fun d => { d with arbOpen := none }) hx, rfl,
      fun h => by simp [State.withFault, State.arbitrated, State.dropHold], e, List.getLast?_concat .., hreason, houtcome, hunit, hsub⟩
  · rw [hvalues]
    have hstep := exec_arbitrationOutcome_trusted (v1 := v1) hopen hslot halt hqueue hwritten hfaults hwf
    have htrust := State.trusting_trusts (tick := tick) hwf hqueue
    obtain ⟨e, n, fs, o, ⟨hreason, _, houtcome, _⟩, hlog⟩ :=
      (s.trusting c.val tick).logFault_eq 0x0001 1 3 none 0 (BitVec.ofNat 16 c.val) (BitVec.ofNat 16 d) 2
    obtain ⟨m, hm⟩ := ((s.trusting c.val tick).logFault 0x0001 1 3 none 0 (BitVec.ofNat 16 c.val) (BitVec.ofNat 16 d) 2).askRetire_maint c.val
    rw [hm, hlog] at hstep
    obtain ⟨cs, hframe⟩ : ∃ cs, s.trusting c.val tick = { s.checkerFailed c.val with cores := cs } := ⟨_, htrust.frame⟩
    refine ⟨_, hstep, ?_, ?_, fun k j => ?_, fun x hx => (htrust.others x hx).trans (s.checkerFailed_core_ne hx), ?_, e,
      List.getLast?_concat .., hreason, houtcome⟩
    · rw [hframe]
      rfl
    · refine htrust.core.trans ?_
      rw [State.checkerFailed_core]
      rfl
    · refine (htrust.values.acc k j).trans ?_
      rw [State.checkerFailed_core]
    · rw [hframe]
      rfl
  · refine ⟨_, exec_sampleReferenceCheck_good hsamples hopen hgood, ?_, ⟨fun e he => State.updLane_core_ne _ _ he, rfl⟩, rfl⟩
    rw [State.updLane_core]
    simp only [hsamples, List.modify_cons, if_true]
  · refine ⟨_, exec_droneVisit_passes hen hpass hpaused hidle, ?_, ⟨fun e he => ?_, rfl⟩, rfl⟩
    · rw [State.updLane_core, State.updSp_core, State.updDet_core]
    · rw [State.updLane_core_ne _ _ he, State.updSp_core_ne _ _ he, State.updDet_core_ne _ _ he]
  · exact ⟨_, exec_droneVisit_fails hen hpass hpaused hidle hstep, rfl⟩

end Sys2Proof.Machine
end

section
/-! PROOF. A step that is retried may put what has waited for it in flight (20 R468; 07 R151, R162). -/

namespace Sys2Proof.Machine

/-- The lead of a group with the one core of `memberWithSignal`, whose step 2 has been stopped and is to be retried: the SIGNAL of step 2
that waits at the core is that of another member. -/
def leadWithSignal : State :=
  { memberWithSignal with
    groups := [(0, { Group.reset with formed := true, lead := true })]
    steps := [(0, { StepRun.idle with phase := .ended, num := 2, retryDue := true })] }

/-- When step 2 is retried its core begins to decode it, and the SIGNAL that has waited joins the increments of the tick. -/
theorem exec_stepRetry_signalLands {t : State} (h : exec (.stepRetry 0 false) leadWithSignal = .next t) : t.landings ≠ [] := by
  have hexec : execStepRetry 0 false leadWithSignal = .next t := h
  obtain rfl := Host.Outcome.next.inj hexec.symm
  decide

/-! ### The obligation -/

/-- Refutes O54: its clause on the retry says that nothing in flight changes, whatever waits at the cores. A SIGNAL of the step, kept by a
core that had not begun it, is offered again when the core begins to decode the step (07 R151, R162), and is in flight from then on. -/
theorem not_stopAndRetryComplete : ¬ Obligations.StopAndRetryComplete := by
  unfold Obligations.StopAndRetryComplete
  intro h
  obtain ⟨-, hretry, -⟩ := h leadWithSignal 0
  obtain ⟨t, hexec, -, -, -, -, -, -, -, -, -, hcomes⟩ := hretry rfl rfl rfl (by decide) rfl rfl rfl rfl rfl rfl
  obtain ⟨-, -, -, -, -, hlandings, -⟩ := hcomes
  exact exec_stepRetry_signalLands hexec hlandings

end Sys2Proof.Machine
end

section
/-! PROOF. Heartbeats, silent and lost packages, and cores that retire (20 R469 to R471; 01 R16; log entries 48, 49). -/

namespace Sys2Proof.Machine

section
variable {s : State}

/-! ### Heartbeats -/

/-- Messages that leave one after another stand in the order of their ports. -/
theorem State.foldl_ctl (s : State) (send : Nat → Bool) (m : Nat → CtlMsg) (l : List Nat) :
    l.foldl (fun q p => if send p then q.ctl (m p) else q) s =
      { s with out := { s.out with ctl := s.out.ctl ++ (l.filter send).map m } } := by
  induction l generalizing s with
  | nil => simp
  | cons p l ih =>
    rw [List.foldl_cons, ih, List.filter_cons]
    cases send p <;> simp [State.ctl]

theorem exec_heartbeatSend : exec .heartbeatSend s = .next { s with out := { s.out with
    ctl := s.out.ctl ++ ((List.range 8).filter (fun p => (s.port p).st == .up && s.meshPort p)).map
      (fun p => .heartbeat p s.place s.computeState s.highestStep) } } := by
  have hsame : ∀ l : List Nat, ∀ q : State, (∃ o, q = { s with out := o }) →
      l.foldl (fun q p => if (q.port p).st == .up && q.meshPort p then
        q.ctl (.heartbeat p q.place q.computeState q.highestStep) else q) q =
      l.foldl (fun q p => if (s.port p).st == .up && s.meshPort p then
        q.ctl (.heartbeat p s.place s.computeState s.highestStep) else q) q := by
    intro l
    induction l with
    | nil => exact fun _ _ => rfl
    | cons p l ih =>
      rintro q ⟨o, rfl⟩
      rw [List.foldl_cons, List.foldl_cons]
      refine ih _ ?_
      split
      · exact ⟨_, rfl⟩
      · exact ⟨_, rfl⟩
  show execHeartbeatSend s = _
  rw [execHeartbeatSend, hsame _ s ⟨s.out, rfl⟩, State.foldl_ctl s (fun p => (s.port p).st == .up && s.meshPort p)]

/-! ### Silent and lost packages -/

theorem exec_silentReport_first {silent reporter : Place} (hhears : s.hears silent = true)
    (hnew : s.net.reports.all (fun r => r.1 != silent) = true) (hlost : silent ∉ s.net.lost) (hmany : 1 < neighbourCount s.shape silent) :
    exec (.silentReport silent reporter []) s =
      .next (s.updNet (fun n => { n with reports := n.reports ++ [(silent, reporter, s.station)] })) := by
  have hne : ∀ r ∈ s.net.reports, r.1 ≠ silent := by simpa using hnew
  have hold : s.net.reports.filter (fun r => r.1 == silent && r.2.1 != reporter) = [] := by
    rw [List.filter_eq_nil_iff]
    intro r hr
    simp [hne r hr]
  have hany : s.net.reports.any (fun r => r.1 == silent && r.2.1 == reporter) = false := by
    rw [List.any_eq_false]
    intro r hr
    simp [hne r hr]
  have hreport : s.silentReport silent reporter =
      s.updNet (fun n => { n with reports := n.reports ++ [(silent, reporter, s.station)] }) := by
    unfold State.silentReport
    rw [if_pos hhears]
    dsimp only
    rw [hold, State.updNet, hany, if_neg]
    · rfl
    · simp only [List.isEmpty_nil, Bool.not_true, Bool.false_or, decide_eq_true_eq, Nat.not_le]
      exact hmany
  show execSilentReport silent reporter [] s = _
  rw [execSilentReport, hreport, State.recoverLost, if_neg]
  simp [State.updNet, hlost]

/-- The state once a package is counted among the lost ones (R470). -/
def State.withLost (s : State) (p : Place) : State := s.updNet (fun n => { n with lost := n.lost ++ [p] })

theorem State.epochDue_groups (s : State) : s.epochDue.groups = s.groups := by
  unfold State.epochDue
  dsimp only
  split
  · simp only [State.startEpoch, State.stageSlot, State.setRoute, State.mgt, State.updEpoch, State.updNet_groups]
  · rfl

theorem State.epochDue_lost (s : State) : s.epochDue.net.lost = s.net.lost := by
  unfold State.epochDue
  dsimp only
  split
  · simp only [State.startEpoch, State.stageSlot, State.setRoute, State.mgt, State.updEpoch, State.updNet]
  · rfl

/-- "Repair" that is asked for with a lost package writes to the soundpost's activities alone. -/
theorem State.requestRecovery_maint (s : State) {code : Nat} (arg : Nat) (hcode : code ≠ 4) :
    ∃ m, s.requestRecovery code arg = { s with maint := m } := by
  unfold State.requestRecovery
  rw [State.startActivity_plain _ _ _ hcode]
  split_ifs <;> exact ⟨_, rfl⟩

/-- Where no group is formed a lost package is listed; the coordinator also logs it and asks for a repair (R470, R471). -/
theorem State.declareLost_noGroups {p : Place} (hlost : p ∉ s.net.lost) (hplace : p ≠ s.place) (hgroups : ∀ g, (s.group g).formed = false) :
    s.declareLost p = if s.coordinating then
      (((s.withLost p).logFault 0x0080 11 5 none 0 0xFFFF 0xFFFF 0).requestRecovery 1 p.toNat).epochDue else s.withLost p := by
  have hnone : (List.range 16).filter (fun g => ((s.withLost p).group g).formed &&
      (((s.withLost p).group g).members.any (fun m => m.place == p))) = [] := by
    rw [List.filter_eq_nil_iff]
    intro g _
    show ¬((s.group g).formed && _) = true
    rw [hgroups]
    simp
  unfold State.declareLost
  rw [if_neg (by simp [hlost, hplace])]
  show (if _ then _ else _) = _
  dsimp only
  rw [show (s.updNet fun n => { n with lost := n.lost ++ [p] }) = s.withLost p from rfl, hnone]
  rfl

theorem State.declareLost_kept {p : Place} (hlost : p ∉ s.net.lost) (hplace : p ≠ s.place) (hgroups : ∀ g, (s.group g).formed = false) :
    (s.declareLost p).groups = s.groups ∧ p ∈ (s.declareLost p).net.lost := by
  rw [State.declareLost_noGroups hlost hplace hgroups]
  have hin : p ∈ (s.withLost p).net.lost := List.mem_append_right _ (List.mem_singleton.mpr rfl)
  split
  · rw [State.epochDue_groups, State.epochDue_lost]
    obtain ⟨e, n, fs, o, _, hlog⟩ := (s.withLost p).logFault_eq 0x0080 11 5 none 0 0xFFFF 0xFFFF 0
    obtain ⟨m, hrec⟩ := ((s.withLost p).logFault 0x0080 11 5 none 0 0xFFFF 0xFFFF 0).requestRecovery_maint p.toNat (code := 1) (by decide)
    rw [hrec, hlog]
    exact ⟨rfl, hin⟩
  · exact ⟨rfl, hin⟩

theorem State.putRecover_unformed (h : ∀ g, (s.group g).formed = false) (which : Nat → Req → Bool) (journal : List JournalRec) :
    s.putRecover which journal = s := by
  have hnone : (List.range 16).filter (fun g => (s.group g).formed && (s.group g).lead && !(s.group g).solver) = [] := by
    rw [List.filter_eq_nil_iff]
    intro g _
    simp [h g]
  rw [State.putRecover, hnone, List.foldl_nil]

theorem exec_packageLost_noGroups {p : Place} (hhears : s.hears p = true) (hreport : s.net.reports.any (fun r => r.1 == p) = true)
    (hlost : p ∉ s.net.lost) (hplace : p ≠ s.place) (hgroups : ∀ g, (s.group g).formed = false) :
    exec (.packageLost p []) s = .next (s.declareLost p) := by
  have hgroup (g : Nat) : ((s.declareLost p).group g).formed = false := by
    rw [State.group, (State.declareLost_kept hlost hplace hgroups).1]
    exact hgroups g
  show execPackageLost p [] s = _
  rw [execPackageLost, if_pos (by simp [hhears, hreport]), State.recoverLost]
  split
  · rw [State.putRecover_unformed hgroup]
  · rfl

/-! ### A core that retires -/

/-- Where no request is chosen, none is put to recovery. -/
theorem State.putRecover_none (s : State) (journal : List JournalRec) : s.putRecover (fun _ _ => false) journal = s := by
  unfold State.putRecover
  refine List.foldlRecOn (motive := fun q => q = s) _ _ rfl fun q hq g _ => ?_
  refine List.foldlRecOn (motive := fun u => u = s) _ _ hq fun u hu r _ => ?_
  rw [if_pos (by simp)]
  exact hu

/-- The state of a package once core c has left the enabled set, before the faults are logged (R16). -/
def State.withoutCore (s : State) (c : Nat) : State :=
  let q := s.resetCores [c]
  { q with
    enabled := q.enabled.erase c, cores := q.cores.filter (fun p => p.1 != c), kdq := q.kdq.filter (fun j => j.core != c)
    maint := { q.maint with retired := q.maint.retired ++ [c] } }

/-- From s to t only the fault log, the draws, the functions, the host's output and the soundpost's security state have changed. -/
def State.LogsOnly (s t : State) : Prop :=
  t = { s with faultLog := t.faultLog, faultCount := t.faultCount, free := t.free, funcs := t.funcs, out := t.out, sec := t.sec }

theorem State.LogsOnly.trans {s t u : State} (h : s.LogsOnly t) (h' : t.LogsOnly u) : s.LogsOnly u := by
  unfold State.LogsOnly at *
  rw [h', h]

theorem State.logFault_logsOnly (s : State) (reason : BitVec 16) (cls outcome : Nat) (slot : Option Nat) (step : W64) (unit sub : BitVec 16)
    (detail : Nat) : s.LogsOnly (s.logFault reason cls outcome slot step unit sub detail) := by
  obtain ⟨e, n, fs, o, _, h⟩ := s.logFault_eq reason cls outcome slot step unit sub detail
  rw [h]
  rfl

/-- What a retirement adds to the state without the core is log entries, events, a measurement and one draw. -/
theorem State.retireCore_logsOnly (s : State) (c : Nat) : (s.withoutCore c).LogsOnly (s.retireCore c) := by
  have hdraw : (s.withoutCore c).LogsOnly { s.withoutCore c with free := (s.withoutCore c).free + 1 } := rfl
  have hmeasure (q : State) : q.LogsOnly (q.remeasure 4) := rfl
  have hfirst := hdraw.trans (State.logFault_logsOnly _ 0x00B0
    (1 + (Config.freeWord 8 (s.withoutCore c).free).toNat % 12) 3 none 0 (BitVec.ofNat 16 c) 0xFFFF 0)
  unfold State.retireCore
  refine .trans ?_ (hmeasure _)
  split
  · exact hfirst.trans (State.logFault_logsOnly ..)
  · exact hfirst

theorem State.resetCores_landings (s : State) (cs : List Nat) :
    (s.resetCores cs).landings = s.landings.filter (fun l => !cs.contains l.core) := by
  unfold State.resetCores
  exact List.foldlRecOn (motive := fun q : State => q.landings = s.landings.filter (fun l => !cs.contains l.core)) _ _ rfl (fun q hq c _ => hq)

theorem Recs.get_filter_ne {α : Type} (d : α) (m : List (Nat × α)) (k : Nat) : Recs.get d (m.filter (fun p => p.1 != k)) k = d := by
  induction m with
  | nil => rfl
  | cons p m ih =>
    rw [List.filter_cons]
    split
    next h => rw [Recs.get, if_neg (by simpa using h), ih]
    next => exact ih

/-- Nothing of core c is left once it has retired. -/
theorem State.retireCore_gone (s : State) (c : Nat) : (s.retireCore c).enabled = s.enabled.erase c ∧ c ∈ (s.retireCore c).maint.retired ∧
    (s.retireCore c).core c = Core.reset ∧ (∀ j ∈ (s.retireCore c).kdq, j.core ≠ c) ∧
    (∀ l ∈ (s.retireCore c).landings, l.core ≠ c) := by
  rw [State.retireCore_logsOnly s c]
  refine ⟨rfl, List.mem_append_right _ (List.mem_singleton.mpr rfl), Recs.get_filter_ne .., fun j hj => ?_, fun l hl => ?_⟩
  · simpa using (List.mem_filter.mp hj).2
  · have hmem : l ∈ (s.resetCores [c]).landings := hl
    rw [State.resetCores_landings] at hmem
    simpa using (List.mem_filter.mp hmem).2

theorem exec_coreRetirementAndReload {c : CoreId} {journal : List JournalRec} (hrun : s.maint.running = 6) (harg : s.maint.arg = c.val)
    (hen : s.isEnabled c.val = true) : ∃ u, exec (.coreRetirementAndReload c journal) s = .next u := by
  show ∃ u, execCoreRetirementAndReload c journal s = .next u
  rw [execCoreRetirementAndReload, if_pos ⟨hrun, harg, hen⟩]
  dsimp only
  split
  · exact ⟨_, rfl⟩
  · exact ⟨_, rfl⟩

theorem exec_coreRetirementAndReload_noImage {c : CoreId} {journal : List JournalRec} (hrun : s.maint.running = 6)
    (harg : s.maint.arg = c.val) (hen : s.isEnabled c.val = true)
    (himage : ∀ g, (((s.stopAll 0x00B0).retireCore c.val).image g).loaded = false) :
    exec (.coreRetirementAndReload c journal) s = .next ((s.stopAll 0x00B0).retireCore c.val) := by
  have hslots : (List.range 16).filter (fun g => (((s.stopAll 0x00B0).retireCore c.val).image g).loaded) = [] := by
    rw [List.filter_eq_nil_iff]
    intro g _
    rw [himage g]
    exact Bool.false_ne_true
  show execCoreRetirementAndReload c journal s = _
  rw [execCoreRetirementAndReload, if_pos ⟨hrun, harg, hen⟩]
  dsimp only
  rw [hslots, if_neg (by simp), List.foldl_nil]
  exact congrArg _ (State.putRecover_none ..)

end

/-! ### The obligation -/

/-- Settles O55: each event of the watch over the other packages and over the cores, with its next state. -/
theorem lostPartsComplete : Obligations.LostPartsComplete := by
  unfold Obligations.LostPartsComplete
  intro s
  refine ⟨?send, ?heard, ?silent, ?report, ?lost, ?retired⟩
  case send => exact exec_heartbeatSend
  case heard =>
    intro p compute hcompute
    show execHeartbeat p compute s = _
    rw [execHeartbeat, if_neg hcompute]
  case silent =>
    intro p hup hheard hmesh
    show execSilent p s = _
    rw [execSilent, if_pos (by simp [hup, hheard, hmesh])]
  case report => exact fun _ _ => exec_silentReport_first
  case lost =>
    exact fun p hhears hreport hlost hplace hgroups =>
      ⟨exec_packageLost_noGroups hhears hreport hlost hplace hgroups, (State.declareLost_kept hlost hplace hgroups).2⟩
  case retired =>
    exact fun c journal hrun harg hen => ⟨exec_coreRetirementAndReload hrun harg hen,
      fun himage => ⟨exec_coreRetirementAndReload_noImage hrun harg hen himage, State.retireCore_gone _ _⟩⟩

end Sys2Proof.Machine
end

section
/-! PROOF. A PASS_THROUGH_LEAVE while another one is under way (22 R508, R509). -/

namespace Sys2Proof.Machine

/-- A package in pass-through mode at 100 °C that is on its way out of it: a PASS_THROUGH_LEAVE of board management awaits READY. -/
def leavingHot : State :=
  { State.reset with
    passThrough := true
    power := { Power.reset with vaux := true, tmax := 100 }
    maint := { Maint.reset with order := 3, leaving := some (.i3c, 1) } }

/-- A second PASS_THROUGH_LEAVE is passed over: the first one is to be answered. -/
theorem exec_passThroughLeave_leavingHot : exec (.passThroughLeave .i3c 2 [] false) leavingHot = .next leavingHot := rfl

/-! ### The obligation -/

/-- Refutes O23: its clause on a PASS_THROUGH_LEAVE that is refused above 95 °C does not ask that none is under way; where one is, a further
one is passed over, without an answer. -/
theorem not_maintenanceComplete : ¬ Obligations.MaintenanceComplete := by
  unfold Obligations.MaintenanceComplete
  intro h
  obtain ⟨-, hpf0, -⟩ := h leavingHot .i3c 2
  obtain ⟨-, hleave, -⟩ := hpf0 rfl
  obtain ⟨-, hrefused, -⟩ := hleave false
  have hanswer : (leavingHot.reply .i3c 0x41 2 2 []).out.i3c ≠ leavingHot.out.i3c := by decide
  have hsame := Host.Outcome.next.inj (exec_passThroughLeave_leavingHot.symm.trans (hrefused rfl (.inl (by decide))))
  exact hanswer (congrArg (fun t : State => t.out.i3c) hsame).symm

end Sys2Proof.Machine
end

section
/-! PROOF. Groups are formed and dissolved (24 R540, R541; log entries 80 to 82, 88, 99). -/

namespace Sys2Proof.Machine

section
variable {s : State} {g : Slot}

/-! ### FORM and DISSOLVE -/

theorem exec_form (hup : s.slotsUp = true) : exec (.form g) s = .next (s.formGroup g.val) := by
  show execForm g s = _
  rw [execForm, if_pos hup]

theorem exec_dissolve (hup : s.slotsUp = true) : exec (.dissolve g) s = .next (s.dissolve g.val) := by
  show execDissolve g s = _
  rw [execDissolve, if_pos hup]

/-- A group that still waits for answers is not ready. -/
theorem State.formReady_waiting {g : Nat} {f : Forming} (hforming : (s.group g).forming = some f) (hwaiting : f.waiting ≠ []) :
    s.formReady g = s := by
  unfold State.formReady
  rw [hforming]
  dsimp only
  rw [if_pos (by simpa using hwaiting)]

theorem State.formGroup_range {g : Nat} (hlead : (s.group g).lead = true) (hformed : (s.group g).formed = false)
    (hforming : (s.group g).forming = none) (hrange : s.formRange g = true) : s.formGroup g = s.formFails g 6 := by
  unfold State.formGroup
  dsimp only
  rw [if_neg (by simp [hlead, hformed, hforming]), if_pos hrange]

theorem State.formGroup_early {g : Nat} (hlead : (s.group g).lead = true) (hformed : (s.group g).formed = false)
    (hforming : (s.group g).forming = none) (hrange : s.formRange g = false) (htime : s.station < (s.group g).winT0) :
    s.formGroup g = s.formFails g 5 := by
  unfold State.formGroup
  dsimp only
  rw [if_neg (by simp [hlead, hformed, hforming]), if_neg (by simp [hrange]), if_pos htime]

/-- A good FORM sends the fields to the other members, and waits for their layouts (R540). -/
theorem State.formGroup_good {g : Nat} (hlead : (s.group g).lead = true) (hformed : (s.group g).formed = false)
    (hforming : (s.group g).forming = none) (hrange : s.formRange g = false) (htime : (s.group g).winT0 ≤ s.station)
    (hothers : (s.group g).listed.filter (· != s.place) ≠ []) :
    s.formGroup g = (s.mgt (.formFields g (s.group g).fields)).updGroup g (fun k => { k with
      forming := some { waiting := (s.group g).listed.filter (· != s.place), repeats := 0, held := s.holdsId (s.group g).id
                        layouts := [s.ownLayout g], runs := [] }
      serve := { k.serve with budgetStates := [] } }) := by
  unfold State.formGroup
  dsimp only
  rw [if_neg (by simp [hlead, hformed, hforming]), if_neg (by simp [hrange]), if_neg (by omega), if_neg (by simpa using hothers)]
  exact State.formReady_waiting (by rw [State.updGroup_group]) hothers

theorem State.dissolve_free {g : Nat} (hlead : (s.group g).lead = true) (hformed : (s.group g).formed = true)
    (hbusy : (s.step' g).busy = false) (hdue : (s.step' g).retryDue = false) (hfree : ∀ r ∈ (s.group g).serve.reqs, r.2.state = .free)
    (hothers : s.others g ≠ []) :
    s.dissolve g = (s.updGroup g (fun k => { k with formed := false })).mgt (.dissolve g) := by
  have hnone : (s.group g).serve.reqs.any (fun (p : Nat × Req) => p.2.state != .free) = false := by
    rw [List.any_eq_false]
    exact fun r hr => by simp [hfree r hr]
  have hsame : (s.updGroup g (fun k => { k with formed := false })).others g = s.others g := by
    rw [State.others, State.updGroup_group]
    rfl
  unfold State.dissolve
  dsimp only
  rw [if_neg (by simp [hlead, hformed, hbusy, hdue, hnone]), hsame, if_neg (by simpa using hothers)]

theorem State.dissolve_held {g : Nat} {r : Nat × Req} (hr : r ∈ (s.group g).serve.reqs) (hheld : r.2.state ≠ .free) :
    s.dissolve g = s.refuse (groupCtrlAt g) := by
  have hany : (s.group g).serve.reqs.any (fun (p : Nat × Req) => p.2.state != .free) = true :=
    List.any_eq_true.mpr ⟨r, hr, by simpa using hheld⟩
  unfold State.dissolve
  dsimp only
  rw [if_pos (by simp [hany])]

/-! ### What a member takes from the lead -/

/-- The group's fields, as a member takes them from its lead (R540). -/
def Group.taking (k : Group) (x : GroupFields) : Group :=
  { k with
    solver := x.solver, owner := x.owner.toNat, stepLast := x.stepLast, salt := x.salt, entries := x.entries.toNat
    btTid := x.btTid, btRegion := x.btRegion.toNat, propRegion := x.propRegion.toNat, tpoint := x.tpoint.toNat
    inputWin := x.inputWin.toNat, recoveryWin := x.recoveryWin.toNat, winT0 := x.winT0.toNat, winL := x.winL.toNat
    loadSrc := x.loadSrc }

theorem Group.taking_fields {k : Group} {x : GroupFields} (hid : k.id = x.id) : (k.taking x).fields = x := by
  cases x
  subst hid
  simp [Group.taking, Group.fields]

theorem exec_formMessage_held {x : GroupFields} (hlead : (s.group g.val).lead = false) (hid : (s.group g.val).id = x.id)
    (hformed : (s.group g.val).formed = false) (hheld : s.holdsId x.id = true) :
    exec (.formMessage g (.fields x)) s = .next (s.mgt (.formAnswer g.val (s.group g.val).kvWs (s.group g.val).shards (s.ownG g.val)
      s.budgetNow true ⟨0, none⟩)) := by
  show Host.Outcome.next (s.formFieldsIn g.val x) = _
  unfold State.formFieldsIn
  rw [if_neg (by simp [hid, hlead])]
  simp [hformed, hheld]

theorem exec_formMessage_taken {x : GroupFields} (hlead : (s.group g.val).lead = false) (hid : (s.group g.val).id = x.id)
    (hopen : (s.group g.val).formed = true ∨ s.holdsId x.id = false) :
    exec (.formMessage g (.fields x)) s = .next ((s.updGroup g.val (fun k => k.taking x)).mgt (.formAnswer g.val (s.group g.val).kvWs
      (s.group g.val).shards (s.ownG g.val) s.budgetNow false (if (s.group g.val).formed then s.memberRun g.val else ⟨0, none⟩))) := by
  have hG : (s.updGroup g.val (fun k => k.taking x)).ownG g.val = s.ownG g.val := by
    unfold State.ownG
    rw [State.updGroup_group]
    rfl
  have hheld : (!((s.group g.val).formed && (s.group g.val).id == x.id) && s.holdsId x.id) = false := by
    rcases hopen with h | h <;> simp [h, hid]
  show Host.Outcome.next (s.formFieldsIn g.val x) = _
  unfold State.formFieldsIn
  dsimp only
  rw [hheld, if_neg (by simp [hid, hlead]), if_neg (by simp), hid, beq_self_eq_true, Bool.and_true, ← hG]
  rfl

/-- FORMED on a member starts the group afresh: spill keys and step state as at reset, but for its highest step (R540). -/
theorem State.setFormed_spec (s : State) (g : Nat) : (((s.setFormed g []).group g).formed = true ∧ ((s.setFormed g []).group g).formErr = 0 ∧
    (s.setFormed g []).spillKeys g = SpillKeys.reset ∧ ((s.setFormed g []).step' g).phase = .none ∧
    ((s.setFormed g []).step' g).highest = (s.group g).stepLast ∧
    (∀ h, h ≠ g → (s.setFormed g []).group h = s.group h ∧ (s.setFormed g []).step' h = s.step' h) ∧
    s.setFormed g [] = { s with
      groups := (s.setFormed g []).groups, steps := (s.setFormed g []).steps, sec := { s.sec with spill := (s.setFormed g []).sec.spill } }) := by
  have hgroup : (s.setFormed g []).group g = { s.group g with
      formed := true, formErr := 0, forming := none
      serve := { (s.group g).serve with budgets := (s.group g).serve.budgets.map (fun (p : Nat × Budget) => (p.1, { p.2 with total := 0 })) } } :=
    State.updGroup_group s g (fun k => { k with
      formed := true, formErr := 0, forming := none, stepLast := (s.group g).stepLast
      serve := { k.serve with budgets := k.serve.budgets.map (fun (p : Nat × Budget) => (p.1, { p.2 with total := 0 })) } })
  have hstep : (s.setFormed g []).step' g = { StepRun.idle with highest := (s.group g).stepLast } := Recs.get_put_self ..
  refine ⟨?_, ?_, Recs.get_put_self .., ?_, ?_, fun h hne => ⟨Recs.get_put_ne _ _ _ hne, Recs.get_put_ne _ _ _ hne⟩, rfl⟩
  · rw [hgroup]
  · rw [hgroup]
  · rw [hstep]
    rfl
  · rw [hstep]

/-! ### The members' answers -/

theorem exec_formMessage_answer {f : Forming} {place other : Place} {ws n budget : Nat} {held : Bool} {run : MemberRun}
    (hforming : (s.group g.val).forming = some f) (hwaiting : f.waiting = [place, other]) (hne : other ≠ place) :
    exec (.formMessage g (.answer place ws [] n budget held run)) s = .next (s.updGroup g.val (fun k => { k with
      forming := some { f with
        waiting := [other], held := f.held || held, layouts := f.layouts ++ [⟨place, ws, n, [], true⟩]
        runs := if run = ⟨0, none⟩ then f.runs else f.runs ++ [run] }
      serve := { k.serve with budgetStates := k.serve.budgetStates ++ [(place.toNat, budget)] } })) := by
  have hleft : f.waiting.filter (· != place) = [other] := by simp [hwaiting, hne]
  show Host.Outcome.next (s.formAnswerIn g.val place ws [] n budget held run) = _
  unfold State.formAnswerIn
  rw [hforming]
  dsimp only
  rw [if_neg (by simp [hwaiting]), hleft, State.formReady_waiting (by rw [State.updGroup_group]) (List.cons_ne_nil other [])]
  rfl

theorem exec_formTimeout_again {f : Forming} (hforming : (s.group g.val).forming = some f) (hrepeats : f.repeats < 3) :
    exec (.formTimeout g) s = .next ((s.updGroup g.val (fun k => { k with
      forming := some { f with repeats := f.repeats + 1 } })).mgt (.formFields g.val (s.group g.val).fields)) := by
  show execFormTimeout g s = _
  simp only [execFormTimeout, hforming, if_pos hrepeats]

theorem exec_formTimeout_last {f : Forming} (hforming : (s.group g.val).forming = some f) (hrepeats : 3 ≤ f.repeats) :
    exec (.formTimeout g) s = .next (s.formFails g.val 1) := by
  show execFormTimeout g s = _
  simp only [execFormTimeout, hforming, if_neg (Nat.not_lt.mpr hrepeats)]

end

/-! ### The obligation -/

/-- Settles O24: what the lead and the members do as a group is formed and dissolved, message by message. -/
theorem groupSetUpComplete : Obligations.GroupSetUpComplete := by
  unfold Obligations.GroupSetUpComplete
  intro s g
  refine ⟨fun hup => ?lead, fun hlead => ?member, fun f hforming => ?answers⟩
  case lead =>
    rw [exec_form hup, exec_dissolve hup]
    refine ⟨fun hlead => ⟨?_, ?_⟩, fun hlead hformed hforming => ⟨fun hrange => ?_, fun hrange htime => ?_, fun hrange htime hothers => ?_⟩,
      fun hlead hformed hbusy hdue => ⟨fun hfree hothers => ?_, fun r hr hheld => ?_⟩⟩
    · rw [State.formGroup, if_pos (by simp [hlead])]
      rfl
    · rw [State.dissolve, if_pos (by simp [hlead])]
      rfl
    · exact congrArg _ (State.formGroup_range hlead hformed hforming hrange)
    · exact congrArg _ (State.formGroup_early hlead hformed hforming hrange htime)
    · exact congrArg _ (State.formGroup_good hlead hformed hforming hrange htime hothers)
    · exact congrArg _ (State.dissolve_free hlead hformed hbusy hdue hfree hothers)
    · exact congrArg _ (State.dissolve_held hr hheld)
  case member =>
    refine ⟨fun x hid => ⟨exec_formMessage_held hlead hid, fun hopen => ⟨_, exec_formMessage_taken hlead hid hopen, ?_, rfl, ?_, rfl⟩⟩,
      fun hformed => ⟨s.setFormed g.val [], ?_, s.setFormed_spec g.val⟩, ?_⟩
    · exact (congrArg Group.fields (State.updGroup_group s g.val (fun k => k.taking x))).trans (Group.taking_fields hid)
    · exact fun h hne => State.updGroup_group_ne s (fun k => k.taking x) hne
    · show Host.Outcome.next (if _ then _ else _) = _
      rw [if_pos (by simp [hlead, hformed])]
    · show Host.Outcome.next (if _ then _ else _) = _
      rw [if_pos (by simp [hlead])]
  case answers =>
    exact ⟨exec_formTimeout_again hforming, exec_formTimeout_last hforming,
      fun _ _ _ _ _ _ _ hwaiting hne => exec_formMessage_answer hforming hwaiting hne⟩

end Sys2Proof.Machine
end

section
/-! PROOF. Register writes act or are refused (24 R529 to R531, R542, R547, R548; 21 R482; 11 R273; log entries 78, 79, 83). -/

namespace Sys2Proof.Machine

section
variable {s : State}

/-! ### The words of a bus write (R529) -/

/-- A write of one aligned 32-bit word. -/
theorem State.busWrite_word (s : State) (f : Nat) {o : Nat} (ho : o % 4 = 0) (v : W32) :
    s.busWrite f false o (leBytes 4 v.toNat) = s.writeHalf f o v.toNat := by
  have hfirst : (o + 3) / 4 * 4 = o := by omega
  have hone : (o + 4 - o) / 4 = 1 := by omega
  have hv : fieldN (leBytes 4 v.toNat) 0 4 = v.toNat := by
    rw [fieldN_leBytes]
    exact Nat.mod_eq_of_lt v.isLt
  unfold State.busWrite
  simp only [hfirst, leBytes_length, hone]
  show s.writeHalf f (o + 0) (fieldN (leBytes 4 v.toNat) (o - o + 0) 4) = _
  rw [Nat.sub_self, hv, Nat.add_zero]

/-- The two words of 8 bytes. -/
theorem leBytes_eight (v : Nat) : leBytes 8 v = leBytes 4 v ++ leBytes 4 (v / 2 ^ 32) := by
  have hdiv : v / 2 ^ 32 = v / 256 / 256 / 256 / 256 := by omega
  rw [hdiv]
  rfl

theorem fieldN_leBytes_eight (v : W64) : fieldN (leBytes 8 v.toNat) 4 4 = v.toNat / 2 ^ 32 := by
  have hupper : sliceB (leBytes 4 v.toNat ++ leBytes 4 (v.toNat / 2 ^ 32)) 4 4 = leBytes 4 (v.toNat / 2 ^ 32) :=
    sliceB_append_right (leBytes 4 v.toNat) (leBytes 4 (v.toNat / 2 ^ 32))
  rw [fieldN, leBytes_eight, hupper, leNat_leBytes]
  omega

/-- A write of a whole 64-bit register takes both halves with the upper one (R529). -/
theorem State.busWrite_wide {f o : Nat} (ho : o % 8 = 0) (hwide : wideReg o = true) (hhalves : s.pkg.halves = []) (v : W64) :
    s.busWrite f false o (leBytes 8 v.toNat) = s.writeReg f o v.toNat := by
  have hfirst : (o + 3) / 4 * 4 = o := by omega
  have htwo : (o + 8 - o) / 4 = 2 := by omega
  have hlower : fieldN (leBytes 8 v.toNat) 0 4 = v.toNat % 2 ^ 32 := by
    rw [leBytes_eight]
    exact fieldN_leBytes_append ..
  have hwhole : v.toNat % 2 ^ 32 + 2 ^ 32 * (v.toNat / 2 ^ 32) = v.toNat := Nat.mod_add_div ..
  have hbase : o / 8 * 8 = o := by omega
  have hbase4 : (o + 4) / 8 * 8 = o := by omega
  let held : State := { s with pkg := { s.pkg with halves := [(2 ^ 24 * f + o, v.toNat % 2 ^ 32)] } }
  have hlow : s.writeHalf f o (v.toNat % 2 ^ 32) = held := by
    simp only [State.writeHalf, hbase, hwide, hhalves, List.filter_nil, List.nil_append, Bool.not_true, Bool.false_eq_true, if_false, if_true]
    rfl
  have hclear : ({ held with pkg := { held.pkg with halves := [] } } : State) = s := by
    show ({ s with pkg := { s.pkg with halves := [] } } : State) = s
    rw [← hhalves]
  have hhigh : held.writeHalf f (o + 4) (v.toNat / 2 ^ 32) = s.writeReg f o v.toNat := by
    have hfilter : held.pkg.halves.filter (fun p => p.1 != 2 ^ 24 * f + o) = [] := by simp [held]
    have hfind : held.pkg.halves.find? (fun p => p.1 == 2 ^ 24 * f + o) = some (2 ^ 24 * f + o, v.toNat % 2 ^ 32) := by simp [held]
    unfold State.writeHalf
    simp only [hbase4, hwide, hfilter, hfind, hclear, hwhole, Bool.not_true, Bool.false_eq_true, if_false]
    rw [if_neg (by omega)]
  unfold State.busWrite
  simp only [hfirst, leBytes_length, htwo]
  show (s.writeHalf f (o + 0) (fieldN (leBytes 8 v.toNat) (o - o + 0) 4)).writeHalf f (o + 4) (fieldN (leBytes 8 v.toNat) (o - o + 4) 4) = _
  rw [Nat.sub_self, Nat.add_zero, Nat.zero_add, Nat.add_zero, hlower, fieldN_leBytes_eight, hlow, hhigh]

theorem State.writeHalf_whole {f o v : Nat} (h : wideReg (o / 8 * 8) = false) : s.writeHalf f o v = s.writeReg f o v := by
  simp only [State.writeHalf, h, Bool.not_false, if_true]

/-! ### PF0's registers -/

theorem State.assigned_of_up {o : Nat} (hrec : s.sec.recovery = false) (hpass : s.passThrough = false) : s.assigned o = true := by
  simp [State.assigned, hrec, hpass]

theorem State.writeReg_pf0 {o : Nat} (v : Nat) (hassigned : s.assigned o = true) (hfuncs : ¬(0x80000 ≤ o ∧ o < 0x110000)) (hdir : o ≠ 0x1020)
    (hctrl : o ≠ 0x1024) : s.writeReg 0 o v = s.writePf0 o v := by
  rw [State.writeReg, if_neg (by simp [hassigned]), if_neg hfuncs, if_neg hdir, if_neg hctrl, if_pos rfl]

theorem State.writePf0_port {p r : Nat} (hp : p < 8) (hr : r < 0x1000) (v : Nat) :
    s.writePf0 (0x10000 + 0x1000 * p + r) v = s.writePort p r v := by
  have hport : (0x10000 + 0x1000 * p + r) / 0x1000 - 0x10 = p := by omega
  have hoff : (0x10000 + 0x1000 * p + r) % 0x1000 = r := by omega
  unfold State.writePf0
  repeat rw [if_neg (by omega)]
  rw [if_pos (by omega), hport, hoff]

theorem State.writePf0_slot {g r : Nat} (hg : g < 16) (hr : r < 0x10000) (v : Nat) :
    s.writePf0 (0x200000 + 0x10000 * g + r) v = s.writeSlot g r v := by
  have hslot : (0x200000 + 0x10000 * g + r - 0x200000) / 0x10000 = g := by omega
  have hoff : (0x200000 + 0x10000 * g + r) % 0x10000 = r := by omega
  unfold State.writePf0 routeCmdAt
  repeat rw [if_neg (by omega)]
  rw [if_pos (by omega), hslot, hoff]

theorem exec_registerWrite {bar2 : Bool} {offset : BitVec 24} {data : List Byte} (hup : s.funcUp 0 = true) :
    exec (.registerWrite 0 bar2 offset data) s = .next (s.busWrite 0 bar2 offset.toNat data) := by
  show execRegisterWrite 0 bar2 offset data s = _
  rw [execRegisterWrite, if_pos (by exact hup)]
  rfl

/-- A 32-bit register of PF0 that is none of its own block and none of the directory's. -/
theorem exec_registerWrite_word (hup : s.funcUp 0 = true) (hrec : s.sec.recovery = false) (hpass : s.passThrough = false) {o : Nat}
    (hlt : o < 2 ^ 24) (ho : o % 4 = 0) (hnarrow : wideReg (o / 8 * 8) = false) (hfuncs : ¬(0x80000 ≤ o ∧ o < 0x110000))
    (hdir : o ≠ 0x1020) (hctrl : o ≠ 0x1024) (v : W32) :
    exec (.registerWrite 0 false (BitVec.ofNat 24 o) (leBytes 4 v.toNat)) s = .next (s.writePf0 o v.toNat) := by
  rw [exec_registerWrite hup, BitVec.toNat_ofNat, Nat.mod_eq_of_lt hlt, s.busWrite_word 0 ho, State.writeHalf_whole hnarrow,
    State.writeReg_pf0 _ (State.assigned_of_up hrec hpass) hfuncs hdir hctrl]

/-- The same of a 64-bit register that is written whole. -/
theorem exec_registerWrite_wide (hup : s.funcUp 0 = true) (hrec : s.sec.recovery = false) (hpass : s.passThrough = false) {o : Nat}
    (hlt : o < 2 ^ 24) (ho : o % 8 = 0) (hwide : wideReg o = true) (hhalves : s.pkg.halves = []) (hfuncs : ¬(0x80000 ≤ o ∧ o < 0x110000))
    (hdir : o ≠ 0x1020) (hctrl : o ≠ 0x1024) (v : W64) :
    exec (.registerWrite 0 false (BitVec.ofNat 24 o) (leBytes 8 v.toNat)) s = .next (s.writePf0 o v.toNat) := by
  rw [exec_registerWrite hup, BitVec.toNat_ofNat, Nat.mod_eq_of_lt hlt, State.busWrite_wide ho hwide hhalves,
    State.writeReg_pf0 _ (State.assigned_of_up hrec hpass) hfuncs hdir hctrl]

theorem State.writePowerLimit_high {v : Nat} (h : 1800 < bitsN v 10 0) : s.writePowerLimit v = s.refuse 0x2000 := by
  unfold State.writePowerLimit
  rw [if_pos (.inr (.inl h))]

theorem State.writePf0_muteExp {v : Nat} (h : bitsN v 4 0 < 16) : s.writePf0 0x1018 v = s.refuse 0x1018 := by
  unfold State.writePf0
  repeat rw [if_neg (by omega)]
  rw [if_pos rfl, if_pos (.inl h)]

theorem State.writePf0_powerLimit (v : Nat) : s.writePf0 0x2000 v = s.writePowerLimit v := by
  unfold State.writePf0
  repeat rw [if_neg (by omega)]
  rw [if_pos rfl]

theorem State.writeVcAlloc_up {p : Nat} (h : (s.port p).st ≠ .down) (v : Nat) :
    s.writeVcAlloc p false v = s.refuse (0x10000 + 0x1000 * p + 0x10) := by
  have hat : 0x10010 + 0x1000 * p + 0 = 0x10000 + 0x1000 * p + 0x10 := by omega
  unfold State.writeVcAlloc
  simp only [Bool.false_eq_true, if_false]
  rw [if_pos (.inl h), hat]

theorem wideReg_vcAlloc {p : Nat} (hp : p < 8) : wideReg (0x10000 + 0x1000 * p + 0x10) = true := by
  have hoff : (0x10000 + 0x1000 * p + 0x10) % 0x1000 = 0x10 := by omega
  unfold wideReg
  rw [if_neg (by omega), if_pos (by omega), hoff]
  rfl

/-- The 64-bit registers of a group slot. -/
theorem wideReg_slot {g r : Nat} (hg : g < 16) (hr : r < 0x10000) : wideReg (0x200000 + 0x10000 * g + r) =
    (decide (r < 0x18) || r == 0x40 || r == 0x48 || (decide (0x60 ≤ r) && decide (r < 0xA0)) || r == 0x708) := by
  have hoff : (0x200000 + 0x10000 * g + r) % 0x10000 = r := by omega
  unfold wideReg
  rw [if_neg (by omega), if_neg (by omega), if_neg (by omega), if_pos (by omega), hoff]

/-! ### Readback and debug (R547, R548) -/

theorem exec_go (hup : s.slotsUp = true) (c : BitVec 9) (b : BitVec 12) : exec (.go c b) s = .next (s.readBack c.toNat b.toNat) := by
  show execGo c b s = _
  rw [execGo, if_pos hup]

theorem exec_debugEnWrite (hup : s.slotsUp = true) (v : W64) : exec (.debugEnWrite v) s = .next (s.writeDebugCtrl v.toNat) := by
  show execDebugEnWrite v s = _
  rw [execDebugEnWrite, if_pos hup]

theorem exec_stateSelWrite (hup : s.slotsUp = true) (v : W32) : exec (.stateSelWrite v) s = .next (s.writeStateSel v.toNat) := by
  show execStateSelWrite v s = _
  rw [execStateSelWrite, if_pos hup]

theorem State.readBack_disabled {c b : Nat} (hlocked : s.anyLocked = false) (hen : s.isEnabled c = false) :
    s.readBack c b = { s with readback := ⟨2, c, b, s.readback.data, s.readback.record⟩ } := by
  unfold State.readBack
  rw [if_neg (by simp [hlocked])]
  dsimp only
  rw [if_pos (by simp [hen]), if_neg (by simp [hen])]

/-- A block of an admitted region that is good is read, with its record (R547). -/
theorem State.readBack_good {c b : Nat} (hlocked : s.anyLocked = false) (hen : s.isEnabled c = true) (hb : b < wsBlocks)
    (hkind : (s.core c).ws.kindOf b = 1) (hbad : ((s.updWs c (fun w => w.correct b)).core c).ws.blockBad b = false)
    (hcrc : ((s.updWs c (fun w => w.correct b)).core c).ws.crcOf b = (((s.updWs c (fun w => w.correct b)).core c).ws.record b).crc) :
    s.readBack c b =
      let t := s.updWs c (fun w => w.correct b)
      let w := (t.core c).ws
      { t with readback := ⟨1, c, b, w.block b, leBytes 4 (w.record b).crc.toNat ++ (w.record b).body⟩ } := by
  have hgood : (((s.updWs c (fun w => w.correct b)).core c).ws.crcOf b !=
      (((s.updWs c (fun w => w.correct b)).core c).ws.record b).crc) = false := by
    rw [hcrc]
    exact bne_self_eq_false _
  unfold State.readBack
  rw [if_neg (by simp [hlocked])]
  dsimp only
  rw [if_neg (by simp [hen, hkind, hb]), hbad, hgood, if_neg (by decide)]

/-- The state with the item that a write of STATE_SEL selects (R548). -/
def State.selecting (s : State) (v : Nat) : State :=
  { s with dbg := { s.dbg with selCore := bitsN v 8 0, selSpace := bitsN v 11 9, selIndex := bitsN v 31 16 } }

theorem State.writeStateSel_row {v c : Nat} (hlocked : s.anyLocked = false) (hlive : s.liveSlots = [])
    (hcore : s.physOf (bitsN v 8 0) = some c) (hspace : bitsN v 11 9 = 0) (hrow : bitsN v 31 16 < spRows) :
    s.writeStateSel v = { s with dbg := { s.dbg with
      selCore := bitsN v 8 0, selSpace := 0, selIndex := bitsN v 31 16
      data := sliceB ((s.core c).sp.row (bitsN v 31 16)) 0 2048 } } := by
  have hphys : (s.selecting v).physOf (s.selecting v).dbg.selCore = some c := hcore
  have hzero : (s.selecting v).dbg.selSpace = 0 := hspace
  have hitem : (s.selecting v).debugItem = ((s.core c).sp.row (bitsN v 31 16), s.selecting v) := by
    unfold State.debugItem
    rw [hphys, hzero]
    dsimp only
    rw [if_pos (by exact hrow)]
    rfl
  have hidle : (s.selecting v).liveSlots.isEmpty = true := List.isEmpty_iff.mpr hlive
  unfold State.writeStateSel
  rw [if_neg (by simp [hlocked])]
  show (let r := if (s.selecting v).liveSlots.isEmpty then (s.selecting v).debugItem else
    (leBytes 2048 ((s.selecting v).takeFree 16384).1.toNat, ((s.selecting v).takeFree 16384).2)
    ({ r.2 with dbg := { r.2.dbg with data := sliceB r.1 0 2048 } } : State)) = _
  rw [if_pos hidle, hitem, State.selecting, hspace]

end

/-! ### The obligation -/

/-- Settles O25: what each register write does, by the register and the state it finds. -/
theorem registersComplete : Obligations.RegistersComplete := by
  unfold Obligations.RegistersComplete
  intro s
  refine ⟨fun hup => ⟨?index, ?locked, fun hlocked => ⟨?disabled, ?read, ?debug, ?select⟩⟩,
    fun hup hrec hpass => ⟨?clear, ?kept, ?limit, ?mute, ?alloc, ?live, ?fixed, ?empty⟩⟩
  case index =>
    intro g e
    show execReqIndexWrite g e s = _
    rw [execReqIndexWrite, if_pos hup]
    rfl
  case locked =>
    intro hlocked c b value sel
    rw [exec_go hup, exec_debugEnWrite hup, exec_stateSelWrite hup, State.readBack, State.writeDebugCtrl, State.writeStateSel, if_pos hlocked,
      if_pos hlocked, if_pos hlocked]
    exact ⟨rfl, rfl, rfl⟩
  case disabled => exact fun c b hen => (exec_go hup c b).trans (congrArg _ (State.readBack_disabled hlocked hen))
  case read =>
    exact fun c b hen hb hkind hbad hcrc => (exec_go hup c b).trans (congrArg _ (State.readBack_good hlocked hen hb hkind hbad hcrc))
  case debug =>
    intro value
    rw [exec_debugEnWrite hup, State.writeDebugCtrl, if_neg (by simp [hlocked])]
  case select =>
    exact fun sel c hlive hcore hspace hrow =>
      (exec_stateSelWrite hup sel).trans (congrArg _ (State.writeStateSel_row hlocked hlive hcore hspace hrow))
  case clear =>
    intro hfresh
    show execRefusedClear s = _
    rw [execRefusedClear, if_pos (by simp [hup, hrec]), State.clearRefused, if_pos hfresh]
  case kept =>
    intro hfresh
    show execRefusedClear s = _
    rw [execRefusedClear, if_pos (by simp [hup, hrec]), State.clearRefused, if_neg hfresh]
  case limit =>
    intro v hv
    rw [← State.writePowerLimit_high hv, ← State.writePf0_powerLimit]
    exact exec_registerWrite_word hup hrec hpass (o := 0x2000) (by decide) rfl rfl (by decide) (by decide) (by decide) v
  case mute =>
    intro v hv
    rw [← State.writePf0_muteExp hv]
    exact exec_registerWrite_word hup hrec hpass (o := 0x1018) (by decide) rfl rfl (by decide) (by decide) (by decide) v
  case alloc =>
    intro p v hst hhalves
    have hp := p.isLt
    have hat : 0x10010 + 0x1000 * p.val = 0x10000 + 0x1000 * p.val + 0x10 := by omega
    rw [hat, ← State.writeVcAlloc_up hst v.toNat,
      exec_registerWrite_wide hup hrec hpass (by omega) (by omega) (wideReg_vcAlloc hp) hhalves (by omega) (by omega) (by omega) v,
      State.writePf0_port hp (by omega)]
    rfl
  case live =>
    intro g v
    have hg := g.isLt
    have hat : 0x200038 + 0x10000 * g.val = 0x200000 + 0x10000 * g.val + 0x38 := by omega
    have hword : (0x200000 + 0x10000 * g.val + 0x38) / 8 * 8 = 0x200000 + 0x10000 * g.val + 0x38 := by omega
    have hwrite : exec (.registerWrite 0 false (BitVec.ofNat 24 (0x200038 + 0x10000 * g.val)) (leBytes 4 v.toNat)) s =
        .next (s.liveWrite g.val 0x38 v.toNat) := by
      rw [hat, exec_registerWrite_word hup hrec hpass (by omega) (by omega) (by rw [hword, wideReg_slot hg (by omega)]; rfl) (by omega)
        (by omega) (by omega) v, State.writePf0_slot hg (by omega)]
      rfl
    dsimp only
    rw [hwrite, State.liveWrite]
    refine ⟨fun hformed => ?_, fun hformed => ?_⟩
    · rw [State.updGroup, State.updGroup, if_pos hformed]
    · have hid : (s.group g.val).applyLive (0x38, v.toNat) = { s.group g.val with eosId := BitVec.ofNat 32 v.toNat } := rfl
      rw [State.updGroup, State.updGroup, if_neg (by simp [hformed]), hid, BitVec.ofNat_toNat, BitVec.setWidth_eq]
  case fixed =>
    intro g v hformed hhalves
    have hg := g.isLt
    have hat : 0x200010 + 0x10000 * g.val = 0x200000 + 0x10000 * g.val + 0x10 := by omega
    have hsalt : s.writeSlot g.val 0x10 v.toNat = s.updGroup g.val (fun k => { k with salt := v }) := by
      show s.fixedField g.val 0x10 (fun k => { k with salt := BitVec.ofNat 64 v.toNat }) = _
      rw [State.fixedField, if_neg (by simp [hformed]), BitVec.ofNat_toNat, BitVec.setWidth_eq]
    rw [hat, exec_registerWrite_wide hup hrec hpass (by omega) (by omega) (by rw [wideReg_slot hg (by omega)]; rfl) hhalves (by omega)
      (by omega) (by omega) v, State.writePf0_slot hg (by omega), hsalt]
  case empty =>
    intro offset
    have hnone : (offset.toNat + 0 - (offset.toNat + 3) / 4 * 4) / 4 = 0 := by omega
    rw [exec_registerWrite hup, State.busWrite]
    dsimp only
    rw [List.length_nil, hnone]
    rfl

end Sys2Proof.Machine
end

section
/-! PROOF. Supplies, rails, sensors and the power limit (20 R465; 21 R476 to R485, R490 to R493; 22 R500, R501; 23 R521, R525; log entries
68 to 72, 76). -/

namespace Sys2Proof.Machine

section
variable {s : State}

/-! ### Pass-through mode -/

theorem State.disableVfs_eq (s : State) : ∃ fs, s.disableVfs = { s with funcs := fs } := by
  unfold State.disableVfs
  refine List.foldlRecOn (motive := fun q : State => ∃ fs, q = { s with funcs := fs }) _ _ ⟨_, rfl⟩ ?_
  rintro _ ⟨fs, rfl⟩ i _
  exact ⟨_, rfl⟩

theorem State.functionsOff_eq (s : State) :
    ∃ fs, ({ s.disableVfs.stopRings with passThrough := true } : State) = { s with funcs := fs, passThrough := true } := by
  obtain ⟨fs, h⟩ := s.disableVfs_eq
  rw [h]
  exact ⟨_, rfl⟩

theorem State.stopAll_idle (h : s.liveSlots = []) (reason : BitVec 16) : s.stopAll reason = s := by
  rw [State.stopAll, h, List.foldl_nil]

/-- Where no step runs and no activity, pass-through mode takes the compute part, and tells the functions (R506). -/
theorem State.enterPassThrough_idle (hpass : s.passThrough = false) (hlive : s.liveSlots = []) (hrun : s.maint.running = 0)
    (reason : BitVec 16) : ∃ fs m, s.enterPassThrough reason = { s.loseCompute with funcs := fs, maint := m, passThrough := true } := by
  have hquiet : (s.maint.running != 0 && s.maint.running != 7) = false := by rw [hrun]; rfl
  unfold State.enterPassThrough
  rw [if_neg (by simp [hpass])]
  dsimp only
  rw [State.stopAll_idle hlive, hquiet, if_neg Bool.false_ne_true]
  obtain ⟨fs, h⟩ := (s.updMaint (fun m => { m with
    running := if s.maint.running == 7 || (match s.maint.suspended with | some (c, _) => c == 7 | none => false) then 7 else 0
    byRec := false, pauseAsked := false, suspended := none, queue := [], ready := false, leaving := none
    order := if m.leaving.isSome then max m.order 3 else m.order })).loseCompute.functionsOff_eq
  exact ⟨fs, _, h⟩

theorem State.packageFault_idle (hlive : s.liveSlots = []) (reason : BitVec 16) (cls outcome : Nat) (unit sub : BitVec 16) (detail : Nat) :
    s.packageFault reason cls outcome unit sub detail = s.logFault reason cls outcome none 0 unit sub detail := by
  rw [State.packageFault, hlive]

/-- A package fault that no step meets, and the pass-through mode that follows: what is left of the state. -/
theorem State.faultToPassThrough (hpass : s.passThrough = false) (hlive : s.liveSlots = []) (hrun : s.maint.running = 0)
    (reason reason' : BitVec 16) (cls outcome : Nat) (unit sub : BitVec 16) (detail : Nat) : ∃ fl fc fr fs o m,
    (s.packageFault reason cls outcome unit sub detail).enterPassThrough reason' = { s.loseCompute with
      faultLog := fl, faultCount := fc, free := fr, funcs := fs, out := o, maint := m, passThrough := true } := by
  obtain ⟨e, n, fs, o, _, hlog⟩ := s.logFault_eq reason cls outcome none 0 unit sub detail
  rw [State.packageFault_idle hlive, hlog]
  obtain ⟨fs', m, h⟩ := State.enterPassThrough_idle (s := { s.withFault e n with funcs := fs, out := o }) hpass hlive hrun reason'
  exact ⟨_, _, n, fs', o, m, h⟩

/-! ### Start-up by its parts -/

/-- Once VANA is good PWR_EN rises (R476). -/
def State.enableRails (s : State) : State := if s.power.vana then s.updPower (fun p => { p with pwrEn := true }) else s

/-- The rails of the fabric island, and station time that begins with them. -/
def State.islandOn (s : State) : State :=
  if s.power.railFabric then s
  else { s with station := 0, sync := Sync.reset, power := { s.power with railIo := true, railFabric := true } }

/-- The rails of the compute part, or pass-through mode where they are barred (R502). -/
def State.computeOn (s : State) : State :=
  if s.computeBarred then
    let s := (s.updMaint (fun m => { m with running := 0, ready := false })).hostOn
    { s.disableVfs.stopRings with passThrough := true }
  else s.updPower (fun p => { p with railMemory := true, railCore := true, ungated := [] })

/-- The rails once PWR_EN is decided: the I/O rail alone in the wait of R429, otherwise orders 3 to 6. -/
def State.railsOn (s : State) : State :=
  if !(s.power.pwrEn && s.power.vmain) then s
  else if s.sec.recovery then ((s.updPower (fun p => { p with railIo := true })).hostOn).disableVfs
  else (s.islandOn.updMaint (fun m => { m with order := 3 })).computeOn

theorem State.startOn_eq (s : State) :
    s.startOn = if !s.power.vaux || s.maint.order < 1 || 3 ≤ s.maint.order then s else s.enableRails.railsOn := by
  unfold State.startOn
  generalize hq : s.enableRails = q
  unfold State.enableRails at hq
  rw [hq]
  unfold State.railsOn
  generalize hr : q.islandOn = r
  unfold State.islandOn at hr
  dsimp only
  rw [hr]
  rfl

/-! ### What a boot writes -/

/-- From s to t a boot has written: the enabled cores, the functions, station time, and the soundpost's and the rails' state, but for the
firmware bytes, the straps and VAUX; where it is quiet, nothing to the fault log. -/
structure State.Boots (quiet : Prop) (s t : State) : Prop where
  rest : t = { s with
    enabled := t.enabled, free := t.free, faultLog := t.faultLog, faultCount := t.faultCount, funcs := t.funcs, out := t.out
    passThrough := t.passThrough, station := t.station, sync := t.sync, sec := t.sec, maint := t.maint, power := t.power }
  log : quiet → t.faultLog = s.faultLog
  fwBytes : t.sec.fwBytes = s.sec.fwBytes
  slotId : t.maint.slotId = s.maint.slotId
  bootMode : t.maint.bootMode = s.maint.bootMode
  vaux : t.power.vaux = s.power.vaux

variable {quiet : Prop} {t : State}

theorem State.Boots.refl : s.Boots quiet s := ⟨rfl, fun _ => rfl, rfl, rfl, rfl, rfl⟩

theorem State.Boots.trans {u : State} (h : s.Boots quiet t) (h' : t.Boots quiet u) : s.Boots quiet u where
  rest := by rw [h'.rest, h.rest]
  log := fun hq => (h'.log hq).trans (h.log hq)
  fwBytes := h'.fwBytes.trans h.fwBytes
  slotId := h'.slotId.trans h.slotId
  bootMode := h'.bootMode.trans h.bootMode
  vaux := h'.vaux.trans h.vaux

theorem State.Boots.ite {p : Prop} [Decidable p] {u : State} (h : s.Boots quiet t) (h' : s.Boots quiet u) :
    s.Boots quiet (if p then t else u) := by
  split
  · exact h
  · exact h'

theorem State.Boots.updSec (h : s.Boots quiet t) {f : Sec → Sec} (hf : ∀ x, (f x).fwBytes = x.fwBytes) : s.Boots quiet (t.updSec f) :=
  h.trans ⟨rfl, fun _ => rfl, hf _, rfl, rfl, rfl⟩

theorem State.Boots.updMaint (h : s.Boots quiet t) {f : Maint → Maint} (hslot : ∀ m, (f m).slotId = m.slotId)
    (hmode : ∀ m, (f m).bootMode = m.bootMode) : s.Boots quiet (t.updMaint f) :=
  h.trans ⟨rfl, fun _ => rfl, rfl, hslot _, hmode _, rfl⟩

theorem State.Boots.updPower (h : s.Boots quiet t) {f : Power → Power} (hf : ∀ p, (f p).vaux = p.vaux) : s.Boots quiet (t.updPower f) :=
  h.trans ⟨rfl, fun _ => rfl, rfl, rfl, rfl, hf _⟩

theorem State.Boots.hostOnly (h : s.Boots quiet t) {u : State} (hu : t.HostOnly u) : s.Boots quiet u := by
  rw [hu]
  exact h.trans ⟨rfl, fun _ => rfl, rfl, rfl, rfl, rfl⟩

theorem State.Boots.hostOn (h : s.Boots quiet t) : s.Boots quiet t.hostOn := h.updMaint (fun _ => rfl) (fun _ => rfl)

theorem State.Boots.disableVfs (h : s.Boots quiet t) : s.Boots quiet t.disableVfs := by
  obtain ⟨fs, hvfs⟩ := t.disableVfs_eq
  rw [hvfs]
  exact h.trans ⟨rfl, fun _ => rfl, rfl, rfl, rfl, rfl⟩

theorem State.Boots.functionsOff (h : s.Boots quiet t) : s.Boots quiet { t.disableVfs.stopRings with passThrough := true } := by
  obtain ⟨fs, hoff⟩ := t.functionsOff_eq
  rw [hoff]
  exact h.trans ⟨rfl, fun _ => rfl, rfl, rfl, rfl, rfl⟩

theorem State.Boots.enableRails (h : s.Boots quiet t) : s.Boots quiet t.enableRails := by
  unfold State.enableRails
  split
  · exact h.updPower fun _ => rfl
  · exact h

theorem State.Boots.islandOn (h : s.Boots quiet t) : s.Boots quiet t.islandOn := by
  unfold State.islandOn
  split
  · exact h
  · exact h.trans ⟨rfl, fun _ => rfl, rfl, rfl, rfl, rfl⟩

theorem State.Boots.computeOn (h : s.Boots quiet t) : s.Boots quiet t.computeOn := by
  unfold State.computeOn
  split
  · refine State.Boots.functionsOff (State.Boots.hostOn (State.Boots.updMaint h ?_ ?_))
    · exact fun _ => rfl
    · exact fun _ => rfl
  · refine State.Boots.updPower h ?_
    exact fun _ => rfl

theorem State.Boots.railsOn (h : s.Boots quiet t) : s.Boots quiet t.railsOn := by
  unfold State.railsOn
  split
  · exact h
  · split
    · refine State.Boots.disableVfs (State.Boots.hostOn (State.Boots.updPower h ?_))
      exact fun _ => rfl
    · refine State.Boots.computeOn (State.Boots.updMaint h.islandOn ?_ ?_)
      · exact fun _ => rfl
      · exact fun _ => rfl

/-- Start-up goes on, as far as the supplies allow (R476, R502). -/
theorem State.Boots.startOn (h : s.Boots quiet t) : s.Boots quiet t.startOn := by
  rw [State.startOn_eq]
  split
  · exact h
  · exact h.enableRails.railsOn

theorem State.Boots.oweSecurity (h : s.Boots quiet t) {code : Nat} : s.Boots quiet (t.oweSecurity code) := by
  unfold State.oweSecurity
  split
  · exact h.hostOnly (State.raiseTo_hostOnly ..)
  · exact h.updSec (fun _ => rfl)

/-- A record that has failed is logged. -/
theorem State.Boots.recordFailed (h : s.Boots quiet t) {r : Nat} (hloud : ¬quiet) : s.Boots quiet (t.recordFailed r) := by
  refine State.Boots.oweSecurity (h.trans ?_)
  obtain ⟨e, n, fs, o, _, hlog⟩ := t.logFault_eq 0x00D0 10 0 none 0 0xFFFF 0xFFFF r
  rw [hlog]
  exact ⟨rfl, fun hq => absurd hq hloud, rfl, rfl, rfl, rfl⟩

theorem State.Boots.bootMeasures (h : s.Boots quiet t) : s.Boots quiet t.bootMeasures :=
  List.foldlRecOn (motive := fun q => s.Boots quiet q) _ _ h fun _ hq _ _ => hq.updSec fun _ => rfl

theorem State.Boots.bootSoundpost (h : s.Boots quiet t) : s.Boots quiet t.bootSoundpost := by
  have hbooted := h.updSec (f := fun x => { x with fwLen := none, sessions := [], identity := !t.maint.badRecords.contains 2 }) fun _ => rfl
  unfold State.bootSoundpost
  dsimp only
  split
  · refine State.Boots.bootMeasures (State.Boots.updSec hbooted ?_)
    exact fun _ => rfl
  · refine State.Boots.updMaint (State.Boots.updSec hbooted ?_) ?_ ?_
    · exact fun _ => rfl
    · exact fun _ => rfl
    · exact fun _ => rfl

theorem State.Boots.enabledFrom (h : s.Boots quiet t) {l : List Nat} : s.Boots quiet { t with enabled := l } :=
  h.trans ⟨rfl, fun _ => rfl, rfl, rfl, rfl, rfl⟩

/-- A package boots quietly where no record of it fails (22 R500, R501). -/
theorem State.bootPackage_boots (s : State) (bad : List Nat) : s.Boots (s.failing bad = []) (s.bootPackage bad) := by
  have hsec (q : State) (kept : Option Retained) : q.Boots (s.failing bad = []) (q.updSec (fun x => match kept with
      | some r => { x with svnFloor := r.svnFloor, publishers := r.publishers, roots := r.roots }
      | none => { x with svnFloor := x.stored.svn })) := by
    refine State.Boots.updSec .refl ?_
    intro x
    cases kept with
    | none => rfl
    | some r => rfl
  have hfold (q : State) : q.Boots (s.failing bad = []) ((s.failing bad).foldl State.recordFailed q) := by
    refine List.foldlRecOn (motive := fun u => q.Boots (s.failing bad = []) u) _ _ .refl fun u hu r hr => ?_
    exact hu.recordFailed (List.ne_nil_of_mem hr)
  have hread : s.Boots (s.failing bad = []) {
      s.updMaint (fun m => { m with badRecords := s.failing bad, order := 1, running := 0x0A, ready := false }) with
      sec := { s.sec with stored := if (s.failing bad).contains 1 then { s.sec.stored with verifies := false } else s.sec.stored } } :=
    ⟨rfl, fun _ => rfl, rfl, rfl, rfl, rfl⟩
  unfold State.bootPackage
  refine State.Boots.startOn (State.Boots.updMaint (State.Boots.bootSoundpost ?_) ?_ ?_)
  · refine State.Boots.enabledFrom (State.Boots.trans (State.Boots.trans (State.Boots.updMaint (State.Boots.ite ?_ hread) ?_ ?_)
      (hsec _ _)) (hfold _))
    · refine State.Boots.updMaint hread ?_ ?_
      · exact fun _ => rfl
      · exact fun _ => rfl
    · exact fun _ => rfl
    · exact fun _ => rfl
  · exact fun _ => rfl
  · exact fun _ => rfl

/-- The state that a cold start boots from: at reset but for what is kept in the tailpiece, and the straps as sampled. -/
def State.coldState (s : State) (slotId : BitVec 4) (bootMode : BitVec 2) (bad : List Nat) : State :=
  let s := s.resetPackage
  let s := s.updMaint (fun m => { m with
    slotId := slotId.toNat, bootMode := bootMode.toNat, pendingSubs := [], retired := if bad.contains 5 then [] else m.retired })
  s.updPower (fun p => { p with vaux := true })

theorem State.oweSecurity_failing (s : State) (code : Nat) (bad : List Nat) : (s.oweSecurity code).failing bad = s.failing bad := by
  unfold State.oweSecurity
  split
  · have hhost : s.HostOnly (s.security 0 code) := State.raiseTo_hostOnly ..
    rw [hhost]
    rfl
  · rfl

theorem exec_coldStart (slotId : BitVec 4) (bootMode : BitVec 2) (bad : List (BitVec 3)) :
    ∃ t, exec (.coldStart slotId bootMode bad) s = .next t ∧
    let records := (bad.map (·.toNat)).filter (fun r => 1 ≤ r && r ≤ 6)
    let q := s.coldState slotId bootMode records
    q.Boots (q.failing records = []) t := by
  refine ⟨_, rfl, ?_⟩
  dsimp only
  generalize (bad.map (·.toNat)).filter (fun r => 1 ≤ r && r ≤ 6) = records
  show (s.coldState slotId bootMode records).Boots _ (State.bootPackage (if bootMode = 3 then
    (s.coldState slotId bootMode records).oweSecurity 7 else s.coldState slotId bootMode records) records)
  split
  · rw [← State.oweSecurity_failing _ 7]
    exact State.Boots.trans (State.Boots.oweSecurity .refl) (State.bootPackage_boots ..)
  · exact State.bootPackage_boots ..

/-- No record fails where the image verifies and the grade record is good. -/
theorem State.failing_nil (hverifies : s.sec.stored.verifies = true) (hgrade : s.maint.gradeOk = true) : s.failing [] = [] := by
  unfold State.failing
  rw [hverifies, hgrade]
  rfl

/-! ### The supplies come up -/

theorem State.enableRails_of_on (h : s.power.pwrEn = true) : s.enableRails = s := by
  have hpower : { s.power with pwrEn := true } = s.power := by rw [← h]
  unfold State.enableRails
  split
  · rw [State.updPower, hpower]
  · rfl

theorem State.enableRails_of_vana (h : s.power.vana = true) : s.enableRails = s.updPower (fun p => { p with pwrEn := true }) := by
  rw [State.enableRails, if_pos h]

/-- Before the soundpost has verified the records, and once the rails are decided, a supply that comes up is only noted. -/
theorem State.startOn_stays (h1 : s.maint.order ≠ 1) (h2 : s.maint.order ≠ 2) : s.startOn = s := by
  rw [State.startOn_eq, if_pos]
  simp only [Bool.or_eq_true, decide_eq_true_eq]
  omega

theorem State.startOn_atOrder2 (horder : s.maint.order = 2) (hvaux : s.power.vaux = true) : s.startOn = s.enableRails.railsOn := by
  rw [State.startOn_eq, if_neg]
  simp [horder, hvaux]

theorem exec_vanaGood_waits (horder : s.maint.order = 2) (hvaux : s.power.vaux = true) (hvmain : s.power.vmain = false) :
    exec .vanaGood s = .next (s.updPower (fun p => { p with vana := true, pwrEn := true })) := by
  show Host.Outcome.next (s.updPower (fun p => { p with vana := true })).startOn = _
  rw [State.startOn_atOrder2 (by exact horder) (by exact hvaux), State.enableRails_of_vana (by rfl), State.railsOn,
    if_pos (by simp [State.updPower, hvmain])]
  rfl

theorem State.islandOn_of_on (h : s.power.railFabric = true) : s.islandOn = s := by rw [State.islandOn, if_pos h]

theorem State.islandOn_of_off (h : s.power.railFabric = false) : s.islandOn = { s with
    station := 0, sync := Sync.reset, power := { s.power with railIo := true, railFabric := true } } := by
  rw [State.islandOn, if_neg (ne_true_of_eq_false h)]

/-- The state in which start-up is in order 3, with every rail up (R476). -/
def State.allRails (s : State) : State :=
  ((s.updPower (fun p => { p with vmain := true })).islandOn.updMaint (fun m => { m with order := 3 })).updPower
    (fun p => { p with railMemory := true, railCore := true, ungated := [] })

theorem exec_vmainGood_starts (horder : s.maint.order = 2) (hvaux : s.power.vaux = true) (hpwr : s.power.pwrEn = true)
    (hrec : s.sec.recovery = false) (hbad : s.maint.badRecords = []) (hmode : s.maint.bootMode = 0) (htrip : s.power.thermtrip = false) :
    exec .vmainGood s = .next s.allRails := by
  have hisland (q : State) (hq : q.maint.badRecords = [] ∧ q.maint.bootMode = 0 ∧ q.power.thermtrip = false) :
      (q.islandOn.updMaint (fun m => { m with order := 3 })).computeBarred = false := by
    obtain ⟨hb, hm, ht⟩ := hq
    unfold State.islandOn
    split
    · simp [State.computeBarred, State.updMaint, hb, hm, ht]
    · simp [State.computeBarred, State.updMaint, hb, hm, ht]
  have hopen := hisland (s.updPower (fun p => { p with vmain := true })) ⟨hbad, hmode, htrip⟩
  show Host.Outcome.next (s.updPower (fun p => { p with vmain := true })).startOn = _
  rw [State.startOn_atOrder2 (by exact horder) (by exact hvaux), State.enableRails_of_on (by exact hpwr), State.railsOn,
    if_neg (by simp [State.updPower, hpwr]), if_neg (by simp [hrec]), State.computeOn, hopen, if_neg Bool.false_ne_true, State.allRails]

theorem State.allRails_spec (s : State) : s.allRails.maint.order = 3 ∧
    s.allRails.power.railIo = (if s.power.railFabric then s.power.railIo else true) ∧ s.allRails.power.railFabric = true ∧
    s.allRails.power.railMemory = true ∧ s.allRails.power.railCore = true ∧ s.allRails.power.ungated = [] ∧ s.SameCompute s.allRails ∧
    s.allRails = { s with
      power := s.allRails.power, station := s.allRails.station, sync := s.allRails.sync, maint := { s.maint with order := 3 } } := by
  cases hfabric : s.power.railFabric with
  | true =>
    have hall : s.allRails = { s with
        power := { s.power with vmain := true, railMemory := true, railCore := true, ungated := [] }, maint := { s.maint with order := 3 } } := by
      rw [State.allRails, State.islandOn_of_on (by exact hfabric)]
      rfl
    rw [hall]
    exact ⟨rfl, rfl, hfabric, rfl, rfl, rfl, ⟨rfl, rfl, rfl, rfl, rfl, rfl, rfl, rfl, rfl, rfl⟩, rfl⟩
  | false =>
    have hall : s.allRails = { s with
        power := { s.power with vmain := true, railIo := true, railFabric := true, railMemory := true, railCore := true, ungated := [] }
        station := 0, sync := Sync.reset, maint := { s.maint with order := 3 } } := by
      rw [State.allRails, State.islandOn_of_off (by exact hfabric)]
      rfl
    rw [hall]
    exact ⟨rfl, rfl, rfl, rfl, rfl, rfl, ⟨rfl, rfl, rfl, rfl, rfl, rfl, rfl, rfl, rfl, rfl⟩, rfl⟩

theorem exec_courseUngate_next {course group : Fin 8} {tests : SelfTest} (hrail : s.power.railCore = true) (horder : s.maint.order = 3)
    (hnext : 8 * course.val + group.val = s.power.ungated.length) (hlast : s.power.ungated.length < 63) :
    exec (.courseUngate course group tests) s = .next (s.updPower (fun p => { p with ungated := p.ungated ++ [p.ungated.length] })) := by
  show execCourseUngate course group tests s = _
  unfold execCourseUngate
  dsimp only
  rw [if_pos (by simp [hrail, horder, hnext]), if_neg (by omega)]
  rfl

/-! ### What takes the rails -/

/-- The compute part without its rails: nothing of groups, steps and programs is left (R477). -/
def State.Dead (s t : State) : Prop :=
  (t.cores = s.cores.map (fun c => (c.1, c.2.unpowered)) ∧ t.groups = [] ∧ t.steps = [] ∧ t.landings = []) ∧
    t.power.railCore = false ∧ t.power.railMemory = false

/-- A fault of a stage that takes no step with it ends in pass-through mode (20 R465; 21 R478). -/
theorem exec_converterStageFault (hpass : s.passThrough = false) (hlive : s.liveSlots = []) (hrun : s.maint.running = 0) (stage : Fin 4) :
    ∃ t, exec (.converterStageFault stage) s = .next t ∧ s.Dead t ∧ t.passThrough = true ∧ stage.val ∈ t.power.stageFaults ∧
      t.sec = s.sec ∧ t.enabled = s.enabled ∧ (s.power.stageFaults = [] →
        t.ports = s.ports ∧ t.routes = s.routes ∧ t.lasers = s.lasers ∧ t.station = s.station) := by
  obtain ⟨fl, fc, fr, fs, o, m, h⟩ := State.faultToPassThrough hpass hlive hrun 0x0060 0x0060 9 4 0xFFFF 0xFFFF 0
  have hmem : stage.val ∈ if s.power.stageFaults.contains stage.val then s.power.stageFaults else s.power.stageFaults ++ [stage.val] := by
    split
    next hin => exact List.contains_iff_mem.mp hin
    next => exact List.mem_append_right _ (List.mem_singleton.mpr rfl)
  show ∃ t, execConverterStageFault stage s = .next t ∧ _
  unfold execConverterStageFault
  rw [State.supplyFault, h]
  dsimp only
  split
  next htwo =>
    refine ⟨_, rfl, ⟨⟨rfl, rfl, rfl, rfl⟩, rfl, rfl⟩, rfl, hmem, rfl, rfl, fun hnone => ?_⟩
    have hboth : (([] ++ [stage.val]).contains 2 && ([] ++ [stage.val]).contains 3) = true := by
      have hfaults : (State.updPower { s.loseCompute with
          faultLog := fl, faultCount := fc, free := fr, funcs := fs, out := o, maint := m, passThrough := true } (fun p => { p with
            stageFaults := if p.stageFaults.contains stage.val then p.stageFaults else p.stageFaults ++ [stage.val] })).power.stageFaults =
          [] ++ [stage.val] := by
        show (if s.power.stageFaults.contains stage.val then s.power.stageFaults else s.power.stageFaults ++ [stage.val]) = _
        rw [hnone]
        rfl
      rw [hfaults] at htwo
      exact htwo
    have hne : ¬(2 = stage.val ∧ 3 = stage.val) := by omega
    simp only [List.nil_append, List.contains_cons, List.contains_nil, Bool.or_false, Bool.and_eq_true, beq_iff_eq] at hboth
    exact absurd hboth hne
  next => exact ⟨_, rfl, ⟨⟨rfl, rfl, rfl, rfl⟩, rfl, rfl⟩, rfl, hmem, rfl, rfl, fun _ => ⟨rfl, rfl, rfl, rfl⟩⟩

theorem exec_thermtrip_trips (hvaux : s.power.vaux = true) : ∃ t, exec .thermtrip s = .next t ∧ s.Dead t ∧ t.passThrough = true ∧
    t.power.pwrEn = false ∧ t.power.thermtrip = true ∧ t.maint.tripped = true ∧ t.sec = { s.sec with fwLen := none } ∧
    t.faultLog = s.faultLog ∧ t.enabled = s.enabled := by
  show ∃ t, execThermtrip s = .next t ∧ _
  unfold execThermtrip
  rw [if_neg (by simp [hvaux])]
  exact ⟨_, rfl, ⟨⟨rfl, rfl, rfl, rfl⟩, rfl, rfl⟩, rfl, rfl, rfl, rfl, rfl, rfl, rfl⟩

/-! ### The reference clock -/

theorem exec_refclkLoss_idle (hlive : s.liveSlots = []) : exec .refclkLoss s = .next ((List.range 8).foldl (fun t p => t.portDown p)
    (((s.logFault 0x0050 8 0 none 0 0xFFFF 0xFFFF 0).updClk (fun k => { k with
      refclk := false, locked := List.replicate 8 false, lockLosses := k.lockLosses + 1 })).addHold .lockLoss)) := by
  show execRefclkLoss s = _
  unfold execRefclkLoss
  rw [hlive]
  rfl

theorem State.bringUp_of_disabled {p : Nat} (h : (s.port p).enable = false) : s.bringUp p = s := by
  rw [State.bringUp, if_neg (by simp [h])]

theorem exec_refclkReturn_disabled (hports : ∀ p : PortId, (s.port p.val).enable = false) :
    exec .refclkReturn s = .next (s.updClk (fun k => { k with refclk := true })) := by
  have hfold : (List.range 8).foldl (fun q p => State.bringUp q p) (s.updClk (fun k => { k with refclk := true })) =
      s.updClk (fun k => { k with refclk := true }) := by
    refine List.foldlRecOn (motive := fun q => q = s.updClk (fun k => { k with refclk := true })) _ _ rfl fun q hq p hp => ?_
    rw [hq]
    exact State.bringUp_of_disabled (hports ⟨p, List.mem_range.mp hp⟩)
  exact congrArg Host.Outcome.next hfold

/-! ### Sensors and the budget state -/

theorem State.toFloor_eq (s : State) : ∃ c, s.toFloor = { s with clk := { s.clk with change := c } } := by
  unfold State.toFloor
  split
  · exact ⟨_, rfl⟩
  · exact ⟨_, rfl⟩

/-- F_FLOOR is in force: neither a change nor its hold stands (21 Table 21.10). -/
def State.atFloor (s : State) : Bool := s.clk.fstep == s.power.set.fFloor && s.clk.change.isNone && !(s.clk.holds.contains .frequency)

/-- The sensor block after a sample (R481). -/
def State.sampled (s : State) (tmax : Byte) (p1 p2 : BitVec 12) (v current : BitVec 17) : State :=
  s.updPower (fun p => { p with
    tmax := tmax.toNat, p1ms := p1.toNat, p1s := p2.toNat, vmainMv := v.toNat, currentMa := current.toNat
    overCount := if 42000 < current.toNat then p.overCount + 1 else 0
    hotCount := if 105 ≤ tmax.toNat ∧ s.atFloor then p.hotCount + 1 else 0
    emergency := p.emergency || decide (105 ≤ tmax.toNat), clearCount := if 100 ≤ tmax.toNat then 0 else p.clearCount })

section
variable {tmax : Byte} {p1 p2 : BitVec 12} {v current : BitVec 17}

/-- A sample with a current in range: the supply is not at fault. -/
theorem exec_sensorSample_inRange (hvaux : s.power.vaux = true) (hpass : s.passThrough = false) (hcurrent : current.toNat ≤ 42000) :
    exec (.sensorSample tmax p1 p2 v current) s = .next (
      if 110 ≤ tmax.toNat ∨ 1001 ≤ (s.sampled tmax p1 p2 v current).power.hotCount ∨ (105 ≤ tmax.toNat ∧ s.fixedStep) then
        (s.sampled tmax p1 p2 v current).thermalOff
      else if decide (105 ≤ tmax.toNat) && !s.power.emergency then (s.sampled tmax p1 p2 v current).toFloor
      else s.sampled tmax p1 p2 v current) := by
  have hover : (s.sampled tmax p1 p2 v current).power.overCount = 0 := if_neg (Nat.not_lt.mpr hcurrent)
  show execSensorSample tmax p1 p2 v current s = _
  unfold execSensorSample
  rw [if_neg (by simp [hvaux])]
  show (if s.passThrough then _ else if 11 ≤ (s.sampled tmax p1 p2 v current).power.overCount then _ else
    if 110 ≤ tmax.toNat ∨ 1001 ≤ (s.sampled tmax p1 p2 v current).power.hotCount ∨ (105 ≤ tmax.toNat ∧ s.fixedStep) then
      Host.Outcome.next (s.sampled tmax p1 p2 v current).thermalOff else _) = _
  rw [if_neg (by simp [hpass]), if_neg (by omega)]
  exact (apply_ite Host.Outcome.next ..).symm

/-- The sensor block holds the sample (R481). -/
def State.Held (t : State) (tmax : Byte) (p1 p2 : BitVec 12) (v current : BitVec 17) : Prop :=
  t.power.tmax = tmax.toNat ∧ t.power.p1ms = p1.toNat ∧ t.power.p1s = p2.toNat ∧ t.power.vmainMv = v.toNat ∧
    t.power.currentMa = current.toNat

theorem State.sampled_cool (hcool : ¬(105 ≤ tmax.toNat ∧ s.atFloor = true)) : (s.sampled tmax p1 p2 v current).power.hotCount = 0 :=
  if_neg hcool

theorem exec_sensorSample_cool (hvaux : s.power.vaux = true) (hpass : s.passThrough = false) (ht : tmax.toNat < 105)
    (hcurrent : current.toNat ≤ 42000) : ∃ t, exec (.sensorSample tmax p1 p2 v current) s = .next t ∧ t.Held tmax p1 p2 v current ∧
      t = { s with power := t.power } := by
  have hhot : (s.sampled tmax p1 p2 v current).power.hotCount = 0 := State.sampled_cool (by omega)
  rw [exec_sensorSample_inRange hvaux hpass hcurrent, hhot, if_neg (by omega), if_neg (by simp; omega)]
  exact ⟨_, rfl, ⟨rfl, rfl, rfl, rfl, rfl⟩, rfl⟩

/-- 105 °C is a thermal emergency, which asks for F_FLOOR (R490, Table 21.10). -/
theorem exec_sensorSample_hot (hvaux : s.power.vaux = true) (hpass : s.passThrough = false) (ht : 105 ≤ tmax.toNat)
    (hlt : tmax.toNat < 110) (hcurrent : current.toNat ≤ 42000) (hnew : s.power.emergency = false) (hfree : s.fixedStep = false)
    (hfloor : s.power.set.fFloor < s.clk.fstep) : ∃ t, exec (.sensorSample tmax p1 p2 v current) s = .next t ∧
      t.Held tmax p1 p2 v current ∧ t.power.emergency = true ∧ t = { s with
        power := t.power, clk := { s.clk with change := some ((s.clk.tick + 8 + 4095) / 4096 * 4096, s.power.set.fFloor) } } := by
  have hat : s.atFloor = false := by
    have hne : (s.clk.fstep == s.power.set.fFloor) = false := by simp; omega
    rw [State.atFloor, hne]
    rfl
  have hhot : (s.sampled tmax p1 p2 v current).power.hotCount = 0 := State.sampled_cool (by simp [hat])
  rw [exec_sensorSample_inRange hvaux hpass hcurrent, hhot, if_neg (by simp [hfree]; omega), if_pos (by simp [ht, hnew]), State.toFloor,
    if_pos (by exact hfloor)]
  exact ⟨_, rfl, ⟨rfl, rfl, rfl, rfl, rfl⟩, by simp [State.decideFreq, State.sampled, State.updPower, State.updClk, ht], rfl⟩

/-- 110 °C ends in pass-through mode (R492). -/
theorem exec_sensorSample_over (hvaux : s.power.vaux = true) (hpass : s.passThrough = false) (ht : 110 ≤ tmax.toNat)
    (hcurrent : current.toNat ≤ 42000) (hlive : s.liveSlots = []) (hrun : s.maint.running = 0) :
    ∃ t, exec (.sensorSample tmax p1 p2 v current) s = .next t ∧ t.passThrough = true ∧ s.Dead t := by
  let q : State := { s.sampled tmax p1 p2 v current with free := s.free + 1 }
  obtain ⟨fl, fc, fr, fs, o, m, h⟩ := State.faultToPassThrough (s := q) hpass hlive hrun 0x0061 0x0061
    (1 + (Config.freeWord 8 s.free).toNat % 12) 4 0xFFFF 0xFFFF 0
  have hoff : (s.sampled tmax p1 p2 v current).thermalOff = { q.loseCompute with
      faultLog := fl, faultCount := fc, free := fr, funcs := fs, out := o, maint := m, passThrough := true } := by
    unfold State.thermalOff
    rw [if_neg (by rw [show (s.sampled tmax p1 p2 v current).passThrough = s.passThrough from rfl, hpass]; exact Bool.false_ne_true)]
    exact h
  rw [exec_sensorSample_inRange hvaux hpass hcurrent, if_pos (.inl ht), hoff]
  exact ⟨_, rfl, rfl, ⟨rfl, rfl, rfl, rfl⟩, rfl, rfl⟩

end

/-- A P_1ms at PL_PEAK or above takes the power part-state to 7 (R484, Table 21.6). -/
theorem Power.evaluate_peak {p : Power} (hpeak : p.set.plPeak ≤ p.p1ms) (hval : p.partP.val ≤ 7) :
    p.evaluate.partP.val = 7 ∧ 7 ≤ p.evaluate.budget := by
  have hmeets (n : Nat) (hn : n ≤ 100) : n * p.set.plPeak ≤ 100 * p.p1ms := Nat.mul_le_mul hn hpeak
  have hseven : p.evaluate.partP.val = 7 := by
    have hall : (powerSteps.filter (fun n => decide (n * p.set.plPeak ≤ 100 * p.p1ms) ||
        decide (n * p.set.plSust ≤ 100 * p.p1s))) = powerSteps := by
      rw [List.filter_eq_self]
      intro n hn
      have hle : n ≤ 100 := (by decide : ∀ n ∈ powerSteps, n ≤ 100) n hn
      simp [hmeets n hle]
    show (p.partP.eval powerSteps 2 _ false).val = 7
    unfold PartState.eval
    dsimp only
    rw [if_neg Bool.false_ne_true, hall]
    have hlen : powerSteps.length = 7 := rfl
    rw [hlen]
    split
    · rfl
    next hge =>
      have hseven : p.partP.val = 7 := by omega
      rw [if_pos]
      · exact hseven
      · rw [hseven]
        exact .inr (.inr (by simpa [powerSteps] using .inl (hmeets 98 (by decide))))
  have hmax : p.evaluate.budget = max p.evaluate.partP.val (max p.evaluate.partT.val p.evaluate.partS.val) := rfl
  omega

/-- An evaluation gives the budget state, and may ask for F_FLOOR (R484, Table 21.10). -/
theorem exec_budgetEvaluation_spec (hvaux : s.power.vaux = true) : ∃ e n c, exec .budgetEvaluation s = .next { s with
    power := { s.power.evaluate with emergency := e, clearCount := n }, clk := { s.clk with change := c } } := by
  have hpeak (peak : Bool) : ∃ e n, (if peak then (s.updPower Power.evaluate).updPower (fun p => { p with emergency := true, clearCount := 0 })
      else s.updPower Power.evaluate) = { s with power := { s.power.evaluate with emergency := e, clearCount := n } } := by
    split
    · exact ⟨_, _, rfl⟩
    · exact ⟨_, _, rfl⟩
  show ∃ e n c, execBudgetEvaluation s = _
  unfold execBudgetEvaluation
  rw [if_neg (by simp [hvaux])]
  dsimp only
  obtain ⟨e, n, h⟩ := hpeak (decide (105 * s.power.evaluate.set.plPeak < 100 * s.power.evaluate.p1ms))
  rw [show (s.updPower Power.evaluate).power = s.power.evaluate from rfl, h]
  obtain ⟨c, hc⟩ := State.toFloor_eq { s with power := { s.power.evaluate with emergency := e, clearCount := n } }
  rw [hc]
  split
  · exact ⟨_, _, _, rfl⟩
  · exact ⟨_, _, s.clk.change, rfl⟩

end

/-! ### The obligation -/

/-- Settles O21: each event of the supplies, the rails, the sensors and the budget state, with its next state. -/
theorem powerComplete : Obligations.PowerComplete := by
  unfold Obligations.PowerComplete
  intro s
  refine ⟨?cold, ?noted, ?vana, ?vmain, ?ungate, ?vaux, ?vanaFail, ?under, ?stage, ?trip, ?loss, ?back, ?sample, ?budget⟩
  case cold =>
    intro slotId bootMode bad
    obtain ⟨t, hexec, hboots⟩ := exec_coldStart (s := s) slotId bootMode bad
    obtain ⟨hrest, hlog, hbytes, hslot, hmode, hvaux⟩ := hboots
    refine ⟨t, hexec, by rw [hrest]; rfl, by rw [hrest]; rfl, by rw [hrest]; rfl, by rw [hrest]; rfl, hvaux, hslot, hmode, by rw [hrest]; rfl,
      fun hbad hverifies hgrade => ?_, by rw [hrest]; rfl, by rw [hrest]; rfl, by rw [hrest]; rfl, by rw [hrest]; rfl, by rw [hrest]; rfl,
      by rw [hrest]; rfl, by rw [hrest]; rfl, by rw [hrest]; rfl, hbytes⟩
    subst hbad
    exact hlog (State.failing_nil hverifies hgrade)
  case noted =>
    exact fun h1 h2 => ⟨congrArg Host.Outcome.next (State.startOn_stays (s := s.updPower (fun p => { p with vana := true })) h1 h2),
      congrArg Host.Outcome.next (State.startOn_stays (s := s.updPower (fun p => { p with vmain := true })) h1 h2)⟩
  case vana => exact exec_vanaGood_waits
  case vmain =>
    exact fun horder hvaux hpwr hrec hbad hmode htrip =>
      ⟨s.allRails, exec_vmainGood_starts horder hvaux hpwr hrec hbad hmode htrip, s.allRails_spec⟩
  case ungate => exact fun course group tests => exec_courseUngate_next
  case vaux => exact ⟨_, rfl, ⟨⟨rfl, rfl, rfl, rfl⟩, rfl, rfl⟩, rfl, rfl, rfl, rfl, rfl, rfl, rfl, rfl, rfl⟩
  case vanaFail => exact ⟨_, rfl, ⟨⟨rfl, rfl, rfl, rfl⟩, rfl, rfl⟩, rfl, rfl, rfl, rfl, rfl, rfl, rfl, rfl⟩
  case under => exact ⟨_, rfl, ⟨⟨rfl, rfl, rfl, rfl⟩, rfl, rfl⟩, rfl, rfl, rfl, rfl, rfl, rfl, rfl, rfl⟩
  case stage => exact fun hpass hlive hrun => exec_converterStageFault hpass hlive hrun
  case trip => exact exec_thermtrip_trips
  case loss => exact exec_refclkLoss_idle
  case back => exact exec_refclkReturn_disabled
  case sample =>
    exact fun hvaux hpass tmax p1 p2 v current => ⟨exec_sensorSample_cool hvaux hpass, exec_sensorSample_hot hvaux hpass,
      exec_sensorSample_over hvaux hpass⟩
  case budget =>
    intro hvaux _
    obtain ⟨e, n, c, h⟩ := exec_budgetEvaluation_spec hvaux
    exact ⟨_, h, rfl, Power.evaluate_peak, rfl⟩

end Sys2Proof.Machine
end
